-- ==== Sys2Proof/Word.lean ====
section
/-! DEFINITION. The word types of the LM8 and their plainest arithmetic. -/

namespace Sys2Proof

/-- A byte of a buffer, a plane or memory. -/
abbrev Byte := BitVec 8

/-- A scalar register or special register (R51, R52). -/
abbrev W64 := BitVec 64

/-- A 32-bit instruction word (R33). -/
abbrev Word := BitVec 32

/-- An instruction address: packet [14:2], slot [1:0] (R34). -/
abbrev IAddr := BitVec 15

/-- A whole vector register, 64 lanes of 32 bits as one number (R148). -/
abbrev VWord := BitVec 2048

/-- A scalar or vector register number (R40). -/
abbrev Reg := BitVec 5

/-- A steer register number, 0..11 (R40, R42). -/
abbrev GIdx := BitVec 4

/-- The last byte address of every physical access lies below 2^56 (R248). -/
abbrev PAddr := Nat

end Sys2Proof
end

