-- ==== Sys2Proof/Syntax.lean ====
section
/-! DEFINITION. The LM8's instructions: one constructor for every row of the opcode table, which lists the
instruction words (R39 to R45), the words of the memory sequencer (R47) and the steps of the part that are no words
(95_what_each_step_holds.md). Bit 31 of a word, the link bit, belongs to the bundle and not to the instruction. -/

namespace Sys2Proof

/-- Lane types of VR words (R41, TYPE). -/
inductive VTy where
  | i32 | n32 | f32 | bf16x2 | f16x2 | i16x2 | i8x4 | ax
  deriving DecidableEq, Repr, Inhabited

/-- Buffer spaces (R41, SPACE). -/
inductive Space where
  | a | w | c | k
  deriving DecidableEq, Repr, Inhabited

/-- Access sizes of MB words (R41, SIZE). -/
inductive Size where
  | b | h | w | d
  deriving DecidableEq, Repr, Inhabited

/-- Scopes (R5, R41). -/
inductive Scope where
  | tile | cluster | die | partition | module | pod
  deriving DecidableEq, Repr, Inhabited

/-- Scalar compare conditions (R78). -/
inductive Cond where
  | eq | ne | lt | ge | le | gt | ltn | gen | len | gtn
  deriving DecidableEq, Repr, Inhabited

/-- Vector compare conditions (R159). -/
inductive VCond where
  | eq | ne | lt | le
  deriving DecidableEq, Repr, Inhabited

/-- Atomic and reduction operations (R223). -/
inductive AmoOp where
  | add | faddF32 | faddBf16x2 | min | max | minn | maxn | swap | cas | and | or | xor
  deriving DecidableEq, Repr, Inhabited

/-- Causes of an elastic stall (R22), in the order of their numbers. -/
inductive StallCause where
  | land | recv | sync | xlat | fabric | engine | leave | misc
  deriving DecidableEq, Repr, Inhabited

/-- A word's error state as an access or the scrubber finds it (R257, R258). -/
inductive EccErr where
  | none | single | double
  deriving DecidableEq, Repr, Inhabited

/-- How an access to a word with an error ends: a single-bit error corrected in line; a double-bit one gone at the retry, or
lasting (R121, R257). -/
inductive EccEnd where
  | corrected | transient | lasting
  deriving DecidableEq, Repr, Inhabited

/-- The SRAM or HBM4 place whose error an event concerns (R257, R258): a line of a buffer, a block of memory, a line of a tile's
instruction planes or of its array, a line of a die's memory sequencer store. -/
inductive EccPlace where
  | sram (core : Nat) (space : Space) (line : Nat)
  | hbm (block : Nat)
  | iplane (core line : Nat)
  | array (core line : Nat)
  | seq (die line : Nat)
  deriving DecidableEq, Repr, Inhabited

/-- Where an arriving message comes from (R26, R307): the pending send of a tile of this module, or a far tile, whose message
names the partition and the rank it is for and carries its own (ACC, PART, RANK) in the places of R306; `key`: the key identifier
of its flits, none where they carry none (R338). -/
inductive Arrival where
  | sent (sender : Nat) (id : Nat)
  | far (key : Option Nat) (part : BitVec 6) (rank : BitVec 8) (src : BitVec 24) (stamp : BitVec 26) (bytes : List Byte)
  deriving DecidableEq, Repr, Inhabited

/-- A message or a slot return of a traverse on another module as it comes in: the key identifier of its flits, none where they carry
none (R338), and the bytes of a message. -/
structure FarItem where
  key : Option Nat
  bytes : List Byte
  deriving DecidableEq, Repr, Inhabited

/-- A firmware slot of the flash (R349): version, image, signature. -/
structure FwSlot where
  version : Nat
  image : List Byte
  signature : List Byte
  deriving DecidableEq, Repr, Inhabited

/-- The clock of the module on the network as its steward sets it (R341): the timing port (none: no port is active), the
domain number, whether it is the master, the calibrated asymmetry of ports in nanoseconds. -/
structure PtpCfg where
  port : Option Nat
  domain : BitVec 8
  master : Bool
  asym : List (Nat × Int)
  deriving DecidableEq, Repr, Inhabited

/-- What happens to the servo (R340 to R342): a Sync of a domain on a port, with the offset its timestamps give in nanoseconds;
or the steward selects another setting. -/
inductive PtpEvent where
  | sync (port : Nat) (domain : BitVec 8) (offset : Int)
  | select (cfg : PtpCfg)
  deriving DecidableEq, Repr, Inhabited

/-- The module flash as the firmware finds it (R328, R331, R341, R349): the firmware slots, the personality map as the PGCTL value
of each group, the clock settings, first and number of the 4 KiB blocks of the memory range it gives the host. -/
structure Flash where
  slots : List FwSlot
  map : List (Nat × W64)
  ptp : PtpCfg
  hdmFirst : Nat
  hdmCount : Nat
  deriving DecidableEq, Repr, Inhabited

/-- The result of a training (R328, R333): its rate, and the ranges of a CXL root's decoders, one for each device, by first
address and bytes. -/
structure Trained where
  rate : BitVec 4
  decs : List (PAddr × Nat)
  deriving DecidableEq, Repr, Inhabited

/-- A doorbell of the mailbox as the host writes it (R344): the sequence number, the address of the record, LEN where the command
has no record, and ARG but for the bits that an operand gives. -/
structure Doorbell where
  seq : BitVec 32
  addr : W64
  len : BitVec 32
  arg : BitVec 32
  deriving DecidableEq, Repr, Inhabited

/-- What reaches a port group from outside (R291, R306, R308, R328 to R330, R335, R338, R339). A CXL.io request may be the host's
write of EVTAIL (R348). `binding` and `unbinding`: the steward of a peer binds or withdraws the traverse of its partition
(R291); `rebind`: it moves or withdraws a far tile (R308); `taken`: a far tile takes a message of a tile (R307); `ack` and
`replay`: the peer acknowledges its oldest flits, or asks for all others again (R339); `sent`: the peer first transmits a flit under a
key identifier, which is not acknowledged until it comes in (R339); `keyed`: a request with its key identifier, its bytes as
ciphertext (R338). -/
inductive Inbound where
  | cxlIo (evtail : Option (BitVec 32))
  | cxlMemRead (pa : PAddr) (n : Nat)
  | cxlMemWrite (pa : PAddr) (bytes : List Byte) (enables : List Bool)
  | ualRead (pa : PAddr) (n : Nat)
  | ualWrite (pa : PAddr) (bytes : List Byte) (enables : List Bool)
  | ualAtomic (op : AmoOp) (w4 : Bool) (pa : PAddr) (v : W64) (v2 : W64)
  | farTaken (part : BitVec 6) (rank : BitVec 8) (src : BitVec 24)
  | uetPacket (bytes : List Byte)
  | badKeyId
  | binding (acc : BitVec 10) (part : BitVec 6) (record : List Byte)
  | unbinding (acc : BitVec 10) (part : BitVec 6)
  | rebind (old : BitVec 24) (entry : W64)
  | ack (n : Nat)
  | replay
  | sent (id : Nat)
  | keyed (id : Nat) (req : Inbound)
  deriving DecidableEq, Repr, Inhabited

/-- A direction of a port group's link (R338). -/
inductive LinkDir where
  | tx | rx
  deriving DecidableEq, Repr, Inhabited

/-- The instructions and steps of the LM8, one constructor for each row of the opcode table. -/
inductive Instr where
  -- SR words (R70 to R74)
  | add (d a b : Reg) (w sp : Bool)
  | sub (d a b : Reg) (w sp : Bool)
  | mul (d a b : Reg) (w sp : Bool)
  | mulh (d a b : Reg) (w sp : Bool)
  | mulhn (d a b : Reg) (w sp : Bool)
  | div (d a b : Reg) (w sp : Bool)
  | divn (d a b : Reg) (w sp : Bool)
  | rem (d a b : Reg) (w sp : Bool)
  | remn (d a b : Reg) (w sp : Bool)
  | and (d a b : Reg) (w sp : Bool)
  | or (d a b : Reg) (w sp : Bool)
  | xor (d a b : Reg) (w sp : Bool)
  | andn (d a b : Reg) (w sp : Bool)
  | orn (d a b : Reg) (w sp : Bool)
  | shl (d a b : Reg) (w sp : Bool)
  | shr (d a b : Reg) (w sp : Bool)
  | sar (d a b : Reg) (w sp : Bool)
  | rol (d a b : Reg) (w sp : Bool)
  | ror (d a b : Reg) (w sp : Bool)
  | min (d a b : Reg) (w sp : Bool)
  | max (d a b : Reg) (w sp : Bool)
  | minn (d a b : Reg) (w sp : Bool)
  | maxn (d a b : Reg) (w sp : Bool)
  | clz (d a : Reg) (w sp : Bool)
  | ctz (d a : Reg) (w sp : Bool)
  | popc (d a : Reg) (w sp : Bool)
  | bfx (d a b : Reg) (w sp : Bool)
  | bfxn (d a b : Reg) (w sp : Bool)
  | bfi (d a b : Reg) (w sp : Bool)
  | csel (d a b : Reg) (g : GIdx)
  -- SI words (R75)
  | addi (sp : Bool) (d a : Reg) (imm : BitVec 12)
  | andi (sp : Bool) (d a : Reg) (imm : BitVec 12)
  | ori (sp : Bool) (d a : Reg) (imm : BitVec 12)
  | xori (sp : Bool) (d a : Reg) (imm : BitVec 12)
  | shli (sp : Bool) (d a : Reg) (n : BitVec 6)
  | shri (sp : Bool) (d a : Reg) (n : BitVec 6)
  | sari (sp : Bool) (d a : Reg) (n : BitVec 6)
  | muli (sp : Bool) (d a : Reg) (imm : BitVec 12)
  -- SU words (R76)
  | lui (d : Reg) (imm : BitVec 20)
  | aup (d : Reg) (imm : BitVec 20)
  -- CT words (R77 to R92)
  | cmp (g : GIdx) (a b : Reg) (cond : Cond) (w : Bool)
  | cmpi (g : GIdx) (imm : BitVec 9) (cond : Cond) (a : Reg)
  | tst (g : GIdx) (a b : Reg) (z w : Bool)
  | gand (g ga gb : GIdx)
  | gor (g ga gb : GIdx)
  | gxor (g ga gb : GIdx)
  | gnot (g ga : GIdx)
  | ptst (g : GIdx) (a : Reg)
  | prep (g : GIdx) (tgt : BitVec 15)
  | prepr (g : GIdx) (a : Reg)
  | br (g : GIdx)
  | brA (g : GIdx)
  | brf (g : GIdx)
  | brl (g : GIdx)
  | loop (a : Reg) (gr : Bool) (epk : BitVec 8) (esl : BitVec 2)
  | loopi (cnt : BitVec 7) (gr : Bool) (epk : BitVec 8) (esl : BitVec 2)
  | lbrk (g : GIdx) (n : BitVec 3)
  | sync (scope : Scope)
  | frame
  | waitt (a b : Reg)
  | nop
  | halt
  -- VR words (R154)
  | vadd (d a b : Reg) (ty : VTy) (sp : Bool) (md : BitVec 2)
  | vsub (d a b : Reg) (ty : VTy) (sp : Bool) (md : BitVec 2)
  | vmul (d a b : Reg) (ty : VTy) (sp : Bool) (md : BitVec 2)
  | vmulh (d a b : Reg) (ty : VTy) (sp : Bool)
  | vfma (d a b : Reg) (ty : VTy) (sp : Bool) (md : BitVec 2)
  | vfms (d a b : Reg) (ty : VTy) (sp : Bool) (md : BitVec 2)
  | vfnma (d a b : Reg) (ty : VTy) (sp : Bool) (md : BitVec 2)
  | vmin (d a b : Reg) (ty : VTy) (sp : Bool)
  | vmax (d a b : Reg) (ty : VTy) (sp : Bool)
  | vabs (d a : Reg) (ty : VTy) (sp : Bool) (md : BitVec 2)
  | vneg (d a : Reg) (ty : VTy) (sp : Bool) (md : BitVec 2)
  | vand (d a b : Reg) (sp : Bool)
  | vor (d a b : Reg) (sp : Bool)
  | vxor (d a b : Reg) (sp : Bool)
  | vandn (d a b : Reg) (sp : Bool)
  | vshl (d a b : Reg) (ty : VTy) (sp md : Bool)
  | vshr (d a b : Reg) (ty : VTy) (sp md : Bool)
  | vsar (d a b : Reg) (ty : VTy) (sp md : Bool)
  | vcmp (d a b : Reg) (ty : VTy) (sp : Bool) (cond : VCond)
  | vbc (d a b : Reg) (ty : VTy) (sp md : Bool)
  | vxt (d a b : Reg) (ty : VTy) (sp md : Bool)
  | vlid (d : Reg) (ty : VTy) (sp : Bool)
  | vrot (d a b : Reg) (ty : VTy) (sp md : Bool)
  | vperm (d a b : Reg) (ty : VTy) (sp : Bool)
  | vrsum (d a : Reg) (ty : VTy) (sp : Bool) (md : BitVec 2)
  | vrmax (d a : Reg) (ty : VTy) (sp : Bool)
  | vrmin (d a : Reg) (ty : VTy) (sp : Bool)
  | vrcp (d a : Reg) (ty : VTy) (sp : Bool)
  | vrsq (d a : Reg) (ty : VTy) (sp : Bool)
  | vex2 (d a : Reg) (ty : VTy) (sp : Bool)
  | vlg2 (d a : Reg) (ty : VTy) (sp : Bool)
  | vdot4 (d a b : Reg) (ty : VTy) (sp : Bool) (md : BitVec 2)
  | vpopc (d a : Reg) (ty : VTy) (sp : Bool)
  | vclz (d a : Reg) (ty : VTy) (sp : Bool)
  | vtacc (d a b : Reg) (ty : VTy) (sp : Bool)
  -- VX words (R167)
  | vsel (d a b vc : Reg)
  | vselB (d a b vc : Reg)
  | vcvt (d a src : Reg) (cf : BitVec 5) (sp md : Bool)
  | vbq (d a b : Reg) (fmt : BitVec 5) (sp md : Bool)
  | vbdq (d a : Reg) (fmt : BitVec 5) (sp md : Bool)
  | vbscl (d a b : Reg) (fmt : BitVec 5) (sp md : Bool)
  | vtunp (d a : Reg) (n : BitVec 5) (sp : Bool)
  | vpak (d a b : Reg) (wc : BitVec 5) (sp : Bool)
  | vupk (d a : Reg) (h wc : BitVec 5) (sp md : Bool)
  | vrng (d a b : Reg) (sp md : Bool)
  | vptst (d a : Reg)
  -- MB words (R204)
  | ld (space : Space) (r b : Reg) (size : Size) (off : BitVec 10)
  | st (space : Space) (r b : Reg) (size : Size) (off : BitVec 10)
  | vld (space : Space) (r b : Reg) (size : Size) (off : BitVec 10)
  | vst (space : Space) (r b : Reg) (size : Size) (off : BitVec 10)
  | vgat (space : Space) (r b : Reg) (size : Size) (vi : Reg) (sp : Bool)
  | vsct (space : Space) (r b : Reg) (size : Size) (vi : Reg)
  | vldb (space : Space) (r b : Reg) (size : Size) (off : BitVec 10)
  -- EX words (R181, R210 to R219)
  | cbdef (a b c : Reg) (inC : Bool) (n : BitVec 4)
  | cbadvP (a : Reg) (n : BitVec 4)
  | cbadvC (a : Reg) (n : BitVec 4)
  | cbadvPW (a : Reg) (n : BitVec 4)
  | cbadvCW (a : Reg) (n : BitVec 4)
  | cp (a b c : Reg) (t : BitVec 6)
  | cpg (a b c : Reg) (t : BitVec 6)
  | cpm (a b c : Reg) (t : BitVec 6)
  | mlds (a b c : Reg)
  | mswap
  | mmul (a b c : Reg) (cbf : Bool) (n : BitVec 4)
  | mmulc (a b c : Reg) (cbf : Bool) (n : BitVec 4)
  | mclr (a b : Reg)
  | snd (a b c : Reg)
  | rcv (a b : Reg) (sig : BitVec 6)
  | msq (a : Reg)
  -- GL words (R221 to R232)
  | ldg (d a : Reg) (sp : Bool) (win cls : BitVec 3)
  | stg (d a : Reg) (size : Size) (win : BitVec 3)
  | vldg (d a : Reg) (sp : Bool) (win cls : BitVec 3)
  | vstg (d a : Reg) (win : BitVec 3)
  | amo (d a : Reg) (w4 : Bool) (win : BitVec 3) (scope : Scope) (op : AmoOp)
  | red (d a : Reg) (w4 : Bool) (win : BitVec 3) (scope : Scope) (op : AmoOp)
  | lqpop (d : Reg)
  | tagw (t : BitVec 6)
  | tagwa (a : Reg)
  | tagff (t : BitVec 6)
  | tagclr (t : BitVec 6)
  | fenceAcq (scope : Scope)
  | fenceRel (scope : Scope)
  | fenceSc (scope : Scope)
  | drain (scope : Scope)
  | trig
  | coll (a : Reg)
  -- SY words (R93)
  | rdsr (d : Reg) (n : BitVec 16)
  | wrsr (a : Reg) (n : BitVec 16)
  | trap (k : BitVec 8)
  | tret
  | stop (k : BitVec 16)
  | swap
  | swapSteward (a : Reg)
  | ckpt (t : BitVec 6)
  | lsv (b : Reg) (off : BitVec 16)
  | lrs (b : Reg) (off : BitVec 16)
  -- SW words (R44)
  | stampAt (sig : BitVec 26)
  | stampHold (sig : BitVec 26)
  -- XT word (R43)
  | xt (e : BitVec 27)
  -- MSQ words (R47, R220), then the steps that are no words
  | xrd (areg : BitVec 4) (space : BitVec 2) (layout : BitVec 2) (tag : BitVec 6) (len : BitVec 16) (boff : BitVec 15) (sel : BitVec 3)
  | xwr (areg : BitVec 4) (space : BitVec 2) (tag : BitVec 6) (len : BitVec 16) (boff : BitVec 15) (sel : BitVec 5)
  | xset (kind : BitVec 2) (idx : BitVec 4) (value : BitVec 54)
  | xlp (count : BitVec 16) (back : BitVec 12) (areg : BitVec 4) (sreg : BitVec 4) (level : BitVec 2)
  | xwt (tile : BitVec 5) (tag : BitVec 6)
  | xsg (tile : BitVec 5) (tag : BitVec 6)
  | xend
  | hold
  | resultPerforms
  | variableLatencyReply (core : Nat) (id : Nat)
  | elasticStall (cause : StallCause)
  | haltLine (core : Nat)
  | stopRecord (core : Nat)
  | syncPost (core : Nat)
  | barrierRelease (core : Nat)
  | legEvaluation (part : BitVec 6)
  | run (part : BitVec 6)
  | done (part : BitVec 6)
  | traverseMessage (part : BitVec 6) (fwd : Bool) (far : Option FarItem)
  | slotReturn (part : BitVec 6) (down : Bool) (far : Option FarItem)
  | triggerPost (core : Nat)
  | planeFlip (part : BitVec 6)
  | copyComplete (core : Nat)
  | streamFire (core : Nat)
  | planeReady (core : Nat)
  | axUpdate (core : Nat)
  | msqTransferComplete (die : BitVec 3) (id : Nat)
  | collComplete (core : Nat) (id : Nat)
  | ckptComplete (core : Nat)
  | messageArrival (m : Arrival)
  | atomicOperation (core : Nat) (id : Nat)
  | reductionContribution (core : Nat) (id : Nat)
  | pageWalk (core : Nat)
  | invalidation (ctx : BitVec 16) (va : Nat) (size : Nat)
  | migration (ctx : BitVec 16) (va : Nat) (frame : Nat)
  | migrationRelease (ctx : BitVec 16) (va : Nat)
  | channelLending (die : BitVec 3) (channel : BitVec 6)
  | reclaim (die : BitVec 3) (channel : BitVec 6)
  | scrub (place : EccPlace) (err : EccErr) (lasting : Bool)
  | ueccRetry (core : Nat) (place : EccPlace) (fin : EccEnd)
  | refreshElision (region : Nat)
  | cellInsert (ringW : Bool) (strand : BitVec 3) (station : BitVec 3)
  | cellDelivery (ringW : Bool) (strand : BitVec 3) (station : BitVec 3) (bad : Bool)
  | cellReturn (ringW : Bool) (strand : BitVec 3) (station : BitVec 3)
  | rsvmWrite (idx : BitVec 7) (value : W64)
  | tstatErrClear (part : BitVec 6)
  | pgctlGo (group : BitVec 5) (value : W64)
  | pgctlClear (group : BitVec 5)
  | quiesced (group : BitVec 5)
  | drainTimeout (group : BitVec 5)
  | retraining (group : BitVec 5) (ok : Bool) (link : Trained)
  | keyRotation (group : BitVec 5) (dir : LinkDir) (key : List Byte)
  | oldKeyRelease (group : BitVec 5) (dir : LinkDir)
  | ptpSync (event : PtpEvent) (rate : Int)
  | syncLoss
  | ptcStep (sec : BitVec 48) (ns : BitVec 32)
  | leaveGrant (die : BitVec 3)
  | thermalLimit (die : BitVec 3) (budget : BitVec 32)
  | boot (flash : Flash) (minVersion : Nat)
  | launch (bell : Doorbell) (record : List Byte)
  | launchGroupRelease (lgrp : BitVec 16)
  | attest (bell : Doorbell) (request : List Byte)
  | evict (bell : Doorbell) (acc : BitVec 10) (accepted : Bool)
  | preempt (bell : Doorbell) (ctx : BitVec 16)
  | resume (bell : Doorbell) (ctx : BitVec 16) (record : List Byte)
  | contextRelease (ctx : BitVec 16)
  | endContext (bell : Doorbell) (ctx : BitVec 16)
  | status (bell : Doorbell) (ctx : BitVec 16) (addr : W64) (len : BitVec 32)
  | reload (bell : Doorbell) (arg : BitVec 32) (record : List Byte)
  | eventPost
  | mainRailsOff
  | inboundRequest (group : BitVec 5) (req : Inbound)
  | trickleCheckpoint (core : Nat)
  | auxiliaryRail (on : Bool)
  | collectiveAbandoned (group : BitVec 32)
  deriving DecidableEq, Repr, Inhabited

end Sys2Proof
end

