-- ==== Sys2Proof/Config.lean ====
section
/-! DEFINITION. What the spec leaves to a part, to firmware, to the outside world or to an implementation: constants
without a body, so that nothing can be proved of their values. -/

namespace Sys2Proof

/-- Who moves next. The model's own field (DESIGN CHOICE log 4): a core's next tile cycle, a word of a memory sequencer slot, a
burst of one of its transfers, the performing of a remote store, the delivery of a K load's bytes, the reading or writing of bytes
by the copy engine, the writing of an engine's delivery by its tile, the arrival at its unit of what came in over a port group, the
progress of a collective of a group, a tile cycle of the wall clock, or one of the steps of the opcode table that are no words. -/
inductive Turn where
  | core (n : Nat)
  | msq (d : BitVec 3) (k : Nat)
  | burst (d : BitVec 3) (id : Nat)
  | perform (n id : Nat)
  | kNet (n id : Nat)
  | copyRead (n : Nat)
  | copyUnit (n : Nat)
  | take (n : Nat)
  | inbound (tid : Nat)
  | coll (num : Nat)
  | wall
  | evt (i : Instr)
  deriving DecidableEq, Repr, Inhabited

namespace Config

/-- Who moves in turn `n` when the agenda is empty: the wall clock, other cores, engines, the outside world (DESIGN CHOICE log 4).
-/
opaque freeTurn (n : Nat) : Turn

/-- How the calibration divides the power of the part among its dies: a number from which the share of die `d` is cut
(R343, R354; DESIGN CHOICE log 3). -/
opaque share (d : Nat) : Nat

/-- The power given to the dies below die `d`, in mW: rising from 0 to the 6.0 kW of the part (R2, R354). -/
def powerBelow : Nat → Nat
  | 0 => 0
  | d + 1 => if 7 ≤ d then 6000000 else max (powerBelow d) (min 6000000 (share d))

/-- The power budget of die `d` as calibrated, in mW; the budgets of the eight dies add up to 6.0 kW (R2, R343, R354). -/
def budget (d : Nat) : BitVec 32 := BitVec.ofNat 32 (powerBelow (d + 1) - powerBelow d)

/-- The size in mW of the leave of an array command (R198): EX op, width or steps, paired or activation width, bytes that a
`cpm` copies (DESIGN CHOICE log 3). -/
opaque leave (op : BitVec 8) (x y n : Nat) : BitVec 32

/-- A byte read under key slot `k` where slot `k'` wrote it (R260: fixed but meaningless; DESIGN CHOICE log 8). -/
opaque scramble (k k' : Nat) (pa : Nat) (b : Byte) : Byte

/-- Which of the results R162 allows an f32 approximation gives: a number of places from the first allowed one. A fixed
function of instruction, input and mode (R162; DESIGN CHOICE log 9). -/
opaque approx (op : Nat) (x : BitVec 32) (graded : Bool) : Nat

/-- SHAKE256 of a string, `n` bytes (R345, R350 to R352; DESIGN CHOICE log 10). -/
opaque shake256 (s : List Byte) (n : Nat) : List Byte

/-- Falcon-1024 verification under key number `k` (0 Chrozil root, 1 launch key; R345, R349; DESIGN CHOICE log 10). -/
opaque verify (k : Nat) (digest sig : List Byte) : Bool

/-- The Falcon-1024 key pair of a seed, public key and private key, and the signature under a private key, padded to 1,280
bytes (R350, R351; DESIGN CHOICE log 10). -/
opaque keyPair (seed : List Byte) : List Byte × List Byte
opaque sign (key msg : List Byte) : List Byte

/-- A flit or packet as link security makes it: ciphertext of bytes under a key and its identifier (R338, R339;
DESIGN CHOICE log 10). -/
opaque cipher (key : List Byte) (id : Nat) (bytes : List Byte) : List Byte

/-- The bytes that link security makes of the ciphertext of a flit or packet under a key and its identifier (R338; DESIGN CHOICE log
10). -/
opaque decipher (key : List Byte) (id : Nat) (bytes : List Byte) : List Byte

/-- ML-KEM-1024 encapsulation to a key with randomness `r`: shared secret and ciphertext (R351; DESIGN CHOICE log 10). -/
opaque encap (key : List Byte) (r : Nat) : List Byte × List Byte

/-- AES-256 key wrap and unwrap (R351, R352; DESIGN CHOICE log 10). -/
opaque wrap (key s : List Byte) : List Byte
opaque unwrap (key s : List Byte) : Option (List Byte)

/-- The PUF secret of the part, its response corrected with the helper data (R350, R352; DESIGN CHOICE log 10), and the module
serial (R350, R355). -/
opaque puf : List Byte
opaque serial : List Byte

/-- The identity key pair, made again at every boot from the PUF secret (R350). -/
def identity : List Byte × List Byte := keyPair (shake256 puf 64)

/-- The certificate that Chrozil signs over a serial and a public key, and that of this module (R350; DESIGN CHOICE log 10). -/
opaque certify (serial pub : List Byte) : List Byte
def cert : List Byte := certify serial identity.1

/-- Whether a port group is cabled to a module of the pod (R356; DESIGN CHOICE log 3). -/
opaque links (acc group : Nat) : Bool

/-- The port group that carries traverse messages to a module of the pod (R291; DESIGN CHOICE log 3). -/
opaque route (acc : Nat) : Nat

/-- A byte that comes from outside the module: byte `i` of delivery `k` (DESIGN CHOICE log 22). -/
opaque outside (k i : Nat) : Byte

/-- Element `i` of a broadcast whose ROOT is no rank of its group, for which the spec names no value (R232; DESIGN CHOICE
log 55). -/
opaque noRoot (root i : Nat) : Nat

/-- The module's number in its pod, 0..1023 (R329; DESIGN CHOICE log 3). -/
opaque accel : BitVec 10

end Config

end Sys2Proof
end

