-- ==== Sys2Proof/WellFormed.lean ====
section
/-! DEFINITION. Which instructions are well formed: the value limits that the word alone decides (R41, R42, R149). -/

namespace Sys2Proof

/-- A steer register is g0 to g11 (R42). -/
def steerOk (g : GIdx) : Bool := decide (g.toNat < 12)

/-- The integer lane types (R154). -/
def VTy.isInt : VTy → Bool
  | .i32 | .n32 | .i16x2 | .i8x4 => true
  | _ => false

/-- The floating-point lane types (R154). -/
def VTy.isFp : VTy → Bool
  | .f32 | .bf16x2 | .f16x2 => true
  | _ => false

/-- The accumulator type. -/
def VTy.isAx : VTy → Bool
  | .ax => true
  | _ => false

/-- MOD of an arithmetic instruction: any on floating point, 0 or 1 on integers and ax (R151). -/
def modOk (ty : VTy) (md : BitVec 2) : Bool := ty.isFp || decide (md.toNat < 2)

/-- The types of `vabs` and `vneg` with their MOD (R154). -/
def signOk (ty : VTy) (md : BitVec 2) : Bool :=
  match ty with
  | .i32 | .i16x2 | .i8x4 | .ax => decide (md.toNat < 2)
  | .f32 | .bf16x2 | .f16x2 => md == 0
  | .n32 => false

/-- The types of `vdot4` with their MOD (R154). -/
def dotOk (ty : VTy) (md : BitVec 2) : Bool :=
  match ty with
  | .i8x4 | .i16x2 => decide (md.toNat < 2)
  | .bf16x2 => true
  | _ => false

/-- The block formats B2 to B8 (R126). -/
def blockFmt (f : BitVec 5) : Bool := decide (13 ≤ f.toNat) && decide (f.toNat ≤ 19)

/-- The source and destination of `vcvt` (R169). -/
def cvtOk (src cf : BitVec 5) (md : Bool) : Bool :=
  if md then (decide (src.toNat ≤ 1) && decide (cf.toNat ≤ 11)) || (src == 2 && decide (cf.toNat ≤ 2))
  else decide (src.toNat ≤ 11) && decide (cf.toNat ≤ 11)

/-- A slot field of 3 is no address (R34). -/
def slotOk (s : BitVec 2) : Bool := s != 3

/-- An even register number (R204, R223). -/
def evenReg (r : Reg) : Bool := decide (r.toNat % 2 = 0)

/-- Size rule of an atomic: the floating-point additions have no 8-byte form (R223). -/
def amoOk (op : AmoOp) (w4 : Bool) : Bool :=
  match op with
  | .faddF32 | .faddBf16x2 => w4
  | _ => true

/-- Well formed: every field holds a value the spec does not reserve. -/
def Instr.wf : Instr → Bool
  | .csel _ _ _ g => steerOk g
  | .cmp g _ _ _ _ => steerOk g
  | .cmpi g _ _ _ => steerOk g
  | .tst g _ _ _ _ => steerOk g
  | .gand g ga gb => steerOk g && steerOk ga && steerOk gb
  | .gor g ga gb => steerOk g && steerOk ga && steerOk gb
  | .gxor g ga gb => steerOk g && steerOk ga && steerOk gb
  | .gnot g ga => steerOk g && steerOk ga
  | .ptst g _ => steerOk g
  | .prep g t => steerOk g && decide (t.toNat % 4 ≠ 3)
  | .prepr g _ => steerOk g
  | .br g => steerOk g
  | .brA g => steerOk g
  | .brf g => steerOk g
  | .brl g => steerOk g
  | .loop _ _ _ esl => slotOk esl
  | .loopi _ _ _ esl => slotOk esl
  | .lbrk g n => steerOk g && decide (1 ≤ n.toNat) && decide (n.toNat ≤ 6)
  | .vadd _ _ _ ty _ md => modOk ty md
  | .vsub _ _ _ ty _ md => modOk ty md
  | .vmul _ _ _ ty _ md => !ty.isAx && modOk ty md
  | .vmulh _ _ _ ty _ => ty.isInt
  | .vfma _ _ _ ty _ _ => ty.isFp
  | .vfms _ _ _ ty _ _ => ty.isFp
  | .vfnma _ _ _ ty _ _ => ty.isFp
  | .vabs _ _ ty _ md => signOk ty md
  | .vneg _ _ ty _ md => signOk ty md
  | .vshl _ _ _ ty _ _ => !ty.isFp
  | .vshr _ _ _ ty _ _ => !ty.isFp
  | .vsar _ _ _ ty _ _ => !ty.isFp
  | .vcmp _ _ _ ty _ _ => !ty.isAx
  | .vlid _ ty _ => !ty.isFp
  | .vperm _ _ _ ty _ => !ty.isFp
  | .vrsum _ _ ty _ md => ty.isFp || md == 0
  | .vrcp _ _ ty _ => ty.isFp
  | .vrsq _ _ ty _ => ty.isFp
  | .vex2 _ _ ty _ => ty.isFp
  | .vlg2 _ _ ty _ => ty.isFp
  | .vdot4 _ _ _ ty _ md => dotOk ty md
  | .vpopc _ _ ty _ => !ty.isFp
  | .vclz _ _ ty _ => !ty.isFp
  | .vtacc _ _ _ ty _ => ty == .i8x4 || ty == .i16x2
  | .vcvt _ _ src cf _ md => cvtOk src cf md
  | .vbq _ _ _ fmt _ _ => blockFmt fmt
  | .vbdq _ _ fmt _ _ => blockFmt fmt
  | .vbscl _ _ _ fmt _ _ => blockFmt fmt
  | .vtunp _ _ n _ => decide (n.toNat ≤ 4)
  | .vpak _ _ b wc _ => decide (wc.toNat ≤ 3) || (wc == 4 && b == 0)
  | .vupk _ _ h wc _ _ => (decide (wc.toNat ≤ 3) && decide (h.toNat ≤ 1)) || (wc == 4 && h == 0)
  | .vrng _ _ b _ md => !md || b == 0
  | .vld _ r _ size _ => size != .d || evenReg r
  | .vst _ r _ size _ => size != .d || evenReg r
  | .vgat space _ _ size _ _ => space != .k && size != .d
  | .vsct space _ _ size _ => space != .k && size != .d
  | .vldb space _ _ _ _ => space != .k
  | .mmul _ _ _ cbf n => cbf || n == 0
  | .mmulc _ _ _ cbf n => cbf || n == 0
  | .amo d _ w4 _ _ op => amoOk op w4 && (op != .cas || evenReg d)
  | .red _ _ w4 _ _ op => amoOk op w4 && op != .swap && op != .cas
  | .xrd _ space _ _ _ _ _ => space != 3
  | .xwr _ space _ _ _ _ => space != 3
  | .xset kind idx value => kind != 3 && (kind != 2 || (decide (idx.toNat < 8) && decide (value.toNat < 2 ^ 32)))
  | .xlp count back _ _ _ => count != 0 && back != 0
  | _ => true

end Sys2Proof
end

