-- ==== Sys2Proof/Decode.lean ====
section
/-! DEFINITION. Instruction words and memory sequencer words as bits: a decoder that is total and refuses by name, and
an encoder, both from the encodings of 03_encoding.md and the class tables. -/

namespace Sys2Proof

/-- Why a word is no instruction (R38 step 3, R41, R42, R45, R48). -/
inductive Reject where
  | reservedClass | reservedOp | reservedField
  deriving DecidableEq, Repr, Inhabited

/-- Bits `hi` to `lo` of a number. -/
def fld (w hi lo : Nat) : Nat := w / 2 ^ lo % 2 ^ (hi + 1 - lo)

/-- The `n` bits of a number from bit `lo` on. -/
def bv (n w lo : Nat) : BitVec n := BitVec.ofNat n (w / 2 ^ lo)

/-- Bit `lo` of a number. -/
def bit (w lo : Nat) : Bool := w / 2 ^ lo % 2 == 1

/-- The code of TYPE (R41). -/
def VTy.toNat : VTy → Nat
  | .i32 => 0
  | .n32 => 1
  | .f32 => 2
  | .bf16x2 => 3
  | .f16x2 => 4
  | .i16x2 => 5
  | .i8x4 => 6
  | .ax => 7

/-- TYPE (R41) from its code; none where it is reserved. -/
def VTy.ofNat? : Nat → Option VTy
  | 0 => some .i32
  | 1 => some .n32
  | 2 => some .f32
  | 3 => some .bf16x2
  | 4 => some .f16x2
  | 5 => some .i16x2
  | 6 => some .i8x4
  | 7 => some .ax
  | _ => none

/-- The code of SPACE (R41). -/
def Space.toNat : Space → Nat
  | .a => 0
  | .w => 1
  | .c => 2
  | .k => 3

/-- SPACE (R41) from its code; none where it is reserved. -/
def Space.ofNat? : Nat → Option Space
  | 0 => some .a
  | 1 => some .w
  | 2 => some .c
  | 3 => some .k
  | _ => none

/-- The code of SIZE (R41). -/
def Size.toNat : Size → Nat
  | .b => 0
  | .h => 1
  | .w => 2
  | .d => 3

/-- SIZE (R41) from its code; none where it is reserved. -/
def Size.ofNat? : Nat → Option Size
  | 0 => some .b
  | 1 => some .h
  | 2 => some .w
  | 3 => some .d
  | _ => none

/-- The code of SCOPE (R41). -/
def Scope.toNat : Scope → Nat
  | .tile => 0
  | .cluster => 1
  | .die => 2
  | .partition => 3
  | .module => 4
  | .pod => 5

/-- SCOPE (R41) from its code; none where it is reserved. -/
def Scope.ofNat? : Nat → Option Scope
  | 0 => some .tile
  | 1 => some .cluster
  | 2 => some .die
  | 3 => some .partition
  | 4 => some .module
  | 5 => some .pod
  | _ => none

/-- The code of COND of a scalar compare (R78). -/
def Cond.toNat : Cond → Nat
  | .eq => 0
  | .ne => 1
  | .lt => 2
  | .ge => 3
  | .le => 4
  | .gt => 5
  | .ltn => 6
  | .gen => 7
  | .len => 8
  | .gtn => 9

/-- COND of a scalar compare (R78) from its code; none where it is reserved. -/
def Cond.ofNat? : Nat → Option Cond
  | 0 => some .eq
  | 1 => some .ne
  | 2 => some .lt
  | 3 => some .ge
  | 4 => some .le
  | 5 => some .gt
  | 6 => some .ltn
  | 7 => some .gen
  | 8 => some .len
  | 9 => some .gtn
  | _ => none

/-- The code of COND of a vector compare (R159). -/
def VCond.toNat : VCond → Nat
  | .eq => 0
  | .ne => 1
  | .lt => 2
  | .le => 3

/-- COND of a vector compare (R159) from its code; none where it is reserved. -/
def VCond.ofNat? : Nat → Option VCond
  | 0 => some .eq
  | 1 => some .ne
  | 2 => some .lt
  | 3 => some .le
  | _ => none

/-- The code of the operation of an atomic (R223). -/
def AmoOp.toNat : AmoOp → Nat
  | .add => 0
  | .faddF32 => 1
  | .faddBf16x2 => 2
  | .min => 3
  | .max => 4
  | .minn => 5
  | .maxn => 6
  | .swap => 7
  | .cas => 8
  | .and => 9
  | .or => 10
  | .xor => 11

/-- the operation of an atomic (R223) from its code; none where it is reserved. -/
def AmoOp.ofNat? : Nat → Option AmoOp
  | 0 => some .add
  | 1 => some .faddF32
  | 2 => some .faddBf16x2
  | 3 => some .min
  | 4 => some .max
  | 5 => some .minn
  | 6 => some .maxn
  | 7 => some .swap
  | 8 => some .cas
  | 9 => some .and
  | 10 => some .or
  | 11 => some .xor
  | _ => none

/-- Words of class SR (R40, R45). -/
def decodeSR (w : Nat) : Option Instr :=
  match fld w 26 21 with
  | 0 => if fld w 3 0 == 0 then some (.add (bv 5 w 16) (bv 5 w 11) (bv 5 w 6) (bit w 5) (bit w 4)) else none
  | 1 => if fld w 3 0 == 0 then some (.sub (bv 5 w 16) (bv 5 w 11) (bv 5 w 6) (bit w 5) (bit w 4)) else none
  | 2 => if fld w 3 0 == 0 then some (.mul (bv 5 w 16) (bv 5 w 11) (bv 5 w 6) (bit w 5) (bit w 4)) else none
  | 3 => if fld w 3 0 == 0 then some (.mulh (bv 5 w 16) (bv 5 w 11) (bv 5 w 6) (bit w 5) (bit w 4)) else none
  | 4 => if fld w 3 0 == 0 then some (.mulhn (bv 5 w 16) (bv 5 w 11) (bv 5 w 6) (bit w 5) (bit w 4)) else none
  | 5 => if fld w 3 0 == 0 then some (.div (bv 5 w 16) (bv 5 w 11) (bv 5 w 6) (bit w 5) (bit w 4)) else none
  | 6 => if fld w 3 0 == 0 then some (.divn (bv 5 w 16) (bv 5 w 11) (bv 5 w 6) (bit w 5) (bit w 4)) else none
  | 7 => if fld w 3 0 == 0 then some (.rem (bv 5 w 16) (bv 5 w 11) (bv 5 w 6) (bit w 5) (bit w 4)) else none
  | 8 => if fld w 3 0 == 0 then some (.remn (bv 5 w 16) (bv 5 w 11) (bv 5 w 6) (bit w 5) (bit w 4)) else none
  | 9 => if fld w 3 0 == 0 then some (.and (bv 5 w 16) (bv 5 w 11) (bv 5 w 6) (bit w 5) (bit w 4)) else none
  | 10 => if fld w 3 0 == 0 then some (.or (bv 5 w 16) (bv 5 w 11) (bv 5 w 6) (bit w 5) (bit w 4)) else none
  | 11 => if fld w 3 0 == 0 then some (.xor (bv 5 w 16) (bv 5 w 11) (bv 5 w 6) (bit w 5) (bit w 4)) else none
  | 12 => if fld w 3 0 == 0 then some (.andn (bv 5 w 16) (bv 5 w 11) (bv 5 w 6) (bit w 5) (bit w 4)) else none
  | 13 => if fld w 3 0 == 0 then some (.orn (bv 5 w 16) (bv 5 w 11) (bv 5 w 6) (bit w 5) (bit w 4)) else none
  | 14 => if fld w 3 0 == 0 then some (.shl (bv 5 w 16) (bv 5 w 11) (bv 5 w 6) (bit w 5) (bit w 4)) else none
  | 15 => if fld w 3 0 == 0 then some (.shr (bv 5 w 16) (bv 5 w 11) (bv 5 w 6) (bit w 5) (bit w 4)) else none
  | 16 => if fld w 3 0 == 0 then some (.sar (bv 5 w 16) (bv 5 w 11) (bv 5 w 6) (bit w 5) (bit w 4)) else none
  | 17 => if fld w 3 0 == 0 then some (.rol (bv 5 w 16) (bv 5 w 11) (bv 5 w 6) (bit w 5) (bit w 4)) else none
  | 18 => if fld w 3 0 == 0 then some (.ror (bv 5 w 16) (bv 5 w 11) (bv 5 w 6) (bit w 5) (bit w 4)) else none
  | 19 => if fld w 3 0 == 0 then some (.min (bv 5 w 16) (bv 5 w 11) (bv 5 w 6) (bit w 5) (bit w 4)) else none
  | 20 => if fld w 3 0 == 0 then some (.max (bv 5 w 16) (bv 5 w 11) (bv 5 w 6) (bit w 5) (bit w 4)) else none
  | 21 => if fld w 3 0 == 0 then some (.minn (bv 5 w 16) (bv 5 w 11) (bv 5 w 6) (bit w 5) (bit w 4)) else none
  | 22 => if fld w 3 0 == 0 then some (.maxn (bv 5 w 16) (bv 5 w 11) (bv 5 w 6) (bit w 5) (bit w 4)) else none
  | 23 => if fld w 3 0 == 0 && fld w 10 6 == 0 then some (.clz (bv 5 w 16) (bv 5 w 11) (bit w 5) (bit w 4)) else none
  | 24 => if fld w 3 0 == 0 && fld w 10 6 == 0 then some (.ctz (bv 5 w 16) (bv 5 w 11) (bit w 5) (bit w 4)) else none
  | 25 => if fld w 3 0 == 0 && fld w 10 6 == 0 then some (.popc (bv 5 w 16) (bv 5 w 11) (bit w 5) (bit w 4)) else none
  | 26 => if fld w 3 0 == 0 then some (.bfx (bv 5 w 16) (bv 5 w 11) (bv 5 w 6) (bit w 5) (bit w 4)) else none
  | 27 => if fld w 3 0 == 0 then some (.bfxn (bv 5 w 16) (bv 5 w 11) (bv 5 w 6) (bit w 5) (bit w 4)) else none
  | 28 => if fld w 3 0 == 0 then some (.bfi (bv 5 w 16) (bv 5 w 11) (bv 5 w 6) (bit w 5) (bit w 4)) else none
  | 29 => if fld w 5 4 == 0 then some (.csel (bv 5 w 16) (bv 5 w 11) (bv 5 w 6) (bv 4 w 0)) else none
  | _ => none

/-- Words of class SI (R40, R45). -/
def decodeSI (w : Nat) : Option Instr :=
  match fld w 26 23 with
  | 0 => some (.addi (bit w 22) (bv 5 w 17) (bv 5 w 12) (bv 12 w 0))
  | 1 => some (.andi (bit w 22) (bv 5 w 17) (bv 5 w 12) (bv 12 w 0))
  | 2 => some (.ori (bit w 22) (bv 5 w 17) (bv 5 w 12) (bv 12 w 0))
  | 3 => some (.xori (bit w 22) (bv 5 w 17) (bv 5 w 12) (bv 12 w 0))
  | 4 => if fld w 11 6 == 0 then some (.shli (bit w 22) (bv 5 w 17) (bv 5 w 12) (bv 6 w 0)) else none
  | 5 => if fld w 11 6 == 0 then some (.shri (bit w 22) (bv 5 w 17) (bv 5 w 12) (bv 6 w 0)) else none
  | 6 => if fld w 11 6 == 0 then some (.sari (bit w 22) (bv 5 w 17) (bv 5 w 12) (bv 6 w 0)) else none
  | 7 => some (.muli (bit w 22) (bv 5 w 17) (bv 5 w 12) (bv 12 w 0))
  | _ => none

/-- Words of class SU (R40, R45). -/
def decodeSU (w : Nat) : Option Instr :=
  match fld w 21 20 with
  | 0 => some (.lui (bv 5 w 22) (bv 20 w 0))
  | 1 => some (.aup (bv 5 w 22) (bv 20 w 0))
  | _ => none

/-- Words of class CT (R40, R45). -/
def decodeCT (w : Nat) : Option Instr :=
  match fld w 26 22 with
  | 0 => if fld w 3 1 == 0 then (Cond.ofNat? (fld w 7 4)).bind fun cond => some (.cmp (bv 4 w 18) (bv 5 w 13) (bv 5 w 8) cond (bit w 0)) else none
  | 1 => (Cond.ofNat? (fld w 8 5)).bind fun cond => some (.cmpi (bv 4 w 18) (bv 9 w 9) cond (bv 5 w 0))
  | 2 => if fld w 6 1 == 0 then some (.tst (bv 4 w 18) (bv 5 w 13) (bv 5 w 8) (bit w 7) (bit w 0)) else none
  | 3 => if fld w 9 0 == 0 then some (.gand (bv 4 w 18) (bv 4 w 14) (bv 4 w 10)) else none
  | 4 => if fld w 9 0 == 0 then some (.gor (bv 4 w 18) (bv 4 w 14) (bv 4 w 10)) else none
  | 5 => if fld w 9 0 == 0 then some (.gxor (bv 4 w 18) (bv 4 w 14) (bv 4 w 10)) else none
  | 6 => if fld w 13 0 == 0 then some (.gnot (bv 4 w 18) (bv 4 w 14)) else none
  | 7 => if fld w 12 0 == 0 then some (.ptst (bv 4 w 18) (bv 5 w 13)) else none
  | 8 => if fld w 17 15 == 0 then some (.prep (bv 4 w 18) (bv 15 w 0)) else none
  | 9 => if fld w 12 0 == 0 then some (.prepr (bv 4 w 18) (bv 5 w 13)) else none
  | 10 => if fld w 17 0 == 0 then some (.br (bv 4 w 18)) else if fld w 17 0 == 1 then some (.brA (bv 4 w 18)) else none
  | 11 => if fld w 17 0 == 0 then some (.brf (bv 4 w 18)) else none
  | 12 => if fld w 17 0 == 0 then some (.brl (bv 4 w 18)) else none
  | 13 => if fld w 11 10 == 0 && fld w 21 18 == 0 then some (.loop (bv 5 w 13) (bit w 12) (bv 8 w 2) (bv 2 w 0)) else none
  | 14 => if fld w 21 18 == 0 then some (.loopi (bv 7 w 11) (bit w 10) (bv 8 w 2) (bv 2 w 0)) else none
  | 15 => if fld w 17 3 == 0 then some (.lbrk (bv 4 w 18) (bv 3 w 0)) else none
  | 16 => if fld w 21 3 == 0 then (Scope.ofNat? (fld w 2 0)).bind fun scope => some (.sync scope) else none
  | 17 => if fld w 21 0 == 0 then some .frame else none
  | 18 => if fld w 7 0 == 0 && fld w 21 18 == 0 then some (.waitt (bv 5 w 13) (bv 5 w 8)) else none
  | 19 => if fld w 21 0 == 0 then some .nop else none
  | 20 => if fld w 21 0 == 0 then some .halt else none
  | _ => none

/-- Words of class VR (R40, R45). -/
def decodeVR (w : Nat) : Option Instr :=
  match fld w 26 21 with
  | 0 => (VTy.ofNat? (fld w 5 3)).bind fun ty => some (.vadd (bv 5 w 16) (bv 5 w 11) (bv 5 w 6) ty (bit w 2) (bv 2 w 0))
  | 1 => (VTy.ofNat? (fld w 5 3)).bind fun ty => some (.vsub (bv 5 w 16) (bv 5 w 11) (bv 5 w 6) ty (bit w 2) (bv 2 w 0))
  | 2 => (VTy.ofNat? (fld w 5 3)).bind fun ty => some (.vmul (bv 5 w 16) (bv 5 w 11) (bv 5 w 6) ty (bit w 2) (bv 2 w 0))
  | 3 => if fld w 1 0 == 0 then (VTy.ofNat? (fld w 5 3)).bind fun ty => some (.vmulh (bv 5 w 16) (bv 5 w 11) (bv 5 w 6) ty (bit w 2)) else none
  | 4 => (VTy.ofNat? (fld w 5 3)).bind fun ty => some (.vfma (bv 5 w 16) (bv 5 w 11) (bv 5 w 6) ty (bit w 2) (bv 2 w 0))
  | 5 => (VTy.ofNat? (fld w 5 3)).bind fun ty => some (.vfms (bv 5 w 16) (bv 5 w 11) (bv 5 w 6) ty (bit w 2) (bv 2 w 0))
  | 6 => (VTy.ofNat? (fld w 5 3)).bind fun ty => some (.vfnma (bv 5 w 16) (bv 5 w 11) (bv 5 w 6) ty (bit w 2) (bv 2 w 0))
  | 7 => if fld w 1 0 == 0 then (VTy.ofNat? (fld w 5 3)).bind fun ty => some (.vmin (bv 5 w 16) (bv 5 w 11) (bv 5 w 6) ty (bit w 2)) else none
  | 8 => if fld w 1 0 == 0 then (VTy.ofNat? (fld w 5 3)).bind fun ty => some (.vmax (bv 5 w 16) (bv 5 w 11) (bv 5 w 6) ty (bit w 2)) else none
  | 9 => if fld w 10 6 == 0 then (VTy.ofNat? (fld w 5 3)).bind fun ty => some (.vabs (bv 5 w 16) (bv 5 w 11) ty (bit w 2) (bv 2 w 0)) else none
  | 10 => if fld w 10 6 == 0 then (VTy.ofNat? (fld w 5 3)).bind fun ty => some (.vneg (bv 5 w 16) (bv 5 w 11) ty (bit w 2) (bv 2 w 0)) else none
  | 11 => if fld w 1 0 == 0 && fld w 5 3 == 0 then some (.vand (bv 5 w 16) (bv 5 w 11) (bv 5 w 6) (bit w 2)) else none
  | 12 => if fld w 1 0 == 0 && fld w 5 3 == 0 then some (.vor (bv 5 w 16) (bv 5 w 11) (bv 5 w 6) (bit w 2)) else none
  | 13 => if fld w 1 0 == 0 && fld w 5 3 == 0 then some (.vxor (bv 5 w 16) (bv 5 w 11) (bv 5 w 6) (bit w 2)) else none
  | 14 => if fld w 1 0 == 0 && fld w 5 3 == 0 then some (.vandn (bv 5 w 16) (bv 5 w 11) (bv 5 w 6) (bit w 2)) else none
  | 15 => if fld w 1 1 == 0 then (VTy.ofNat? (fld w 5 3)).bind fun ty => some (.vshl (bv 5 w 16) (bv 5 w 11) (bv 5 w 6) ty (bit w 2) (bit w 0)) else none
  | 16 => if fld w 1 1 == 0 then (VTy.ofNat? (fld w 5 3)).bind fun ty => some (.vshr (bv 5 w 16) (bv 5 w 11) (bv 5 w 6) ty (bit w 2) (bit w 0)) else none
  | 17 => if fld w 1 1 == 0 then (VTy.ofNat? (fld w 5 3)).bind fun ty => some (.vsar (bv 5 w 16) (bv 5 w 11) (bv 5 w 6) ty (bit w 2) (bit w 0)) else none
  | 18 => (VTy.ofNat? (fld w 5 3)).bind fun ty => (VCond.ofNat? (fld w 1 0)).bind fun cond => some (.vcmp (bv 5 w 16) (bv 5 w 11) (bv 5 w 6) ty (bit w 2) cond)
  | 19 => if fld w 1 1 == 0 then (VTy.ofNat? (fld w 5 3)).bind fun ty => some (.vbc (bv 5 w 16) (bv 5 w 11) (bv 5 w 6) ty (bit w 2) (bit w 0)) else none
  | 20 => if fld w 1 1 == 0 then (VTy.ofNat? (fld w 5 3)).bind fun ty => some (.vxt (bv 5 w 16) (bv 5 w 11) (bv 5 w 6) ty (bit w 2) (bit w 0)) else none
  | 21 => if fld w 1 0 == 0 && fld w 15 6 == 0 then (VTy.ofNat? (fld w 5 3)).bind fun ty => some (.vlid (bv 5 w 16) ty (bit w 2)) else none
  | 22 => if fld w 1 1 == 0 then (VTy.ofNat? (fld w 5 3)).bind fun ty => some (.vrot (bv 5 w 16) (bv 5 w 11) (bv 5 w 6) ty (bit w 2) (bit w 0)) else none
  | 23 => if fld w 1 0 == 0 then (VTy.ofNat? (fld w 5 3)).bind fun ty => some (.vperm (bv 5 w 16) (bv 5 w 11) (bv 5 w 6) ty (bit w 2)) else none
  | 24 => if fld w 10 6 == 0 then (VTy.ofNat? (fld w 5 3)).bind fun ty => some (.vrsum (bv 5 w 16) (bv 5 w 11) ty (bit w 2) (bv 2 w 0)) else none
  | 25 => if fld w 1 0 == 0 && fld w 10 6 == 0 then (VTy.ofNat? (fld w 5 3)).bind fun ty => some (.vrmax (bv 5 w 16) (bv 5 w 11) ty (bit w 2)) else none
  | 26 => if fld w 1 0 == 0 && fld w 10 6 == 0 then (VTy.ofNat? (fld w 5 3)).bind fun ty => some (.vrmin (bv 5 w 16) (bv 5 w 11) ty (bit w 2)) else none
  | 27 => if fld w 1 0 == 0 && fld w 10 6 == 0 then (VTy.ofNat? (fld w 5 3)).bind fun ty => some (.vrcp (bv 5 w 16) (bv 5 w 11) ty (bit w 2)) else none
  | 28 => if fld w 1 0 == 0 && fld w 10 6 == 0 then (VTy.ofNat? (fld w 5 3)).bind fun ty => some (.vrsq (bv 5 w 16) (bv 5 w 11) ty (bit w 2)) else none
  | 29 => if fld w 1 0 == 0 && fld w 10 6 == 0 then (VTy.ofNat? (fld w 5 3)).bind fun ty => some (.vex2 (bv 5 w 16) (bv 5 w 11) ty (bit w 2)) else none
  | 30 => if fld w 1 0 == 0 && fld w 10 6 == 0 then (VTy.ofNat? (fld w 5 3)).bind fun ty => some (.vlg2 (bv 5 w 16) (bv 5 w 11) ty (bit w 2)) else none
  | 31 => (VTy.ofNat? (fld w 5 3)).bind fun ty => some (.vdot4 (bv 5 w 16) (bv 5 w 11) (bv 5 w 6) ty (bit w 2) (bv 2 w 0))
  | 32 => if fld w 1 0 == 0 && fld w 10 6 == 0 then (VTy.ofNat? (fld w 5 3)).bind fun ty => some (.vpopc (bv 5 w 16) (bv 5 w 11) ty (bit w 2)) else none
  | 33 => if fld w 1 0 == 0 && fld w 10 6 == 0 then (VTy.ofNat? (fld w 5 3)).bind fun ty => some (.vclz (bv 5 w 16) (bv 5 w 11) ty (bit w 2)) else none
  | 34 => if fld w 1 0 == 0 then (VTy.ofNat? (fld w 5 3)).bind fun ty => some (.vtacc (bv 5 w 16) (bv 5 w 11) (bv 5 w 6) ty (bit w 2)) else none
  | _ => none

/-- Words of class VX (R40, R45). -/
def decodeVX (w : Nat) : Option Instr :=
  match fld w 26 22 with
  | 0 => if fld w 1 0 == 0 then some (.vsel (bv 5 w 17) (bv 5 w 12) (bv 5 w 7) (bv 5 w 2)) else if fld w 1 0 == 1 then some (.vselB (bv 5 w 17) (bv 5 w 12) (bv 5 w 7) (bv 5 w 2)) else none
  | 1 => some (.vcvt (bv 5 w 17) (bv 5 w 12) (bv 5 w 7) (bv 5 w 2) (bit w 1) (bit w 0))
  | 2 => some (.vbq (bv 5 w 17) (bv 5 w 12) (bv 5 w 7) (bv 5 w 2) (bit w 1) (bit w 0))
  | 3 => if fld w 11 7 == 0 then some (.vbdq (bv 5 w 17) (bv 5 w 12) (bv 5 w 2) (bit w 1) (bit w 0)) else none
  | 4 => some (.vbscl (bv 5 w 17) (bv 5 w 12) (bv 5 w 7) (bv 5 w 2) (bit w 1) (bit w 0))
  | 5 => if fld w 0 0 == 0 && fld w 11 7 == 0 then some (.vtunp (bv 5 w 17) (bv 5 w 12) (bv 5 w 2) (bit w 1)) else none
  | 6 => if fld w 0 0 == 0 then some (.vpak (bv 5 w 17) (bv 5 w 12) (bv 5 w 7) (bv 5 w 2) (bit w 1)) else none
  | 7 => some (.vupk (bv 5 w 17) (bv 5 w 12) (bv 5 w 7) (bv 5 w 2) (bit w 1) (bit w 0))
  | 8 => if fld w 6 2 == 0 then some (.vrng (bv 5 w 17) (bv 5 w 12) (bv 5 w 7) (bit w 1) (bit w 0)) else none
  | 9 => if fld w 11 0 == 0 then some (.vptst (bv 5 w 17) (bv 5 w 12)) else none
  | _ => none

/-- Words of class MB (R40, R45). -/
def decodeMB (w : Nat) : Option Instr :=
  match fld w 26 24 with
  | 0 => (Space.ofNat? (fld w 23 22)).bind fun space => (Size.ofNat? (fld w 11 10)).bind fun size => some (.ld space (bv 5 w 17) (bv 5 w 12) size (bv 10 w 0))
  | 1 => (Space.ofNat? (fld w 23 22)).bind fun space => (Size.ofNat? (fld w 11 10)).bind fun size => some (.st space (bv 5 w 17) (bv 5 w 12) size (bv 10 w 0))
  | 2 => (Space.ofNat? (fld w 23 22)).bind fun space => (Size.ofNat? (fld w 11 10)).bind fun size => some (.vld space (bv 5 w 17) (bv 5 w 12) size (bv 10 w 0))
  | 3 => (Space.ofNat? (fld w 23 22)).bind fun space => (Size.ofNat? (fld w 11 10)).bind fun size => some (.vst space (bv 5 w 17) (bv 5 w 12) size (bv 10 w 0))
  | 4 => if fld w 4 1 == 0 then (Space.ofNat? (fld w 23 22)).bind fun space => (Size.ofNat? (fld w 11 10)).bind fun size => some (.vgat space (bv 5 w 17) (bv 5 w 12) size (bv 5 w 5) (bit w 0)) else none
  | 5 => if fld w 4 0 == 0 then (Space.ofNat? (fld w 23 22)).bind fun space => (Size.ofNat? (fld w 11 10)).bind fun size => some (.vsct space (bv 5 w 17) (bv 5 w 12) size (bv 5 w 5)) else none
  | 6 => (Space.ofNat? (fld w 23 22)).bind fun space => (Size.ofNat? (fld w 11 10)).bind fun size => some (.vldb space (bv 5 w 17) (bv 5 w 12) size (bv 10 w 0))
  | _ => none

/-- Words of class EX (R40, R45). -/
def decodeEX (w : Nat) : Option Instr :=
  match fld w 26 21 with
  | 0 => if fld w 5 5 == 0 then some (.cbdef (bv 5 w 16) (bv 5 w 11) (bv 5 w 6) (bit w 4) (bv 4 w 0)) else none
  | 1 => if fld w 15 4 == 0 then some (.cbadvP (bv 5 w 16) (bv 4 w 0)) else if fld w 15 4 == 1 then some (.cbadvC (bv 5 w 16) (bv 4 w 0)) else if fld w 15 4 == 2 then some (.cbadvPW (bv 5 w 16) (bv 4 w 0)) else if fld w 15 4 == 3 then some (.cbadvCW (bv 5 w 16) (bv 4 w 0)) else none
  | 2 => some (.cp (bv 5 w 16) (bv 5 w 11) (bv 5 w 6) (bv 6 w 0))
  | 3 => some (.cpg (bv 5 w 16) (bv 5 w 11) (bv 5 w 6) (bv 6 w 0))
  | 4 => some (.cpm (bv 5 w 16) (bv 5 w 11) (bv 5 w 6) (bv 6 w 0))
  | 5 => if fld w 5 0 == 0 then some (.mlds (bv 5 w 16) (bv 5 w 11) (bv 5 w 6)) else none
  | 6 => if fld w 20 0 == 0 then some .mswap else none
  | 7 => if fld w 4 4 == 0 then some (.mmul (bv 5 w 16) (bv 5 w 11) (bv 5 w 6) (bit w 5) (bv 4 w 0)) else none
  | 8 => if fld w 4 4 == 0 then some (.mmulc (bv 5 w 16) (bv 5 w 11) (bv 5 w 6) (bit w 5) (bv 4 w 0)) else none
  | 9 => if fld w 10 0 == 0 then some (.mclr (bv 5 w 16) (bv 5 w 11)) else none
  | 10 => if fld w 5 0 == 0 then some (.snd (bv 5 w 16) (bv 5 w 11) (bv 5 w 6)) else none
  | 11 => if fld w 10 6 == 0 then some (.rcv (bv 5 w 16) (bv 5 w 11) (bv 6 w 0)) else none
  | 12 => if fld w 15 0 == 0 then some (.msq (bv 5 w 16)) else none
  | _ => none

/-- Words of class GL (R40, R45). -/
def decodeGL (w : Nat) : Option Instr :=
  match fld w 26 22 with
  | 0 => if fld w 6 3 == 0 && fld w 10 10 == 0 then some (.ldg (bv 5 w 17) (bv 5 w 12) (bit w 11) (bv 3 w 7) (bv 3 w 0)) else none
  | 1 => if fld w 6 0 == 0 then (Size.ofNat? (fld w 11 10)).bind fun size => some (.stg (bv 5 w 17) (bv 5 w 12) size (bv 3 w 7)) else none
  | 2 => if fld w 6 3 == 0 && fld w 10 10 == 0 then some (.vldg (bv 5 w 17) (bv 5 w 12) (bit w 11) (bv 3 w 7) (bv 3 w 0)) else none
  | 3 => if fld w 6 0 == 0 && fld w 11 10 == 0 then some (.vstg (bv 5 w 17) (bv 5 w 12) (bv 3 w 7)) else none
  | 4 => if fld w 11 11 == 0 then (Scope.ofNat? (fld w 6 4)).bind fun scope => (AmoOp.ofNat? (fld w 3 0)).bind fun op => some (.amo (bv 5 w 17) (bv 5 w 12) (bit w 10) (bv 3 w 7) scope op) else none
  | 5 => if fld w 11 11 == 0 then (Scope.ofNat? (fld w 6 4)).bind fun scope => (AmoOp.ofNat? (fld w 3 0)).bind fun op => some (.red (bv 5 w 17) (bv 5 w 12) (bit w 10) (bv 3 w 7) scope op) else none
  | 6 => if fld w 16 0 == 0 then some (.lqpop (bv 5 w 17)) else none
  | 7 => if fld w 6 0 == 0 && fld w 21 13 == 0 then some (.tagw (bv 6 w 7)) else none
  | 8 => if fld w 11 0 == 0 && fld w 21 17 == 0 then some (.tagwa (bv 5 w 12)) else none
  | 9 => if fld w 6 0 == 0 && fld w 21 13 == 0 then some (.tagff (bv 6 w 7)) else none
  | 10 => if fld w 6 0 == 0 && fld w 21 13 == 0 then some (.tagclr (bv 6 w 7)) else none
  | 11 => if fld w 3 0 == 0 && fld w 21 7 == 0 then (Scope.ofNat? (fld w 6 4)).bind fun scope => some (.fenceAcq scope) else if fld w 3 0 == 1 && fld w 21 7 == 0 then (Scope.ofNat? (fld w 6 4)).bind fun scope => some (.fenceRel scope) else if fld w 3 0 == 2 && fld w 21 7 == 0 then (Scope.ofNat? (fld w 6 4)).bind fun scope => some (.fenceSc scope) else none
  | 12 => if fld w 3 0 == 0 && fld w 21 7 == 0 then (Scope.ofNat? (fld w 6 4)).bind fun scope => some (.drain scope) else none
  | 13 => if fld w 21 0 == 0 then some .trig else none
  | 14 => if fld w 11 0 == 0 && fld w 21 17 == 0 then some (.coll (bv 5 w 12)) else none
  | _ => none

/-- Words of class SY (R40, R45). -/
def decodeSY (steward : Bool) (w : Nat) : Option Instr :=
  match fld w 26 21 with
  | 0 => some (.rdsr (bv 5 w 16) (bv 16 w 0))
  | 1 => some (.wrsr (bv 5 w 16) (bv 16 w 0))
  | 2 => if fld w 20 8 == 0 then some (.trap (bv 8 w 0)) else none
  | 3 => if fld w 20 0 == 0 then some .tret else none
  | 4 => if fld w 20 16 == 0 then some (.stop (bv 16 w 0)) else none
  | 5 => if steward then (if fld w 15 0 == 0 then some (.swapSteward (bv 5 w 16)) else none) else (if fld w 20 0 == 0 then some .swap else none)
  | 6 => if fld w 20 6 == 0 then some (.ckpt (bv 6 w 0)) else none
  | 7 => some (.lsv (bv 5 w 16) (bv 16 w 0))
  | 8 => some (.lrs (bv 5 w 16) (bv 16 w 0))
  | _ => none

/-- Words of class SW (R40, R45). -/
def decodeSW (w : Nat) : Option Instr :=
  match fld w 26 26 with
  | 0 => some (.stampAt (bv 26 w 0))
  | 1 => some (.stampHold (bv 26 w 0))
  | _ => none

/-- Words of class XT (R40, R45). -/
def decodeXT (w : Nat) : Option Instr :=
  some (.xt (bv 27 w 0))

/-- A word's instruction by its fields alone, before the value checks of R41 and R42. -/
def decodeFields (steward : Bool) (w : Nat) : Option Instr :=
  match fld w 30 27 with
  | 0 => decodeSR w
  | 1 => decodeSI w
  | 2 => decodeSU w
  | 3 => decodeCT w
  | 4 => decodeVR w
  | 5 => decodeVX w
  | 6 => decodeMB w
  | 7 => decodeEX w
  | 8 => decodeGL w
  | 9 => decodeSY steward w
  | 10 => decodeSW w
  | 11 => decodeXT w
  | _ => none

/-- The instruction of a 32-bit word on a tile or on the steward, where the fields of `swap` differ (R93). -/
def decode (steward : Bool) (w : Word) : Except Reject Instr :=
  match decodeFields steward w.toNat with
  | some i => if i.wf then .ok i else .error .reservedField
  | none => if 12 ≤ fld w.toNat 30 27 then .error .reservedClass else .error .reservedOp

/-- The link bit of a word (R33). -/
def link (w : Word) : Bool := bit w.toNat 31

/-- The class of a word (R39). -/
def classOf (w : Word) : Nat := fld w.toNat 30 27

/-- Bits [30:0] of an instruction's word; 0 for what is no word. -/
def encodeNat : Instr → Nat
  | .add d a b w sp => 0 + d.toNat * 65536 + a.toNat * 2048 + b.toNat * 64 + w.toNat * 32 + sp.toNat * 16
  | .sub d a b w sp => 2097152 + d.toNat * 65536 + a.toNat * 2048 + b.toNat * 64 + w.toNat * 32 + sp.toNat * 16
  | .mul d a b w sp => 4194304 + d.toNat * 65536 + a.toNat * 2048 + b.toNat * 64 + w.toNat * 32 + sp.toNat * 16
  | .mulh d a b w sp => 6291456 + d.toNat * 65536 + a.toNat * 2048 + b.toNat * 64 + w.toNat * 32 + sp.toNat * 16
  | .mulhn d a b w sp => 8388608 + d.toNat * 65536 + a.toNat * 2048 + b.toNat * 64 + w.toNat * 32 + sp.toNat * 16
  | .div d a b w sp => 10485760 + d.toNat * 65536 + a.toNat * 2048 + b.toNat * 64 + w.toNat * 32 + sp.toNat * 16
  | .divn d a b w sp => 12582912 + d.toNat * 65536 + a.toNat * 2048 + b.toNat * 64 + w.toNat * 32 + sp.toNat * 16
  | .rem d a b w sp => 14680064 + d.toNat * 65536 + a.toNat * 2048 + b.toNat * 64 + w.toNat * 32 + sp.toNat * 16
  | .remn d a b w sp => 16777216 + d.toNat * 65536 + a.toNat * 2048 + b.toNat * 64 + w.toNat * 32 + sp.toNat * 16
  | .and d a b w sp => 18874368 + d.toNat * 65536 + a.toNat * 2048 + b.toNat * 64 + w.toNat * 32 + sp.toNat * 16
  | .or d a b w sp => 20971520 + d.toNat * 65536 + a.toNat * 2048 + b.toNat * 64 + w.toNat * 32 + sp.toNat * 16
  | .xor d a b w sp => 23068672 + d.toNat * 65536 + a.toNat * 2048 + b.toNat * 64 + w.toNat * 32 + sp.toNat * 16
  | .andn d a b w sp => 25165824 + d.toNat * 65536 + a.toNat * 2048 + b.toNat * 64 + w.toNat * 32 + sp.toNat * 16
  | .orn d a b w sp => 27262976 + d.toNat * 65536 + a.toNat * 2048 + b.toNat * 64 + w.toNat * 32 + sp.toNat * 16
  | .shl d a b w sp => 29360128 + d.toNat * 65536 + a.toNat * 2048 + b.toNat * 64 + w.toNat * 32 + sp.toNat * 16
  | .shr d a b w sp => 31457280 + d.toNat * 65536 + a.toNat * 2048 + b.toNat * 64 + w.toNat * 32 + sp.toNat * 16
  | .sar d a b w sp => 33554432 + d.toNat * 65536 + a.toNat * 2048 + b.toNat * 64 + w.toNat * 32 + sp.toNat * 16
  | .rol d a b w sp => 35651584 + d.toNat * 65536 + a.toNat * 2048 + b.toNat * 64 + w.toNat * 32 + sp.toNat * 16
  | .ror d a b w sp => 37748736 + d.toNat * 65536 + a.toNat * 2048 + b.toNat * 64 + w.toNat * 32 + sp.toNat * 16
  | .min d a b w sp => 39845888 + d.toNat * 65536 + a.toNat * 2048 + b.toNat * 64 + w.toNat * 32 + sp.toNat * 16
  | .max d a b w sp => 41943040 + d.toNat * 65536 + a.toNat * 2048 + b.toNat * 64 + w.toNat * 32 + sp.toNat * 16
  | .minn d a b w sp => 44040192 + d.toNat * 65536 + a.toNat * 2048 + b.toNat * 64 + w.toNat * 32 + sp.toNat * 16
  | .maxn d a b w sp => 46137344 + d.toNat * 65536 + a.toNat * 2048 + b.toNat * 64 + w.toNat * 32 + sp.toNat * 16
  | .clz d a w sp => 48234496 + d.toNat * 65536 + a.toNat * 2048 + w.toNat * 32 + sp.toNat * 16
  | .ctz d a w sp => 50331648 + d.toNat * 65536 + a.toNat * 2048 + w.toNat * 32 + sp.toNat * 16
  | .popc d a w sp => 52428800 + d.toNat * 65536 + a.toNat * 2048 + w.toNat * 32 + sp.toNat * 16
  | .bfx d a b w sp => 54525952 + d.toNat * 65536 + a.toNat * 2048 + b.toNat * 64 + w.toNat * 32 + sp.toNat * 16
  | .bfxn d a b w sp => 56623104 + d.toNat * 65536 + a.toNat * 2048 + b.toNat * 64 + w.toNat * 32 + sp.toNat * 16
  | .bfi d a b w sp => 58720256 + d.toNat * 65536 + a.toNat * 2048 + b.toNat * 64 + w.toNat * 32 + sp.toNat * 16
  | .csel d a b g => 60817408 + d.toNat * 65536 + a.toNat * 2048 + b.toNat * 64 + g.toNat
  | .addi sp d a imm => 134217728 + sp.toNat * 4194304 + d.toNat * 131072 + a.toNat * 4096 + imm.toNat
  | .andi sp d a imm => 142606336 + sp.toNat * 4194304 + d.toNat * 131072 + a.toNat * 4096 + imm.toNat
  | .ori sp d a imm => 150994944 + sp.toNat * 4194304 + d.toNat * 131072 + a.toNat * 4096 + imm.toNat
  | .xori sp d a imm => 159383552 + sp.toNat * 4194304 + d.toNat * 131072 + a.toNat * 4096 + imm.toNat
  | .shli sp d a n => 167772160 + sp.toNat * 4194304 + d.toNat * 131072 + a.toNat * 4096 + n.toNat
  | .shri sp d a n => 176160768 + sp.toNat * 4194304 + d.toNat * 131072 + a.toNat * 4096 + n.toNat
  | .sari sp d a n => 184549376 + sp.toNat * 4194304 + d.toNat * 131072 + a.toNat * 4096 + n.toNat
  | .muli sp d a imm => 192937984 + sp.toNat * 4194304 + d.toNat * 131072 + a.toNat * 4096 + imm.toNat
  | .lui d imm => 268435456 + d.toNat * 4194304 + imm.toNat
  | .aup d imm => 269484032 + d.toNat * 4194304 + imm.toNat
  | .cmp g a b cond w => 402653184 + g.toNat * 262144 + a.toNat * 8192 + b.toNat * 256 + cond.toNat * 16 + w.toNat
  | .cmpi g imm cond a => 406847488 + g.toNat * 262144 + imm.toNat * 512 + cond.toNat * 32 + a.toNat
  | .tst g a b z w => 411041792 + g.toNat * 262144 + a.toNat * 8192 + b.toNat * 256 + z.toNat * 128 + w.toNat
  | .gand g ga gb => 415236096 + g.toNat * 262144 + ga.toNat * 16384 + gb.toNat * 1024
  | .gor g ga gb => 419430400 + g.toNat * 262144 + ga.toNat * 16384 + gb.toNat * 1024
  | .gxor g ga gb => 423624704 + g.toNat * 262144 + ga.toNat * 16384 + gb.toNat * 1024
  | .gnot g ga => 427819008 + g.toNat * 262144 + ga.toNat * 16384
  | .ptst g a => 432013312 + g.toNat * 262144 + a.toNat * 8192
  | .prep g tgt => 436207616 + g.toNat * 262144 + tgt.toNat
  | .prepr g a => 440401920 + g.toNat * 262144 + a.toNat * 8192
  | .br g => 444596224 + g.toNat * 262144
  | .brA g => 444596225 + g.toNat * 262144
  | .brf g => 448790528 + g.toNat * 262144
  | .brl g => 452984832 + g.toNat * 262144
  | .loop a gr epk esl => 457179136 + a.toNat * 8192 + gr.toNat * 4096 + epk.toNat * 4 + esl.toNat
  | .loopi cnt gr epk esl => 461373440 + cnt.toNat * 2048 + gr.toNat * 1024 + epk.toNat * 4 + esl.toNat
  | .lbrk g n => 465567744 + g.toNat * 262144 + n.toNat
  | .sync scope => 469762048 + scope.toNat
  | .frame => 473956352
  | .waitt a b => 478150656 + a.toNat * 8192 + b.toNat * 256
  | .nop => 482344960
  | .halt => 486539264
  | .vadd d a b ty sp md => 536870912 + d.toNat * 65536 + a.toNat * 2048 + b.toNat * 64 + ty.toNat * 8 + sp.toNat * 4 + md.toNat
  | .vsub d a b ty sp md => 538968064 + d.toNat * 65536 + a.toNat * 2048 + b.toNat * 64 + ty.toNat * 8 + sp.toNat * 4 + md.toNat
  | .vmul d a b ty sp md => 541065216 + d.toNat * 65536 + a.toNat * 2048 + b.toNat * 64 + ty.toNat * 8 + sp.toNat * 4 + md.toNat
  | .vmulh d a b ty sp => 543162368 + d.toNat * 65536 + a.toNat * 2048 + b.toNat * 64 + ty.toNat * 8 + sp.toNat * 4
  | .vfma d a b ty sp md => 545259520 + d.toNat * 65536 + a.toNat * 2048 + b.toNat * 64 + ty.toNat * 8 + sp.toNat * 4 + md.toNat
  | .vfms d a b ty sp md => 547356672 + d.toNat * 65536 + a.toNat * 2048 + b.toNat * 64 + ty.toNat * 8 + sp.toNat * 4 + md.toNat
  | .vfnma d a b ty sp md => 549453824 + d.toNat * 65536 + a.toNat * 2048 + b.toNat * 64 + ty.toNat * 8 + sp.toNat * 4 + md.toNat
  | .vmin d a b ty sp => 551550976 + d.toNat * 65536 + a.toNat * 2048 + b.toNat * 64 + ty.toNat * 8 + sp.toNat * 4
  | .vmax d a b ty sp => 553648128 + d.toNat * 65536 + a.toNat * 2048 + b.toNat * 64 + ty.toNat * 8 + sp.toNat * 4
  | .vabs d a ty sp md => 555745280 + d.toNat * 65536 + a.toNat * 2048 + ty.toNat * 8 + sp.toNat * 4 + md.toNat
  | .vneg d a ty sp md => 557842432 + d.toNat * 65536 + a.toNat * 2048 + ty.toNat * 8 + sp.toNat * 4 + md.toNat
  | .vand d a b sp => 559939584 + d.toNat * 65536 + a.toNat * 2048 + b.toNat * 64 + sp.toNat * 4
  | .vor d a b sp => 562036736 + d.toNat * 65536 + a.toNat * 2048 + b.toNat * 64 + sp.toNat * 4
  | .vxor d a b sp => 564133888 + d.toNat * 65536 + a.toNat * 2048 + b.toNat * 64 + sp.toNat * 4
  | .vandn d a b sp => 566231040 + d.toNat * 65536 + a.toNat * 2048 + b.toNat * 64 + sp.toNat * 4
  | .vshl d a b ty sp md => 568328192 + d.toNat * 65536 + a.toNat * 2048 + b.toNat * 64 + ty.toNat * 8 + sp.toNat * 4 + md.toNat
  | .vshr d a b ty sp md => 570425344 + d.toNat * 65536 + a.toNat * 2048 + b.toNat * 64 + ty.toNat * 8 + sp.toNat * 4 + md.toNat
  | .vsar d a b ty sp md => 572522496 + d.toNat * 65536 + a.toNat * 2048 + b.toNat * 64 + ty.toNat * 8 + sp.toNat * 4 + md.toNat
  | .vcmp d a b ty sp cond => 574619648 + d.toNat * 65536 + a.toNat * 2048 + b.toNat * 64 + ty.toNat * 8 + sp.toNat * 4 + cond.toNat
  | .vbc d a b ty sp md => 576716800 + d.toNat * 65536 + a.toNat * 2048 + b.toNat * 64 + ty.toNat * 8 + sp.toNat * 4 + md.toNat
  | .vxt d a b ty sp md => 578813952 + d.toNat * 65536 + a.toNat * 2048 + b.toNat * 64 + ty.toNat * 8 + sp.toNat * 4 + md.toNat
  | .vlid d ty sp => 580911104 + d.toNat * 65536 + ty.toNat * 8 + sp.toNat * 4
  | .vrot d a b ty sp md => 583008256 + d.toNat * 65536 + a.toNat * 2048 + b.toNat * 64 + ty.toNat * 8 + sp.toNat * 4 + md.toNat
  | .vperm d a b ty sp => 585105408 + d.toNat * 65536 + a.toNat * 2048 + b.toNat * 64 + ty.toNat * 8 + sp.toNat * 4
  | .vrsum d a ty sp md => 587202560 + d.toNat * 65536 + a.toNat * 2048 + ty.toNat * 8 + sp.toNat * 4 + md.toNat
  | .vrmax d a ty sp => 589299712 + d.toNat * 65536 + a.toNat * 2048 + ty.toNat * 8 + sp.toNat * 4
  | .vrmin d a ty sp => 591396864 + d.toNat * 65536 + a.toNat * 2048 + ty.toNat * 8 + sp.toNat * 4
  | .vrcp d a ty sp => 593494016 + d.toNat * 65536 + a.toNat * 2048 + ty.toNat * 8 + sp.toNat * 4
  | .vrsq d a ty sp => 595591168 + d.toNat * 65536 + a.toNat * 2048 + ty.toNat * 8 + sp.toNat * 4
  | .vex2 d a ty sp => 597688320 + d.toNat * 65536 + a.toNat * 2048 + ty.toNat * 8 + sp.toNat * 4
  | .vlg2 d a ty sp => 599785472 + d.toNat * 65536 + a.toNat * 2048 + ty.toNat * 8 + sp.toNat * 4
  | .vdot4 d a b ty sp md => 601882624 + d.toNat * 65536 + a.toNat * 2048 + b.toNat * 64 + ty.toNat * 8 + sp.toNat * 4 + md.toNat
  | .vpopc d a ty sp => 603979776 + d.toNat * 65536 + a.toNat * 2048 + ty.toNat * 8 + sp.toNat * 4
  | .vclz d a ty sp => 606076928 + d.toNat * 65536 + a.toNat * 2048 + ty.toNat * 8 + sp.toNat * 4
  | .vtacc d a b ty sp => 608174080 + d.toNat * 65536 + a.toNat * 2048 + b.toNat * 64 + ty.toNat * 8 + sp.toNat * 4
  | .vsel d a b vc => 671088640 + d.toNat * 131072 + a.toNat * 4096 + b.toNat * 128 + vc.toNat * 4
  | .vselB d a b vc => 671088641 + d.toNat * 131072 + a.toNat * 4096 + b.toNat * 128 + vc.toNat * 4
  | .vcvt d a src cf sp md => 675282944 + d.toNat * 131072 + a.toNat * 4096 + src.toNat * 128 + cf.toNat * 4 + sp.toNat * 2 + md.toNat
  | .vbq d a b fmt sp md => 679477248 + d.toNat * 131072 + a.toNat * 4096 + b.toNat * 128 + fmt.toNat * 4 + sp.toNat * 2 + md.toNat
  | .vbdq d a fmt sp md => 683671552 + d.toNat * 131072 + a.toNat * 4096 + fmt.toNat * 4 + sp.toNat * 2 + md.toNat
  | .vbscl d a b fmt sp md => 687865856 + d.toNat * 131072 + a.toNat * 4096 + b.toNat * 128 + fmt.toNat * 4 + sp.toNat * 2 + md.toNat
  | .vtunp d a n sp => 692060160 + d.toNat * 131072 + a.toNat * 4096 + n.toNat * 4 + sp.toNat * 2
  | .vpak d a b wc sp => 696254464 + d.toNat * 131072 + a.toNat * 4096 + b.toNat * 128 + wc.toNat * 4 + sp.toNat * 2
  | .vupk d a h wc sp md => 700448768 + d.toNat * 131072 + a.toNat * 4096 + h.toNat * 128 + wc.toNat * 4 + sp.toNat * 2 + md.toNat
  | .vrng d a b sp md => 704643072 + d.toNat * 131072 + a.toNat * 4096 + b.toNat * 128 + sp.toNat * 2 + md.toNat
  | .vptst d a => 708837376 + d.toNat * 131072 + a.toNat * 4096
  | .ld space r b size off => 805306368 + space.toNat * 4194304 + r.toNat * 131072 + b.toNat * 4096 + size.toNat * 1024 + off.toNat
  | .st space r b size off => 822083584 + space.toNat * 4194304 + r.toNat * 131072 + b.toNat * 4096 + size.toNat * 1024 + off.toNat
  | .vld space r b size off => 838860800 + space.toNat * 4194304 + r.toNat * 131072 + b.toNat * 4096 + size.toNat * 1024 + off.toNat
  | .vst space r b size off => 855638016 + space.toNat * 4194304 + r.toNat * 131072 + b.toNat * 4096 + size.toNat * 1024 + off.toNat
  | .vgat space r b size vi sp => 872415232 + space.toNat * 4194304 + r.toNat * 131072 + b.toNat * 4096 + size.toNat * 1024 + vi.toNat * 32 + sp.toNat
  | .vsct space r b size vi => 889192448 + space.toNat * 4194304 + r.toNat * 131072 + b.toNat * 4096 + size.toNat * 1024 + vi.toNat * 32
  | .vldb space r b size off => 905969664 + space.toNat * 4194304 + r.toNat * 131072 + b.toNat * 4096 + size.toNat * 1024 + off.toNat
  | .cbdef a b c inC n => 939524096 + a.toNat * 65536 + b.toNat * 2048 + c.toNat * 64 + inC.toNat * 16 + n.toNat
  | .cbadvP a n => 941621248 + a.toNat * 65536 + n.toNat
  | .cbadvC a n => 941621264 + a.toNat * 65536 + n.toNat
  | .cbadvPW a n => 941621280 + a.toNat * 65536 + n.toNat
  | .cbadvCW a n => 941621296 + a.toNat * 65536 + n.toNat
  | .cp a b c t => 943718400 + a.toNat * 65536 + b.toNat * 2048 + c.toNat * 64 + t.toNat
  | .cpg a b c t => 945815552 + a.toNat * 65536 + b.toNat * 2048 + c.toNat * 64 + t.toNat
  | .cpm a b c t => 947912704 + a.toNat * 65536 + b.toNat * 2048 + c.toNat * 64 + t.toNat
  | .mlds a b c => 950009856 + a.toNat * 65536 + b.toNat * 2048 + c.toNat * 64
  | .mswap => 952107008
  | .mmul a b c cbf n => 954204160 + a.toNat * 65536 + b.toNat * 2048 + c.toNat * 64 + cbf.toNat * 32 + n.toNat
  | .mmulc a b c cbf n => 956301312 + a.toNat * 65536 + b.toNat * 2048 + c.toNat * 64 + cbf.toNat * 32 + n.toNat
  | .mclr a b => 958398464 + a.toNat * 65536 + b.toNat * 2048
  | .snd a b c => 960495616 + a.toNat * 65536 + b.toNat * 2048 + c.toNat * 64
  | .rcv a b sig => 962592768 + a.toNat * 65536 + b.toNat * 2048 + sig.toNat
  | .msq a => 964689920 + a.toNat * 65536
  | .ldg d a sp win cls => 1073741824 + d.toNat * 131072 + a.toNat * 4096 + sp.toNat * 2048 + win.toNat * 128 + cls.toNat
  | .stg d a size win => 1077936128 + d.toNat * 131072 + a.toNat * 4096 + size.toNat * 1024 + win.toNat * 128
  | .vldg d a sp win cls => 1082130432 + d.toNat * 131072 + a.toNat * 4096 + sp.toNat * 2048 + win.toNat * 128 + cls.toNat
  | .vstg d a win => 1086324736 + d.toNat * 131072 + a.toNat * 4096 + win.toNat * 128
  | .amo d a w4 win scope op => 1090519040 + d.toNat * 131072 + a.toNat * 4096 + w4.toNat * 1024 + win.toNat * 128 + scope.toNat * 16 + op.toNat
  | .red d a w4 win scope op => 1094713344 + d.toNat * 131072 + a.toNat * 4096 + w4.toNat * 1024 + win.toNat * 128 + scope.toNat * 16 + op.toNat
  | .lqpop d => 1098907648 + d.toNat * 131072
  | .tagw t => 1103101952 + t.toNat * 128
  | .tagwa a => 1107296256 + a.toNat * 4096
  | .tagff t => 1111490560 + t.toNat * 128
  | .tagclr t => 1115684864 + t.toNat * 128
  | .fenceAcq scope => 1119879168 + scope.toNat * 16
  | .fenceRel scope => 1119879169 + scope.toNat * 16
  | .fenceSc scope => 1119879170 + scope.toNat * 16
  | .drain scope => 1124073472 + scope.toNat * 16
  | .trig => 1128267776
  | .coll a => 1132462080 + a.toNat * 4096
  | .rdsr d n => 1207959552 + d.toNat * 65536 + n.toNat
  | .wrsr a n => 1210056704 + a.toNat * 65536 + n.toNat
  | .trap k => 1212153856 + k.toNat
  | .tret => 1214251008
  | .stop k => 1216348160 + k.toNat
  | .swap => 1218445312
  | .swapSteward a => 1218445312 + a.toNat * 65536
  | .ckpt t => 1220542464 + t.toNat
  | .lsv b off => 1222639616 + b.toNat * 65536 + off.toNat
  | .lrs b off => 1224736768 + b.toNat * 65536 + off.toNat
  | .stampAt sig => 1342177280 + sig.toNat
  | .stampHold sig => 1409286144 + sig.toNat
  | .xt e => 1476395008 + e.toNat
  | _ => 0

/-- The word of an instruction with link bit `l` (R33, R39, R40). -/
def encode (i : Instr) (l : Bool) : Word := BitVec.ofNat 32 (encodeNat i + l.toNat * 2147483648)

/-- The memory sequencer word of 64 bits by its fields alone (R47). -/
def decodeMsqFields (w : Nat) : Option Instr :=
  match fld w 63 60 with
  | 0 => if fld w 14 13 == 0 && fld w 9 0 == 0 then
      some (.xrd (bv 4 w 56) (bv 2 w 54) (bv 2 w 52) (bv 6 w 46) (bv 16 w 30) (bv 15 w 15) (bv 3 w 10)) else none
  | 1 => if fld w 53 52 == 0 && fld w 9 0 == 0 then
      some (.xwr (bv 4 w 56) (bv 2 w 54) (bv 6 w 46) (bv 16 w 30) (bv 15 w 15) (bv 5 w 10)) else none
  | 2 => some (.xset (bv 2 w 58) (bv 4 w 54) (bv 54 w 0))
  | 3 => if fld w 21 0 == 0 then
      some (.xlp (bv 16 w 44) (bv 12 w 32) (bv 4 w 28) (bv 4 w 24) (bv 2 w 22)) else none
  | 4 => if fld w 48 0 == 0 then some (.xwt (bv 5 w 55) (bv 6 w 49)) else none
  | 5 => if fld w 48 0 == 0 then some (.xsg (bv 5 w 55) (bv 6 w 49)) else none
  | 6 => if fld w 59 0 == 0 then some .xend else none
  | _ => none

/-- The memory sequencer instruction of a 64-bit word (R47, R48). -/
def decodeMsq (w : W64) : Except Reject Instr :=
  match decodeMsqFields w.toNat with
  | some i => if i.wf then .ok i else .error .reservedField
  | none => if 7 ≤ fld w.toNat 63 60 then .error .reservedOp else .error .reservedField

/-- The 64-bit word of a memory sequencer instruction (R47); 0 for what is none. -/
def encodeMsq : Instr → W64
  | .xrd areg space layout tag len boff sel => BitVec.ofNat 64 (areg.toNat * 2 ^ 56 + space.toNat * 2 ^ 54 +
      layout.toNat * 2 ^ 52 + tag.toNat * 2 ^ 46 + len.toNat * 2 ^ 30 + boff.toNat * 2 ^ 15 + sel.toNat * 2 ^ 10)
  | .xwr areg space tag len boff sel => BitVec.ofNat 64 (1 * 2 ^ 60 + areg.toNat * 2 ^ 56 + space.toNat * 2 ^ 54 +
      tag.toNat * 2 ^ 46 + len.toNat * 2 ^ 30 + boff.toNat * 2 ^ 15 + sel.toNat * 2 ^ 10)
  | .xset kind idx value => BitVec.ofNat 64 (2 * 2 ^ 60 + kind.toNat * 2 ^ 58 + idx.toNat * 2 ^ 54 + value.toNat)
  | .xlp count back areg sreg level => BitVec.ofNat 64 (3 * 2 ^ 60 + count.toNat * 2 ^ 44 + back.toNat * 2 ^ 32 +
      areg.toNat * 2 ^ 28 + sreg.toNat * 2 ^ 24 + level.toNat * 2 ^ 22)
  | .xwt tile tag => BitVec.ofNat 64 (4 * 2 ^ 60 + tile.toNat * 2 ^ 55 + tag.toNat * 2 ^ 49)
  | .xsg tile tag => BitVec.ofNat 64 (5 * 2 ^ 60 + tile.toNat * 2 ^ 55 + tag.toNat * 2 ^ 49)
  | .xend => BitVec.ofNat 64 (6 * 2 ^ 60)
  | _ => 0

/-- An instruction out of a refusal. -/
def okOf (r : Except Reject Instr) : Option Instr :=
  match r with
  | .ok i => some i
  | .error _ => none

/-- The instruction the decoder reads from `nbits` bits: a word on a tile, else on the steward; or a 64-bit word of the
memory sequencer. The words are little-endian (R33, R47), so the number is the word. -/
def decodeTableWord (nbits w : Nat) : Option Instr :=
  if nbits ≤ 32 then (okOf (decode false (BitVec.ofNat 32 w))).or (okOf (decode true (BitVec.ofNat 32 w)))
  else okOf (decodeMsq (BitVec.ofNat 64 w))

end Sys2Proof
end

