-- ==== Sys2Proof/Machine/Flags.lean ====
section
/-! DEFINITION. Number formats, exact arithmetic with one rounding, sticky flags, the block scale rule and the mix10
generator (08_number_formats.md). -/

namespace Sys2Proof.Machine

/-- A set of FPSTAT flags (R144), bit i for flag i. -/
abbrev Fl := BitVec 9

def flIV : Fl := 1
def flDZ : Fl := 2
def flOF : Fl := 4
def flUF : Fl := 8
def flNX : Fl := 16
def flFLUSH : Fl := 32
def flAOF : Fl := 64
def flTBAD : Fl := 128
def flSTALE : Fl := 256

/-- A flag set under a condition. -/
def flIf (c : Bool) (f : Fl) : Fl := if c then f else 0

/-- The rounding modes of R138. -/
inductive RMode where
  | rne | rz | ru | rd | sr
  deriving DecidableEq, Repr, Inhabited

/-- RM of FPCTL; 5 to 7 round as RNE (R138). -/
def RMode.ofField : Nat → RMode
  | 1 => .rz
  | 2 => .ru
  | 3 => .rd
  | 4 => .sr
  | _ => .rne

/-- Which codes of a format are no numbers (R128). -/
inductive Specials where
  | ieee | e4m3 | none
  deriving DecidableEq, Repr, Inhabited

/-- A floating-point format (R128). -/
structure Fmt where
  ew : Nat
  mw : Nat
  bias : Nat
  sp : Specials
  deriving DecidableEq, Repr, Inhabited

def fp32 : Fmt := { ew := 8, mw := 23, bias := 127, sp := .ieee }
def fp16 : Fmt := { ew := 5, mw := 10, bias := 15, sp := .ieee }
def bf16 : Fmt := { ew := 8, mw := 7, bias := 127, sp := .ieee }
def e5m2 : Fmt := { ew := 5, mw := 2, bias := 15, sp := .ieee }
def e4m3 : Fmt := { ew := 4, mw := 3, bias := 7, sp := .e4m3 }
def e3m2 : Fmt := { ew := 3, mw := 2, bias := 3, sp := .none }
def e2m3 : Fmt := { ew := 2, mw := 3, bias := 1, sp := .none }
def e2m1 : Fmt := { ew := 2, mw := 1, bias := 1, sp := .none }

/-- Bits of a format's codes. -/
def Fmt.width (f : Fmt) : Nat := 1 + f.ew + f.mw

/-- The largest finite magnitude code (R128). -/
def Fmt.maxCode (f : Fmt) : Nat :=
  match f.sp with
  | .ieee => (2 ^ f.ew - 1) * 2 ^ f.mw - 1
  | .e4m3 => 2 ^ (f.ew + f.mw) - 2
  | .none => 2 ^ (f.ew + f.mw) - 1

/-- The code of +∞ of a format that has one. -/
def Fmt.infCode (f : Fmt) : Nat := (2 ^ f.ew - 1) * 2 ^ f.mw

/-- The canonical NaN (R128); formats without one give +0 (R140). -/
def Fmt.nanCode (f : Fmt) : Nat :=
  match f.sp with
  | .ieee => f.infCode + 2 ^ (f.mw - 1)
  | .e4m3 => 2 ^ (f.ew + f.mw) - 1
  | .none => 0

/-- The code of a zero with sign. -/
def Fmt.zero (f : Fmt) (neg : Bool) : Nat := if neg then 2 ^ (f.ew + f.mw) else 0

/-- The exact value of a code: sign, mantissa and exponent of a finite number, an infinity, a NaN. -/
inductive FVal where
  | fin (neg : Bool) (m : Nat) (e : Int)
  | inf (neg : Bool)
  | nan (sig : Bool)
  deriving DecidableEq, Repr, Inhabited

/-- The value of a code (R128). -/
def Fmt.value (f : Fmt) (x : Nat) : FVal :=
  let s := x / 2 ^ (f.ew + f.mw) % 2 == 1
  let e := x / 2 ^ f.mw % 2 ^ f.ew
  let m := x % 2 ^ f.mw
  let num : FVal :=
    if e = 0 then .fin s m (1 - f.bias - f.mw) else .fin s (2 ^ f.mw + m) ((e : Int) - f.bias - f.mw)
  match f.sp with
  | .ieee => if e = 2 ^ f.ew - 1 then (if m = 0 then .inf s else .nan (decide (m < 2 ^ (f.mw - 1)))) else num
  | .e4m3 => if e = 2 ^ f.ew - 1 ∧ m = 2 ^ f.mw - 1 then .nan false else num
  | .none => num

/-- A subnormal code (R142). -/
def Fmt.isSub (f : Fmt) (x : Nat) : Bool := (x / 2 ^ f.mw % 2 ^ f.ew == 0) && (x % 2 ^ f.mw != 0)

/-- The value of an input in flush or graded mode, with FLUSH (R142). -/
def Fmt.input (f : Fmt) (graded : Bool) (x : Nat) : FVal × Fl :=
  if !graded && f.isSub x then (.fin (x / 2 ^ (f.ew + f.mw) % 2 == 1) 0 0, flFLUSH) else (f.value x, 0)

/-- The number of bits of a number, by halving at most `fuel` times. -/
def bitLen : Nat → Nat → Nat
  | 0, _ => 0
  | k + 1, n => if n = 0 then 0 else bitLen k (n / 2) + 1

/-- The number of bits of a number below 2^4096; a faster search by powers of two. -/
def size : Nat → Nat → Nat
  | 0, n => if n = 0 then 0 else 1
  | k + 1, n => if n / 2 ^ (2 ^ k) = 0 then size k n else 2 ^ k + size k (n / 2 ^ (2 ^ k))

/-- The number of bits of a number below 2^16384. -/
def nbits (n : Nat) : Nat := size 14 n

/-- A shift of a magnitude to a unit of 2^q with rounding: the integer count and whether bits were dropped. -/
def roundInt (mode : RMode) (neg : Bool) (r : Nat) (m : Nat) (e q : Int) : Nat × Bool :=
  if q ≤ e then (m * 2 ^ (e - q).toNat, false)
  else
    let sh := (q - e).toNat
    let k := m / 2 ^ sh
    let rem := m % 2 ^ sh
    let up : Bool :=
      match mode with
      | .rne => decide (2 ^ sh < 2 * rem) || (decide (2 * rem = 2 ^ sh) && k % 2 == 1)
      | .rz => false
      | .ru => !neg && rem != 0
      | .rd => neg && rem != 0
      | .sr => decide (65536 ≤ rem * 65536 / 2 ^ sh + r)
    (if up then k + 1 else k, rem != 0)

/-- The magnitude code of a count of units 2^q, given that it is in range. -/
def Fmt.codeOf (f : Fmt) (k : Nat) (q : Int) : Nat :=
  let emin : Int := 1 - f.bias - f.mw
  if k < 2 ^ f.mw then k
  else if k < 2 ^ (f.mw + 1) then (q - emin).toNat * 2 ^ f.mw + k
  else (q - emin + 1).toNat * 2 ^ f.mw + k / 2

/-- The result of an overflow (R140). -/
def Fmt.overflow (f : Fmt) (mode : RMode) (neg : Bool) : Nat :=
  let big : Bool :=
    match mode with
    | .rne | .sr => true
    | .rz => false
    | .ru => !neg
    | .rd => neg
  f.zero neg + (if f.sp = .ieee && big then f.infCode else f.maxCode)

/-- One rounding of an exact value to a format, with its flags (R139, R140, R142). `r` is the 16-bit random value of SR. -/
def Fmt.round (f : Fmt) (mode : RMode) (r : Nat) (graded : Bool) (neg : Bool) (m : Nat) (e : Int) : Nat × Fl :=
  if m = 0 then (f.zero neg, 0)
  else
    let top : Int := e + nbits m - 1
    let qmin : Int := 1 - f.bias - f.mw
    let free := roundInt mode neg r m e (top - f.mw)
    let q : Int := max (top - f.mw) qmin
    let kx := if q = top - f.mw then free else roundInt mode neg r m e q
    let code := f.codeOf kx.1 q
    -- rounded with an unbounded exponent range, below the smallest normal number
    let tiny : Bool := decide (top - f.mw < qmin) &&
      (decide (top - f.mw < qmin - 1) || decide (free.1 < 2 ^ (f.mw + 1)))
    if f.maxCode < code then (f.overflow mode neg, flOF ||| flNX)
    else if tiny && !graded then (f.zero neg, flFLUSH ||| flUF ||| flNX)
    else (f.zero neg + code, flIf kx.2 flNX ||| flIf (tiny && kx.2) flUF)

/-- The code of a result: NaN, infinity or a number rounded once. -/
def Fmt.result (f : Fmt) (mode : RMode) (r : Nat) (graded : Bool) (v : FVal) : Nat × Fl :=
  match v with
  | .nan sig =>
    match f.sp with
    | .none => (0, flIV)
    | _ => (f.nanCode, flIf sig flIV)
  | .inf neg =>
    match f.sp with
    | .ieee => (f.zero neg + f.infCode, 0)
    | _ => (f.zero neg + f.maxCode, flOF)
  | .fin neg m e => f.round mode r graded neg m e

/-! ### Exact arithmetic (R141, R156) -/

/-- A number in signed units. -/
def signed (neg : Bool) (m : Nat) : Int := if neg then -(m : Int) else m

/-- The exact product. -/
def FVal.mul : FVal → FVal → FVal × Fl
  | .nan s, .nan t => (.nan false, flIf (s || t) flIV)
  | .nan s, _ => (.nan false, flIf s flIV)
  | _, .nan t => (.nan false, flIf t flIV)
  | .inf a, .inf b => (.inf (a != b), 0)
  | .inf a, .fin b m _ => if m = 0 then (.nan false, flIV) else (.inf (a != b), 0)
  | .fin a m _, .inf b => if m = 0 then (.nan false, flIV) else (.inf (a != b), 0)
  | .fin a m e, .fin b n g => (.fin (a != b) (m * n) (e + g), 0)

/-- The exact sum; `rd` gives the sign of an exact zero sum of opposite signs (R156). -/
def FVal.add (rd : Bool) : FVal → FVal → FVal × Fl
  | .nan s, .nan t => (.nan false, flIf (s || t) flIV)
  | .nan s, _ => (.nan false, flIf s flIV)
  | _, .nan t => (.nan false, flIf t flIV)
  | .inf a, .inf b => if a = b then (.inf a, 0) else (.nan false, flIV)
  | .inf a, _ => (.inf a, 0)
  | _, .inf b => (.inf b, 0)
  | .fin a m e, .fin b n g =>
    let q := min e g
    let s : Int := signed a (m * 2 ^ (e - q).toNat) + signed b (n * 2 ^ (g - q).toNat)
    if s = 0 then (.fin (if m = 0 ∧ n = 0 ∧ a = b then a else rd) 0 0, 0)
    else (.fin (decide (s < 0)) s.natAbs q, 0)

/-- The negation of a value. -/
def FVal.neg : FVal → FVal
  | .fin a m e => .fin (!a) m e
  | .inf a => .inf (!a)
  | .nan s => .nan s

/-- How an operation rounds: mode, random value, graded mode. -/
structure RCtx where
  mode : RMode
  graded : Bool
  deriving DecidableEq, Repr, Inhabited

/-- Addition in a format (R156); the second operand may be negated. -/
def Fmt.addOp (f : Fmt) (c : RCtx) (r : Nat) (sub : Bool) (x y : Nat) : Nat × Fl :=
  let a := f.input c.graded x
  let b := f.input c.graded y
  let s := FVal.add (c.mode == .rd) a.1 (if sub then b.1.neg else b.1)
  let o := f.result c.mode r c.graded s.1
  (o.1, a.2 ||| b.2 ||| s.2 ||| o.2)

/-- Multiplication in a format (R156). -/
def Fmt.mulOp (f : Fmt) (c : RCtx) (r : Nat) (x y : Nat) : Nat × Fl :=
  let a := f.input c.graded x
  let b := f.input c.graded y
  let s := FVal.mul a.1 b.1
  let o := f.result c.mode r c.graded s.1
  (o.1, a.2 ||| b.2 ||| s.2 ||| o.2)

/-- Fused multiply and add, one rounding (R156): the product or the addend may be negated. -/
def Fmt.fmaOp (f : Fmt) (c : RCtx) (r : Nat) (negP negD : Bool) (x y z : Nat) : Nat × Fl :=
  let a := f.input c.graded x
  let b := f.input c.graded y
  let d := f.input c.graded z
  let p := FVal.mul a.1 b.1
  let s := FVal.add (c.mode == .rd) (if negP then p.1.neg else p.1) (if negD then d.1.neg else d.1)
  let o := f.result c.mode r c.graded s.1
  (o.1, a.2 ||| b.2 ||| d.2 ||| p.2 ||| s.2 ||| o.2)

/-- Order of finite and infinite values; −0 equals +0. None with a NaN. -/
def FVal.le? : FVal → FVal → Option Bool
  | .nan _, _ => none
  | _, .nan _ => none
  | .inf a, .inf b => some (a || !b)
  | .inf a, _ => some a
  | _, .inf b => some (!b)
  | .fin a m e, .fin b n g =>
    let q := min e g
    some (decide (signed a (m * 2 ^ (e - q).toNat) ≤ signed b (n * 2 ^ (g - q).toNat)))

/-- Whether a value is a NaN, and a signalling one. -/
def FVal.isNan : FVal → Bool
  | .nan _ => true
  | _ => false

def FVal.isSig : FVal → Bool
  | .nan s => s
  | _ => false

/-- An input as flushed bits, for operations that move a code (R157). -/
def Fmt.flushed (f : Fmt) (graded : Bool) (x : Nat) : Nat :=
  if !graded && f.isSub x then f.zero (x / 2 ^ (f.ew + f.mw) % 2 == 1) else x

/-- A key that orders codes of numbers, −0 below +0 (R157). -/
def Fmt.key (f : Fmt) (x : Nat) : Int :=
  if x / 2 ^ (f.ew + f.mw) % 2 = 1 then -((x % 2 ^ (f.ew + f.mw) : Nat) : Int) - 1 else (x : Int)

/-- `vmin` and `vmax` of floating point (R157). -/
def Fmt.minmax (f : Fmt) (graded mx : Bool) (x y : Nat) : Nat × Fl :=
  let a := f.input graded x
  let b := f.input graded y
  let fl := a.2 ||| b.2
  if a.1.isNan || b.1.isNan then (f.nanCode, fl ||| flIf (a.1.isSig || b.1.isSig) flIV)
  else
    let p := f.flushed graded x
    let q := f.flushed graded y
    (if decide (f.key p ≤ f.key q) != mx then p else q, fl)

/-- `vabs` and `vneg` of floating point (R157). -/
def Fmt.signOp (f : Fmt) (graded neg : Bool) (x : Nat) : Nat × Fl :=
  let a := f.input graded x
  if a.1.isNan then (f.nanCode, flIf a.1.isSig flIV)
  else
    let p := f.flushed graded x
    let s := p / 2 ^ (f.ew + f.mw) % 2 == 1
    (p % 2 ^ (f.ew + f.mw) + f.zero (neg && !s), a.2)

/-- The compares of floating point (R159). -/
def Fmt.cmpOp (f : Fmt) (graded : Bool) (c : VCond) (x y : Nat) : Bool × Fl :=
  let a := f.input graded x
  let b := f.input graded y
  let nan := a.1.isNan || b.1.isNan
  let sig := a.1.isSig || b.1.isSig
  let le := (FVal.le? a.1 b.1).getD false
  let ge := (FVal.le? b.1 a.1).getD false
  let fl := a.2 ||| b.2
  match c with
  | .eq => (le && ge, fl ||| flIf sig flIV)
  | .ne => (!(le && ge), fl ||| flIf sig flIV)
  | .lt => (le && !ge, fl ||| flIf nan flIV)
  | .le => (le, fl ||| flIf nan flIV)

/-! ### Conversions into integers (R140, R170) -/

/-- A value rounded by the mode into `lo` to `hi`, clamped with IV; a NaN gives 0 with IV. NX is set where the rounded
value differs from the exact one, clamped or not (R139, R140, R170). -/
def toInteger (mode : RMode) (r : Nat) (lo hi : Int) (v : FVal) : Int × Fl :=
  match v with
  | .nan _ => (0, flIV)
  | .inf neg => (if neg then lo else hi, flIV)
  | .fin neg m e =>
    let k := roundInt mode neg r m e 0
    let x := signed neg k.1
    (max lo (min hi x), flIf (decide (x < lo) || decide (hi < x)) flIV ||| flIf k.2 flNX)

/-! ### Approximations (R162, R163) -/

/-- Integer square root by bits, `k` bits of result. -/
def isqrt : Nat → Nat → Nat → Nat
  | 0, _, acc => acc
  | k + 1, n, acc => let t := acc + 2 ^ k; isqrt k n (if t * t ≤ n then t else acc)

/-- An exact real in `[q, q + 1) · 2^e`, exactly `q · 2^e` when not `st`. -/
structure Near where
  q : Nat
  e : Int
  st : Bool
  deriving DecidableEq, Repr, Inhabited

/-- 1/(m·2^e) for m > 0. -/
def recip (m : Nat) (e : Int) : Near :=
  { q := 2 ^ 256 / m, e := -e - 256, st := decide (2 ^ 256 % m ≠ 0) }

/-- 1/√(m·2^e) for m > 0. -/
def rsqrt (m : Nat) (e : Int) : Near :=
  let m' := if e % 2 = 0 then m else 2 * m
  let h := (if e % 2 = 0 then e else e - 1) / 2
  let n := 2 ^ 512 / m'
  let q := isqrt 260 n 0
  { q := q, e := -h - 256, st := decide (q * q * m' ≠ 2 ^ 512) }

/-- Bits of a binary fraction `f · 2^-96` weighted by the roots of two: `acc` and `root` with 128 fraction bits. -/
def exp2Loop : Nat → Nat → Nat → Nat → Nat
  | 0, _, _, acc => acc
  | k + 1, f, root, acc =>
    let root' := isqrt 260 (root * 2 ^ 128) 0
    exp2Loop k f root' (if f / 2 ^ k % 2 = 1 then acc * root' / 2 ^ 128 else acc)

/-- 2^x of a number x; beyond 2^20 in magnitude the exponent is held at that bound. -/
def exp2 (neg : Bool) (m : Nat) (e : Int) : Near :=
  let big := decide (20 ≤ e + nbits m)
  if big then { q := 1, e := if neg then -1048576 else 1048576, st := true }
  else
    let fx : Int := if 0 ≤ e + 96 then signed neg (m * 2 ^ (e + 96).toNat)
      else (signed neg m) / ((2 ^ (-(e + 96)).toNat : Nat) : Int)
    let exact := decide (0 ≤ e + 96) || decide (m % 2 ^ (-(e + 96)).toNat = 0)
    let n := fx / ((2 ^ 96 : Nat) : Int)
    let f := (fx % ((2 ^ 96 : Nat) : Int)).toNat
    if f = 0 ∧ exact then { q := 1, e := n, st := false }
    else { q := exp2Loop 96 f (2 ^ 129) (2 ^ 128), e := n - 128, st := true }

/-- Fraction bits of log₂ y for y in [1, 2) with 256 fraction bits. -/
def log2Loop : Nat → Nat → Nat → Nat
  | 0, _, acc => acc
  | k + 1, y, acc =>
    let z := y * y / 2 ^ 256
    if 2 ^ 257 ≤ z then log2Loop k (z / 2) (2 * acc + 1) else log2Loop k z (2 * acc)

/-- log₂ (m·2^e) for m > 0 as a signed number of 2^-96 with its exactness. -/
def log2Fx (m : Nat) (e : Int) : Int × Bool :=
  let n := nbits m - 1
  let y := m * 2 ^ 256 / 2 ^ n
  (((e + n) * ((2 ^ 96 : Nat) : Int)) + (log2Loop 96 y 0 : Nat), decide (y = 2 ^ 256))

/-- The value of `Near` as a magnitude with a sticky last bit. -/
def Near.mant (x : Near) : Nat := 2 * x.q + (if x.st then 1 else 0)

/-- Whether `p/2^k` units away is no more than the bound: the candidate code `c` of f32 lies within `ulps` units in the
last place of the exact magnitude `x`, a unit being that of the correctly rounded result `best`. -/
def withinUlps (ulps : Nat) (x : Near) (best c : Nat) : Bool :=
  match fp32.value c, fp32.value best with
  | .fin false m e, .fin false _ g =>
    let q := min (min e g) (x.e - 1)
    let a := m * 2 ^ (e - q).toNat
    let lo := x.mant * 2 ^ (x.e - 1 - q).toNat
    let u := ulps * 2 ^ (g - q).toNat
    decide (a ≤ lo + u) && decide (lo ≤ a + u)
  | _, _ => false

/-- An f32 approximation of the magnitude `x` (R162): the correctly rounded magnitude where the exact result is
representable, else the code the part gives where R162 allows it, else the correctly rounded one. For one unit the
allowed results are the two that bracket the exact one. -/
def approx32 (op ulps : Nat) (graded : Bool) (bits : Nat) (x : Near) : Nat :=
  let lo := (fp32.round .rz 0 true false x.mant (x.e - 1)).1
  let rn := fp32.round .rne 0 true false x.mant (x.e - 1)
  let c := Config.approx op (BitVec.ofNat 32 bits) graded
  if rn.2 &&& flNX = 0 then rn.1
  else if ulps = 1 then (if c % 2 = 0 then lo else min (lo + 1) fp32.maxCode)
  else if c < 2 ^ 31 ∧ withinUlps ulps x rn.1 c then c else rn.1

/-- A positive real result in a format: correctly rounded in the 16-bit formats, approximate in f32; overflow, tiny
results and NX by R140 and R142. -/
def Fmt.approxResult (f : Fmt) (op ulps : Nat) (graded neg : Bool) (bits : Nat) (x : Near) : Nat × Fl :=
  let rn := f.round .rne 0 graded neg x.mant (x.e - 1)
  if f = fp32 ∧ rn.2 &&& flOF = 0 ∧ rn.2 &&& flFLUSH = 0 then
    (f.zero neg + approx32 op ulps graded bits x, rn.2)
  else rn

/-- `vrcp` (R162, R163). -/
def Fmt.rcpOp (f : Fmt) (graded : Bool) (x : Nat) : Nat × Fl :=
  let a := f.input graded x
  match a.1 with
  | .nan s => (f.nanCode, flIf s flIV)
  | .inf neg => (f.zero neg, 0)
  | .fin neg m e =>
    if m = 0 then (f.zero neg + f.infCode, a.2 ||| flDZ)
    else let o := f.approxResult 0 1 graded neg x (recip m e); (o.1, a.2 ||| o.2)

/-- `vrsq` (R162, R163). -/
def Fmt.rsqOp (f : Fmt) (graded : Bool) (x : Nat) : Nat × Fl :=
  let a := f.input graded x
  match a.1 with
  | .nan s => (f.nanCode, flIf s flIV)
  | .inf neg => if neg then (f.nanCode, flIV) else (0, 0)
  | .fin neg m e =>
    if m = 0 then (f.zero neg + f.infCode, a.2 ||| flDZ)
    else if neg then (f.nanCode, a.2 ||| flIV)
    else let o := f.approxResult 1 1 graded false x (rsqrt m e); (o.1, a.2 ||| o.2)

/-- `vex2` (R162, R163). -/
def Fmt.ex2Op (f : Fmt) (graded : Bool) (x : Nat) : Nat × Fl :=
  let a := f.input graded x
  match a.1 with
  | .nan s => (f.nanCode, flIf s flIV)
  | .inf neg => if neg then (0, 0) else (f.infCode, 0)
  | .fin neg m e =>
    if m = 0 then (f.bias * 2 ^ f.mw, a.2)
    else let o := f.approxResult 2 2 graded false x (exp2 neg m e); (o.1, a.2 ||| o.2)

/-- Whether an f32 code lies within 2^-22 of the exact logarithm `l · 2^-96` (R162). -/
def withinAbs (l : Int) (c : Nat) : Bool :=
  match fp32.value c with
  | .fin neg m e =>
    let s : Int := if 0 ≤ e + 160 then signed neg (m * 2 ^ (e + 160).toNat) else 0
    decide (0 ≤ e + 160) && decide ((s - l * ((2 ^ 64 : Nat) : Int)).natAbs ≤ 2 ^ 138)
  | _ => false

/-- An inexact result code with its flags where it is subnormal (R142). -/
def Fmt.tiny (f : Fmt) (graded : Bool) (c : Nat) : Nat × Fl :=
  if !f.isSub c then (c, flNX)
  else if graded then (c, flUF ||| flNX)
  else (f.zero (c / 2 ^ (f.ew + f.mw) % 2 == 1), flFLUSH ||| flUF ||| flNX)

/-- `vlg2` (R142, R162, R163). -/
def Fmt.lg2Op (f : Fmt) (graded : Bool) (x : Nat) : Nat × Fl :=
  let a := f.input graded x
  match a.1 with
  | .nan s => (f.nanCode, flIf s flIV)
  | .inf neg => if neg then (f.nanCode, flIV) else (f.infCode, 0)
  | .fin neg m e =>
    if m = 0 then (f.zero true + f.infCode, a.2 ||| flDZ)
    else if neg then (f.nanCode, a.2 ||| flIV)
    else
      let l := log2Fx m e
      let s := decide (l.1 < 0)
      let mag := if s then (if l.2 then (-l.1).toNat else (-l.1 - 1).toNat) else l.1.toNat
      if mag = 0 ∧ l.2 then (0, a.2)
      else
        let x' : Near := { q := mag, e := -96, st := !l.2 }
        let c := Config.approx 3 (BitVec.ofNat 32 x) graded
        let near1 := decide (-((2 ^ 96 : Nat) : Int) ≤ l.1) && decide (l.1 < ((2 ^ 96 : Nat) : Int))
        if f = fp32 ∧ near1 = true ∧ l.2 = false then
          let rn := f.round .rne 0 graded s x'.mant (x'.e - 1)
          let o := f.tiny graded (if c < 2 ^ 32 ∧ withinAbs l.1 c then c else rn.1)
          (o.1, a.2 ||| o.2)
        else let o := f.approxResult 3 2 graded s x x'; (o.1, a.2 ||| o.2)

/-! ### Block scale rule (R133) -/

/-- ⌊log₂⌋ of the larger of two magnitudes, as values are compared by their top bit. -/
def topExp (vs : List FVal) : Option Int :=
  vs.foldl (fun acc v =>
    match v with
    | .fin _ m e => if m = 0 then acc else
      let t : Int := e + nbits m - 1
      match acc with
      | none => some t
      | some u => some (max t u)
    | _ => acc) none

/-- Whether a value is a NaN or an infinity. -/
def FVal.special : FVal → Bool
  | .fin _ _ _ => false
  | _ => true

/-- The block of `n`-bit mantissas of up to 24 values: scale, mantissas of the values, flags (R133). -/
def blockRule (n : Nat) (vs : List FVal) : Nat × List Int × Fl :=
  if vs.any FVal.special then (255, List.replicate 24 0, flIV)
  else
    match topExp vs with
    | none => (0, List.replicate 24 0, 0)
    | some t =>
      let e : Int := t - (n - 2)
      if e + 127 < 0 then (0, List.replicate 24 0, flUF)
      else
        let lim : Int := 2 ^ (n - 1) - 1
        let one := fun (v : FVal) =>
          match v with
          | .fin neg m g =>
            let k := roundInt .rne neg 0 m g e
            let x := signed neg k.1
            let y := max (-lim) (min lim x)
            (y, k.2 || decide (y ≠ x))
          | _ => (0, false)
        let ms := vs.map one
        ((e + 127).toNat, (ms.map Prod.fst) ++ List.replicate (24 - ms.length) 0,
          flIf (ms.any Prod.snd) flNX)

/-! ### mix10 (R147) -/

/-- A 32-bit rotate left. -/
def rotl32 (x : BitVec 32) (n : Nat) : BitVec 32 := x.rotateLeft n

/-- The four words of a mix10 state. -/
structure Mix where
  x0 : BitVec 32
  x1 : BitVec 32
  x2 : BitVec 32
  x3 : BitVec 32
  deriving DecidableEq, Repr, Inhabited

/-- Word `i` of a key. -/
def Mix.get (k : Mix) (i : Nat) : BitVec 32 :=
  match i % 4 with
  | 0 => k.x0
  | 1 => k.x1
  | 2 => k.x2
  | _ => k.x3

/-- One round of mix10. -/
def mixRound (k : Mix) (s : Mix) (i : Nat) : Mix :=
  let x0 := s.x0 + s.x1 + k.get i
  let x3 := rotl32 (s.x3 ^^^ x0) 16
  let x2 := s.x2 + x3 + 0x9E3779B9#32 * BitVec.ofNat 32 (i + 1)
  let x1 := rotl32 (s.x1 ^^^ x2) 12
  let x0 := x0 + x1
  let x3 := rotl32 (x3 ^^^ x0) 8
  let x2 := x2 + x3
  let x1 := rotl32 (x1 ^^^ x2) 7
  { x0 := x1, x1 := x2, x2 := x3, x3 := x0 }

/-- mix10 of a key and a counter. -/
def mix10 (k c : Mix) : Mix :=
  let s := [0, 1, 2, 3, 4, 5, 6, 7, 8, 9].foldl (mixRound k) c
  { x0 := s.x0 + c.x0, x1 := s.x1 + c.x1, x2 := s.x2 + c.x2, x3 := s.x3 + c.x3 }

/-- The words of a 128-bit number, low first. -/
def Mix.ofNat (n : Nat) : Mix :=
  { x0 := BitVec.ofNat 32 n, x1 := BitVec.ofNat 32 (n / 2 ^ 32), x2 := BitVec.ofNat 32 (n / 2 ^ 64)
    x3 := BitVec.ofNat 32 (n / 2 ^ 96) }

/-- The 128-bit number of four words. -/
def Mix.toNat (m : Mix) : Nat :=
  m.x0.toNat + m.x1.toNat * 2 ^ 32 + m.x2.toNat * 2 ^ 64 + m.x3.toNat * 2 ^ 96

/-- The random value of element `q` of draw `n` from key `k` and counter `c` (R143). -/
def drawAt (k c : Nat) (n q : Nat) : Nat :=
  (mix10 (Mix.ofNat k) (Mix.ofNat ((c + 16 * n + q / 8) % 2 ^ 128))).toNat / 2 ^ (16 * (q % 8)) % 65536

end Sys2Proof.Machine
end

