-- ==== Sys2Proof/Machine/Lanes.lean ====
section
/-! DEFINITION. Vector registers as elements, and what each vector instruction computes for the lanes of its
destination, with the lanes each depends on (09_isa_vector.md, 07_program_ternary.md R122, R123). -/

namespace Sys2Proof.Machine

/-- A source lane: 0 for A, 1 for B, 2 for the third source, 3 for D read as an accumulator; the lane number (R150). -/
abbrev Dep := Nat × Nat

/-- A destination lane: its value, the flags its elements raise, the source lanes it depends on, whether the instruction
itself poisons it (R123). -/
structure LaneOut where
  val : Nat
  fl : Fl
  deps : List Dep
  bad : Bool
  deriving DecidableEq, Repr, Inhabited

/-- Element `q` of width `w` of a 2,048-bit number (R148). -/
def elem (w : Nat) (v : Nat) (q : Nat) : Nat := v / 2 ^ (w * q) % 2 ^ w

/-- A signed reading of a `w`-bit code. -/
def sgn (w x : Nat) : Int := if x < 2 ^ (w - 1) then x else (x : Int) - ((2 ^ w : Nat) : Int)

/-- The `w`-bit code of an integer. -/
def code (w : Nat) (x : Int) : Nat := (x % ((2 ^ w : Nat) : Int)).toNat

/-- Elements of width `w` packed, the first lowest. -/
def packW (w : Nat) : List Nat → Nat
  | [] => 0
  | x :: xs => x % 2 ^ w + 2 ^ w * packW w xs

/-- Element width of a lane type (R148). -/
def VTy.ew : VTy → Nat
  | .i32 | .n32 | .f32 => 32
  | .bf16x2 | .f16x2 | .i16x2 => 16
  | .i8x4 => 8
  | .ax => 64

/-- Number of elements of a lane type (R148). -/
def VTy.count (t : VTy) : Nat := 2048 / VTy.ew t

/-- The floating-point format of a lane type. -/
def VTy.fmt : VTy → Fmt
  | .bf16x2 => bf16
  | .f16x2 => fp16
  | _ => fp32

/-- Whether an integer type is read unsigned (R155). -/
def VTy.unsigned : VTy → Bool
  | .n32 => true
  | _ => false

/-- The range of an integer type (R151). -/
def VTy.lo (t : VTy) : Int := if VTy.unsigned t then 0 else -((2 ^ (VTy.ew t - 1) : Nat) : Int)
def VTy.hi (t : VTy) : Int :=
  if VTy.unsigned t then ((2 ^ VTy.ew t : Nat) : Int) - 1 else ((2 ^ (VTy.ew t - 1) : Nat) : Int) - 1

/-- The integer an element stands for. -/
def VTy.int (t : VTy) (x : Nat) : Int := if VTy.unsigned t then x else sgn (VTy.ew t) x

/-- The numbers below `n`, in order. -/
def upTo (n : Nat) : List Nat := List.range n

/-- The lanes that hold element `q` of width `w` (R148). -/
def lanesOf (w q : Nat) : List Nat := if w = 64 then [2 * q, 2 * q + 1] else [q * w / 32]

/-- Elements below 64 bits of destination lane `j`; the ax element for a 64-bit type. -/
def elemsIn (w j : Nat) : List Nat :=
  if w = 64 then [j / 2] else (upTo (32 / w)).map fun e => j * (32 / w) + e

/-- The 64 destination lanes of an instruction that computes element `q` (value and flags) and names the lanes element
`q` depends on. -/
def byElem (w : Nat) (f : Nat → Nat × Fl) (deps : Nat → List Dep) : List LaneOut :=
  (upTo 64).map fun j =>
    let es := elemsIn w j
    let rs := es.map f
    { val := if w = 64 then (packW 64 (rs.map Prod.fst)) / 2 ^ (32 * (j % 2)) % 2 ^ 32 else packW w (rs.map Prod.fst)
      fl := rs.foldl (fun a r => a ||| r.2) 0
      deps := es.flatMap deps
      bad := false }

/-- The lanes an element of sources `ss` depends on, element-wise. -/
def depsOf (w : Nat) (ss : List Nat) (q : Nat) : List Dep :=
  ss.flatMap fun s => (lanesOf w q).map fun l => (s, l)

/-- The sources of a vector instruction as numbers: A, B, the third source, D. -/
structure VSrc where
  a : Nat
  b : Nat
  c : Nat
  d : Nat
  deriving DecidableEq, Repr, Inhabited

/-- What governs floating point in a bundle: mode, graded, and the stream of SR (R85, R138, R143). -/
structure VEnv where
  r : RCtx
  key : Nat
  ctr : Nat
  deriving DecidableEq, Repr, Inhabited

/-- The random value of element `q` in draw `n`; 0 outside SR. -/
def VEnv.rnd (e : VEnv) (n q : Nat) : Nat := if e.r.mode = .sr then drawAt e.key e.ctr n q else 0

/-- The rounding mode of a MOD field over FPCTL's (R151). -/
def modMode (md : BitVec 2) (m : RMode) : RMode :=
  match md.toNat with
  | 1 => .rne
  | 2 => .rz
  | 3 => .sr
  | _ => m

/-- An environment with the mode of a MOD field. -/
def VEnv.withMod (e : VEnv) (md : BitVec 2) : VEnv := { e with r := { e.r with mode := modMode md e.r.mode } }

/-! ### Integer arithmetic (R151, R155) -/

/-- An exact integer result wrapped or clamped; a clamped ax element sets AOF. -/
def intResult (t : VTy) (sat : Bool) (x : Int) : Nat × Fl :=
  if sat then
    if x < VTy.lo t then (code (VTy.ew t) (VTy.lo t), flIf (t == .ax) flAOF)
    else if VTy.hi t < x then (code (VTy.ew t) (VTy.hi t), flIf (t == .ax) flAOF)
    else (code (VTy.ew t) x, 0)
  else (code (VTy.ew t) x, 0)

/-- A two-source element-wise instruction: integer part and floating-point part. -/
def lanes2 (t : VTy) (s : VSrc) (int : Int → Int → Nat × Fl) (fp : Nat → Nat → Nat → Nat × Fl) : List LaneOut :=
  let w := VTy.ew t
  byElem w (fun q =>
      let x := elem w s.a q
      let y := elem w s.b q
      if VTy.isFp t then fp q x y else int (VTy.int t x) (VTy.int t y))
    (depsOf w [0, 1])

/-- A one-source element-wise instruction. -/
def lanes1 (t : VTy) (s : VSrc) (f : Nat → Nat → Nat × Fl) : List LaneOut :=
  let w := VTy.ew t
  byElem w (fun q => f q (elem w s.a q)) (depsOf w [0])

def laneAdd (e : VEnv) (t : VTy) (md : BitVec 2) (s : VSrc) : List LaneOut :=
  let e := e.withMod md
  lanes2 t s (fun x y => intResult t (md == 1) (x + y)) (fun q x y => (VTy.fmt t).addOp e.r (e.rnd 0 q) false x y)

def laneSub (e : VEnv) (t : VTy) (md : BitVec 2) (s : VSrc) : List LaneOut :=
  let e := e.withMod md
  lanes2 t s (fun x y => intResult t (md == 1) (x - y)) (fun q x y => (VTy.fmt t).addOp e.r (e.rnd 0 q) true x y)

def laneMul (e : VEnv) (t : VTy) (md : BitVec 2) (s : VSrc) : List LaneOut :=
  let e := e.withMod md
  lanes2 t s (fun x y => intResult t (md == 1) (x * y)) (fun q x y => (VTy.fmt t).mulOp e.r (e.rnd 0 q) x y)

def laneMulh (t : VTy) (s : VSrc) : List LaneOut :=
  lanes2 t s (fun x y => (code (VTy.ew t) (x * y / ((2 ^ VTy.ew t : Nat) : Int)), 0)) (fun _ _ _ => (0, 0))

/-- `vfma`, `vfms`, `vfnma` (R156): `negP` negates the product, `negD` the addend. -/
def laneFma (e : VEnv) (t : VTy) (md : BitVec 2) (negP negD : Bool) (s : VSrc) : List LaneOut :=
  let e := e.withMod md
  let w := VTy.ew t
  byElem w (fun q => (VTy.fmt t).fmaOp e.r (e.rnd 0 q) negP negD (elem w s.a q) (elem w s.b q) (elem w s.d q))
    (depsOf w [0, 1, 3])

/-- `vmin` (`mx` false) and `vmax` (R157). -/
def laneMinMax (e : VEnv) (t : VTy) (mx : Bool) (s : VSrc) : List LaneOut :=
  lanes2 t s (fun x y => (code (VTy.ew t) (if mx then max x y else min x y), 0))
    (fun _ x y => (VTy.fmt t).minmax e.r.graded mx x y)

/-- `vabs` (`neg` false) and `vneg` (R157). -/
def laneSign (e : VEnv) (t : VTy) (neg : Bool) (md : BitVec 2) (s : VSrc) : List LaneOut :=
  lanes1 t s fun _ x =>
    if VTy.isFp t then (VTy.fmt t).signOp e.r.graded neg x
    else
      let v := VTy.int t x
      intResult t (md == 1) (if neg then -v else (v.natAbs : Int))

/-- The logical instructions (R158), by an operation on whole lanes. -/
def laneLogic (f : Nat → Nat → Nat) (s : VSrc) : List LaneOut :=
  byElem 32 (fun q => (f (elem 32 s.a q) (elem 32 s.b q), 0)) (depsOf 32 [0, 1])

/-- The shifts (R158): 0 left, 1 right with zeros, 2 right with sign. -/
def laneShift (kind : Nat) (t : VTy) (imm : Bool) (n : Nat) (s : VSrc) : List LaneOut :=
  let w := VTy.ew t
  byElem w (fun q =>
      let x := elem w s.a q
      let c := (if imm then n else elem w s.b q) % w
      (match kind with
        | 0 => x * 2 ^ c % 2 ^ w
        | 1 => x / 2 ^ c
        | _ => code w (sgn w x / ((2 ^ c : Nat) : Int)), 0))
    (depsOf w (if imm then [0] else [0, 1]))

/-- Whether an integer compare holds (R159). -/
def intCmp (c : VCond) (x y : Int) : Bool :=
  match c with
  | .eq => decide (x = y)
  | .ne => decide (x ≠ y)
  | .lt => decide (x < y)
  | .le => decide (x ≤ y)

/-- `vcmp` (R159). -/
def laneCmp (e : VEnv) (t : VTy) (c : VCond) (s : VSrc) : List LaneOut :=
  let ones := 2 ^ VTy.ew t - 1
  lanes2 t s (fun x y => (if intCmp c x y then ones else 0, 0))
    (fun _ x y => let r := (VTy.fmt t).cmpOp e.r.graded c x y; (if r.1 then ones else 0, r.2))

/-! ### Moving elements (R160) -/

/-- The element index of `vbc`, `vxt` and `vrot`, and the lane it is read from. -/
def moveIdx (t : VTy) (imm : Bool) (b : Nat) (s : VSrc) : Nat × List Dep :=
  if imm then (b % VTy.count t, []) else (elem 32 s.b 0 % VTy.count t, [(1, 0)])

def laneBc (t : VTy) (imm : Bool) (b : Nat) (s : VSrc) : List LaneOut :=
  let w := VTy.ew t
  let k := moveIdx t imm b s
  byElem w (fun _ => (elem w s.a k.1, 0)) (fun _ => depsOf w [0] k.1 ++ k.2)

def laneXt (t : VTy) (imm : Bool) (b : Nat) (s : VSrc) : List LaneOut :=
  let w := VTy.ew t
  let k := moveIdx t imm b s
  byElem w (fun q => (if q = 0 then elem w s.a k.1 else 0, 0)) (fun q => if q = 0 then depsOf w [0] k.1 ++ k.2 else [])

def laneRot (t : VTy) (imm : Bool) (b : Nat) (s : VSrc) : List LaneOut :=
  let w := VTy.ew t
  let k := moveIdx t imm b s
  byElem w (fun q => (elem w s.a ((q + k.1) % VTy.count t), 0))
    (fun q => depsOf w [0] ((q + k.1) % VTy.count t) ++ k.2)

def laneLid (t : VTy) : List LaneOut :=
  byElem (VTy.ew t) (fun q => (q % 2 ^ VTy.ew t, 0)) (fun _ => [])

def lanePerm (t : VTy) (s : VSrc) : List LaneOut :=
  let w := VTy.ew t
  let ix := fun q => elem w s.b q % VTy.count t
  byElem w (fun q => (elem w s.a (ix q), 0)) (fun q => depsOf w [0] (ix q) ++ depsOf w [1] q)

/-! ### Reductions (R146, R161) -/

/-- One level of the tree. -/
def treeLevel (f : Nat → Nat → Nat → Nat × Fl) : Nat → List Nat → List Nat × Fl
  | i, x :: y :: r =>
    let o := f i x y
    let t := treeLevel f (i + 1) r
    (o.1 :: t.1, o.2 ||| t.2)
  | _, xs => (xs, 0)

/-- The tree over at most `2^fuel` elements; `f` gets the level and the step. -/
def tree (f : Nat → Nat → Nat → Nat → Nat × Fl) : Nat → Nat → List Nat → Nat × Fl
  | 0, _, xs => (xs.headD 0, 0)
  | k + 1, lvl, xs =>
    match xs with
    | [x] => (x, 0)
    | _ =>
      let o := treeLevel (f lvl) 0 xs
      let r := tree f k (lvl + 1) o.1
      (r.1, o.2 ||| r.2)

/-- The draws of a reduction: one per level (R146, R153). -/
def treeDepth (t : VTy) : Nat := nbits (VTy.count t) - 1

def laneReduce (t : VTy) (f : Nat → Nat → Nat → Nat → Nat × Fl) (s : VSrc) : List LaneOut :=
  let w := VTy.ew t
  let r := tree f 9 0 ((upTo (VTy.count t)).map (elem w s.a))
  let deps : List Dep := (upTo 64).map fun l => (0, l)
  byElem w (fun q => (r.1, if q = 0 then r.2 else 0)) (fun _ => deps)

def laneRsum (e : VEnv) (t : VTy) (md : BitVec 2) (s : VSrc) : List LaneOut :=
  let e := e.withMod md
  laneReduce t (fun lvl i x y =>
    if VTy.isFp t then (VTy.fmt t).addOp e.r (e.rnd lvl i) false x y
    else (code (VTy.ew t) (VTy.int t x + VTy.int t y), 0)) s

def laneRmm (e : VEnv) (t : VTy) (mx : Bool) (s : VSrc) : List LaneOut :=
  laneReduce t (fun _ _ x y =>
    if VTy.isFp t then (VTy.fmt t).minmax e.r.graded mx x y
    else
      let p := VTy.int t x
      let q := VTy.int t y
      (code (VTy.ew t) (if mx then max p q else min p q), 0)) s

/-! ### Approximations, dot products, counts -/

def laneApprox (e : VEnv) (t : VTy) (f : Fmt → Bool → Nat → Nat × Fl) (s : VSrc) : List LaneOut :=
  lanes1 t s fun _ x => f (VTy.fmt t) e.r.graded x

/-- `vdot4` (R164). The three terms of bf16x2 are added in the order d, a₀b₀, a₁b₁: where a quiet NaN stands beside ∞ − ∞, IV is
set as this order meets them (DESIGN CHOICE log 55). -/
def laneDot (e : VEnv) (t : VTy) (md : BitVec 2) (s : VSrc) : List LaneOut :=
  let e := e.withMod md
  byElem 32 (fun j =>
      let x := elem 32 s.a j
      let y := elem 32 s.b j
      let d := elem 32 s.d j
      if VTy.isFp t then
        let ai := fun k => bf16.input e.r.graded (elem 16 x k)
        let bi := fun k => bf16.input e.r.graded (elem 16 y k)
        let di := fp32.input e.r.graded d
        let p0 := FVal.mul (ai 0).1 (bi 0).1
        let p1 := FVal.mul (ai 1).1 (bi 1).1
        let rd := e.r.mode == .rd
        let u := FVal.add rd di.1 p0.1
        let v := FVal.add rd u.1 p1.1
        let o := fp32.result e.r.mode (e.rnd 0 j) e.r.graded v.1
        (o.1, (ai 0).2 ||| (ai 1).2 ||| (bi 0).2 ||| (bi 1).2 ||| di.2 ||| p0.2 ||| p1.2 ||| u.2 ||| v.2 ||| o.2)
      else
        let w := VTy.ew t
        let sum := (upTo (32 / w)).foldl (fun acc k => acc + sgn w (elem w x k) * sgn w (elem w y k)) (sgn 32 d)
        intResult .i32 (md == 1) sum)
    (depsOf 32 [0, 1, 3])

/-- `vtacc` (R122, R165). -/
def laneTacc (t : VTy) (s : VSrc) : List LaneOut :=
  let w := VTy.ew t
  byElem 32 (fun j =>
      let x := elem 32 s.a j
      let y := elem 32 s.b j
      let sum := (upTo (32 / w)).foldl
        (fun acc k => acc + (sgn w (elem w x k)).sign * sgn w (elem w y k)) (elem 32 s.d j : Int)
      (code 32 sum, 0))
    (depsOf 32 [0, 1, 3])

/-- One bits of a number below 2^k. -/
def ones : Nat → Nat → Nat
  | 0, _ => 0
  | k + 1, n => n % 2 + ones k (n / 2)

def lanePopc (t : VTy) (s : VSrc) : List LaneOut := lanes1 t s fun _ x => (ones (VTy.ew t) x, 0)

def laneClz (t : VTy) (s : VSrc) : List LaneOut := lanes1 t s fun _ x => (VTy.ew t - nbits x, 0)

/-! ### VX instructions (R167 to R179) -/

/-- What the codes of `vcvt` stand for (R169, R170). -/
inductive Kind where
  | fp (f : Fmt)
  | int (w : Nat) (signed : Bool)
  deriving DecidableEq, Repr, Inhabited

/-- The numeric formats 0 to 11 of R126. -/
def kindOf (c : Nat) : Kind :=
  match c with
  | 0 => .fp fp32
  | 1 => .fp fp16
  | 2 => .fp bf16
  | 3 => .fp e5m2
  | 4 => .fp e4m3
  | 5 => .fp e3m2
  | 6 => .fp e2m3
  | 7 => .fp e2m1
  | 8 => .int 16 true
  | 9 => .int 8 true
  | 10 => .int 8 false
  | _ => .int 4 true

/-- Register width of a kind (R170): the 6-bit formats take a byte. -/
def Kind.reg : Kind → Nat
  | .fp f => if f.width = 6 then 8 else f.width
  | .int w _ => w

/-- Value bits of a kind. -/
def Kind.bits : Kind → Nat
  | .fp f => f.width
  | .int w _ => w

/-- One conversion (R170): source and destination kinds, mode, random value. -/
def convert (src dst : Kind) (mode : RMode) (r : Nat) (graded : Bool) (x : Nat) : Nat × Fl :=
  let v : FVal × Fl :=
    match src with
    | .fp f => f.input graded (x % 2 ^ f.width)
    | .int w s => let i := if s then sgn w (x % 2 ^ w) else ((x % 2 ^ w : Nat) : Int)
                  (.fin (decide (i < 0)) i.natAbs 0, 0)
  match dst with
  | .fp f => let o := f.result mode r graded v.1; (o.1, v.2 ||| o.2)
  | .int w s =>
    let lo : Int := if s then -((2 ^ (w - 1) : Nat) : Int) else 0
    let hi : Int := if s then ((2 ^ (w - 1) : Nat) : Int) - 1 else ((2 ^ w : Nat) : Int) - 1
    let o := toInteger mode r lo hi v.1
    (code w o.1, v.2 ||| o.2)

/-- The kinds of a `vcvt` word (R169). -/
def cvtKinds (src cf : Nat) (md : Bool) : Kind × Kind :=
  if md then
    match src with
    | 0 => (.int 32 true, kindOf cf)
    | 1 => (kindOf cf, .int 32 true)
    | _ => (.int 64 true, kindOf cf)
  else (kindOf src, kindOf cf)

/-- Slot width of a `vcvt` word. -/
def cvtSlot (src cf : Nat) (md : Bool) : Nat :=
  let k := cvtKinds src cf md
  max k.1.reg k.2.reg

/-- The draws a `vcvt` takes in mode SR (R153): none between two integer formats, which rounds nothing (R170; DEDUCED log 33). -/
def cvtDraws (src cf : Nat) (md : Bool) : Nat :=
  match cvtKinds src cf md with
  | (.int _ _, .int _ _) => 0
  | _ =>
    match cvtSlot src cf md with
    | 8 => 2
    | 4 => 4
    | _ => 1

/-- `vcvt` (R169, R170). The element index that mode SR takes is the number of the slot, also where the destination format is
narrower than its slot (R153; DESIGN CHOICE log 55). -/
def laneCvt (e : VEnv) (src cf : Nat) (md : Bool) (s : VSrc) : List LaneOut :=
  let k := cvtKinds src cf md
  let w := cvtSlot src cf md
  let r := fun q => if w < 16 then e.rnd (q / 128) (q % 128) else e.rnd 0 q
  byElem w (fun q => convert k.1 k.2 e.r.mode (r q) e.r.graded (elem k.1.reg (elem w s.a q) 0)) (depsOf w [0])

/-- The lanes of a byte range of a register, as dependences of source `s`. -/
def byteLanes (s lo n : Nat) : List Dep :=
  if n = 0 then [] else (upTo ((lo + n - 1) / 4 - lo / 4 + 1)).map fun i => (s, lo / 4 + i)

/-- The 64 lanes of a whole register value, each with the same dependences on the lanes a predicate picks. -/
def wholeReg (v : Nat) (fl : Fl) (deps : Nat → List Dep) : List LaneOut :=
  byElem 32 (fun j => (elem 32 v j, if j = 0 then fl else 0)) deps

/-- Blocks of an image: 2 for f32, 4 for bf16x2 (R174). -/
def imgBlocks (bf : Bool) : Nat := if bf then 4 else 2

/-- The image of blocks of `n`-bit mantissas (R174). -/
def imgOf (n : Nat) (bs : List (Nat × List Int)) : Nat :=
  packW (24 * n) (bs.map fun b => packW n (b.2.map (code n))) + 2 ^ (8 * 248) * packW 8 (bs.map Prod.fst)

/-- Block `g` of an image: scale and mantissas. -/
def imgBlock (n : Nat) (v g : Nat) : Nat × List Int :=
  (v / 2 ^ (8 * (248 + g)) % 256, (upTo 24).map fun i => sgn n (elem n (v / 2 ^ (24 * n * g)) i))

/-- `vbq` (R175). -/
def laneBq (n : Nat) (bf : Bool) (s : VSrc) : List LaneOut :=
  let g := imgBlocks bf
  let f := if bf then bf16 else fp32
  let w := if bf then 16 else 32
  let c := min (elem 8 s.b 0) (24 * g)
  let bs := (upTo g).map fun k =>
    let xs := (upTo (min 24 (c - 24 * k))).map fun i => f.value (elem w s.a (24 * k + i))
    if xs.isEmpty then (0, List.replicate 24 0, (0 : Fl)) else blockRule n xs
  let fl := bs.foldl (fun a b => a ||| b.2.2) 0
  let deps := byteLanes 0 0 (c * w / 8) ++ [(1, 0)]
  wholeReg (imgOf n (bs.map fun b => (b.1, b.2.1))) fl (fun _ => deps)

/-- `vbdq` (R176). -/
def laneBdq (e : VEnv) (n : Nat) (bf : Bool) (s : VSrc) : List LaneOut :=
  let g := imgBlocks bf
  let f := if bf then bf16 else fp32
  let w := if bf then 16 else 32
  byElem w (fun q =>
      if 24 * g ≤ q then (0, 0)
      else
        let b := imgBlock n s.a (q / 24)
        let m := b.2.getD (q % 24) 0
        if b.1 = 255 then (f.nanCode, 0)
        else f.round e.r.mode (e.rnd 0 q) e.r.graded (decide (m < 0)) m.natAbs ((b.1 : Int) - 127))
    (fun q => if 24 * g ≤ q then [] else
      let lo := 3 * n * (q / 24) + n * (q % 24) / 8
      let hi := 3 * n * (q / 24) + (n * (q % 24) + n - 1) / 8
      byteLanes 0 lo (hi - lo + 1) ++ byteLanes 0 (248 + q / 24) 1)

/-- `vbscl` (R177). -/
def laneBscl (n : Nat) (bf : Bool) (s : VSrc) : List LaneOut :=
  let g := imgBlocks bf
  let sh := sgn 9 (elem 32 s.b 0 % 512)
  let bs := (upTo g).map fun k =>
    let b := imgBlock n s.a k
    let x : Int := (b.1 : Int) + sh
    if b.1 = 255 ∨ b.2.all (fun m => m == 0) then (b.1, b.2, (0 : Fl))
    else if 254 < x then (255, List.replicate 24 0, flOF)
    else if x < 0 then (0, List.replicate 24 0, flUF)
    else (x.toNat, b.2, 0)
  let fl := bs.foldl (fun a b => a ||| b.2.2) 0
  let deps := byteLanes 0 0 (3 * n * g) ++ byteLanes 0 248 g ++ [(1, 0)]
  wholeReg (imgOf n (bs.map fun b => (b.1, b.2.1))) fl
    (fun j => if 4 * j < 3 * n * g ∨ j = 62 then deps else [])

/-- Trit `i` of a T3 byte, and whether the byte is illegal (R123, R129). -/
def trit (b i : Nat) : Int := if 243 ≤ b then 0 else ((b / 3 ^ i % 3 : Nat) : Int) - 1

/-- `vtunp` (R123). -/
def laneTunp (n : Nat) (s : VSrc) : List LaneOut :=
  (upTo 64).map fun j =>
    let x := elem 32 s.a j
    let bad := (upTo 4).any fun m => decide (243 ≤ elem 8 x m)
    { val := packW 8 ((upTo 4).map fun e => code 8 (trit (elem 8 x ((4 * n + e) / 5)) ((4 * n + e) % 5)))
      fl := flIf bad flTBAD
      deps := [(0, j)]
      bad := bad }

/-- Element width of a width code (R172). -/
def packE (wc : Nat) : Nat := 4 * 2 ^ wc

/-- `vpak`: of a slot only its low half is read, element `2q` of the narrow width (R150, R171). -/
def lanePak (wc : Nat) (s : VSrc) : List LaneOut :=
  if wc = 4 then
    (upTo 64).map fun j =>
      { val := if j < 48 then elem 32 (packW 6 ((upTo 256).map fun i => elem 8 s.a i)) j else 0
        fl := 0
        deps := if j < 48 then
            let lo := 32 * j / 6
            byteLanes 0 lo ((32 * j + 31) / 6 - lo + 1)
          else []
        bad := false }
  else
    let e := packE wc
    let m := 1024 / e
    byElem e (fun q => (if q < m then elem (2 * e) s.a q % 2 ^ e else elem (2 * e) s.b (q - m) % 2 ^ e, 0))
      (fun q => if q < m then depsOf e [0] (2 * q) else depsOf e [1] (2 * (q - m)))

/-- `vupk` (R173). -/
def laneUpk (wc h : Nat) (sx : Bool) (s : VSrc) : List LaneOut :=
  let ext := fun (e w x : Nat) => if sx then code w (sgn e x) else x
  if wc = 4 then
    byElem 8 (fun i => (ext 6 8 (elem 6 s.a i), 0))
      (fun i => byteLanes 0 (6 * i / 8) ((6 * i + 5) / 8 - 6 * i / 8 + 1))
  else
    let e := packE wc
    let m := 1024 / e
    byElem (2 * e) (fun q => (ext e (2 * e) (elem e s.a (h * m + q)), 0)) (fun q => depsOf e [0] (h * m + q))

/-- `vrng` with the key as a number (R179). -/
def laneRng (key : Nat) (keyDeps : List Dep) (s : VSrc) : List LaneOut :=
  let out := fun o => (mix10 (Mix.ofNat key) (Mix.ofNat (s.a / 2 ^ (128 * o)))).toNat
  byElem 32 (fun j => (elem 32 (out (j / 4)) (j % 4), 0))
    (fun j => ((upTo 4).map fun i => (0, j / 4 * 4 + i)) ++ keyDeps)

end Sys2Proof.Machine
end

