-- ==== Sys2Proof/Machine/State.lean ====
section
/-! DEFINITION. The state of the LM8 module as plain data, the reasons a step may stop, and the state after reset. -/

namespace Sys2Proof.Machine

/-! ### Memory -/

/-- Bytes by address. An unlisted address reads 0: a free line or block reads zero (R259). Canonical form: addresses
strictly rising, no listed byte equal to 0. -/
abbrev Mem := List Host.Cell

/-- Small numbers by key in the same canonical form: keys strictly rising, no entry equal to 0. Owner tags by line or
block (R259), key slots by block (R260). -/
abbrev Tags := List (Nat × Nat)

/-- A buffer A, W or C: bytes, the tag that the steward gave every line when it allocated the buffer, the owner tag of every
128-byte line that has another (R259), the addresses of poisoned bytes (R51). -/
structure Buf where
  cells : Mem
  all : Nat
  owner : Tags
  bad : List Nat
  deriving DecidableEq, Repr, Inhabited

/-- HBM4 and the memory mapped behind port groups, by physical address (R248): bytes, the owner tag of every 4 KiB
block (R259), the key slot under which a block was last written (R260), the 32 MiB regions that are not live (R261). -/
structure PMem where
  cells : Mem
  owner : Tags
  key : Tags
  dead : List Nat
  deriving DecidableEq, Repr, Inhabited

/-! ### Register files -/

/-- A scalar register and its poison bit (R51). -/
structure SReg where
  val : W64
  poison : Bool
  deriving DecidableEq, Repr, Inhabited

/-- A vector register, lane j at bits [32j+31:32j], and its lane poison bits (R51, R148). -/
structure VReg where
  val : VWord
  poison : BitVec 64
  deriving DecidableEq, Repr, Inhabited

/-- A steer register: condition, poison of the condition, target (R51). -/
structure Steer where
  c : Bool
  cp : Bool
  t : IAddr
  deriving DecidableEq, Repr, Inhabited

/-- A loop level: LCNT, LIDX, LBEG and LEND with the graded flag in bit 15 (R85). -/
structure Level where
  cnt : W64
  idx : W64
  beg : IAddr
  fin : BitVec 16
  deriving DecidableEq, Repr, Inhabited

/-- A window: base, limit and key index (R51, R242). -/
structure Window where
  base : BitVec 80
  limit : BitVec 56
  key : BitVec 8
  deriving DecidableEq, Repr, Inhabited

/-- The register files of a core (R51). -/
structure Regs where
  s : Vector SReg 32
  v : Vector VReg 32
  g : Vector Steer 12
  win : Vector Window 8
  deriving DecidableEq, Repr, Inhabited

/-- The loop stack (R51, R52). -/
structure Loops where
  lev : Vector Level 6
  lsd : BitVec 3
  deriving DecidableEq, Repr, Inhabited

/-- The special registers that are no part of another file (R52). -/
structure Spec where
  lt : W64
  cyc : W64
  frame : W64
  stallc : Vector W64 8
  leavec : W64
  tagmap : W64
  fpctl : W64
  fpstat : W64
  srk0 : W64
  srk1 : W64
  src0 : W64
  src1 : W64
  trapc : W64
  trappc : IAddr
  trapv : IAddr
  stage : BitVec 8
  ptcs : BitVec 48
  bubup : W64
  bubdn : W64
  bubst : W64
  deriving DecidableEq, Repr, Inhabited

/-! ### Causes and stops -/

/-- The causes of R102. -/
inductive Cause where
  | none | trapi | poison | fpx | loopovf | illop | illbundle | badtarget | stamp | tsmismatch | xlate | perm | uecc
  | window | cberr | landfull | stop | preempt | halted
  deriving DecidableEq, Repr, Inhabited

/-- What an asynchronous cause names (R106, R111): nothing, an engine operation by its number, a remote access by its
number, an MSQ program by its number. -/
inductive Culprit where
  | none
  | engine (id : Nat)
  | access (id : Nat)
  | program (num : Nat)
  deriving DecidableEq, Repr, Inhabited

/-- The cause, flags and addresses of a stop record (R111), and what an asynchronous cause names. -/
structure Stop where
  cause : Cause
  faulting : Bool
  escalated : Bool
  async : Bool
  msq : Bool
  done : Bool
  syncw : Bool
  final : Bool
  code : BitVec 16
  addr : IAddr
  finfo0 : W64
  finfo1 : W64
  syncst : W64
  culprit : Culprit
  deriving DecidableEq, Repr, Inhabited

/-- Where a core stands in its leg (R14, R27, R91, R106). -/
inductive Run where
  /-- no leg runs on the core -/
  | idle
  /-- the core issues bundles -/
  | running
  /-- the sync bundle has issued; the drain and fence of R27 step 2 may still wait, or the tile has posted -/
  | barrier (posted : Bool) (scope : Scope)
  /-- the core's part of the leg has ended (R91) -/
  | halted
  /-- the core has stopped by a partition halt and its record is not yet written (R106, R107) -/
  | stopping
  /-- the stop record is written (R108, R111) -/
  | stopped
  deriving DecidableEq, Repr, Inhabited

/-! ### Results in flight -/

/-- The buffers that have a logical time of their own. -/
inductive BSpace where
  | a | w | c
  deriving DecidableEq, Repr, Inhabited

/-- What a result does when it performs (R19, R112): the landing kinds of R112 (`lanes`: a group of 16 lanes of a `vsct`), then
the effects of engines that have a logical cycle of their own (R195, R210, R211, R228, and 10_matrix_engine.md). `fl` holds the
FPSTAT flags that are set when the result performs (R144). -/
inductive Landing where
  | sreg (d : Reg) (v : W64) (p : Bool) (fl : BitVec 9)
  | vreg (d : Reg) (v : VWord) (p : BitVec 64) (fl : BitVec 9)
  | gcond (g : GIdx) (v p : Bool)
  | gtarg (g : GIdx) (t : IAddr)
  | special (n : BitVec 16) (v : W64)
  | bstore (sp : BSpace) (w : List (Nat × Byte)) (lanes : Bool)
  | tagset (t : BitVec 6) (v : Bool)
  | cbptr (n : BitVec 4) (cons : Bool) (bytes : Nat)
  | rcvdata (id : Nat) (opnd : List Byte) (w : List (Nat × Byte))
  | signal (t : BitVec 6)
  | mclr (id base elems : Nat)
  | swap
  | wgroup (load group : Nat)
  | plane (load : Nat)
  | enter (stream row : Nat)
  | axrow (stream row : Nat)
  | cbtake (stream : Nat)
  | flags (fl : BitVec 9)
  deriving DecidableEq, Repr, Inhabited

/-- Whether a result waits for bytes from outside the tile: a reply of a variable-latency endpoint (R28) or the bytes
of a K load (R207), by request number. -/
inductive Await where
  | no
  | reply (id : Nat)
  | net (id : Nat)
  deriving DecidableEq, Repr, Inhabited

/-- A result in flight: the logical cycles until it performs, the logical cycles that have ended since it was due, while its reply
or an older one was missing (R28, R54), the declared latency of a variable-latency result (0: it is none), what it waits for, what
it does. Held in issue order, then pipe order (R54, R111). -/
structure Flight where
  remain : Nat
  past : Nat
  declared : Nat
  await : Await
  what : Landing
  deriving DecidableEq, Repr, Inhabited

/-- An LQ entry (R223, R225): its request, cycles until it is due, whether the reply has come, the old value, its
flags. -/
structure LqEntry where
  id : Nat
  remain : Nat
  here : Bool
  val : W64
  fl : BitVec 9
  deriving DecidableEq, Repr, Inhabited

/-! ### Engines -/

/-- A circular buffer (R210). -/
structure Cb where
  inC : Bool
  base : Nat
  size : Nat
  elem : Nat
  prod : Nat
  cons : Nat
  deriving DecidableEq, Repr, Inhabited

/-- A K-block after alignment: its scale byte and 24 mantissas (R134). -/
structure Blk where
  e : BitVec 8
  m : List Int
  deriving DecidableEq, Repr, Inhabited

/-- The active set of the array (R187). -/
inductive PSet where
  | p0 | p1 | pair
  deriving DecidableEq, Repr, Inhabited

/-- The contents an `mlds` gives a plane (R184): number of the load, its descriptor and addresses, whether it is paired,
whether it activates itself (R187), the groups of 24 rows read so far (one block per column), the flags of its aligner
(R134). -/
structure Load where
  id : Nat
  desc : W64
  a : Nat
  b : Nat
  paired : Bool
  self : Bool
  groups : List (List Blk)
  fl : BitVec 9
  ready : Bool
  deriving DecidableEq, Repr, Inhabited

/-- The data of a row: its aligned width, K-blocks and the flags of its alignment (R134). -/
structure RowData where
  row : Nat
  wid : Nat
  blks : List Blk
  fl : BitVec 9
  deriving DecidableEq, Repr, Inhabited

/-- A stream of `mmul` or `mmulc` (R182 to R195): number, LT of issue, descriptor, AX base, activation address, its
circular buffer, whether it has fired, the copy it follows (R197), steps per row (unknown on a chained tile until tile
0's command is met), hops, the count of `mmulc` it is, the data of the rows read so far. `axv`: the operand that names the AX
region (R113). `undo`: while its copy runs, the logical cycle, place and old byte of every write to A with a logical time (R191). -/
structure Stream where
  id : Nat
  lt : W64
  desc : W64
  axb : Nat
  axv : W64
  act : Nat
  cb : Option (BitVec 4)
  fired : Bool
  gate : Option Nat
  d : Option Nat
  hops : Nat
  chain : Option Nat
  data : List RowData
  undo : List (Nat × Nat × Byte)
  deriving DecidableEq, Repr, Inhabited

/-- An AX element: value, SAT, NAN (R136). -/
structure Ax where
  v : Int
  sat : Bool
  nan : Bool
  deriving DecidableEq, Repr, Inhabited

/-- What a row adds to its AX elements (R137): the number of its stream, acc_lsb, the contents of its plane, its K-blocks. -/
structure RowAdd where
  stream : Nat
  acc : Int
  load : Load
  blks : List Blk
  deriving DecidableEq, Repr, Inhabited

/-- A row of AX elements to which a stream has added while the row of an earlier stream has still to add to it (R137): the places
of its values and of its status bits, what has been added in issue order, its elements before the first addition and after the
last. -/
structure EarlyRow where
  vals : Nat
  stat : Nat
  adds : List RowAdd
  old : List Ax
  new : List Ax
  deriving DecidableEq, Repr, Inhabited

/-- The matrix array (R187, R188): the active set, the load each plane holds, every load a plane or a row still needs,
whether a load that activates itself is pending, the streams, the count of `mmulc` issued and their (LT, descriptor,
steps) as the chain compares them (R194), and the active set and the plane contents by the logical cycle from which
they govern entering rows (R188), the rows that have performed before those of earlier streams (R137). -/
structure Arr where
  active : PSet
  p0 : Nat
  p1 : Nat
  loads : List Load
  selfAct : Nat
  streams : List Stream
  nchain : Nat
  log : List (Nat × W64 × W64 × Nat)
  hist : List (Nat × PSet × Nat × Nat)
  early : List EarlyRow
  deriving DecidableEq, Repr, Inhabited

/-- A buffer place as decoded from R200. -/
inductive Place where
  | at (sp : Space) (off : Nat)
  | cb (n : BitVec 4)
  deriving DecidableEq, Repr, Inhabited


/-- A piece of a global access: physical address, bytes. -/
structure Piece where
  pa : PAddr
  n : Nat
  deriving DecidableEq, Repr, Inhabited

/-- How far a unit of bytes of an engine is on its way to its place in memory over the ring (R314, R316): no cells, its request
cells, the cells of its answer with the bytes and the STALE flag. -/
inductive Way where
  | home
  | out (ps : List Piece)
  | back (ps : List Piece) (bytes : List Byte) (stale : Bool)
  deriving DecidableEq, Repr, Inhabited

/-- A side of a copy: a buffer place, or global memory through a window (R201). -/
inductive Side where
  | buf (p : Place)
  | glob (win : BitVec 3) (off : Nat)
  deriving DecidableEq, Repr, Inhabited

/-- A copy (R212 to R214): number, EX op, sides, length, tag, the source bytes once read (R213: as if all were read
before any is written), the bytes written so far, the 32-byte record of a `cpm` (R197) and the LT and active set of its
bundle, the STALE flag (R261), the way of the unit that its engine moves. -/
structure Copy where
  id : Nat
  op : BitVec 8
  dst : Side
  src : Side
  len : Nat
  tag : BitVec 6
  got : Option (List Byte)
  done : Nat
  record : List Byte
  lt : W64
  stale : Bool
  faulted : Bool
  way : Way
  deriving DecidableEq, Repr, Inhabited

/-- A gather or scatter as PIXG counts it (R114): its number, its MB op, the logical cycles since its issue, its operand values as
read at issue (R113). -/
structure GatScat where
  id : Nat
  op : BitVec 8
  age : Nat
  opnd : List (BitVec 8)
  deriving DecidableEq, Repr, Inhabited

/-- A collective (R232, R110): number, record read at issue, exchange steps complete, the flags of its result, whether
another participant has abandoned it or its record differs, whether its tile has raised that. -/
structure Coll where
  id : Nat
  record : List Byte
  steps : Nat
  fl : BitVec 9
  gone : Bool
  told : Bool
  deriving DecidableEq, Repr, Inhabited

/-- A remote access that has issued and not yet performed or arrived (R229, R267). `off` is its register offset s(a) as issued
(R111, R112). -/
inductive ReqKind where
  /-- load from K: address in the cluster space, whether a vector form, element size -/
  | kload (x : Nat) (vec : Bool) (size : Size)
  /-- store to K: bytes -/
  | kstore (w : List (Nat × Byte))
  /-- global load: pieces, window, offset, speculative, vector -/
  | gload (ps : List Piece) (win : BitVec 3) (off : Nat) (sp vec : Bool)
  /-- global store -/
  | gstore (ps : List Piece) (win : BitVec 3) (off : Nat) (bytes : List Byte)
  /-- atomic: operation, 4-byte form, operands -/
  | amo (ps : List Piece) (win : BitVec 3) (off : Nat) (op : AmoOp) (w4 : Bool) (v v2 : W64)
  /-- reduction contribution -/
  | red (ps : List Piece) (win : BitVec 3) (off : Nat) (op : AmoOp) (w4 : Bool) (v : W64)
  /-- message: destination, stamp, bytes -/
  | snd (dst : Nat) (far : Bool) (stamp : BitVec 26) (bytes : List Byte)
  /-- trigger of the leg, with the outbox bytes the anchor's trigger covers (R231, R298), and whether it is that of a halt, which
  covers all writes of the tile (R276) -/
  | trig (box : List Byte) (all : Bool)
  /-- a load or an atomic that has performed on another die: its bytes and flags, whether an atomic, what it was; the cells of its
  reply are under way (R314, R316) -/
  | back (bytes : List Byte) (fl : BitVec 9) (amo : Bool) (was : ReqKind)
  deriving DecidableEq, Repr, Inhabited

/-- An outstanding remote access, its number, and the fault that keeps it from performing until it is issued again
(R108, R222). -/
structure Req where
  id : Nat
  kind : ReqKind
  fault : Option Cause
  deriving DecidableEq, Repr, Inhabited

/-- An untaken message in a skid (R26, R307): sender or far-tile number, whether it is a far tile's, stamp, bytes. -/
structure Msg where
  src : Nat
  far : Bool
  stamp : BitVec 26
  bytes : List Byte
  deriving DecidableEq, Repr, Inhabited

/-- A delivery of an engine that its tile has not yet written: whether it is a copy's or one of the memory sequencer, the buffer and
the bytes (R26). -/
structure Deliv where
  copy : Bool
  space : BSpace
  bytes : List (Nat × Byte)
  deriving DecidableEq, Repr, Inhabited

/-- The engines and queues of a core. `inq`: the deliveries of engines that wait, oldest first (R26). -/
structure Eng where
  cbs : Vector (Option Cb) 16
  arr : Arr
  copies : List Copy
  unretired : List (BitVec 8 × BitVec 6)
  gs : List GatScat
  colls : List Coll
  lq : List LqEntry
  reqs : List Req
  skid : List Msg
  inq : List Deliv
  trig : Bool
  credit : List (Nat × Nat)
  lazyFl : List (BitVec 6 × BitVec 9)
  redFl : BitVec 9
  openRed : Nat
  nextId : Nat
  deriving DecidableEq, Repr, Inhabited

/-- The buffers and both instruction planes of a core (R33, R239), and which plane fetch reads (R302). -/
structure Store where
  a : Buf
  w : Buf
  c : Buf
  ip0 : Mem
  ip1 : Mem
  plane : Bool
  deriving DecidableEq, Repr, Inhabited

/-- The part of a core that belongs to its context and is saved and restored with it (R13, R111 to R118). `after`: the
logical cycles that have begun since the tile's `halt`, in which its engines go on (R19, R91). -/
structure Arch where
  regs : Regs
  loops : Loops
  spec : Spec
  store : Store
  eng : Eng
  flight : List Flight
  pc : IAddr
  xfer : Bool
  fromTrap : Bool
  run : Run
  stop : Option Stop
  after : Nat
  deriving DecidableEq, Repr, Inhabited

/-! ### Cores -/

/-- What a bundle's words leave for its end: the outcome of the words so far. The model's own field (DESIGN CHOICE log 5). -/
inductive Verdict where
  /-- no bundle is being issued -/
  | idle
  /-- the words so far have issued -/
  | issued
  /-- the cycle was an elastic stall -/
  | stall (c : StallCause)
  /-- the cycle was a held empty bundle (R24, R225) -/
  | held
  /-- a cause was raised before the bundle issued -/
  | raised
  deriving DecidableEq, Repr, Inhabited

/-- The registers that count queues, as they stood when the bundle began to issue: the load queue, PIXM, PIXG, PIXC
(R94). The model's own field (DESIGN CHOICE log 5). -/
structure Seen where
  lqn : W64
  pixm : W64
  pixg : W64
  pixc : W64
  deriving DecidableEq, Repr, Inhabited

/-- The issue context of the bundle being issued: its first address, the next start word in sequence (none past the
last packet), the address of the current word, the XT value of the current word, the stamp word of the bundle, the
target its C word decided, whether the end check is skipped (R87), the outcome of the words so far, the queue counts as
they stood when it began, the flags of the deliveries it has observed (R144).
The model's own field (DESIGN CHOICE log 5). -/
structure Iss where
  start : IAddr
  seqNext : Option IAddr
  word : IAddr
  ext : Option (BitVec 27)
  held : Option (BitVec 26)
  next : Option IAddr
  skip : Bool
  verdict : Verdict
  seen : Seen
  fl : BitVec 9
  deriving DecidableEq, Repr, Inhabited

/-- A micro-TLB entry (R246): virtual page, log2 of its size, the leaf entry. -/
structure Tlb where
  ctx : BitVec 16
  vpn : Nat
  bits : Nat
  leaf : W64
  deriving DecidableEq, Repr, Inhabited

/-- The page walk a bundle waits for (R246): the page and whether it reads or writes; or its fault. -/
inductive Walk where
  | none
  | wait (va : Nat) (rd wr : Bool)
  | fault (va : Nat) (rd wr : Bool)
  deriving DecidableEq, Repr, Inhabited

/-- Power leave (R198): not asked, waiting, granted. -/
inductive Leave where
  | none | asked | granted
  deriving DecidableEq, Repr, Inhabited

/-- A checkpoint request (R100): tag, the state captured, the 4 KiB buffer blocks copied since ahead of a change. -/
structure Ckpt where
  tag : BitVec 6
  image : Option Arch
  saved : List (BSpace × Nat)
  deriving DecidableEq, Repr, Inhabited

/-- A tile or a steward. `kept`: its tile block holds a checkpoint that the trickle leaves alone (R119). `since`: its SYNC
stalls since it posted at a barrier (R27). `served`: the tile cycles its buffer ports have worked on the accesses of the
logical cycle that begins (R240). -/
structure Core extends Arch where
  num : Nat
  steward : Bool
  ctx : BitVec 16
  part : BitVec 6
  rank : BitVec 8
  ncl : BitVec 6
  utlb : List Tlb
  walk : Walk
  leave : Leave
  grants : List (Nat × BitVec 32)
  ckpt : List Ckpt
  kept : Bool
  fault : Option Stop
  since : Nat
  served : Nat
  iss : Iss
  deriving DecidableEq, Repr, Inhabited

/-! ### Memory sequencer and die -/

/-- A transfer of the memory sequencer in progress (R220, R251): number, the program it belongs to and its slot, read or write, tag,
the tiles it fills or the one it reads, buffer space and offset, bursts, layout, re-block descriptor (R253), window and
offset, the tile that started the program, the number and the first word of its `msq`, index of the word, bursts moved so far, the STALE
flag (R261), the way of the burst that moves, the bursts read so far for a conversion, what the conversion has still to write and
the flags it raised (R252). -/
structure Xfer where
  id : Nat
  prog : Nat
  slot : Nat
  write : Bool
  tag : BitVec 6
  cores : List Nat
  space : BitVec 2
  boff : Nat
  len : Nat
  layout : BitVec 2
  desc : BitVec 54
  win : BitVec 3
  off : Nat
  owner : Nat
  key : Nat
  first : Nat
  word : Nat
  done : Nat
  stale : Bool
  way : Way
  got : List Byte
  out : Option (List (List (Nat × Byte)))
  fl : BitVec 9
  deriving DecidableEq, Repr, Inhabited

/-- A program slot of the memory sequencer (R218): the number of its program and of the `msq` that asked for it, the tile that
started it, its context,
the indices of its first and its next word in the context's region, its registers. -/
structure Slot where
  busy : Bool
  num : Nat
  key : Nat
  tile : Nat
  ctx : BitVec 16
  first : Nat
  pc : Nat
  ma : Vector (BitVec 54) 16
  ms : Vector (BitVec 54) 16
  mm : Vector (BitVec 32) 8
  cnt : Vector (BitVec 16) 4
  deriving DecidableEq, Repr, Inhabited

/-- The memory sequencer of a die (R218): program store, regions by context (first word, words), slots, waiting
requests (tile, index, number of the `msq`), signal counts by (tile, tag), transfers, the slot whose burst was the last. -/
structure Msq where
  prog : Mem
  regions : List (BitVec 16 × Nat × Nat)
  slots : Vector Slot 8
  wait : List (Nat × Nat × Nat)
  signals : List ((Nat × BitVec 6) × Nat)
  xfers : List Xfer
  nextId : Nat
  last : Nat
  deriving DecidableEq, Repr, Inhabited

/-- A channel of HBM4 (R250): it works, a handshake is under way for it to lend its lanes, it lends them, a handshake is under way
to reclaim them. -/
inductive Chan where
  | normal | lend | lending | reclaim
  deriving DecidableEq, Repr, Inhabited

/-- A held contribution to a reduction element (R227): linear tile number, order of arrival, value, window and register
offset of the `red` that made it. -/
structure Contrib where
  tile : Nat
  seq : Nat
  val : W64
  win : BitVec 3
  off : Nat
  deriving DecidableEq, Repr, Inhabited

/-- An open round (R323): window, element address, operation, size, contributions. -/
structure Round where
  win : Nat
  pa : PAddr
  op : AmoOp
  w4 : Bool
  mixed : Bool
  got : List Contrib
  deriving DecidableEq, Repr, Inhabited

/-- A ring cell (R315) with its payload, whether it is on its second circulation, and the tile cycle in which that circulation
began at its source. -/
structure RCell where
  dstr : BitVec 8
  dstr0 : BitVec 8
  sdie : BitVec 3
  sunit : BitVec 6
  dunit : BitVec 6
  kind : BitVec 4
  again : Bool
  part : BitVec 6
  tid : BitVec 16
  vlen : BitVec 8
  seq : BitVec 6
  payload : List Byte
  born : Nat
  deriving DecidableEq, Repr, Inhabited

/-- A flow of cells (R320): ring, strand, source die and unit, destination unit, original destination string. -/
structure Flow where
  ringW : Bool
  strand : BitVec 3
  sdie : BitVec 3
  sunit : BitVec 6
  dunit : BitVec 6
  dstr : BitVec 8
  deriving DecidableEq, Repr, Inhabited

/-- A ring station (R318 to R320): queued cells by (ring, strand), ingress queues by (ring, strand, unit), the next SEQ
to send and to expect per flow, cells not yet confirmed with their slots. -/
structure Station where
  egress : List (Bool × BitVec 3 × RCell)
  ingress : List (Bool × BitVec 3 × RCell)
  sent : List (Flow × BitVec 6)
  expect : List (Flow × BitVec 6)
  unconf : List ((Bool × BitVec 3 × BitVec 6) × RCell)
  deriving DecidableEq, Repr, Inhabited

/-- The PTP clock and servo of a die (R340, R342): seconds, nanoseconds, tenths of a nanosecond times 10^6 below it,
rate in parts per million, lock indicator, servo counts. -/
structure Ptc where
  sec : BitVec 48
  ns : BitVec 32
  frac : Nat
  rate : Int
  lock : Bool
  good : Nat
  deriving DecidableEq, Repr, Inhabited

/-- A migration under way (R255): context, virtual page, new frame, its TIER. -/
structure Mig where
  ctx : BitVec 16
  page : Nat
  frame : PAddr
  tier : Nat
  deriving DecidableEq, Repr, Inhabited

/-- A die (R1). `walks`: the page walks asked for, by context and 64 KiB page, in order; the first 64 are with its walkers (R246).
-/
structure Die where
  msq : Msq
  ptc : Ptc
  pwrbud : BitVec 32
  pwruse : BitVec 32
  leaves : List (Nat × BitVec 32)
  tlb : List Tlb
  walks : List (BitVec 16 × Nat)
  mig : List Mig
  keys : Vector (BitVec 16 × List Byte) 256
  chans : Vector Chan 64
  rounds : List Round
  station : Station
  corrected : Nat
  transient : Nat
  deriving DecidableEq, Repr, Inhabited

/-! ### Partitions, contexts, traverse -/

/-- A leg entry as its two words (R286). -/
structure LegW where
  w0 : W64
  w1 : W64
  deriving DecidableEq, Repr, Inhabited

/-- The state of a leg (R294). -/
inductive LegState where
  | wait | ready | run | done | fin
  deriving DecidableEq, Repr, Inhabited

/-- A message or slot return sent to a traverse and not yet in effect (R292, R299): whether it comes from upstream,
whether it is a slot return, its bytes, the die and number of its ring cells where it crosses dies. -/
structure TMsg where
  fwd : Bool
  ret : Bool
  bytes : List Byte
  via : Option (Nat × Nat)
  deriving DecidableEq, Repr, Inhabited

/-- A message or slot return for a neighbour on another module that has not left (R299, R335): to which side, whether it is a
slot return, its bytes, the die and number of its ring cells where the bridge is on another die. -/
structure TOut where
  up : Bool
  ret : Bool
  bytes : List Byte
  via : Option (Nat × Nat)
  deriving DecidableEq, Repr, Inhabited

/-- The traverse of a partition or of a switched-out context (R285 to R304). `upMet`, `dnMet`: a neighbour on another module has
bound its side (R291). -/
structure Trav where
  bound : Bool
  bind : List Byte
  img0 : List LegW
  img1 : List LegW
  plane : Bool
  cursor : Nat
  state : LegState
  lpc : Nat
  err : Bool
  errc : BitVec 4
  unmet : BitVec 5
  inf : Nat
  inb : Nat
  freedn : Nat
  freeup : Nat
  wrf : Nat
  wrb : Nat
  stash : List Nat
  bubup : W64
  bubdn : W64
  bubst : W64
  legbub : Nat
  legcause : BitVec 3
  ntrig : Nat
  box : List Byte
  early : Bool
  drop : Nat
  doneCyc : W64
  arriving : List TMsg
  upGone : Bool
  dnGone : Bool
  upMet : Bool
  dnMet : Bool
  out : List TOut
  deriving DecidableEq, Repr, Inhabited

/-- A far-tile entry word (R306). -/
abbrev Far := W64

/-- A partition (R12): clusters, the context it runs (0: none), its halt line, pending flip (SWP), which shadow planes the loader
reports complete (SHC: both, the instruction planes and the traverse plane), its far tiles and traverse. -/
structure Part where
  mask : BitVec 64
  ctx : BitVec 16
  halt : Bool
  haltPre : Bool
  swp : Bool
  shi : Bool
  sht : Bool
  far : List Far
  trav : Trav
  deriving DecidableEq, Repr, Inhabited

/-- The state of a context (R347, STATUS). -/
inductive CtxState where
  | running | halted | out | ended | waiting
  deriving DecidableEq, Repr, Inhabited

/-- What a switched-out context keeps of the memory sequencers (R113): programs, waiting requests, transfers and signal
counts, tiles named by rank. -/
structure SeqSave where
  slots : List Slot
  wait : List (Nat × Nat × Nat)
  xfers : List Xfer
  signals : List ((Nat × BitVec 6) × Nat)
  deriving DecidableEq, Repr, Inhabited

/-- A context (R13, R346): identifier, partition, clusters, the cluster mask on which it was resident last, page-table root, windows given at launch, key slots, MSQ
image, launch group, shadow region bytes (R118), images of its cores by rank, traverse and far tiles while it is
switched out, what it keeps of the memory sequencers, collectives completed while away, checkpoint requests of its ranks not
complete when it left (R100), open reduction rounds saved,
whether it can no longer resume (FINAL, R121), whether its launch group can no longer be complete (R346). -/
structure Ctx where
  id : BitVec 16
  part : BitVec 6
  ncl : Nat
  mask : BitVec 64
  state : CtxState
  root : PAddr
  win : Vector Window 8
  keys : List (BitVec 8)
  msq : Mem
  msqWords : Nat
  lgrp : BitVec 16
  lgsz : Nat
  shadow : Mem
  images : List Arch
  trav : Option Trav
  far : List Far
  swp : Bool
  shi : Bool
  sht : Bool
  seq : SeqSave
  collsDone : List (Nat × Nat)
  ckpts : List (Nat × Ckpt)
  rounds : List Round
  final : Bool
  lgdead : Bool
  deriving DecidableEq, Repr, Inhabited

/-! ### Port groups -/

/-- The state of a port group (R333). -/
inductive GState where
  | off | active | draining | quiesced | retraining | mapping | failed
  deriving DecidableEq, Repr, Inhabited

/-- The two key slots of a direction (R338, R339), the identifier of CUR (OLD has the one before), the rotations that wait, and the
replay buffer: the flits first sent and not acknowledged, oldest first, by key identifier and ciphertext. -/
structure LinkKey where
  cur : List Byte
  old : List Byte
  curId : Nat
  pend : List (List Byte)
  flits : List (Nat × List Byte)
  deriving DecidableEq, Repr, Inhabited

/-- A port group (R326 to R339). `retrain`: its link retrains, and it carries nothing (R338); `team`: the groups that switch with it
(R333, R334), itself among them; `macs`: the addresses of its two ports in UET (R350); `decs`: the decoders of a CXL root
(R328); `wire`: the flits it has sent, replays among them, by key identifier and ciphertext (R339). -/
structure Group where
  pers : BitVec 2
  role : BitVec 2
  state : GState
  rate : BitVec 4
  bond : Bool
  peer : BitVec 5
  err : Bool
  errc : BitVec 4
  tgt : W64
  tx : LinkKey
  rx : LinkKey
  secure : Bool
  mapped : BitVec 2
  retrain : Bool
  team : List Nat
  macs : List (List Byte)
  decs : List (PAddr × Nat)
  wire : List (Nat × List Byte)
  deriving DecidableEq, Repr, Inhabited

/-- A reduction window (R322). -/
structure RWin where
  base : PAddr
  size : Nat
  count : Nat
  part : BitVec 6
  ctx : BitVec 16
  flagw : PAddr
  pset : BitVec 256
  deriving DecidableEq, Repr, Inhabited

/-- A collective group (R325, R353): number, owning context, entries by rank, the personality of each rank's group when the
group was installed (DEDUCED log 23), whether a participant has abandoned a collective of it (R110). -/
structure CGroup where
  num : BitVec 32
  ctx : BitVec 16
  entries : List W64
  need : List (BitVec 2)
  dead : Bool
  deriving DecidableEq, Repr, Inhabited

/-- How far the data of a collective has come over the ring (R314, R325): the requests for the sources, the sources as read with
their STALE flags, the results. -/
inductive CStage where
  | ask
  | gather (srcs : List (List Nat × Bool))
  | spread (srcs : List (List Nat × Bool))
  deriving DecidableEq, Repr, Inhabited

/-- A collective whose data crosses dies: its group, the die where it is combined, the number of its cells, those that have still to
leave, the record of rank 0, its stage (R325; DEDUCED log 61). -/
structure CRun where
  num : BitVec 32
  die : Nat
  tid : Nat
  todo : List (Nat × RCell)
  r0 : List Byte
  stage : CStage
  deriving DecidableEq, Repr, Inhabited

/-! ### What comes from outside -/

/-- What has come in over a port group for a unit of the module: a message of a far tile (R307), a message or a slot return for a
traverse (R299), an access to memory (R328, R329). -/
inductive InAct where
  | far (part : BitVec 6) (rank : BitVec 8) (src : BitVec 24) (stamp : BitVec 26) (bytes : List Byte)
  | msg (part : BitVec 6) (fwd : Bool) (bytes : List Byte)
  | ret (part : BitVec 6) (down : Bool)
  | req (r : Inbound)
  deriving DecidableEq, Repr, Inhabited

/-- Such an item on its way over the ring: the group, the number of its cells, the unit it goes to by die and number, the reply that
goes back to the bridge, what it is (R314, R316). -/
structure InItem where
  grp : Nat
  tid : Nat
  die : Nat
  unit : Nat
  back : Option (Option (List Byte))
  what : InAct
  deriving DecidableEq, Repr, Inhabited

/-! ### Firmware and module -/

/-- How far the steward firmware has come (R349, R356). -/
inductive FwState where
  | unpowered | reset | recovery | running | evicting | unlatched
  deriving DecidableEq, Repr, Inhabited

/-- An event waiting for the ring (R348). -/
structure Event where
  bytes : List Byte
  deriving DecidableEq, Repr, Inhabited

/-- A command that the steward has begun and not finished (R344 to R347, R356): its sequence number and context; for an
eviction its step. -/
inductive Task where
  | none
  | preempt (seq : BitVec 32) (ctx : BitVec 16)
  | resume (seq : BitVec 32) (ctx : BitVec 16)
  | finish (seq : BitVec 32) (ctx : BitVec 16)
  | evict (seq : BitVec 32) (step : Nat)
  deriving DecidableEq, Repr, Inhabited

/-- A context as it was sent to a neighbour (R356, R357): identifier, whether it had ended, its shadow region, its blocks as they
stand in HBM4, still encrypted, and the key slots they were written under. -/
structure Sent where
  ctx : BitVec 16
  ended : Bool
  shadow : Mem
  cells : Mem
  key : Tags
  deriving DecidableEq, Repr, Inhabited

/-- The host's side of the module: mailbox, events, the command in progress, firmware, service, what was written to the
host's memory, oldest first (R344 to R357; DEDUCED log 52), the private identity key (R350), the replies to reads from outside by
group (none: poisoned data, or an unsupported request; R328, R329, R335), the packets delivered to the Ultra Ethernet transport
by group (R330, R335), the contexts sent to a neighbour (R356), first and number of the blocks given to the host (R328). -/
structure HostIf where
  mbox : Mem
  mbxseq : BitVec 32
  evhead : BitVec 32
  evtail : BitVec 32
  evseq : W64
  pending : List Event
  task : Task
  msix0 : Nat
  msix1 : Nat
  fw : FwState
  version : Nat
  fwdig : List Byte
  ldig : List Byte
  rails : Bool
  aux : Bool
  ulperm : Bool
  dump : List (W64 × List Byte)
  ident : List Byte
  replies : List (Nat × Option (List Byte))
  packets : List (Nat × List Byte)
  sent : List Sent
  hdm : Nat × Nat
  deriving DecidableEq, Repr, Inhabited

/-- The ring (R313 to R318): cells by ring, strand and slot; reservation masks; the steward's ring error count; `live`, `livef`: the
masks as they are in effect at the slots; `freed`: the slots emptied in this tile cycle; `taken`: the slots that were not
empty when they last left their owner; the next number of a traverse's cells. -/
structure Ring where
  slots : List ((Bool × BitVec 3 × BitVec 6) × RCell)
  rsvm : Vector W64 128
  rsvf : Vector W64 8
  errs : Nat
  live : Vector W64 128
  livef : Vector W64 8
  freed : List (Bool × BitVec 3 × BitVec 6)
  taken : List (Bool × BitVec 3 × BitVec 6)
  tids : Nat
  deriving DecidableEq, Repr, Inhabited

/-- The PTP servo of the module (R340 to R342): whether the firmware has started it, and the clock settings. -/
structure Servo where
  on : Bool
  cfg : PtpCfg
  deriving DecidableEq, Repr, Inhabited

/-- The module. `me` is the core that executes; `rest` holds all cores by number, the copy at `me`'s own place being out of date
while it executes; `turnAt` is the die and program slot whose memory sequencer word executes (DESIGN CHOICE log 5); `cruns`: the
collectives whose data is on the ring (R325); `inbound`: what has come in over the port groups and is on its way to its unit (R314);
`farBinds`: the bindings that peers have told it, by accelerator and partition (R291); `farGone`: the far tiles that peers have
withdrawn, by context and (ACC, PART, RANK), with their ALIAS (R308). -/
structure State where
  me : Core
  rest : List Core
  dies : List Die
  parts : List (BitVec 6 × Part)
  ctxs : List Ctx
  groups : List Group
  mapgen : BitVec 16
  mem : PMem
  ring : Ring
  rwins : List RWin
  cgroups : List CGroup
  cruns : List CRun
  inbound : List InItem
  trctl : List (BitVec 6 × W64 × Nat)
  farBinds : List ((BitVec 10 × BitVec 6) × List Byte)
  farGone : List ((BitVec 16 × BitVec 24) × BitVec 8)
  servo : Servo
  host : HostIf
  wall : Nat
  free : Nat
  agenda : List Turn
  turns : Nat
  turnAt : Nat × Nat
  deriving DecidableEq, Repr, Inhabited

/-- There is no fault of the model's own: where the LM8 stops, the spec describes the stop (R102 to R108), and the model
takes it as a next state. The type has no constructor. Safe. -/
inductive Fault where
  deriving DecidableEq, Repr

/-- The reasons for having no meaning. -/
inductive Refusal where
  /-- raised by an arm of `exec` whose instruction has no meaning yet; safe -/
  | notModelled (mnemonic : String)
  deriving DecidableEq, Repr

/-! ### Reset -/

namespace State

/-- A buffer with every line free (R259). -/
def resetBuf : Buf := { cells := [], all := 0, owner := [], bad := [] }

/-- The register files after reset (R51). -/
def resetRegs : Regs :=
  { s := Vector.replicate 32 { val := 0, poison := false }
    v := Vector.replicate 32 { val := 0, poison := 0 }
    g := Vector.replicate 12 { c := false, cp := false, t := 0 }
    win := Vector.replicate 8 { base := 0, limit := 0, key := 0 } }

/-- The special registers after reset (R52): TRAPV holds 0x0003, all others 0. PTCS: DESIGN CHOICE log 6. -/
def resetSpec : Spec :=
  { lt := 0, cyc := 0, frame := 0, stallc := Vector.replicate 8 0, leavec := 0, tagmap := 0, fpctl := 0, fpstat := 0
    srk0 := 0, srk1 := 0, src0 := 0, src1 := 0, trapc := 0, trappc := 0, trapv := 3, stage := 0, ptcs := 0
    bubup := 0, bubdn := 0, bubst := 0 }

/-- The array after reset (R187): P0 active; load 0 stands for the reset contents of both planes. -/
def resetArr : Arr :=
  { active := .p0, p0 := 0, p1 := 0, loads := [], selfAct := 0, streams := [], nchain := 0, log := [], hist := []
    early := [] }

/-- The engines after reset: nothing under way. -/
def resetEng : Eng :=
  { cbs := Vector.replicate 16 none, arr := resetArr, copies := [], unretired := [], gs := [], colls := [], lq := []
    reqs := [], skid := [], inq := [], trig := false, credit := [], lazyFl := [], redFl := 0, openRed := 0, nextId := 1 }

/-- A core's context part after reset. The pc: DESIGN CHOICE log 6. -/
def resetArch : Arch :=
  { regs := resetRegs
    loops := { lev := Vector.replicate 6 { cnt := 0, idx := 0, beg := 0, fin := 0 }, lsd := 0 }
    spec := resetSpec
    store := { a := resetBuf, w := resetBuf, c := resetBuf, ip0 := [], ip1 := [], plane := false }
    eng := resetEng, flight := [], pc := 0, xfer := false, fromTrap := false, run := .idle, stop := none
    after := 0 }

/-- No bundle is being issued (DESIGN CHOICE log 5). -/
def resetIss : Iss :=
  { start := 0, seqNext := some 1, word := 0, ext := none, held := none, next := none, skip := false, verdict := .idle
    seen := { lqn := 0, pixm := 0, pixg := 0, pixc := 0 }, fl := 0 }

/-- Core `n` after reset: tile `n` below 256, the steward of die `n - 256` from 256 on. PART, RANK, NCL: DESIGN CHOICE log 6. -/
def resetCore (n : Nat) : Core :=
  { resetArch with
    num := n, steward := decide (256 ≤ n), ctx := 0, part := 0, rank := 0, ncl := 0, utlb := [], walk := .none
    leave := .none, grants := [], ckpt := [], kept := false, fault := none, since := 0, served := 0, iss := resetIss }

/-- The cores from number `n` on, `k` of them. -/
def resetCores : Nat → Nat → List Core
  | _, 0 => []
  | n, k + 1 => resetCore n :: resetCores (n + 1) k

/-- A free program slot (R218). -/
def freeSlot : Slot :=
  { busy := false, num := 0, key := 0, tile := 0, ctx := 0, first := 0, pc := 0
    ma := Vector.replicate 16 0, ms := Vector.replicate 16 0, mm := Vector.replicate 8 0, cnt := Vector.replicate 4 0 }

/-- A die after reset. PWRBUD is a constant of the part's calibration (R343); the clock: DESIGN CHOICE log 6. -/
def resetDie (d : Nat) : Die :=
  { msq :=
      { prog := [], regions := [], slots := Vector.replicate 8 freeSlot, wait := [], signals := [], xfers := []
        nextId := 1, last := 7 }
    ptc := { sec := 0, ns := 0, frac := 0, rate := 0, lock := false, good := 0 }
    pwrbud := Config.budget d, pwruse := 0, leaves := [], tlb := [], walks := [], mig := []
    keys := Vector.replicate 256 (0, []), chans := Vector.replicate 64 .normal, rounds := []
    station := { egress := [], ingress := [], sent := [], expect := [], unconf := [] }
    corrected := 0, transient := 0 }

/-- Direction keys discarded (R338). -/
def noKey : LinkKey := { cur := [], old := [], curId := 0, pend := [], flits := [] }

/-- A port group after reset: OFF (R331). -/
def resetGroup : Group :=
  { pers := 0, role := 0, state := .off, rate := 0, bond := false, peer := 0, err := false, errc := 0, tgt := 0
    tx := noKey, rx := noKey, secure := false, mapped := 0, retrain := false, team := [], macs := [], decs := [], wire := [] }

/-- The host's side after reset: the main rails are on, ULPERM is held low (R357), the firmware has not started. -/
def resetHost : HostIf :=
  { mbox := [], mbxseq := 0, evhead := 0, evtail := 0, evseq := 0, pending := [], task := .none, msix0 := 0, msix1 := 0
    fw := .reset, version := 0, fwdig := [], ldig := [], rails := true, aux := true, ulperm := false, dump := [], ident := []
    replies := [], packets := [], sent := [], hdm := (0, 0) }

/-- The clock of the module after reset: no port is active (DESIGN CHOICE log 6). -/
def resetPtp : PtpCfg := { port := none, domain := 0, master := false, asym := [] }

/-- The module right after reset: nothing runs, nothing is stored, every group is OFF. Who moves first is open
(DESIGN CHOICE log 4). -/
def reset : State :=
  { me := resetCore 0
    rest := resetCores 0 264
    dies := [resetDie 0, resetDie 1, resetDie 2, resetDie 3, resetDie 4, resetDie 5, resetDie 6, resetDie 7]
    parts := [], ctxs := [], groups := List.replicate 24 resetGroup, mapgen := 0
    mem := { cells := [], owner := [], key := [], dead := [] }
    ring :=
      { slots := [], rsvm := Vector.replicate 128 0, rsvf := Vector.replicate 8 0, errs := 0, live := Vector.replicate 128 0
        livef := Vector.replicate 8 0, freed := [], taken := [], tids := 0 }
    rwins := [], cgroups := [], cruns := [], inbound := [], trctl := [], farBinds := [], farGone := [], servo := { on := false, cfg := resetPtp }
    host := resetHost, wall := 0, free := 0, agenda := [], turns := 0, turnAt := (0, 0) }

end State

end Sys2Proof.Machine
end

