-- ==== Sys2Proof/Machine/Ops.lean ====
section
/-! DEFINITION. The named operations over memory, registers, results in flight, tile cycles, traps and partition halts
that every meaning is built from. -/

namespace Sys2Proof.Machine

/-! ### Maps in canonical form -/

/-- The entry of key `a`; `z` where none is listed. -/
def look {β : Type} (z : β) : List (Nat × β) → Nat → β
  | [], _ => z
  | (b, v) :: r, a => if a = b then v else if a < b then z else look z r a

/-- The map with `v` at key `a`, keeping the canonical form. -/
def put {β : Type} [DecidableEq β] (z : β) : List (Nat × β) → Nat → β → List (Nat × β)
  | [], a, v => if v = z then [] else [(a, v)]
  | (b, w) :: r, a, v =>
    if a < b then (if v = z then (b, w) :: r else (a, v) :: (b, w) :: r)
    else if a = b then (if v = z then r else (a, v) :: r)
    else (b, w) :: put z r a v

/-- The map without the keys from `lo` to `hi - 1`. -/
def wipe {β : Type} (lo hi : Nat) (m : List (Nat × β)) : List (Nat × β) :=
  m.filter fun e => !(decide (lo ≤ e.1) && decide (e.1 < hi))

/-- Canonical form: keys strictly rising from above `k` (none: from anywhere), no entry equal to `z`. -/
def mapWf {β : Type} [DecidableEq β] (z : β) : Option Nat → List (Nat × β) → Bool
  | _, [] => true
  | k, (a, v) :: r => (match k with | none => true | some b => decide (b < a)) && decide (v ≠ z) && mapWf z (some a) r

/-- The canonical form of memory (every byte of memory reads 0 where nothing is listed). -/
def Memory.wf (m : Mem) : Bool := mapWf (0 : Byte) none m

/-- The canonical form of owner tags and key slots. -/
def Tags.wf (m : Tags) : Bool := mapWf 0 none m

/-- `n` bytes of a memory from an address on. -/
def memBytes (m : Mem) : Nat → Nat → List Byte
  | _, 0 => []
  | a, n + 1 => look 0 m a :: memBytes m (a + 1) n

/-- Bytes written one after another from an address on. -/
def memWrite (m : Mem) : Nat → List Byte → Mem
  | _, [] => m
  | a, b :: r => memWrite (put 0 m a b) (a + 1) r

/-- Bytes from an address on as cells in canonical form. -/
def cellsAt (a : Nat) (bs : List Byte) : Mem := ((List.range bs.length).zip bs).filterMap fun e =>
  if e.2 = 0 then none else some (a + e.1, e.2)

/-- Memory with other cells in the `n` bytes from `a` on. -/
def splice (m : Mem) (a n : Nat) (w : Mem) : Mem :=
  (m.filter fun e => decide (e.1 < a)) ++ w ++ m.filter fun e => decide (a + n ≤ e.1)

/-- The number of bytes read little-endian. -/
def leNat : List Byte → Nat
  | [] => 0
  | b :: r => b.toNat + 256 * leNat r

/-- `n` bytes of a number, little-endian. -/
def leBytes : Nat → Nat → List Byte
  | 0, _ => []
  | k + 1, x => BitVec.ofNat 8 x :: leBytes k (x / 256)

/-- Bytes paired with the addresses they go to. -/
def place (a : Nat) : List Byte → List (Nat × Byte)
  | [] => []
  | b :: r => (a, b) :: place (a + 1) r

/-- A value put into a list in front of the first that it comes before. -/
def insertBy {α : Type} (before : α → α → Bool) (x : α) : List α → List α
  | [] => [x]
  | y :: r => if before x y then x :: y :: r else y :: insertBy before x r

/-- A list put in order; values of which neither comes before the other keep theirs. -/
def sortBy {α : Type} (before : α → α → Bool) (l : List α) : List α := l.foldl (fun r x => insertBy before x r) []

/-! ### Buffers and owner tags (R239, R259) -/

/-- The owner tag of a line (R259). -/
def Buf.tag (b : Buf) (line : Nat) : Nat := look b.all b.owner line

/-- A buffer as the steward allocates it to context `t`: every line tagged, no byte of a former owner left (R259). -/
def Buf.given (t : Nat) : Buf := { cells := [], all := t, owner := [], bad := [] }

/-- A byte of a buffer as context `t` reads it. -/
def Buf.get (b : Buf) (t : Nat) (x : Nat) : Byte := if b.tag (x / 128) = t then look 0 b.cells x else 0

/-- `n` bytes of a buffer as context `t` reads them. -/
def Buf.bytes (b : Buf) (t : Nat) : Nat → Nat → List Byte
  | _, 0 => []
  | x, n + 1 => b.get t x :: b.bytes t (x + 1) n

/-- A line claimed by context `t`: unchanged where `t` owns it, else zeroed and tagged. -/
def Buf.claim (b : Buf) (t : Nat) (line : Nat) : Buf :=
  if b.tag line = t then b
  else
    { cells := wipe (128 * line) (128 * line + 128) b.cells
      all := b.all
      owner := put b.all b.owner line t
      bad := b.bad.filter fun x => decide (x / 128 ≠ line) }

/-- One byte written by context `t`; a written byte carries no poison. -/
def Buf.set (b : Buf) (t : Nat) (x : Nat) (v : Byte) : Buf :=
  let c := b.claim t (x / 128)
  { c with cells := put 0 c.cells x v, bad := c.bad.filter fun y => decide (y ≠ x) }

/-- Bytes written in order. -/
def Buf.write (b : Buf) (t : Nat) (w : List (Nat × Byte)) : Buf := w.foldl (fun b e => b.set t e.1 e.2) b

/-- The size of a buffer in bytes (R239). -/
def BSpace.size : BSpace → Nat
  | .a => 4194304
  | .w => 2097152
  | .c => 1048576

/-- The buffer a space names; K is not one of the tile's own (R241). -/
def bufOf : Space → Option BSpace
  | .a => some .a
  | .w => some .w
  | .c => some .c
  | .k => none

/-- The size of a space (R205). -/
def spaceSize : Space → Nat
  | .a => 4194304
  | .w => 2097152
  | .c => 1048576
  | .k => 16777216

/-- A buffer of a core. -/
def Arch.buf (c : Arch) : BSpace → Buf
  | .a => c.store.a
  | .w => c.store.w
  | .c => c.store.c

/-- A core with another buffer. -/
def Core.setBuf (c : Core) (sp : BSpace) (b : Buf) : Core :=
  match sp with
  | .a => { c with store := { c.store with a := b } }
  | .w => { c with store := { c.store with w := b } }
  | .c => { c with store := { c.store with c := b } }

/-- Bytes of a core's buffer as its own context reads them. -/
def Core.bytes (c : Core) (sp : BSpace) (x n : Nat) : List Byte := (c.buf sp).bytes c.ctx.toNat x n

/-- Bytes of a core's buffer written under its own context. -/
def Core.writeBuf (c : Core) (sp : BSpace) (w : List (Nat × Byte)) : Core :=
  c.setBuf sp ((c.buf sp).write c.ctx.toNat w)

/-! ### Global memory (R248, R259 to R261) -/

/-- The HBM4 range (R248). -/
def inHbm (pa : PAddr) : Bool := decide (pa < 2 ^ 40)

/-- The port group whose decoder range holds an address (R248). -/
def groupOf (pa : PAddr) : Option Nat :=
  if 2 ^ 48 ≤ pa ∧ pa < 25 * 2 ^ 48 then some (pa / 2 ^ 48 - 1) else none

/-- Whether a 32 MiB region is not live (R261). -/
def PMem.isDead (m : PMem) (pa : PAddr) : Bool := inHbm pa && m.dead.contains (pa / 2 ^ 25)

/-- A byte as context `t` reads it under key slot `k`. HBM4 checks the owner tag and the key; the range of a port group
has no owner tags and checks the key only where `enc` says it holds CXL memory (R259, R260). -/
def PMem.get (m : PMem) (t k : Nat) (enc : Bool) (pa : PAddr) : Byte :=
  let b := look 0 m.cells pa
  let kk := look 0 m.key (pa / 4096)
  if inHbm pa then
    if m.isDead pa || decide (look 0 m.owner (pa / 4096) ≠ t) then 0
    else if kk = k then b else Config.scramble k kk pa b
  else if enc ∧ kk ≠ k then Config.scramble k kk pa b
  else b

/-- Bytes of global memory as read by a context. -/
def PMem.bytes (m : PMem) (t k : Nat) (enc : Bool) : PAddr → Nat → List Byte
  | _, 0 => []
  | pa, n + 1 => m.get t k enc pa :: m.bytes t k enc (pa + 1) n

/-- The region of an address made live: its former contents are lost and its blocks are free (R261). -/
def PMem.revive (m : PMem) (pa : PAddr) : PMem :=
  if m.isDead pa then
    let r := pa / 2 ^ 25
    { cells := wipe (r * 2 ^ 25) ((r + 1) * 2 ^ 25) m.cells
      owner := wipe (r * 2 ^ 13) ((r + 1) * 2 ^ 13) m.owner
      key := wipe (r * 2 ^ 13) ((r + 1) * 2 ^ 13) m.key
      dead := m.dead.filter fun x => decide (x ≠ r) }
  else m

/-- A block claimed by context `t`. -/
def PMem.claim (m : PMem) (t : Nat) (blk : Nat) : PMem :=
  if look 0 m.owner blk = t then m
  else { m with cells := wipe (4096 * blk) (4096 * blk + 4096) m.cells, owner := put 0 m.owner blk t }

/-- One byte written by context `t` under key slot `k`. -/
def PMem.set (m : PMem) (t k : Nat) (pa : PAddr) (v : Byte) : PMem :=
  let m' := if inHbm pa then (m.revive pa).claim t (pa / 4096) else m
  { m' with cells := put 0 m'.cells pa v, key := put 0 m'.key (pa / 4096) k }

/-- Bytes written from an address on. -/
def PMem.write (m : PMem) (t k : Nat) : PAddr → List Byte → PMem
  | _, [] => m
  | pa, b :: r => (m.set t k pa b).write t k (pa + 1) r

/-! ### Registers (R42, R51) -/

/-- A scalar register; s0 reads zero with its poison bit clear (R42). -/
def Arch.s (c : Arch) (r : Reg) : SReg := if r = 0 then { val := 0, poison := false } else c.regs.s[r.toNat]

/-- A scalar register written; a write to s0 is discarded (R42). -/
def Core.setS (c : Core) (r : Reg) (x : SReg) : Core :=
  if r = 0 then c else { c with regs := { c.regs with s := c.regs.s.set r.toNat x } }

/-- A vector register. -/
def Arch.v (c : Arch) (r : Reg) : VReg := c.regs.v[r.toNat]

/-- A vector register written. -/
def Core.setV (c : Core) (r : Reg) (x : VReg) : Core :=
  { c with regs := { c.regs with v := c.regs.v.set r.toNat x } }

/-- A steer register; a number above 11 names none and reads as clear. -/
def Arch.g (c : Arch) (g : GIdx) : Steer := c.regs.g[g.toNat]?.getD { c := false, cp := false, t := 0 }

/-- A steer register written. -/
def Core.setG (c : Core) (g : GIdx) (x : Steer) : Core :=
  { c with regs := { c.regs with g := c.regs.g.setIfInBounds g.toNat x } }

/-- A window register. -/
def Arch.win (c : Arch) (w : BitVec 3) : Window := c.regs.win[w.toNat]

/-- A loop level; none above 5. -/
def Arch.level (c : Arch) (k : Nat) : Level := c.loops.lev[k]?.getD { cnt := 0, idx := 0, beg := 0, fin := 0 }

/-- A loop level written. -/
def Core.setLevel (c : Core) (k : Nat) (x : Level) : Core :=
  { c with loops := { c.loops with lev := c.loops.lev.setIfInBounds k x } }

/-- The loop-stack depth written. -/
def Core.setLsd (c : Core) (n : BitVec 3) : Core := { c with loops := { c.loops with lsd := n } }

/-- Vector floating point runs graded while a live level has G = 1 (R85). -/
def Arch.graded (c : Arch) : Bool :=
  (List.range 6).any fun k => decide (k < c.loops.lsd.toNat) && (c.level k).fin.getLsbD 15

/-- Special registers changed. -/
def Core.onSpec (c : Core) (f : Spec → Spec) : Core := { c with spec := f c.spec }

/-- Engines changed. -/
def Core.onEng (c : Core) (f : Eng → Eng) : Core := { c with eng := f c.eng }

/-- The issue context changed. -/
def Core.onIss (c : Core) (f : Iss → Iss) : Core := { c with iss := f c.iss }

/-- The die of a core: tiles 32d to 32d + 31, steward 256 + d. -/
def Core.die (c : Core) : Nat := if c.steward then c.num - 256 else c.num / 32

/-! ### Parts of the module -/

/-- The executing core changed. -/
def State.onMe (s : State) (f : Core → Core) : State := { s with me := f s.me }

/-- Core `n`. -/
def State.core (s : State) (n : Nat) : Core := if n = s.me.num then s.me else s.rest.getD n (State.resetCore n)

/-- Core `n` replaced. -/
def State.setCore (s : State) (n : Nat) (c : Core) : State :=
  if n = s.me.num then { s with me := c } else { s with rest := s.rest.set n c }

/-- Core `n` changed. -/
def State.onCore (s : State) (n : Nat) (f : Core → Core) : State := s.setCore n (f (s.core n))

/-- All cores, the executing one in its own place. -/
def State.cores (s : State) : List Core := s.rest.map fun c => if c.num = s.me.num then s.me else c

/-- Core `n` made the executing one; the other is put back among the cores. -/
def State.focus (s : State) (n : Nat) : State :=
  if n = s.me.num then s else { s with me := s.rest.getD n (State.resetCore n), rest := s.rest.set s.me.num s.me }

/-- Die `d`. -/
def State.die (s : State) (d : Nat) : Die := s.dies.getD d (State.resetDie d)

/-- Die `d` changed. -/
def State.onDie (s : State) (d : Nat) (f : Die → Die) : State := { s with dies := s.dies.set d (f (s.die d)) }

/-- Partition `p`, where it exists. -/
def State.part (s : State) (p : BitVec 6) : Option Part := (s.parts.find? fun e => e.1 == p).map Prod.snd

/-- Partition `p` changed. -/
def State.onPart (s : State) (p : BitVec 6) (f : Part → Part) : State :=
  { s with parts := s.parts.map fun e => if e.1 == p then (e.1, f e.2) else e }

/-- The context with an identifier. -/
def State.ctx (s : State) (i : BitVec 16) : Option Ctx := s.ctxs.find? fun c => c.id == i

/-- A context changed. -/
def State.onCtx (s : State) (i : BitVec 16) (f : Ctx → Ctx) : State :=
  { s with ctxs := s.ctxs.map fun c => if c.id == i then f c else c }

/-- Port group `g`. -/
def State.group (s : State) (g : Nat) : Group := s.groups.getD g State.resetGroup

/-- Port group `g` changed. -/
def State.onGroup (s : State) (g : Nat) (f : Group → Group) : State := { s with groups := s.groups.set g (f (s.group g)) }

/-- Whether cluster `k` = 8d + c belongs to a mask (R345). -/
def inMask (m : BitVec 64) (tile : Nat) : Bool := m.getLsbD (tile / 4)

/-- The tiles of a cluster mask, in linear order. -/
def tilesOf (m : BitVec 64) : List Nat := (List.range 256).filter (inMask m)

/-- The tiles of a partition, in linear order. -/
def State.tiles (s : State) (p : BitVec 6) : List Nat :=
  match s.part p with
  | none => []
  | some q => tilesOf q.mask

/-- Whether tile `n` belongs to the partition of core `c`. -/
def State.inPart (s : State) (c : Core) (n : Nat) : Bool :=
  match s.part c.part with
  | none => false
  | some q => decide (n < 256) && inMask q.mask n && !c.steward

/-! ### Results in flight (R19, R109) -/

/-- A result issued by the executing core: it performs after `l` logical cycles. -/
def Core.push (c : Core) (l : Nat) (w : Landing) : Core :=
  { c with flight := c.flight ++ [{ remain := l, past := 0, declared := 0, await := .no, what := w }] }

/-- The declared latency of a result that waits for a reply; one that waits for the cluster has a fixed one (R28, R53). -/
def Await.declared (a : Await) (l : Nat) : Nat :=
  match a with
  | .reply _ => l
  | _ => 0

/-- A result that waits for bytes from outside. -/
def Core.pushAwait (c : Core) (l : Nat) (a : Await) (w : Landing) : Core :=
  { c with flight := c.flight ++ [{ remain := l, past := 0, declared := a.declared l, await := a, what := w }] }

/-- Landing entries a result counts (R109): engine operations count none. A result for s0, which its write discards, counts
like any other (DESIGN CHOICE log 55). -/
def Landing.weight : Landing → Nat
  | .sreg .. | .vreg .. | .gcond .. | .gtarg .. | .special .. | .bstore .. | .tagset .. | .cbptr .. => 1
  | .rcvdata .. | .signal .. | .mclr .. | .swap | .wgroup .. | .plane .. | .enter .. | .axrow .. | .cbtake ..
  | .flags .. => 0

/-- Landing entries of a core's results that are not yet due (R109). -/
def Arch.landCount (c : Arch) : Nat :=
  (c.flight.filter fun f => decide (0 < f.remain)).foldl (fun n f => n + f.what.weight) 0

/-- A fresh number for a remote access or an engine operation. -/
def Core.fresh (c : Core) : Core := c.onEng fun e => { e with nextId := e.nextId + 1 }

/-! ### Tile cycles (R17, R18, R21, R22) -/

/-- The number of a stall cause (R22). -/
def stallNum : StallCause → Nat
  | .land => 0
  | .recv => 1
  | .sync => 2
  | .xlat => 3
  | .fabric => 4
  | .engine => 5
  | .leave => 6
  | .misc => 7

/-- One resident tile cycle on CYC. -/
def Core.tick (c : Core) : Core := c.onSpec fun p => { p with cyc := p.cyc + 1 }

/-- An elastic stall cycle: CYC and the STALLC register of its cause rise, LEAVEC with cause LEAVE (R21, R22). -/
def Core.stall (c : Core) (k : StallCause) : Core :=
  ((c.onSpec fun p => { p with
      cyc := p.cyc + 1
      stallc := p.stallc.setIfInBounds (stallNum k) (p.stallc[stallNum k]?.getD 0 + 1)
      leavec := if k = .leave then p.leavec + 1 else p.leavec })).onIss fun i => { i with verdict := .stall k }

def State.stall (s : State) (k : StallCause) : State := s.onMe fun c => c.stall k

/-- The logical cycle that runs: LT, and past a `halt` the cycles in which the engines go on (R17, R19, R91). -/
def Arch.now (c : Arch) : Nat := c.spec.lt.toNat + c.after

/-- Logical time passes for the results in flight, the load queue and the gathers. A result that is due and has not performed
counts the cycles that end without it (R28, R54). -/
def Core.age (c : Core) : Core :=
  { c with
    flight := c.flight.map fun f =>
      { f with remain := f.remain - 1, past := if f.remain = 0 then f.past + 1 else 0 }
    eng := { c.eng with
      lq := c.eng.lq.map fun q => { q with remain := q.remain - 1 }
      gs := (c.eng.gs.map fun g => { g with age := g.age + 1 }).filter fun g => decide (g.age < 12) } }

/-- A held empty bundle: a logical cycle in which nothing but the empty bundle issues (R17, R24). -/
def Core.hold (c : Core) : Core :=
  ((c.onSpec fun p => { p with lt := p.lt + 1, cyc := p.cyc + 1 }).age).onIss fun i => { i with verdict := .held }

/-- The words so far have issued. -/
def Core.issued (c : Core) : Core := c.onIss fun i => { i with verdict := .issued }

/-! ### Barriers (R27, R111) -/

/-- Relative time Δ (R24). -/
def Arch.delta (c : Arch) : W64 := c.spec.lt - c.spec.frame

/-- The scope of the barrier a core waits at. -/
def Arch.atBarrier (c : Arch) : Option Scope :=
  match c.run with
  | .barrier _ sc => some sc
  | _ => none

/-- SYNCST of a core at a barrier: release stamp and scope (R111). -/
def Arch.syncst (c : Arch) : W64 :=
  match c.atBarrier with
  | some sc => BitVec.ofNat 64 ((c.delta.toNat + 2 ^ 64 - 1) % 2 ^ 26 + 2 ^ 32 * sc.toNat)
  | none => 0

/-! ### Causes, traps and partition halts (R102 to R107) -/

/-- Whether a core's engines move: at a stop each of their units is complete, and none begins (R108). -/
def Core.engines (c : Core) : Bool := c.run != .stopping && c.run != .stopped && c.fault.isNone

/-- The number of a cause (R102). -/
def Cause.num : Cause → Nat
  | .none => 0x00
  | .trapi => 0x01
  | .poison => 0x02
  | .fpx => 0x03
  | .loopovf => 0x04
  | .illop => 0x10
  | .illbundle => 0x11
  | .badtarget => 0x12
  | .stamp => 0x13
  | .tsmismatch => 0x14
  | .xlate => 0x15
  | .perm => 0x16
  | .uecc => 0x17
  | .window => 0x18
  | .cberr => 0x19
  | .landfull => 0x1A
  | .stop => 0x20
  | .preempt => 0x21
  | .halted => 0x22

/-- A stop with its cause, stop address and code; every flag clear but FAULTING. -/
def mkStop (k : Cause) (addr : IAddr) (code : BitVec 16) : Stop :=
  { cause := k, faulting := true, escalated := false, async := false, msq := false, done := false, syncw := false
    final := false, code := code, addr := addr, finfo0 := 0, finfo1 := 0, syncst := 0, culprit := .none }

/-- The executing core stops and drives its partition's halt line (R106). -/
def State.halt (s : State) (p : Stop) : State :=
  (s.onMe fun c => { c with
      run := .stopping
      stop := some p
      iss := { c.iss with verdict := .raised } }).onPart s.me.part fun q =>
    if s.me.steward then q else { q with halt := true }

/-- A partition cause found at issue: the tile stops before the bundle (R106). -/
def State.raise (s : State) (k : Cause) : State := s.halt (mkStop k s.me.iss.start 0)

/-- LANDFULL with its case (R102). -/
def State.landfull (s : State) (n : Nat) : State := s.halt (mkStop .landfull s.me.iss.start (BitVec.ofNat 16 n))

/-- TRAPC of a cause and code (R103). -/
def trapcOf (k : Cause) (code : BitVec 8) : W64 := BitVec.ofNat 64 (code.toNat * 256 + k.num)

/-- Taking a local trap: TRAPC and TRAPPC are written and the next bundle comes from TRAPV; nothing else changes
(R103, R104). -/
def Core.trapTo (c : Core) (k : Cause) (code : BitVec 8) (ret : IAddr) : Core :=
  { c with
    spec := { c.spec with trapc := trapcOf k code, trappc := ret }
    pc := c.spec.trapv, xfer := true, fromTrap := true }

/-- No handler is set (R52). -/
def Arch.noHandler (c : Arch) : Bool := c.spec.trapv.extractLsb' 0 2 == 3

/-- A local cause raised before the bundle at `addr` issues: the handler is entered; without a handler, and for a second
POISON or LOOPOVF at the handler's own first bundle, the partition halts with ESCALATED (R104, R105). -/
def State.raiseLocal (s : State) (k : Cause) (code : BitVec 8) : State :=
  if s.me.noHandler || (s.me.fromTrap && (k == .poison || k == .loopovf)) then
    s.halt { mkStop k s.me.iss.start (code.setWidth 16) with escalated := true }
  else s.onMe fun c => (c.trapTo k code c.iss.start).onIss fun i => { i with verdict := .raised }

/-- Return from a trap: the next bundle comes from TRAPPC (R97). -/
def Core.trapRet (c : Core) : Core := c.onIss fun i => { i with next := some c.spec.trappc, skip := true }

/-- The first poisoned of the sources an operation reads. -/
def firstPoison (l : List SReg) : Option SReg := l.find? fun r => r.poison

/-- POISON with the code of a poisoned value (R103). -/
def State.poison (s : State) (v : W64) : State := s.raiseLocal .poison (v.setWidth 8)

/-- A consumer that fires on a poisoned source (R68): the state `k` where none of the sources is poisoned. -/
def State.unpoisoned (s : State) (l : List SReg) (k : State) : State :=
  match firstPoison l with
  | some r => s.poison r.val
  | none => k

/-- The next start word in sequence, or the place past the last packet, which is no address (R35, R49; DEDUCED log 11). -/
def Iss.seq (i : Iss) : IAddr := i.seqNext.getD 0x7FFF

/-- The bundle's C word sends control to `t`. -/
def Core.jump (c : Core) (t : IAddr) : Core := c.onIss fun i => { i with next := some t, skip := true }

end Sys2Proof.Machine
end

