-- ==== Sys2Proof/Machine/Operands.lean ====
section
/-! DEFINITION. Operand forms: immediates and their extension, the registers a word touches, where a word is legal, the
addresses of buffer accesses, places, descriptors, and the shape every meaning of a word shares. -/

namespace Sys2Proof.Machine

/-! ### Immediates (R43) -/

/-- An immediate field with an XT word: the combined value, signed. -/
def extended {n : Nat} (e : BitVec 27) (f : BitVec n) : W64 := (e ++ f).signExtend 64

/-- An immediate that stands signed without an XT word. -/
def immS {n : Nat} (x : Option (BitVec 27)) (f : BitVec n) : W64 :=
  match x with
  | none => f.signExtend 64
  | some e => extended e f

/-- An immediate that stands unsigned without an XT word. -/
def immZ {n : Nat} (x : Option (BitVec 27)) (f : BitVec n) : W64 :=
  match x with
  | none => f.setWidth 64
  | some e => extended e f

/-! ### Words and registers -/

/-- The scalar registers a word reads or writes (R28). -/
def sregsOf : Instr → List Reg
  | .add d a b _ _ => [d, a, b]
  | .sub d a b _ _ => [d, a, b]
  | .mul d a b _ _ => [d, a, b]
  | .mulh d a b _ _ => [d, a, b]
  | .mulhn d a b _ _ => [d, a, b]
  | .div d a b _ _ => [d, a, b]
  | .divn d a b _ _ => [d, a, b]
  | .rem d a b _ _ => [d, a, b]
  | .remn d a b _ _ => [d, a, b]
  | .and d a b _ _ => [d, a, b]
  | .or d a b _ _ => [d, a, b]
  | .xor d a b _ _ => [d, a, b]
  | .andn d a b _ _ => [d, a, b]
  | .orn d a b _ _ => [d, a, b]
  | .shl d a b _ _ => [d, a, b]
  | .shr d a b _ _ => [d, a, b]
  | .sar d a b _ _ => [d, a, b]
  | .rol d a b _ _ => [d, a, b]
  | .ror d a b _ _ => [d, a, b]
  | .min d a b _ _ => [d, a, b]
  | .max d a b _ _ => [d, a, b]
  | .minn d a b _ _ => [d, a, b]
  | .maxn d a b _ _ => [d, a, b]
  | .clz d a _ _ => [d, a]
  | .ctz d a _ _ => [d, a]
  | .popc d a _ _ => [d, a]
  | .bfx d a b _ _ => [d, a, b]
  | .bfxn d a b _ _ => [d, a, b]
  | .bfi d a b _ _ => [d, a, b]
  | .csel d a b _ => [d, a, b]
  | .addi _ d a _ => [d, a]
  | .andi _ d a _ => [d, a]
  | .ori _ d a _ => [d, a]
  | .xori _ d a _ => [d, a]
  | .shli _ d a _ => [d, a]
  | .shri _ d a _ => [d, a]
  | .sari _ d a _ => [d, a]
  | .muli _ d a _ => [d, a]
  | .lui d _ => [d]
  | .aup d _ => [d]
  | .cmp _ a b _ _ => [a, b]
  | .cmpi _ _ _ a => [a]
  | .tst _ a b _ _ => [a, b]
  | .ptst _ a => [a]
  | .prepr _ a => [a]
  | .brl _ => [31]
  | .loop a _ _ _ => [a]
  | .waitt a b => [a, b]
  | .ld _ r b _ _ => [r, b]
  | .st _ r b _ _ => [r, b]
  | .vld _ _ b _ _ => [b]
  | .vst _ _ b _ _ => [b]
  | .vgat _ _ b _ _ _ => [b]
  | .vsct _ _ b _ _ => [b]
  | .vldb _ _ b _ _ => [b]
  | .cbdef a b c _ _ => [a, b, c]
  | .cbadvP a _ => [a]
  | .cbadvC a _ => [a]
  | .cbadvPW a _ => [a]
  | .cbadvCW a _ => [a]
  | .cp a b c _ => [a, b, c]
  | .cpg a b c _ => [a, b, c]
  | .cpm a b c _ => [a, b, c]
  | .mlds a b c => [a, b, c]
  | .mmul a b c _ _ => [a, b, c]
  | .mmulc a b c _ _ => [a, b, c]
  | .mclr a b => [a, b]
  | .snd a b c => [a, b, c]
  | .rcv a b _ => [a, b]
  | .msq a => [a]
  | .ldg d a _ _ _ => [d, a]
  | .stg d a _ _ => [d, a]
  | .vldg _ a _ _ _ => [a]
  | .vstg _ a _ => [a]
  | .amo d a _ _ _ op => if op = .cas then [d, d + 1, a] else [d, a]
  | .red d a _ _ _ _ => [d, a]
  | .lqpop d => [d]
  | .tagwa a => [a]
  | .coll a => [a]
  | .rdsr d _ => [d]
  | .wrsr a _ => [a]
  | .swapSteward a => [a]
  | .lsv b _ => [b]
  | .lrs b _ => [b]
  | _ => []

/-- The vector registers a word reads or writes (R28). -/
def vregsOf : Instr → List Reg
  | .vadd d a b _ _ _ => [d, a, b]
  | .vsub d a b _ _ _ => [d, a, b]
  | .vmul d a b _ _ _ => [d, a, b]
  | .vmulh d a b _ _ => [d, a, b]
  | .vfma d a b _ _ _ => [d, a, b]
  | .vfms d a b _ _ _ => [d, a, b]
  | .vfnma d a b _ _ _ => [d, a, b]
  | .vmin d a b _ _ => [d, a, b]
  | .vmax d a b _ _ => [d, a, b]
  | .vabs d a _ _ _ => [d, a]
  | .vneg d a _ _ _ => [d, a]
  | .vand d a b _ => [d, a, b]
  | .vor d a b _ => [d, a, b]
  | .vxor d a b _ => [d, a, b]
  | .vandn d a b _ => [d, a, b]
  | .vshl d a b _ _ md => if md then [d, a] else [d, a, b]
  | .vshr d a b _ _ md => if md then [d, a] else [d, a, b]
  | .vsar d a b _ _ md => if md then [d, a] else [d, a, b]
  | .vcmp d a b _ _ _ => [d, a, b]
  | .vbc d a b _ _ md => if md then [d, a] else [d, a, b]
  | .vxt d a b _ _ md => if md then [d, a] else [d, a, b]
  | .vlid d _ _ => [d]
  | .vrot d a b _ _ md => if md then [d, a] else [d, a, b]
  | .vperm d a b _ _ => [d, a, b]
  | .vrsum d a _ _ _ => [d, a]
  | .vrmax d a _ _ => [d, a]
  | .vrmin d a _ _ => [d, a]
  | .vrcp d a _ _ => [d, a]
  | .vrsq d a _ _ => [d, a]
  | .vex2 d a _ _ => [d, a]
  | .vlg2 d a _ _ => [d, a]
  | .vdot4 d a b _ _ _ => [d, a, b]
  | .vpopc d a _ _ => [d, a]
  | .vclz d a _ _ => [d, a]
  | .vtacc d a b _ _ => [d, a, b]
  | .vsel d a b vc => [d, a, b, vc]
  | .vselB d a b vc => [d, a, b, vc]
  | .vcvt d a _ _ _ _ => [d, a]
  | .vbq d a b _ _ _ => [d, a, b]
  | .vbdq d a _ _ _ => [d, a]
  | .vbscl d a b _ _ _ => [d, a, b]
  | .vtunp d a _ _ => [d, a]
  | .vpak d a b wc _ => if wc = 4 then [d, a] else [d, a, b]
  | .vupk d a _ _ _ _ => [d, a]
  | .vrng d a b _ md => if md then [d, a] else [d, a, b]
  | .vptst d a => [d, a]
  | .vld _ r _ size _ => if size = .d then [r, r + 1] else [r]
  | .vst _ r _ size _ => if size = .d then [r, r + 1] else [r]
  | .vgat _ r _ _ vi _ => [r, vi]
  | .vsct _ r _ _ vi => [r, vi]
  | .vldb _ r _ _ _ => [r]
  | .vldg d _ _ _ _ => [d]
  | .vstg d _ _ => [d]
  | _ => []

/-- Whether the steward issues a word (R46, R233). -/
def onSteward : Instr → Bool
  | .vadd .. | .vsub .. | .vmul .. | .vmulh .. | .vfma .. | .vfms .. | .vfnma .. | .vmin .. | .vmax ..
  | .vabs .. | .vneg .. | .vand .. | .vor .. | .vxor .. | .vandn .. | .vshl .. | .vshr .. | .vsar .. | .vcmp ..
  | .vbc .. | .vxt .. | .vlid .. | .vrot .. | .vperm .. | .vrsum .. | .vrmax .. | .vrmin .. | .vrcp ..
  | .vrsq .. | .vex2 .. | .vlg2 .. | .vdot4 .. | .vpopc .. | .vclz .. | .vtacc .. | .vsel .. | .vselB ..
  | .vcvt .. | .vbq .. | .vbdq .. | .vbscl .. | .vtunp .. | .vpak .. | .vupk .. | .vrng .. | .vptst .. | .ld ..
  | .st .. | .vld .. | .vst .. | .vgat .. | .vsct .. | .vldb .. | .cbdef .. | .cbadvP .. | .cbadvC ..
  | .cbadvPW .. | .cbadvCW .. | .cp .. | .cpg .. | .cpm .. | .mlds .. | .mswap | .mmul .. | .mmulc ..
  | .mclr .. | .snd .. | .rcv .. | .msq .. | .lsv .. | .lrs .. | .vldg .. | .vstg .. | .trig | .coll .. => false
  | _ => true

/-- The words that accept an XT word (R43). -/
def takesXt : Instr → Bool
  | .addi .. | .andi .. | .ori .. | .xori .. | .muli .. | .lui .. | .aup .. | .cmpi .. | .loopi .. | .ld ..
  | .st .. | .vld .. | .vst .. | .vldb .. | .rcv .. | .lsv .. | .lrs .. => true
  | _ => false

/-! ### Where a word is legal (R38 step 3) -/

/-- The special registers a tile or steward may read (R52, R343). -/
def srRead (steward : Bool) (n : Nat) : Bool :=
  decide (n ≤ 2) || (decide (0x08 ≤ n) && decide (n ≤ 0x10)) || decide (n = 0x18) || decide (n = 0x19) ||
  (decide (0x20 ≤ n) && decide (n ≤ 0x25)) || (decide (0x28 ≤ n) && decide (n ≤ 0x2A)) ||
  (decide (0x30 ≤ n) && decide (n ≤ 0x32)) || decide (n = 0x38) || decide (n = 0x39) || decide (n = 0x40) ||
  decide (n = 0x41) || (decide (0x48 ≤ n) && decide (n ≤ 0x4A)) || decide (n = 0x50) ||
  (decide (0x58 ≤ n) && decide (n ≤ 0x5D)) || (decide (0x60 ≤ n) && decide (n ≤ 0x65)) ||
  (decide (0x68 ≤ n) && decide (n ≤ 0x6D)) || (decide (0x70 ≤ n) && decide (n ≤ 0x75)) ||
  (decide (0x80 ≤ n) && decide (n ≤ 0x97)) ||
  (steward && (decide (n = 0x8000) || (decide (0x8100 ≤ n) && decide (n ≤ 0x817F)) ||
    (decide (0x8200 ≤ n) && decide (n ≤ 0x8287)) || (decide (0x8300 ≤ n) && decide (n ≤ 0x8317)) ||
    (decide (0x8320 ≤ n) && decide (n ≤ 0x8337)) || (decide (0x8400 ≤ n) && decide (n ≤ 0x840F))))

/-- The special registers a core may write (R52, R95, R343): no RO register; the WIN registers and the system registers
on a steward, the module-wide ones on the primary steward alone. -/
def srWrite (steward primary : Bool) (n : Nat) : Bool :=
  decide (n = 2) || (decide (0x08 ≤ n) && decide (n ≤ 0x10)) || (decide (0x20 ≤ n) && decide (n ≤ 0x25)) ||
  decide (n = 0x31) || decide (n = 0x32) || decide (n = 0x50) ||
  (decide (0x58 ≤ n) && decide (n ≤ 0x5D)) || (decide (0x60 ≤ n) && decide (n ≤ 0x65)) ||
  (decide (0x68 ≤ n) && decide (n ≤ 0x6D)) || (decide (0x70 ≤ n) && decide (n ≤ 0x75)) ||
  (steward && ((decide (0x80 ≤ n) && decide (n ≤ 0x97)) || (decide (0x8100 ≤ n) && decide (n ≤ 0x813F)))) ||
  (primary && ((decide (0x8140 ≤ n) && decide (n ≤ 0x817F)) || (decide (0x8200 ≤ n) && decide (n ≤ 0x8287)) ||
    (decide (0x8320 ≤ n) && decide (n ≤ 0x8337)) || (decide (0x8400 ≤ n) && decide (n ≤ 0x8407))))

/-- The primary steward is that of die 0 (R343). -/
def Core.primary (c : Core) : Bool := c.steward && decide (c.num = 256)

/-- The packet of an instruction address (R34). -/
def pkt (a : IAddr) : Nat := a.toNat / 4

/-- The ILLOP checks that need the place of the word, its XT word or the core (R38 step 3). -/
def placeOk (i : Instr) (c : Core) : Bool :=
  match i with
  | .loop _ _ epk _ => decide (pkt c.iss.word + epk.toNat ≤ 8191)
  | .loopi cnt _ epk _ => decide (pkt c.iss.word + epk.toNat ≤ 8191) && !(immZ c.iss.ext cnt).msb
  | .rdsr _ n => srRead c.steward n.toNat
  | .wrsr _ n => srWrite c.steward c.primary n.toNat
  | .swap => !c.steward
  | .swapSteward _ => c.steward
  | .rcv _ _ sig => decide ((immZ c.iss.ext sig).toNat < 2 ^ 26)
  | _ => true

/-- A word that raises no ILLOP on this core at this place (R38 step 3, R42, R46). -/
def legal (i : Instr) (c : Core) : Bool :=
  i.wf && (!c.steward || onSteward i) && (c.iss.ext == none || takesXt i) && placeOk i c

/-- A word that reads or writes FPSTAT by its number. -/
def namesFpstat (i : Instr) : Bool :=
  match i with
  | .rdsr _ n => n == 0x21
  | .wrsr _ n => n == 0x21
  | _ => false

/-- A result that is due and waits for its reply, with a destination the word reads or writes (R28): its register, and FPSTAT,
whose STALE flag it may set as of its due cycle (R32, R144; DEDUCED log 56). -/
def blocks (i : Instr) (f : Flight) : Bool :=
  match f.remain, f.await, f.what with
  | 0, .reply _, .sreg d _ _ _ => (d != 0 && (sregsOf i).contains d) || namesFpstat i
  | 0, .reply _, .vreg d _ _ _ => (vregsOf i).contains d || namesFpstat i
  | _, _, _ => false

/-- A LAND stall of a word (R22, R28). -/
def hazard (i : Instr) (c : Core) : Bool := c.flight.any (blocks i)

/-- What every meaning of a word does first: ILLOP where the word is not legal here, a LAND stall where it touches a late
result, else the word's own effect. -/
def issue (i : Instr) (s : State) (k : State) : Host.Outcome State Fault Refusal :=
  .next (if legal i s.me then (if hazard i s.me then s.stall .land else k) else s.raise .illop)

/-- The word's effect on the executing core; the word has issued. -/
def State.done (s : State) (f : Core → Core) : State := s.onMe fun c => (f c).issued

/-! ### Sources of scalar operations (R68) -/

/-- A scalar result of latency `l` from the sources `ps`, fired or passed on as poison (R68): without `.s` a poisoned
source raises POISON, with `.s` the destination is poisoned with the value of the first poisoned source. -/
def State.scalar (s : State) (l : Nat) (sp : Bool) (ps : List SReg) (d : Reg) (v : W64) : State :=
  match firstPoison ps with
  | none => s.done fun c => c.push l (.sreg d v false 0)
  | some p => if sp then s.done fun c => c.push l (.sreg d p.val true 0) else s.poison p.val

/-! ### Buffer addresses (R41, R205) -/

/-- Bytes of an access size. -/
def sizeBytes : Size → Nat
  | .b => 1
  | .h => 2
  | .w => 4
  | .d => 8

/-- Element size of a vector form: size d has elements of 4 bytes (R205). -/
def elemBytes : Size → Nat
  | .b => 1
  | .h => 2
  | .w => 4
  | .d => 4

/-- The byte address of an MB access with offset unit `u`, rounded down to the element size `n` (R41, R205). -/
def mbAddr (base : W64) (x : Option (BitVec 27)) (off : BitVec 10) (u n : Nat) : Nat :=
  let a := (base + immZ x off * BitVec.ofNat 64 u).toNat
  a / n * n

/-! ### Places (R200, R201) -/

/-- The space a code names (R41). -/
def spaceOf (n : Nat) : Space :=
  match n with
  | 0 => .a
  | 1 => .w
  | 2 => .c
  | _ => .k

/-- A buffer place from its register value; none where a must-be-0 bit is set. -/
def bufPlace (v : W64) : Option Place :=
  let n := v.toNat
  if v.extractLsb' 32 32 != 0 || v.extractLsb' 26 5 != 0 then none
  else if v.getLsbD 31 then
    (if v.extractLsb' 24 2 != 0 || v.extractLsb' 4 20 != 0 then none else some (.cb (v.extractLsb' 0 4)))
  else some (.at (spaceOf (n / 2 ^ 24 % 4)) (n % 2 ^ 24))

/-- A global place from its register value: OUT, window, offset; none where a must-be-0 bit is set. -/
def globPlace (v : W64) : Option (Bool × BitVec 3 × Nat) :=
  if v.extractLsb' 56 4 != 0 then none
  else some (v.getLsbD 63, v.extractLsb' 60 3, v.toNat % 2 ^ 56)

/-! ### Vector results (R150) -/

/-- The order of sources and lanes in which a poisoned lane is the first. -/
def depBefore (a b : Dep) : Bool := decide (a.1 < b.1) || (decide (a.1 = b.1) && decide (a.2 < b.2))

/-- The first poisoned of some source lanes. -/
def firstDep (pois : Dep → Bool) (l : List Dep) : Option Dep :=
  l.foldl (fun acc d =>
    if pois d then
      match acc with
      | none => some d
      | some e => if depBefore d e then some d else acc
    else acc) none

/-- The sources of a vector instruction with their poison: A, B, third, D. -/
structure VOps where
  a : VReg
  b : VReg
  c : VReg
  d : VReg
  deriving DecidableEq, Repr, Inhabited

def VOps.get (o : VOps) (k : Nat) : VReg :=
  match k with
  | 0 => o.a
  | 1 => o.b
  | 2 => o.c
  | _ => o.d

/-- Whether a source lane is poisoned. -/
def VOps.pois (o : VOps) (d : Dep) : Bool := (o.get d.1).poison.getLsbD d.2

/-- The value of a source lane. -/
def VOps.lane (o : VOps) (d : Dep) : Nat := elem 32 (o.get d.1).val.toNat d.2

/-- The sources as numbers. -/
def VOps.src (o : VOps) : VSrc := { a := o.a.val.toNat, b := o.b.val.toNat, c := o.c.val.toNat, d := o.d.val.toNat }

/-- A destination register from its lanes under `.s` or without poison: value, poison mask, flags. -/
def laneReg (o : VOps) (keep : Bool) (l : List LaneOut) : VWord × BitVec 64 × Fl :=
  let rs := l.map fun x =>
    match firstDep o.pois x.deps with
    | some d => (if keep then x.val else o.lane d, true, (0 : Fl))
    | none => (x.val, x.bad, x.fl)
  (BitVec.ofNat 2048 (packW 32 (rs.map fun r => r.1)),
    BitVec.ofNat 64 (packW 1 (rs.map fun r => r.2.1.toNat)),
    rs.foldl (fun f r => f ||| r.2.2) 0)

/-- A vector result of latency `lat`: without `.s` the first poisoned lane read raises POISON, with `.s` lanes pass
poison on (R150). `keep`: a lane poisoned from its source keeps its computed value (R123). -/
def State.vector (s : State) (lat : Nat) (sp keep : Bool) (o : VOps) (d : Reg) (l : List LaneOut) : State :=
  match (if sp then none else firstDep o.pois (l.flatMap LaneOut.deps)) with
  | some p => s.poison (BitVec.ofNat 64 (o.lane p))
  | none =>
    let r := laneReg o keep l
    s.done fun c => c.push lat (.vreg d r.1 r.2.1 r.2.2)

/-- The rounding mode of FPCTL (R138). -/
def Arch.rmode (c : Arch) : RMode := RMode.ofField (c.spec.fpctl.toNat % 8)

/-- What governs floating point for the bundle (R85, R138, R143). -/
def Arch.venv (c : Arch) : VEnv :=
  { r := { mode := c.rmode, graded := c.graded }
    key := c.spec.srk0.toNat + c.spec.srk1.toNat * 2 ^ 64
    ctr := c.spec.src0.toNat + c.spec.src1.toNat * 2 ^ 64 }

/-- The counter advanced by `n` draws, performing one cycle after issue (R143). -/
def Core.advance (c : Core) (n : Nat) : Core :=
  let x := (c.spec.src0.toNat + c.spec.src1.toNat * 2 ^ 64 + 16 * n) % 2 ^ 128
  (c.push 1 (.special 0x24 (BitVec.ofNat 64 x))).push 1 (.special 0x25 (BitVec.ofNat 64 (x / 2 ^ 64)))

/-- A vector result that draws `n` times from the rounding stream where it rounds with SR (R143, R153). -/
def State.vectorFp (s : State) (lat : Nat) (sp : Bool) (sr : Bool) (n : Nat) (o : VOps) (d : Reg)
    (l : List LaneOut) : State :=
  match (if sp then none else firstDep o.pois (l.flatMap LaneOut.deps)) with
  | some p => s.poison (BitVec.ofNat 64 (o.lane p))
  | none =>
    let r := laneReg o false l
    s.done fun c => (if sr then c.advance n else c).push lat (.vreg d r.1 r.2.1 r.2.2)

end Sys2Proof.Machine
end

