-- ==== Sys2Proof/Machine/Buffer.lean ====
section
/-! DEFINITION. The buffer instructions of the M pipe: MB words (R204 to R209), with the cluster space K (R241). -/

namespace Sys2Proof.Machine

/-! ### Data of the access forms (R206) -/

/-- The value of `ld` (R206). -/
def ldVal (size : Size) (bs : List Byte) : W64 :=
  match size with
  | .b => (BitVec.ofNat 8 (leNat bs)).signExtend 64
  | .h => (BitVec.ofNat 16 (leNat bs)).signExtend 64
  | .w => (BitVec.ofNat 32 (leNat bs)).signExtend 64
  | .d => BitVec.ofNat 64 (leNat bs)

/-- The bytes of `st` (R206). -/
def stBytes (size : Size) (v : W64) : List Byte := leBytes (sizeBytes size) v.toNat

/-- A vector register from 64 lane values. -/
def ofLanes (l : List Nat) : VWord := BitVec.ofNat 2048 (packW 32 l)

/-- The lane values of a vector register. -/
def lanesOfV (v : VWord) : List Nat := (List.range 64).map fun j => elem 32 v.toNat j

/-- The 64 elements of `n` bytes in a run of bytes, as one register: `vld.b`, `vld.h`, `vld.w`, half of `vld.d` (R206). -/
def vldVal (n : Nat) (bs : List Byte) : VWord :=
  ofLanes ((List.range 64).map fun j => leNat ((bs.drop (n * j)).take n))

/-- The bytes of `vst` from one register (R206). -/
def vstBytes (n : Nat) (v : VWord) : List Byte := (lanesOfV v).flatMap (leBytes n)

/-- The value of `vldb` (R206). -/
def vldbVal (size : Size) (bs : List Byte) : VWord :=
  let x := leNat bs
  ofLanes ((List.range 64).map fun j =>
    match size with
    | .b => x * 0x01010101
    | .h => x * 0x00010001
    | .w => x
    | .d => if j % 2 = 0 then x % 2 ^ 32 else x / 2 ^ 32)

/-- Bytes a form reaches: one element of a scalar form, 64 elements of a vector form. -/
def formBytes (vec : Bool) (size : Size) : Nat :=
  if vec then 64 * sizeBytes size else sizeBytes size

/-- The landings of a load of registers `r` (and `r + 1` for `vld.d`) from its bytes. -/
def loadLandings (vec : Bool) (size : Size) (r : Reg) (bs : List Byte) : List Landing :=
  if vec then
    (match size with
    | .d => [.vreg r (vldVal 4 (bs.take 256)) 0 0, .vreg (r + 1) (vldVal 4 (bs.drop 256)) 0 0]
    | z => [.vreg r (vldVal (sizeBytes z) bs) 0 0])
  else [.sreg r (ldVal size bs) false 0]

/-! ### Space K (R241) -/

/-- The tile and the A offset of byte `x` of K as core `c` sees it (R241). -/
def kPlace (c : Core) (x : Nat) : Nat × Nat := (c.num / 4 * 4 + x / 128 % 4, x / 512 * 128 + x % 128)

/-- A byte of K as core `c` reads it. -/
def State.kGet (s : State) (c : Core) (x : Nat) : Byte :=
  let p := kPlace c x
  (s.core p.1).store.a.get c.ctx.toNat p.2

/-- Bytes of K. -/
def State.kBytes (s : State) (c : Core) : Nat → Nat → List Byte
  | _, 0 => []
  | x, n + 1 => s.kGet c x :: s.kBytes c (x + 1) n

/-- Bytes written to a buffer without a logical time: in A they stand for stream rows of every entry cycle (R191, R197). -/
def Core.wrote (c : Core) (sp : BSpace) (w : List (Nat × Byte)) : Core :=
  if sp = .a then
    c.onEng fun e => { e with arr := { e.arr with streams := e.arr.streams.map fun x =>
      { x with undo := x.undo.filter fun u => !w.any fun b => b.1 == u.2.1 } } }
  else c

/-- Bytes written to K for core `c`. -/
def State.kWrite (s : State) (c : Core) (w : List (Nat × Byte)) : State :=
  w.foldl (fun s e =>
    let p := kPlace c e.1
    s.onCore p.1 fun u => (u.setBuf .a (u.store.a.set c.ctx.toNat p.2 e.2)).wrote .a [(p.2, e.2)]) s

/-! ### Remote requests -/

/-- A remote access issued by a core: it takes the next number. -/
def Core.request (c : Core) (k : ReqKind) : Core :=
  c.onEng fun e => { e with reqs := e.reqs ++ [{ id := e.nextId, kind := k, fault := none }], nextId := e.nextId + 1 }

/-- Landings pushed one after another. -/
def Core.pushAll (c : Core) (l : Nat) (a : Await) (ws : List Landing) : Core :=
  ws.foldl (fun c w => c.pushAwait l a w) c

/-! ### Loads and stores -/

/-- A load of `r` from address `a` of a space: PERM past its end; from A, W, C the bytes as they stand, landing at
latency `lat`; from K the bytes come over the network and are due at issue + 10 (R205, R207). -/
def State.load (s : State) (space : Space) (vec : Bool) (size : Size) (r : Reg) (a lat : Nat) : State :=
  let n := formBytes vec size
  if spaceSize space < a + n then s.raise .perm
  else
    match bufOf space with
    | some sp => s.done fun c => c.pushAll lat .no (loadLandings vec size r (c.bytes sp a n))
    | none =>
      s.done fun c => (c.pushAll 10 (.net c.eng.nextId) (loadLandings vec size r [])).request (.kload a vec size)

/-- A store of bytes at address `a` of a space: it performs at issue + 2 in A, W, C and as a remote access in K
(R205, R207). -/
def State.storeAt (s : State) (space : Space) (a : Nat) (bs : List Byte) : State :=
  if spaceSize space < a + bs.length then s.raise .perm
  else
    match bufOf space with
    | some sp => s.done fun c => c.push 2 (.bstore sp (place a bs) false)
    | none => s.done fun c => c.request (.kstore (place a bs))

/-- `ld` (R204 to R207). -/
def execLd (space : Space) (r b : Reg) (size : Size) (off : BitVec 10) (s : State) :
    Host.Outcome State Fault Refusal :=
  let x := s.me.s b
  let n := sizeBytes size
  issue (.ld space r b size off) s
    (s.unpoisoned [x] (s.load space false size r (mbAddr x.val s.me.iss.ext off n n) 4))

/-- `st` (R204 to R207). -/
def execSt (space : Space) (r b : Reg) (size : Size) (off : BitVec 10) (s : State) :
    Host.Outcome State Fault Refusal :=
  let x := s.me.s b
  let v := s.me.s r
  let n := sizeBytes size
  issue (.st space r b size off) s
    (s.unpoisoned [v, x] (s.storeAt space (mbAddr x.val s.me.iss.ext off n n) (stBytes size v.val)))

/-- `vld` (R204 to R207). -/
def execVld (space : Space) (r b : Reg) (size : Size) (off : BitVec 10) (s : State) :
    Host.Outcome State Fault Refusal :=
  let x := s.me.s b
  issue (.vld space r b size off) s
    (s.unpoisoned [x]
      (s.load space true size r (mbAddr x.val s.me.iss.ext off (64 * sizeBytes size) (elemBytes size)) 5))

/-- The first poisoned lane of a register as a scalar register of its value (R103, R206). -/
def lanePoison (v : VReg) : List SReg :=
  match (List.range 64).find? fun j => v.poison.getLsbD j with
  | some j => [{ val := BitVec.ofNat 64 (elem 32 v.val.toNat j), poison := true }]
  | none => []

/-- `vst` (R204 to R207). -/
def execVst (space : Space) (r b : Reg) (size : Size) (off : BitVec 10) (s : State) :
    Host.Outcome State Fault Refusal :=
  let x := s.me.s b
  let v := s.me.v r
  let w := s.me.v (r + 1)
  let bytes := if size = .d then vstBytes 4 v.val ++ vstBytes 4 w.val else vstBytes (elemBytes size) v.val
  issue (.vst space r b size off) s
    (s.unpoisoned (lanePoison v ++ (if size = .d then lanePoison w else []) ++ [x])
      (s.storeAt space (mbAddr x.val s.me.iss.ext off (64 * sizeBytes size) (elemBytes size)) bytes))

/-- `vldb` (R204 to R207). -/
def execVldb (space : Space) (r b : Reg) (size : Size) (off : BitVec 10) (s : State) :
    Host.Outcome State Fault Refusal :=
  let x := s.me.s b
  let n := sizeBytes size
  let a := mbAddr x.val s.me.iss.ext off (64 * n) (elemBytes size)
  issue (.vldb space r b size off) s
    (s.unpoisoned [x]
      (match bufOf space with
       | none => s.raise .illop
       | some sp =>
         if sp.size < a + n then s.raise .perm
         else s.done fun c => c.push 6 (.vreg r (vldbVal size (c.bytes sp a n)) 0 0)))

/-! ### Gather and scatter (R208) -/

/-- The address of lane `j`. -/
def laneAddr (base : W64) (idx : VWord) (n j : Nat) : Nat :=
  (base + BitVec.ofNat 64 (elem 32 idx.toNat j * n)).toNat / n * n

/-- What is wrong with lane `j`: a poisoned value, or an address out of range. -/
inductive LaneErr where
  | poison (v : W64)
  | perm
  deriving DecidableEq, Repr, Inhabited

/-- The error of lane `j` of a gather or scatter; of a scatter, whose data is `data`, the index comes first. -/
def laneErr (sp : BSpace) (base : W64) (idx : VReg) (data : Option VReg) (n j : Nat) : Option LaneErr :=
  if idx.poison.getLsbD j then some (.poison (BitVec.ofNat 64 (elem 32 idx.val.toNat j)))
  else
    match data with
    | some v =>
      if v.poison.getLsbD j then some (.poison (BitVec.ofNat 64 (elem 32 v.val.toNat j)))
      else if sp.size < laneAddr base idx.val n j + n then some .perm else none
    | none => if sp.size < laneAddr base idx.val n j + n then some .perm else none

/-- The error of the lowest lane in error. -/
def firstLaneErr (sp : BSpace) (base : W64) (idx : VReg) (data : Option VReg) (n : Nat) : Option LaneErr :=
  (List.range 64).findSome? fun j => laneErr sp base idx data n j

/-- The bundle stops on a lane in error. -/
def State.laneStop (s : State) (e : LaneErr) : State :=
  match e with
  | .poison v => s.poison v
  | .perm => s.raise .perm

/-- A lane of a gather: its value and poison; a lane in error passes its poison or the code of PERM on (R208). -/
def gatherLane (c : Core) (sp : BSpace) (base : W64) (idx : VReg) (n j : Nat) : Nat × Bool :=
  match laneErr sp base idx none n j with
  | some (.poison v) => (v.toNat, true)
  | some .perm => (Cause.perm.num, true)
  | none => (leNat (c.bytes sp (laneAddr base idx.val n j) n), false)

/-- A gather or scatter as PIXG counts it. -/
def Core.gather (c : Core) (op : BitVec 8) (opnd : List Byte) : Core :=
  c.onEng fun e => { e with
    gs := e.gs ++ [{ id := e.nextId, op := op, age := 0, opnd := opnd }], nextId := e.nextId + 1 }

/-- `vgat` (R208). -/
def execVgat (space : Space) (r b : Reg) (size : Size) (vi : Reg) (sp : Bool) (s : State) :
    Host.Outcome State Fault Refusal :=
  let x := s.me.s b
  let idx := s.me.v vi
  let n := sizeBytes size
  issue (.vgat space r b size vi sp) s
    (s.unpoisoned [x]
      (match bufOf space with
       | none => s.raise .illop
       | some u =>
         match (if sp then none else firstLaneErr u x.val idx none n) with
         | some e => s.laneStop e
         | none =>
           s.done fun c =>
             let l := (List.range 64).map fun j => gatherLane c u x.val idx n j
             (c.push 12 (.vreg r (ofLanes (l.map Prod.fst))
               (BitVec.ofNat 64 (packW 1 (l.map fun e => e.2.toNat))) 0)).gather 4
               (leBytes 8 x.val.toNat ++ leBytes 256 idx.val.toNat)))

/-- The bytes of group `g` of a scatter, the highest lane last (R208). -/
def scatterGroup (base : W64) (idx data : VWord) (n g : Nat) : List (Nat × Byte) :=
  (List.range 16).flatMap fun k =>
    place (laneAddr base idx n (16 * g + k)) (leBytes n (elem 32 data.toNat (16 * g + k)))

/-- `vsct` (R208). -/
def execVsct (space : Space) (r b : Reg) (size : Size) (vi : Reg) (s : State) :
    Host.Outcome State Fault Refusal :=
  let x := s.me.s b
  let idx := s.me.v vi
  let v := s.me.v r
  let n := sizeBytes size
  issue (.vsct space r b size vi) s
    (s.unpoisoned [x]
      (match bufOf space with
       | none => s.raise .illop
       | some u =>
         match firstLaneErr u x.val idx (some v) n with
         | some e => s.laneStop e
         | none =>
           s.done fun c =>
             ([0, 1, 2, 3].foldl (fun c g =>
               c.push (3 * (g + 1)) (.bstore u (scatterGroup x.val idx.val v.val n g) true)) c).gather 5
               (leBytes 8 x.val.toNat ++ leBytes 256 idx.val.toNat ++ leBytes 256 v.val.toNat)))

end Sys2Proof.Machine
end

