-- ==== Sys2Proof/Machine/Legs.lean ====
section
/-! DEFINITION. Leg entries, bindings, and the outbox of a leg (R286, R287, R290, R291, R298). -/

namespace Sys2Proof.Machine

/-! ### Leg entries (R286) -/

/-- The entry a traverse stands at (R286, R289). -/
def Trav.cur (t : Trav) : Option LegW := (if t.plane then t.img1 else t.img0)[t.cursor]?

/-- The entries of the active plane. -/
def Trav.img (t : Trav) : List LegW := if t.plane then t.img1 else t.img0

def LegW.kind (l : LegW) : Nat := l.w0.toNat / 2 ^ 61
def LegW.mb (l : LegW) : Nat := l.w0.toNat / 2 ^ 51 % 1024
def LegW.entry (l : LegW) : IAddr := l.w0.extractLsb' 36 15
def LegW.inn (l : LegW) : Bool := l.w0.getLsbD 35
def LegW.out (l : LegW) : Bool := l.w0.getLsbD 34
def LegW.push (l : LegW) : Bool := l.w0.getLsbD 33
def LegW.pop (l : LegW) : Bool := l.w0.getLsbD 32
def LegW.ret (l : LegW) : Bool := l.w0.getLsbD 31
def LegW.early (l : LegW) : Bool := l.w0.getLsbD 30
def LegW.loopTo (l : LegW) : Nat := l.w0.toNat / 2 ^ 21 % 512
def LegW.rep (l : LegW) : Nat := l.w0.toNat / 2 ^ 9 % 4096
def LegW.step (l : LegW) : Nat := l.w0.toNat / 2 % 256

/-- A backward leg, whose directions are the reverse of a forward one's (R287). -/
def LegW.back (l : LegW) : Bool := l.kind == 2

/-- The effective micro-batch (R290). -/
def Trav.mbOf (t : Trav) (l : LegW) : Nat := (l.mb + t.lpc * l.step) % 1024

/-! ### Bindings (R291) -/

/-- A field of a binding record. -/
def Trav.bindField (t : Trav) (off n : Nat) : Nat := leNat ((t.bind.drop off).take n)

def Trav.flags (t : Trav) : Nat := t.bindField 1 1
def Trav.upv (t : Trav) : Bool := t.flags % 2 == 1
def Trav.dnv (t : Trav) : Bool := t.flags / 2 % 2 == 1
def Trav.upx (t : Trav) : Bool := t.flags / 4 % 2 == 1
def Trav.dnx (t : Trav) : Bool := t.flags / 8 % 2 == 1
def Trav.stlim (t : Trav) : Nat := t.bindField 2 1
def Trav.fins (t : Trav) : Nat := t.bindField 3 1
def Trav.bins (t : Trav) : Nat := t.bindField 4 1
def Trav.dnsl (t : Trav) : Nat := t.bindField 5 1
def Trav.upsl (t : Trav) : Nat := t.bindField 6 1
def Trav.upPart (t : Trav) : BitVec 6 := BitVec.ofNat 6 (t.bindField 8 4)
def Trav.dnPart (t : Trav) : BitVec 6 := BitVec.ofNat 6 (t.bindField 12 4)
def Trav.fibase (t : Trav) : Nat := t.bindField 16 4 % 2 ^ 24
def Trav.bibase (t : Trav) : Nat := t.bindField 20 4 % 2 ^ 24
def Trav.fobase (t : Trav) : Nat := t.bindField 24 4 % 2 ^ 24
def Trav.bobase (t : Trav) : Nat := t.bindField 28 4 % 2 ^ 24

/-- The outbox of a leg (R291). -/
def Trav.outbox (t : Trav) (l : LegW) : Nat := if l.back then t.bobase else t.fobase

/-- Whether the current leg of a core's partition launches early (R286). -/
def State.earlyLeg (s : State) (c : Core) : Bool :=
  match s.part c.part with
  | none => false
  | some p => (p.trav.cur.map LegW.early).getD false

/-- The outbox bytes of the anchor with every store of its M pipe in flight, in the order in which they perform (R298); nothing on
another tile. -/
def State.boxNow (s : State) (c : Core) : List Byte :=
  match s.part c.part with
  | none => []
  | some p =>
    match p.trav.cur with
    | none => []
    | some l =>
      if c.rank ≠ 0 ∨ !l.early then []
      else
        let ws := (sortBy (fun f g => decide (f.remain < g.remain)) c.flight).flatMap fun f =>
          match f.what with
          | .bstore .a w _ => w
          | _ => []
        (c.store.a.write c.ctx.toNat ws).bytes c.ctx.toNat (p.trav.outbox l) 128

end Sys2Proof.Machine
end

