-- ==== Sys2Proof/Machine/Fetch.lean ====
section
/-! DEFINITION. Fetching the words of a bundle from the active instruction plane, start words, and the composition of
bundles (R33 to R37, R49). -/

namespace Sys2Proof.Machine

/-- The active instruction plane of a core (R302). -/
def Arch.iplane (c : Arch) : Mem := if c.store.plane then c.store.ip1 else c.store.ip0

/-- The words of a plane (R33). -/
def planeWords : Nat := 24576

/-- The word at packet `p`, slot `k`, little-endian (R33). -/
def Arch.wordAt (c : Arch) (p k : Nat) : Word := BitVec.ofNat 32 (leNat (memBytes c.iplane (12 * p + 4 * k) 4))

/-- The word at an instruction address. -/
def Arch.word (c : Arch) (a : IAddr) : Word := c.wordAt (pkt a) (a.toNat % 4)

/-- The address after a word: the next slot, the next packet, or none past the plane (R35). -/
def nextWord (a : IAddr) : Option IAddr :=
  if a.toNat % 4 < 2 then some (a + 1) else if pkt a < 8191 then some (BitVec.ofNat 15 (4 * (pkt a + 1))) else none

/-- Whether an address is a start word as a target (R49). -/
def Arch.isStart (c : Arch) (a : IAddr) : Bool :=
  match a.toNat % 4 with
  | 0 => pkt a == 0 || !link (c.wordAt (pkt a - 1) 2)
  | 1 => !link (c.wordAt (pkt a) 0)
  | 2 => !link (c.wordAt (pkt a) 1)
  | _ => false

/-- The words of the bundle at `a`, at most `n` of them, and the next start word in sequence: `none` where the bundle
runs past the plane or is longer, `some none` where it ends with the plane (R35). -/
def Arch.bundle (c : Arch) : Nat → IAddr → List (IAddr × Word) × Option (Option IAddr)
  | 0, _ => ([], none)
  | n + 1, a =>
    let w := c.word a
    if link w then
      match nextWord a with
      | none => ([(a, w)], none)
      | some b => let r := c.bundle n b; ((a, w) :: r.1, r.2)
    else ([(a, w)], some (nextWord a))

/-- The first address after the bundle at `a`, whatever its length up to the plane's end. -/
def Arch.afterBundle (c : Arch) : Nat → IAddr → Option IAddr
  | 0, _ => none
  | n + 1, a =>
    match nextWord a with
    | none => none
    | some b => if link (c.word a) then c.afterBundle n b else some b

/-- Whether a bundle runs past packet 8191, slot 2 (R35). -/
def Arch.runsPast (c : Arch) : Nat → IAddr → Bool
  | 0, _ => false
  | n + 1, a => link (c.word a) && (match nextWord a with | none => true | some b => c.runsPast n b)

/-- The number of words of a class in a list. -/
def countCls (k : List Nat) (ws : List Word) : Nat := (ws.filter fun w => k.contains (classOf w)).length

/-- Whether every XT word follows a word of a class that may carry one, and no other XT word (R36, R37). -/
def xtPlaced : Option Word → List Word → Bool
  | _, [] => true
  | p, w :: r =>
    (classOf w != 11 || (match p with
      | none => false
      | some q => [1, 2, 3, 6, 7, 9].contains (classOf q))) && xtPlaced (some w) r

/-- A word that holds `sync` (R27). -/
def isSync (w : Word) : Bool := classOf w == 3 && fld w.toNat 26 22 == 16

/-- The composition rules of R36 and R37 for the words of a bundle that starts in slot `slot`. -/
def composed (slot : Nat) (ws : List Word) : Bool :=
  decide (ws.length + slot ≤ 6) && decide (ws.length ≤ 6) &&
  decide (countCls [10] ws ≤ 1) && (countCls [10] ws == 0 || classOf (ws.headD 0) == 10) &&
  decide (countCls [0, 1, 2] ws ≤ 2) && decide (countCls [4, 5] ws ≤ 1) && decide (countCls [6, 8] ws ≤ 1) &&
  decide (countCls [7] ws ≤ 1) && decide (countCls [3, 9] ws ≤ 1) && xtPlaced none ws &&
  (!ws.any isSync || (classOf (ws.headD 0) == 10 && (ws.headD 0).getLsbD 26))

end Sys2Proof.Machine
end

