-- ==== Sys2Proof/Machine/Control.lean ====
section
/-! DEFINITION. The control instructions of the C pipe: CT words, and the SW and XT words (R24, R44, R77 to R92). -/

namespace Sys2Proof.Machine

/-! ### Compares and steer logic (R77 to R80) -/

/-- Whether a condition holds (R78). -/
def condHolds (c : Cond) (x y : W64) : Bool :=
  match c with
  | .eq => x == y
  | .ne => x != y
  | .lt => x.slt y
  | .ge => !x.slt y
  | .le => !y.slt x
  | .gt => y.slt x
  | .ltn => x.ult y
  | .gen => !x.ult y
  | .len => !y.ult x
  | .gtn => y.ult x

/-- The unsigned conditions (R78). -/
def Cond.unsigned (c : Cond) : Bool :=
  match c with
  | .ltn | .gen | .len | .gtn => true
  | _ => false

/-- An operand of `cmp` in its 64-bit or 32-bit form (R78). -/
def cmpArg (c : Cond) (w : Bool) (x : W64) : W64 :=
  if w then (if Cond.unsigned c then (x.setWidth 32).setWidth 64 else (x.setWidth 32).signExtend 64) else x

/-- A steer condition of latency 2, 0 and poisoned when a source is (R68). -/
def State.setCond (s : State) (g : GIdx) (p v : Bool) : State := s.done fun c => c.push 2 (.gcond g (v && !p) p)

/-- `cmp` (R78). -/
def execCmp (g : GIdx) (a b : Reg) (cond : Cond) (w : Bool) (s : State) : Host.Outcome State Fault Refusal :=
  let x := s.me.s a
  let y := s.me.s b
  issue (.cmp g a b cond w) s
    (s.setCond g (x.poison || y.poison) (condHolds cond (cmpArg cond w x.val) (cmpArg cond w y.val)))

/-- `cmpi` (R78). -/
def execCmpi (g : GIdx) (imm : BitVec 9) (cond : Cond) (a : Reg) (s : State) : Host.Outcome State Fault Refusal :=
  let x := s.me.s a
  issue (.cmpi g imm cond a) s (s.setCond g x.poison (condHolds cond x.val (immS s.me.iss.ext imm)))

/-- `tst` (R79). -/
def execTst (g : GIdx) (a b : Reg) (z w : Bool) (s : State) : Host.Outcome State Fault Refusal :=
  let x := s.me.s a
  let y := s.me.s b
  let m := if w then ((x.val &&& y.val).setWidth 32).setWidth 64 else x.val &&& y.val
  issue (.tst g a b z w) s (s.setCond g (x.poison || y.poison) ((m == 0) == z))

/-- `gand` (R79). -/
def execGand (g ga gb : GIdx) (s : State) : Host.Outcome State Fault Refusal :=
  let x := s.me.g ga
  let y := s.me.g gb
  issue (.gand g ga gb) s (s.setCond g (x.cp || y.cp) (x.c && y.c))

/-- `gor` (R79). -/
def execGor (g ga gb : GIdx) (s : State) : Host.Outcome State Fault Refusal :=
  let x := s.me.g ga
  let y := s.me.g gb
  issue (.gor g ga gb) s (s.setCond g (x.cp || y.cp) (x.c || y.c))

/-- `gxor` (R79). -/
def execGxor (g ga gb : GIdx) (s : State) : Host.Outcome State Fault Refusal :=
  let x := s.me.g ga
  let y := s.me.g gb
  issue (.gxor g ga gb) s (s.setCond g (x.cp || y.cp) (x.c != y.c))

/-- `gnot` (R79). -/
def execGnot (g ga : GIdx) (s : State) : Host.Outcome State Fault Refusal :=
  let x := s.me.g ga
  issue (.gnot g ga) s (s.setCond g x.cp (!x.c))

/-- `ptst` never fires (R80). -/
def execPtst (g : GIdx) (a : Reg) (s : State) : Host.Outcome State Fault Refusal :=
  issue (.ptst g a) s (s.setCond g false (s.me.s a).poison)

/-! ### Targets and branches (R81, R82) -/

/-- `prep` (R50, R81). -/
def execPrep (g : GIdx) (tgt : BitVec 15) (s : State) : Host.Outcome State Fault Refusal :=
  issue (.prep g tgt) s (s.done fun c => c.push 3 (.gtarg g tgt))

/-- `prepr` (R50, R81). -/
def execPrepr (g : GIdx) (a : Reg) (s : State) : Host.Outcome State Fault Refusal :=
  let x := s.me.s a
  issue (.prepr g a) s (s.unpoisoned [x] (s.done fun c => c.push 3 (.gtarg g (x.val.setWidth 15))))

/-- `br`, which fires a poisoned condition whether or not it is taken (R82). -/
def execBr (g : GIdx) (s : State) : Host.Outcome State Fault Refusal :=
  let x := s.me.g g
  issue (.br g) s
    (if x.cp then s.raiseLocal .poison 0 else s.done fun c => if x.c then c.jump x.t else c)

/-- `br.a` does not read the condition (R82). -/
def execBrA (g : GIdx) (s : State) : Host.Outcome State Fault Refusal :=
  issue (.brA g) s (s.done fun c => c.jump (s.me.g g).t)

/-- `brf` (R82). -/
def execBrf (g : GIdx) (s : State) : Host.Outcome State Fault Refusal :=
  let x := s.me.g g
  issue (.brf g) s
    (if x.cp then s.raiseLocal .poison 0 else s.done fun c => if x.c then c else c.jump x.t)

/-- `brl`, which also writes s31 (R82). -/
def execBrl (g : GIdx) (s : State) : Host.Outcome State Fault Refusal :=
  issue (.brl g) s
    (s.done fun c => (c.push 1 (.sreg 31 (c.iss.seq.setWidth 64) false 0)).jump (s.me.g g).t)

/-! ### Loops (R83 to R88) -/

/-- The end address of a loop word (R83). -/
def loopEnd (word : IAddr) (epk : BitVec 8) (esl : BitVec 2) : IAddr :=
  BitVec.ofNat 15 ((pkt word + epk.toNat) * 4 + esl.toNat)

/-- A loop level pushed: it governs the next bundle, which comes from LBEG (R84). -/
def Core.pushLoop (c : Core) (n : W64) (e : IAddr) (gr : Bool) : Core :=
  ((c.setLevel c.loops.lsd.toNat
      { cnt := n, idx := 0, beg := c.iss.seq
        fin := BitVec.ofNat 16 (e.toNat + gr.toNat * 32768) }).setLsd (c.loops.lsd + 1)).jump c.iss.seq

/-- What a loop bundle does with trip count `n`. Where the end address of a zero-trip loop is no start word, control goes
to that address, whose fetch raises BADTARGET (R49, R84; DEDUCED log 29). -/
def State.startLoop (s : State) (n : W64) (e : IAddr) (gr : Bool) : State :=
  if n = 0 then
    s.done fun c => c.jump (if c.isStart e then (c.afterBundle planeWords e).getD 0x7FFF else e)
  else if 6 ≤ s.me.loops.lsd.toNat then s.raiseLocal .loopovf 0
  else s.done fun c => c.pushLoop n e gr

/-- `loop` (R83, R84). -/
def execLoop (a : Reg) (gr : Bool) (epk : BitVec 8) (esl : BitVec 2) (s : State) :
    Host.Outcome State Fault Refusal :=
  let x := s.me.s a
  issue (.loop a gr epk esl) s (s.unpoisoned [x] (s.startLoop x.val (loopEnd s.me.iss.word epk esl) gr))

/-- `loopi` (R83, R84). -/
def execLoopi (cnt : BitVec 7) (gr : Bool) (epk : BitVec 8) (esl : BitVec 2) (s : State) :
    Host.Outcome State Fault Refusal :=
  issue (.loopi cnt gr epk esl) s
    (s.startLoop (immZ s.me.iss.ext cnt) (loopEnd s.me.iss.word epk esl) gr)

/-- `lbrk` (R88). -/
def execLbrk (g : GIdx) (n : BitVec 3) (s : State) : Host.Outcome State Fault Refusal :=
  let x := s.me.g g
  issue (.lbrk g n) s
    (if x.cp then s.raiseLocal .poison 0
     else if !x.c then s.done id
     else if s.me.loops.lsd.toNat < n.toNat then s.raiseLocal .loopovf 0
     else s.done fun c => (c.setLsd (c.loops.lsd - n)).jump x.t)

/-! ### Time, barriers, the end of a leg (R89 to R92) -/

/-- Whether a core issues nothing more up to logical time `t` of its leg: it is past it, its part of the leg has ended, or it
waits at a barrier that a tile of its cluster has yet to post at. -/
def Arch.past (c : Arch) (t : Nat) : Bool :=
  decide (t < c.spec.lt.toNat) ||
  (match c.run with
   | .halted | .idle => true
   | .barrier _ sc => sc != .tile
   | _ => false)

/-- Whether a tile may use the chain in its leg: it has, or its active plane holds an `mmulc` (R194; DEDUCED log 12). -/
def Arch.mayChain (c : Arch) : Bool :=
  c.eng.arr.nchain != 0 || c.iplane.any fun e => e.1 % 4 == 3 &&
    (match decode false (BitVec.ofNat 32 (leNat (memBytes c.iplane (e.1 - 3) 4))) with
     | .ok (.mmulc ..) => true
     | _ => false)

/-- Whether the bundle at the program counter holds an `mmulc`. -/
def Arch.bundleChains (c : Arch) : Bool :=
  (c.bundle 7 c.pc).1.any fun x => match decode false x.2 with | .ok (.mmulc ..) => true | _ => false

/-- A tile's count of `mmulc`, with that of its bundle, also where that one still waits for its leave (R194, R198). -/
def Core.chainCount (c : Core) : Nat :=
  c.eng.arr.nchain + if c.leave = .asked ∧ c.bundleChains then 1 else 0

/-- How a tile's count of `mmulc` stands to that of its cluster's tile 0 (R194): equal, to be waited for, or different. In a
cluster that has used the chain the check waits for tile 0's count up to this tile's LT (DEDUCED log 12). -/
def chainCheck (s : State) : Option Bool :=
  let c := s.me
  let z := s.core (c.num / 4 * 4)
  let mine := c.chainCount
  if c.steward || c.num % 4 == 0 || mine == 0 && !z.mayChain then some true
  else
    let upTo := (z.eng.arr.log.filter fun e => decide (e.2.1.toNat ≤ c.spec.lt.toNat)).length
    if decide (mine < upTo) then some false else if z.past c.spec.lt.toNat then some (mine == upTo) else none

/-- A bundle that ends a superstep makes the chain check first, with the `mmulc` it holds; one whose leave has been asked for waits
behind the check (R194, R198). -/
def State.chained (s : State) (k : State) : State :=
  match chainCheck s with
  | some true => if s.me.leave = .asked then s.stall .leave else k
  | some false => s.raise .tsmismatch
  | none => s.stall .engine

/-- `sync`: the bundle issues behind a held stamp; the tile then drains, fences, posts and waits (R27). -/
def execSync (scope : Scope) (s : State) : Host.Outcome State Fault Refusal :=
  issue (.sync scope) s
    (if s.me.iss.held.isNone then s.raise .illbundle
     else s.chained (s.done fun c => { c with run := .barrier false scope }))

/-- `frame` (R23, R89). -/
def execFrame (s : State) : Host.Outcome State Fault Refusal :=
  issue .frame s (s.done fun c => c.push 1 (.special 0x0002 c.spec.lt))

/-- Whether PTC has reached a time (R90). -/
def ptcReached (p : Ptc) (sec : BitVec 48) (ns : BitVec 32) : Bool :=
  decide (sec.toNat < p.sec.toNat) || (p.sec == sec && decide (ns.toNat ≤ p.ns.toNat))

/-- `waitt` (R90). -/
def execWaitt (a b : Reg) (s : State) : Host.Outcome State Fault Refusal :=
  let x := s.me.s a
  let y := s.me.s b
  issue (.waitt a b) s
    (s.unpoisoned [x, y]
      (if ptcReached (s.die s.me.die).ptc (x.val.setWidth 48) (y.val.setWidth 32) then s.done id else s.stall .sync))

/-- `nop` (R89). -/
def execNop (s : State) : Host.Outcome State Fault Refusal := issue .nop s (s.done id)

/-- Writes of the tile's own pipes that a `halt` discards when they are due after it (R91): what was handed to an engine
goes on (DEDUCED log 13). -/
def Landing.ownPipe : Landing → Bool
  | .sreg .. | .vreg .. | .gcond .. | .gtarg .. | .special .. | .bstore .. | .tagset .. => true
  | _ => false

/-- Whether a result that is due waits for request `n`. -/
def Arch.owed (c : Arch) (n : Nat) : Bool := c.flight.any fun f => f.remain == 0 && f.await == .reply n

/-- The results in flight that a halt keeps: own writes due later are dropped (R91). -/
def Arch.lasting (c : Arch) : List Flight := c.flight.filter fun f => !(f.what.ownPipe && decide (0 < f.remain))

/-- The tile's part of the leg ends (R91): own writes due later, replies to registers due later and LQ entries due later
are dropped; a trigger not yet posted is posted (R297). -/
def Core.endLeg (c : Core) (box : List Byte) : Core :=
  { c with
    run := .halted
    after := 0
    flight := c.lasting
    eng := { c.eng with
      lq := c.eng.lq.filter fun q => decide (q.remain = 0)
      reqs := (c.eng.reqs.filter fun r =>
        match r.kind with
        | .kload .. => false
        | .gload .. | .back _ _ false _ => c.owed r.id
        | _ => true) ++ (if c.eng.trig || c.steward then [] else [{ id := c.eng.nextId, kind := .trig box true, fault := none }])
      nextId := c.eng.nextId + 1
      trig := true } }

/-- `halt`: the trigger it posts covers the stores that the halt keeps (R91, R297, R298). -/
def execHalt (s : State) : Host.Outcome State Fault Refusal :=
  issue .halt s (s.chained (s.done fun c => c.endLeg (s.boxNow { c with flight := c.lasting })))

/-! ### SW and XT words (R24, R43, R44) -/

/-- The stamp check of R24. -/
def State.stamp (s : State) (hold : Bool) (sig : BitVec 26) : State :=
  if s.me.delta.toNat = sig.toNat then
    s.done fun c => c.onIss fun i => { i with held := if hold then some sig else none }
  else if hold && decide (s.me.delta.toNat < sig.toNat) then s.onMe Core.hold
  else s.raise .stamp

/-- `at` (R24, R44). -/
def execStampAt (sig : BitVec 26) (s : State) : Host.Outcome State Fault Refusal :=
  issue (.stampAt sig) s (s.stamp false sig)

/-- `at.h` (R24, R44). -/
def execStampHold (sig : BitVec 26) (s : State) : Host.Outcome State Fault Refusal :=
  issue (.stampHold sig) s (s.stamp true sig)

/-- `ext` supplies the high part of the immediate of the word it extends (R43, R44). -/
def execXt (e : BitVec 27) (s : State) : Host.Outcome State Fault Refusal :=
  .next (s.done fun c => c.onIss fun i => { i with ext := some e })

end Sys2Proof.Machine
end

