-- ==== Sys2Proof/Machine/Array.lean ====
section
/-! DEFINITION. What the matrix array computes: format descriptors, the aligner, weight groups, activation rows, planes
and tags, the accumulator (R126 to R137, R182 to R188, R191 to R193). -/

namespace Sys2Proof.Machine

/-! ### Format descriptors (R126, R127, R130) -/

/-- Bits of an element of a format; T3 counts by bytes of five trits. -/
def fmtBits (code : Nat) : Nat :=
  match code with
  | 0 => 32
  | 1 => 16
  | 2 => 16
  | 3 => 8
  | 4 => 8
  | 5 => 6
  | 6 => 6
  | 7 => 4
  | 8 => 16
  | 9 => 8
  | 10 => 8
  | 11 => 4
  | _ => 0

/-- The mantissa width of a block format. -/
def blockN (code : Nat) : Nat := code - 11

/-- A block format (R126). -/
def isBlock (code : Nat) : Bool := decide (13 ≤ code)

/-- Format code of a descriptor. -/
def fdCode (fd : BitVec 8) : Nat := fd.toNat % 32

/-- Block width of a descriptor. -/
def fdWidth (fd : BitVec 8) : Nat := 4 * 2 ^ (fd.toNat / 64)

/-- A descriptor R127 accepts. -/
def fdOk (fd : BitVec 8) : Bool :=
  let c := fdCode fd
  let w := fdWidth fd
  decide (fd.toNat / 64 ≠ 3) && !fd.getLsbD 5 && decide (c ≤ 19) &&
  (if c = 0 ∨ c = 1 ∨ c = 8 ∨ c = 10 then w == 16
   else if c = 9 ∨ 16 ≤ c then w != 4
   else true)

/-- Bytes of an array of elements (R129, R130). -/
def arrayBytes (code count : Nat) : Nat :=
  if code = 12 then (count + 4) / 5 else (count * fmtBits code + 7) / 8

/-- K-blocks of `k` elements. -/
def kBlocks (k : Nat) : Nat := (k + 23) / 24

/-- A length rounded up to 128 bytes (R183). -/
def up128 (n : Nat) : Nat := (n + 127) / 128 * 128

/-! ### Reading elements (R128 to R132) -/

/-- Element `e` of `w` bits of an array at byte `base`. -/
def elemAt (rd : Nat → Byte) (base w e : Nat) : Nat :=
  let lo := e * w % 8
  let bs := (List.range ((lo + w + 7) / 8)).map fun i => rd (base + e * w / 8 + i)
  leNat bs / 2 ^ lo % 2 ^ w

/-- The format of a floating-point code. -/
def fpOf (code : Nat) : Fmt :=
  match code with
  | 0 => fp32
  | 1 => fp16
  | 2 => bf16
  | 3 => e5m2
  | 4 => e4m3
  | 5 => e3m2
  | 6 => e2m3
  | _ => e2m1

/-- Mantissas filled up to 24. -/
def fill24 (l : List Int) : List Int := l ++ List.replicate (24 - l.length) 0

/-- Elements `e` to `e + cnt - 1` of an array aligned to a block of width `w`: R134 for the formats that are no block. -/
def alignGroup (rd : Nat → Byte) (code w base e cnt : Nat) : Blk × Fl :=
  let idx := (List.range cnt).map fun i => e + i
  if code < 8 then
    let b := blockRule w (idx.map fun i => (fpOf code).value (elemAt rd base (fmtBits code) i))
    ({ e := BitVec.ofNat 8 b.1, m := b.2.1 }, b.2.2)
  else if code = 12 then
    let by' := idx.map fun i => (rd (base + i / 5)).toNat
    ({ e := 127, m := fill24 (idx.map fun i => trit (rd (base + i / 5)).toNat (i % 5)) },
      flIf (by'.any fun b => decide (243 ≤ b)) flTBAD)
  else
    let b := fmtBits code
    ({ e := 127
       m := fill24 (idx.map fun i =>
         let x := elemAt rd base b i
         if code = 10 then (x : Int) else sgn b x) }, 0)

/-- Block `j` of a mantissa array of `n`-bit mantissas, with its scale byte: `cnt` mantissas, the others zero (R132, R134,
R183, R184). -/
def storedBlock (rd : Nat → Byte) (n base j : Nat) (scale : Byte) (cnt : Nat) : Blk :=
  { e := scale, m := (List.range 24).map fun i => if i < cnt then sgn n (elemAt rd (base + 3 * n * j) n i) else 0 }

/-! ### Stream descriptors (R182, R183) -/

/-- Elements per row. -/
def descK (d : W64) : Nat := d.toNat / 2 ^ 23 % 512

/-- Rows streamed. -/
def descM (d : W64) : Nat := d.toNat / 2 ^ 40 % 256 + 1

/-- The activation format descriptor. -/
def descAfd (d : W64) : BitVec 8 := d.extractLsb' 48 8

/-- acc_lsb, signed. -/
def descAcc (d : W64) : Int := (d.extractLsb' 56 8).toInt

/-- A valid stream descriptor (R182). -/
def descOk (d : W64) : Bool :=
  d.extractLsb' 32 8 == 0 && d.extractLsb' 0 23 == 0 && decide (1 ≤ descK d) && decide (descK d ≤ 288) && fdOk (descAfd d)

/-- Bytes of one row record of a circular-buffer form (R183). -/
def recordBytes (d : W64) : Nat :=
  let c := fdCode (descAfd d)
  if isBlock c then 3 * blockN c * kBlocks (descK d) else arrayBytes c (descK d)

/-- Where the scale array of a direct block stream starts (R183). -/
def scaleBase (d : W64) (act : Nat) : Nat :=
  act + up128 (3 * blockN (fdCode (descAfd d)) * descM d * kBlocks (descK d))

/-- Whether the activation area lies in A (R183, R215): the direct area with its scales, or the scale array of a
circular-buffer form. -/
def actFits (d : W64) (act : Nat) (cb : Bool) : Bool :=
  let c := fdCode (descAfd d)
  let nb := kBlocks (descK d)
  let sz := BSpace.a.size
  if isBlock c then
    if cb then decide (act + descM d * nb ≤ sz)
    else decide (act + 3 * blockN c * descM d * nb ≤ sz) && decide (scaleBase d act + descM d * nb ≤ sz)
  else cb || decide (act + arrayBytes c (descM d * descK d) ≤ sz)

/-- The AX base with bits [6:0] cleared (R183). -/
def axBase (b : W64) : Nat := b.toNat / 128 * 128

/-- Whether the AX region lies in C (R136, R215). -/
def axFits (d : W64) (b : W64) : Bool := decide (axBase b + 2112 * descM d ≤ BSpace.c.size)

/-- Row `r` of a direct stream from A (R183). -/
def directRow (rd : Nat → Byte) (d : W64) (act r : Nat) : RowData :=
  let c := fdCode (descAfd d)
  let w := fdWidth (descAfd d)
  let k := descK d
  let nb := kBlocks k
  let bs := (List.range nb).map fun j =>
    if isBlock c then
      (storedBlock rd (blockN c) act (r * nb + j) (rd (scaleBase d act + r * nb + j)) (min 24 (k - 24 * j)), (0 : Fl))
    else alignGroup rd c w act (r * k + 24 * j) (min 24 (k - 24 * j))
  { row := r, wid := w, blks := bs.map Prod.fst, fl := bs.foldl (fun f b => f ||| b.2) 0 }

/-- Row `r` of a circular-buffer stream from its record, with the scale bytes from A (R183). -/
def recordRow (rec' rd : Nat → Byte) (d : W64) (act r : Nat) : RowData :=
  let c := fdCode (descAfd d)
  let w := fdWidth (descAfd d)
  let k := descK d
  let nb := kBlocks k
  let bs := (List.range nb).map fun j =>
    if isBlock c then (storedBlock rec' (blockN c) 0 j (rd (act + r * nb + j)) (min 24 (k - 24 * j)), (0 : Fl))
    else alignGroup rec' c w 0 (24 * j) (min 24 (k - 24 * j))
  { row := r, wid := w, blks := bs.map Prod.fst, fl := bs.foldl (fun f b => f ||| b.2) 0 }

/-! ### Weights (R184, R215) -/

/-- Elements per column of a weight descriptor. -/
def wKw (d : W64) : Nat := d.toNat / 2 ^ 8 % 512

/-- Columns loaded. -/
def wNw (d : W64) : Nat := d.toNat / 2 ^ 17 % 256 + 1

/-- The weight format descriptor. -/
def wFd (d : W64) : BitVec 8 := d.extractLsb' 0 8

/-- A valid weight descriptor (R184). -/
def wOk (d : W64) : Bool :=
  d.extractLsb' 25 39 == 0 && decide (1 ≤ wKw d) && decide (wKw d ≤ 288) && fdOk (wFd d)

/-- Whether the weight areas lie in W (R215). -/
def wFits (d : W64) (a b : Nat) : Bool :=
  let c := fdCode (wFd d)
  let nb := kBlocks (wKw d)
  if isBlock c then
    decide (a + 3 * blockN c * nb * wNw d ≤ BSpace.w.size) && decide (b + wNw d * nb ≤ BSpace.w.size)
  else decide (a + arrayBytes c (wNw d * wKw d) ≤ BSpace.w.size)

/-- Group `j` of 24 rows of every loaded column (R184). -/
def weightGroup (rd : Nat → Byte) (d : W64) (a b j : Nat) : List Blk × Fl :=
  let c := fdCode (wFd d)
  let w := fdWidth (wFd d)
  let k := wKw d
  let nb := kBlocks k
  let bs := (List.range (wNw d)).map fun n =>
    if isBlock c then (storedBlock rd (blockN c) a (n * nb + j) (rd (b + n * nb + j)) (min 24 (k - 24 * j)), (0 : Fl))
    else alignGroup rd c w a (n * k + 24 * j) (min 24 (k - 24 * j))
  (bs.map Prod.fst, bs.foldl (fun f b => f ||| b.2) 0)

/-! ### Planes and tags (R187, R188) -/

/-- A block of zero mantissas. -/
def zeroBlk : Blk := { e := 0, m := [] }

/-- Block `j` of column `n` of a load; zero where nothing is loaded (R184). -/
def Load.blk (l : Load) (j n : Nat) : Blk := ((l.groups[j]?).getD [])[n]?.getD zeroBlk

/-- A change of the active set or of the plane contents, governing rows that enter from logical cycle `t` on. -/
def Arr.mark (a : Arr) (t : Nat) : Arr := { a with hist := a.hist ++ [(t, a.active, a.p0, a.p1)] }

/-- Active set and plane contents for a row that enters at logical cycle `e` (R188). -/
def Arr.at (a : Arr) (e : Nat) : PSet × Nat × Nat :=
  (a.hist.filter fun h => decide (h.1 ≤ e)).foldl (fun _ h => h.2) (PSet.p0, 0, 0)

/-- The load a tag names. In the pair the contents of P0 stand for both planes (DEDUCED log 15). A tag of a single plane whose
last load is a paired one names its whole contents (DESIGN CHOICE log 55). -/
def Arr.tagged (a : Arr) (e : Nat) : Option Load :=
  let h := a.at e
  let n := match h.1 with
    | .p1 => h.2.2
    | _ => h.2.1
  a.loads.find? fun l => l.id == n

/-- Steps per row (R185). -/
def stepsOf (w : Nat) (p : PSet) : Nat := w / 4 * (if p = .pair then 2 else 1)

/-! ### The accumulator (R136, R137) -/

/-- The exact sum of products of two blocks. -/
def dotBlk (a w : Blk) : Int := (List.zipWith (fun x y => x * y) a.m w.m).foldl (fun s x => s + x) 0

/-- A sum shifted by 2^s: rounded to even when it shifts right (R137). -/
def shiftRne (p s : Int) : Int × Bool :=
  let k := roundInt .rne false 0 p.natAbs s 0
  (signed (decide (p < 0)) k.1, k.2)

/-- One block product added (R137). -/
def addBlk (acc : Int) (x : Ax × Fl) (a w : Blk) : Ax × Fl :=
  if a.e = 255 ∨ w.e = 255 then ({ x.1 with nan := true }, x.2)
  else
    let q := shiftRne (dotBlk a w) (((a.e.toNat : Int) - 127) + ((w.e.toNat : Int) - 127) - acc)
    let t := x.1.v + q.1
    let fl := x.2 ||| flIf q.2 flNX
    if 2 ^ 63 - 1 < t then ({ x.1 with v := 2 ^ 63 - 1, sat := true }, fl ||| flAOF)
    else if t < -(2 ^ 63) then ({ x.1 with v := -(2 ^ 63), sat := true }, fl ||| flAOF)
    else ({ x.1 with v := t }, fl)

/-- Column `n` of a row added to its element, in ascending K-block order. -/
def addRow (acc : Int) (l : Load) (bs : List Blk) (n : Nat) (x : Ax) : Ax × Fl :=
  ((List.range bs.length).zip bs).foldl (fun y jb => addBlk acc y jb.2 (l.blk jb.1 n)) (x, 0)

/-- Element `i` of an AX region of `e` elements at `b` (R136). -/
def axGet (rd : Nat → Byte) (b e i : Nat) : Ax :=
  let v := leNat ((List.range 8).map fun k => rd (b + 8 * i + k))
  let st := (rd (b + 8 * e + i / 4)).toNat / 4 ^ (i % 4)
  { v := sgn 64 v, sat := st % 2 == 1, nan := st / 2 % 2 == 1 }

/-- The bytes of a row of 256 elements of a region of `m` rows at `b`, from the elements. -/
def axBytes (b m r : Nat) (xs : List Ax) : List (Nat × Byte) :=
  place (b + 2048 * r) (xs.flatMap fun x => leBytes 8 (code 64 x.v)) ++
  place (b + 2048 * m + 64 * r)
    ((List.range 64).map fun q => BitVec.ofNat 8
      (packW 2 ((List.range 4).map fun k =>
        let x := xs.getD (4 * q + k) { v := 0, sat := false, nan := false }
        x.sat.toNat + 2 * x.nan.toNat)))

/-- The elements of row `r` of a region of `m` rows at `b`. -/
def axRowGet (rd : Nat → Byte) (b m r : Nat) : List Ax := (List.range 256).map fun n => axGet rd b (256 * m) (256 * r + n)

/-- What a row adds to element `n`. -/
def RowAdd.to (a : RowAdd) (n : Nat) (x : Ax) : Ax × Fl := addRow a.acc a.load a.blks n x

/-- Additions one after another to element `n`: its value, the flags of the one of stream `st`, and AOF where a later one
saturates (R137). -/
def addsTo (st n : Nat) (as : List RowAdd) (x : Ax) : Ax × Fl :=
  as.foldl (fun y a =>
    let o := a.to n y.1
    (o.1, if a.stream < st then y.2 else if a.stream = st then y.2 ||| o.2 else y.2 ||| (o.2 &&& flAOF))) (x, 0)

/-- A row of an AX region to which row after row adds: where later streams have added before, each element that nothing else
has written since gets the additions in issue order; else the addition joins what stands there. The elements after it, the
flags, the additions so far (R137, R191). -/
def addInOrder (g : Option EarlyRow) (a : RowAdd) (now : List Ax) : List (Ax × Fl) × EarlyRow :=
  let e : EarlyRow := g.getD { vals := 0, stat := 0, adds := [], old := now, new := now }
  let as := insertBy (fun x y => decide (x.stream < y.stream)) a e.adds
  let out := (List.range now.length).map fun n =>
    let x := now.getD n { v := 0, sat := false, nan := false }
    if e.new[n]? = some x then addsTo a.stream n as (e.old.getD n x) else a.to n x
  (out, { e with adds := as, new := out.map Prod.fst })

/-- The bytes an `mclr` of `e` elements with the operand `b` writes: both arrays of its region become 0 (R136, R183, R192). -/
def mclrBytes (b e : Nat) : List (Nat × Byte) := place (b / 128 * 128) (List.replicate (8 * e + (e + 3) / 4) 0)

end Sys2Proof.Machine
end

