-- ==== Sys2Proof/Machine/Sys.lean ====
section
/-! DEFINITION. Special registers and the system instructions: SY words (R93 to R101), with the views PIXM, PIXG, PIXC
(R114), TSTAT (R303), PGSTAT (R332). -/

namespace Sys2Proof.Machine

/-! ### Views -/

/-- A progress index register (R114). -/
def pixWord (op queue progress : Nat) : W64 := BitVec.ofNat 64 (op * 2 ^ 56 + queue % 256 * 2 ^ 48 + progress)

/-- The array command an entry in flight belongs to: op and number; none of another engine. -/
def arrayCmd (a : Arr) (w : Landing) : Option (Nat × Nat) :=
  let ofStream := fun st =>
    match a.streams.find? fun x => x.id == st with
    | some x => some (if x.chain.isSome then 0x08 else 0x07, st)
    | none => none
  match w with
  | .wgroup l _ => some (0x05, l)
  | .plane l => some (0x05, l)
  | .enter st _ => ofStream st
  | .axrow st _ => ofStream st
  | .mclr n _ _ => some (0x09, n)
  | _ => none

/-- Rows of a stream (R182). -/
def descRows (d : W64) : Nat := d.toNat / 2 ^ 40 % 256 + 1

/-- The commands of the array that are not logically complete, oldest first. -/
def Arch.arrayCmds (c : Arch) : List (Nat × Nat) := (c.flight.filterMap fun f => arrayCmd c.eng.arr f.what).dedup

/-- Stop units logically complete of an array command (R114). -/
def Arch.arrayProgress (c : Arch) (op id : Nat) : Nat :=
  if op = 0x05 then
    match c.flight.find? fun f => f.what == .plane id with
    | some f =>
      let paired := (c.eng.arr.loads.find? fun l => l.id == id).any fun l => l.paired
      min 12 (if paired then (588 - f.remain) / 49 else (300 - f.remain) / 25)
    | none => 12
  else
    match c.eng.arr.streams.find? fun x => x.id == id with
    | some x =>
      if x.d.isNone then 0
      else descRows x.desc - (c.flight.filter fun f =>
        match f.what with
        | .axrow st _ => st == id
        | _ => false).length
    | none => 0

/-- PIXM (R114), which names no logical completion of an `mclr` and so does not count it (DEDUCED log 15). -/
def Arch.pixm (c : Arch) : W64 :=
  match c.arrayCmds.filter fun x => x.1 != 0x09 with
  | [] => 0
  | x :: r => pixWord x.1 (r.length + 1) (c.arrayProgress x.1 x.2)

/-- PIXG (R114). -/
def Arch.pixg (c : Arch) : W64 :=
  match c.eng.gs with
  | [] => 0
  | g :: r => pixWord g.op.toNat (r.length + 1) (g.age / 3)

/-- PIXC: the oldest copy not retired (R114). -/
def Arch.pixc (c : Arch) : W64 :=
  match c.eng.unretired with
  | [] => 0
  | x :: _ => pixWord x.1.toNat 0 0

/-- COORD (R11). -/
def Core.coord (c : Core) : W64 :=
  BitVec.ofNat 64 (c.ncl.toNat * 2 ^ 24 + c.part.toNat * 2 ^ 16 + c.rank.toNat * 256 + c.num % 256)

/-- The number of a leg state in TSTAT (R303). -/
def LegState.num : LegState → Nat
  | .wait => 0
  | .ready => 1
  | .run => 2
  | .done => 3
  | .fin => 4

/-- TSTAT of a traverse (R303). -/
def tstatOf (t : Trav) (swp shc : Bool) : W64 :=
  BitVec.ofNat 64 (t.unmet.toNat * 2 ^ 32 + t.lpc % 4096 * 2 ^ 20 + t.errc.toNat * 2 ^ 16 + t.err.toNat * 2 ^ 15 +
    shc.toNat * 2 ^ 14 + swp.toNat * 2 ^ 13 + t.plane.toNat * 2 ^ 12 + t.state.num * 2 ^ 9 + t.cursor % 512)

/-- TSTAT of partition `p`; 0 where there is none. -/
def State.tstat (s : State) (p : BitVec 6) : W64 :=
  match s.part p with
  | none => 0
  | some q => tstatOf q.trav q.swp (q.shi && q.sht)

/-- The number of a group state (R333). -/
def GState.num : GState → Nat
  | .off => 0
  | .active => 1
  | .draining => 2
  | .quiesced => 3
  | .retraining => 4
  | .mapping => 5
  | .failed => 6

/-- PGSTAT of group `g` (R332). -/
def State.pgstat (s : State) (g : Nat) : W64 :=
  let x := s.group g
  BitVec.ofNat 64 (s.mapgen.toNat * 2 ^ 48 + x.peer.toNat * 2 ^ 24 + x.rate.toNat * 2 ^ 20 + x.errc.toNat * 2 ^ 16 +
    x.err.toNat * 2 ^ 15 + x.state.num * 2 ^ 12 + x.bond.toNat * 2 ^ 11 + x.role.toNat * 2 ^ 7 + x.pers.toNat * 2 ^ 5)

/-- TRCTL of partition `p` (R343). -/
def State.trctlOf (s : State) (p : BitVec 6) : W64 := ((s.trctl.find? fun e => e.1 == p).map fun e => e.2.1).getD 0

/-! ### `rdsr` (R94) -/

/-- The loop register `k` of a bank of six. -/
def Arch.loopReg (c : Arch) (n : Nat) : W64 :=
  if n < 0x60 then (c.level (n - 0x58)).cnt
  else if n < 0x68 then (c.level (n - 0x60)).idx
  else if n < 0x70 then (c.level (n - 0x68)).beg.setWidth 64
  else (c.level (n - 0x70)).fin.setWidth 64

/-- A steward system register (R343). PGCTL is write-only and reads 0 (R6). -/
def State.sysReg (s : State) (n : Nat) : W64 :=
  if n = 0x8000 then s.host.mbxseq.setWidth 64
  else if n < 0x8140 then s.tstat (BitVec.ofNat 6 n)
  else if n < 0x8200 then s.trctlOf (BitVec.ofNat 6 n)
  else if n < 0x8280 then s.ring.rsvm[n - 0x8200]?.getD 0
  else if n < 0x8300 then s.ring.rsvf[n - 0x8280]?.getD 0
  else if n < 0x8320 then s.pgstat (n - 0x8300)
  else if n < 0x8400 then 0
  else if n < 0x8408 then (s.die (n - 0x8400)).pwrbud.setWidth 64
  else (s.die (n - 0x8408)).pwruse.setWidth 64

/-- A special register as it stands when the bundle issues (R52, R94). -/
def State.readSr (s : State) (n : Nat) : W64 :=
  let c := s.me
  let p := c.spec
  if n = 0 then p.lt
  else if n = 1 then p.cyc
  else if n = 2 then p.frame
  else if 0x08 ≤ n ∧ n ≤ 0x0F then p.stallc[n - 8]?.getD 0
  else if n = 0x10 then p.leavec
  else if n = 0x18 then p.tagmap
  else if n = 0x19 then c.iss.seen.lqn
  else if n = 0x20 then p.fpctl
  else if n = 0x21 then p.fpstat
  else if n = 0x22 then p.srk0
  else if n = 0x23 then p.srk1
  else if n = 0x24 then p.src0
  else if n = 0x25 then p.src1
  else if n = 0x28 then c.iss.seen.pixm
  else if n = 0x29 then c.iss.seen.pixg
  else if n = 0x2A then c.iss.seen.pixc
  else if n = 0x30 then p.trapc
  else if n = 0x31 then p.trappc.setWidth 64
  else if n = 0x32 then p.trapv.setWidth 64
  else if n = 0x38 then p.stage.setWidth 64
  else if n = 0x39 then c.coord
  else if n = 0x40 then (s.die c.die).ptc.ns.setWidth 64
  else if n = 0x41 then p.ptcs.setWidth 64
  else if n = 0x48 then p.bubup
  else if n = 0x49 then p.bubdn
  else if n = 0x4A then p.bubst
  else if n = 0x50 then c.loops.lsd.setWidth 64
  else if 0x58 ≤ n ∧ n ≤ 0x75 then c.loopReg n
  else if 0x80 ≤ n ∧ n ≤ 0x87 then (c.win (BitVec.ofNat 3 n)).base.extractLsb' 16 64
  else if 0x88 ≤ n ∧ n ≤ 0x8F then (c.win (BitVec.ofNat 3 n)).limit.setWidth 64
  else if 0x90 ≤ n ∧ n ≤ 0x97 then (c.win (BitVec.ofNat 3 n)).key.setWidth 64
  else s.sysReg n

/-- `rdsr`; a read of PTCN latches the seconds (R52, R94). -/
def execRdsr (d : Reg) (n : BitVec 16) (s : State) : Host.Outcome State Fault Refusal :=
  issue (.rdsr d n) s
    (s.done fun c =>
      (if n = 0x0040 then c.onSpec fun p => { p with ptcs := (s.die c.die).ptc.sec } else c).push 1
        (.sreg d (s.readSr n.toNat) false 0))

/-! ### `wrsr` (R95) -/

/-- The loop registers and LSD, whose change governs the next bundle (R53, R87). -/
def isLoopSr (n : Nat) : Bool := decide (0x50 ≤ n) && decide (n ≤ 0x75)

/-- A loop register written. -/
def Core.setLoopSr (c : Core) (n : Nat) (v : W64) : Core :=
  if n = 0x50 then c.setLsd (v.setWidth 3)
  else if n < 0x60 then c.setLevel (n - 0x58) { c.level (n - 0x58) with cnt := v }
  else if n < 0x68 then c.setLevel (n - 0x60) { c.level (n - 0x60) with idx := v }
  else if n < 0x70 then c.setLevel (n - 0x68) { c.level (n - 0x68) with beg := v.setWidth 15 }
  else c.setLevel (n - 0x70) { c.level (n - 0x70) with fin := v.setWidth 16 }

/-- `wrsr`: a loop register changes at once and the end check is skipped; any other register at issue + 1 (R53, R87,
R95). -/
def execWrsr (a : Reg) (n : BitVec 16) (s : State) : Host.Outcome State Fault Refusal :=
  let x := s.me.s a
  issue (.wrsr a n) s
    (s.unpoisoned [x]
      (if n = 0x0050 ∧ 6 < x.val.toNat then s.raiseLocal .loopovf 0
       else if isLoopSr n.toNat then
         s.done fun c => (c.setLoopSr n.toNat x.val).onIss fun i => { i with skip := true }
       else s.done fun c => c.push 1 (.special n x.val)))

/-! ### Traps, stops, swaps (R96 to R99) -/

/-- `trap`: the handler is entered with code `k`; without a handler the partition halts after the bundle (R96, R105). -/
def execTrap (k : BitVec 8) (s : State) : Host.Outcome State Fault Refusal :=
  issue (.trap k) s
    (if s.me.noHandler then
       (s.halt { mkStop .trapi s.me.iss.seq (k.setWidth 16) with escalated := true }).done fun c =>
         c.jump c.iss.seq
     else
       s.done fun c =>
         { (c.jump c.spec.trapv) with
           spec := { c.spec with trapc := trapcOf .trapi k, trappc := c.iss.seq }, fromTrap := true })

/-- `tret` (R97). -/
def execTret (s : State) : Host.Outcome State Fault Refusal := issue .tret s (s.done Core.trapRet)

/-- `stop`: the bundle executes and makes the end check, then the partition halts with cause STOP; the stop address is the next
start word in sequence (R86, R87, R98). -/
def execStop (k : BitVec 16) (s : State) : Host.Outcome State Fault Refusal :=
  issue (.stop k) s ((s.halt (mkStop .stop s.me.iss.seq k)).done id)

/-- A flip of the planes of partition `p` is pending (R99, R302); a partition that does not exist is left alone. -/
def State.askSwap (s : State) (p : BitVec 6) : State := s.onPart p fun q => { q with swp := true }

/-- `swap` on a tile (R99). -/
def execSwap (s : State) : Host.Outcome State Fault Refusal :=
  issue .swap s ((s.askSwap s.me.part).done id)

/-- `swap` on the steward (R99). A value with a non-zero bit of [63:6] raises ILLOP (DEDUCED log 14). -/
def execSwapSteward (a : Reg) (s : State) : Host.Outcome State Fault Refusal :=
  let x := s.me.s a
  issue (.swapSteward a) s
    (s.unpoisoned [x]
      (if x.val.extractLsb' 6 58 != 0 then s.raise .illop else (s.askSwap (x.val.setWidth 6)).done id))

/-! ### Checkpoints and the loop-stack image (R100, R101) -/

/-- `ckpt`: waits while an earlier request of the tile is incomplete, else asks for the image of the next cycle (R100). -/
def execCkpt (t : BitVec 6) (s : State) : Host.Outcome State Fault Refusal :=
  issue (.ckpt t) s
    (if s.me.ckpt.isEmpty then s.done fun c => { c with ckpt := [{ tag := t, image := none, saved := [] }] } else s.stall .misc)

/-- The address of a loop-stack image (R101). -/
def imageAddr (base : W64) (x : Option (BitVec 27)) (off : BitVec 16) : Nat :=
  (base + immZ x off).toNat / 64 * 64

/-- The 64 bytes of level `k` of a loop-stack image (R101). -/
def Arch.levelBytes (c : Arch) (k : Nat) : List Byte :=
  let l := c.level k
  leBytes 8 l.cnt.toNat ++ leBytes 8 l.idx.toNat ++ leBytes 8 l.beg.toNat ++ leBytes 8 l.fin.toNat ++
  leBytes 8 (if k = 0 then c.loops.lsd.toNat else 0) ++ leBytes 24 0

/-- The loop-stack image (R101). -/
def Arch.loopImage (c : Arch) : List Byte := [0, 1, 2, 3, 4, 5].flatMap c.levelBytes

/-- `lsv` (R101). -/
def execLsv (b : Reg) (off : BitVec 16) (s : State) : Host.Outcome State Fault Refusal :=
  let x := s.me.s b
  let a := imageAddr x.val s.me.iss.ext off
  issue (.lsv b off) s
    (s.unpoisoned [x]
      (if BSpace.a.size < a + 384 then s.raise .perm
       else s.done fun c => c.push 2 (.bstore .a (place a c.loopImage) false)))

/-- A level from its image (R101). -/
def levelOf (b : List Byte) : Level :=
  { cnt := BitVec.ofNat 64 (leNat (b.take 8)), idx := BitVec.ofNat 64 (leNat ((b.drop 8).take 8))
    beg := BitVec.ofNat 15 (leNat ((b.drop 16).take 8)), fin := BitVec.ofNat 16 (leNat ((b.drop 24).take 8)) }

/-- The loop stack restored from an image. -/
def Core.loadLoops (c : Core) (img : List Byte) : Core :=
  { c with loops :=
    { lev := Vector.ofFn fun k : Fin 6 => levelOf (img.drop (64 * k.val))
      lsd := BitVec.ofNat 3 (leNat ((img.drop 32).take 8)) } }

/-- `lrs` (R101). -/
def execLrs (b : Reg) (off : BitVec 16) (s : State) : Host.Outcome State Fault Refusal :=
  let x := s.me.s b
  let a := imageAddr x.val s.me.iss.ext off
  issue (.lrs b off) s
    (s.unpoisoned [x]
      (if BSpace.a.size < a + 384 then s.raise .perm
       else
         let img := s.me.bytes .a a 384
         match s.me.store.a.bad.find? fun y => decide (a ≤ y) && decide (y < a + 384) with
         | some y => s.poison ((s.me.bytes .a y 1).headD 0 |>.setWidth 64)
         | none =>
           if 6 < leNat ((img.drop 32).take 8) then s.raiseLocal .loopovf 0
           else s.done fun c => (c.loadLoops img).onIss fun i => { i with skip := true }))

end Sys2Proof.Machine
end

