-- ==== Sys2Proof/Machine/Engine.lean ====
section
/-! DEFINITION. The engine commands of the X pipe: circular buffers, copies, the array, sends and receives, `msq`
(R181 to R199, R203, R210 to R219). -/

namespace Sys2Proof.Machine

/-! ### Circular buffers (R210, R211) -/

/-- Bytes between the pointers (R210). -/
def Cb.occ (b : Cb) : Nat := (b.prod + 2 * b.size - b.cons) % (2 * b.size)

/-- A pointer moved by `n` bytes (R210). -/
def Cb.move (b : Cb) (consumer : Bool) (n : Nat) : Cb :=
  if consumer then { b with cons := (b.cons + n) % (2 * b.size) } else { b with prod := (b.prod + n) % (2 * b.size) }

/-- The buffer a circular buffer lies in. -/
def Cb.space (b : Cb) : BSpace := if b.inC then .c else .a

/-- Circular buffer `n` of a core. -/
def Arch.cb (c : Arch) (n : BitVec 4) : Option Cb := c.eng.cbs[n.toNat]

/-- Circular buffer `n` set. -/
def Core.setCb (c : Core) (n : BitVec 4) (b : Option Cb) : Core := c.onEng fun e => { e with cbs := e.cbs.set n.toNat b }

/-- A place that is circular buffer `n`. -/
def Side.isCb (n : BitVec 4) : Side → Bool
  | .buf (.cb m) => m == n
  | _ => false

/-- Whether an issued operation still has elements of circular buffer `n` to consume or produce (R210). -/
def Arch.cbBusy (c : Arch) (n : BitVec 4) : Bool :=
  (c.eng.arr.streams.any fun st => st.cb == some n && c.flight.any fun f => f.what == .cbtake st.id) ||
  c.eng.copies.any fun k => Side.isCb n k.dst || Side.isCb n k.src

/-- `cbdef` (R210). -/
def execCbdef (a b c : Reg) (inC : Bool) (n : BitVec 4) (s : State) : Host.Outcome State Fault Refusal :=
  let x := s.me.s a
  let y := s.me.s b
  let z := s.me.s c
  let base := x.val.toNat
  let size := y.val.toNat
  let elem := z.val.toNat
  let sp : BSpace := if inC then .c else .a
  issue (.cbdef a b c inC n) s
    (s.unpoisoned [x, y, z]
      (if base % 128 ≠ 0 ∨ size = 0 ∨ elem = 0 ∨ 65536 < elem ∨ size % elem ≠ 0 ∨ sp.size < base + size ∨
          s.me.cbBusy n then s.raise .cberr
       else s.done fun k =>
         ((k.setCb n (some { inC := inC, base := base, size := size, elem := elem, prod := 0, cons := 0 })).push 1
           (.cbptr n false 0)).push 1 (.cbptr n true 0)))

/-- A pointer move or test of `cbadv`: the definition and the byte count, CBERR where there is none or the count passes
the size (R211). -/
def State.cbadv (s : State) (a : Reg) (n : BitVec 4) (k : Cb → Nat → State) : State :=
  let x := s.me.s a
  s.unpoisoned [x]
    (match s.me.cb n with
     | none => s.raise .cberr
     | some b =>
       if b.size / b.elem < x.val.toNat then s.raise .cberr else k b (x.val.toNat * b.elem))

/-- `cbadv.p` (R211). -/
def execCbadvP (a : Reg) (n : BitVec 4) (s : State) : Host.Outcome State Fault Refusal :=
  issue (.cbadvP a n) s
    (s.cbadv a n fun b m =>
      if b.size < b.occ + m then s.raise .cberr else s.done fun k => k.push 1 (.cbptr n false m))

/-- `cbadv.c` (R211). -/
def execCbadvC (a : Reg) (n : BitVec 4) (s : State) : Host.Outcome State Fault Refusal :=
  issue (.cbadvC a n) s
    (s.cbadv a n fun b m => if b.occ < m then s.raise .cberr else s.done fun k => k.push 1 (.cbptr n true m))

/-- `cbadv.p.w` (R211). -/
def execCbadvPW (a : Reg) (n : BitVec 4) (s : State) : Host.Outcome State Fault Refusal :=
  issue (.cbadvPW a n) s
    (s.cbadv a n fun b m => if b.size < b.occ + m then s.stall .engine else s.done id)

/-- `cbadv.c.w` (R211). -/
def execCbadvCW (a : Reg) (n : BitVec 4) (s : State) : Host.Outcome State Fault Refusal :=
  issue (.cbadvCW a n) s (s.cbadv a n fun b m => if b.occ < m then s.stall .engine else s.done id)

/-! ### Power leave (R198, R354) -/

/-- A command that needs power leave of a size: the bundle asks once; granted at once, where no request is older and the
budget allows it, or later, the command issues and holds its leave under the number of its array command (R198, R354). -/
def State.withLeave (s : State) (id : Nat) (size : BitVec 32) (k : State) : State :=
  let held : State := { k with me := { k.me with leave := .none, grants := k.me.grants ++ [(id, size)] } }
  match s.me.leave with
  | .granted => held
  | .none =>
    let d := s.die s.me.die
    if d.leaves.isEmpty ∧ d.pwruse.toNat + size.toNat ≤ d.pwrbud.toNat then
      held.onDie s.me.die fun d => { d with pwruse := d.pwruse + size }
    else
      (({ s with me := { s.me with leave := .asked } }).onDie s.me.die fun d =>
        { d with leaves := d.leaves ++ [(s.me.num, size)] }).stall .leave
  | .asked => s.stall .leave

/-! ### Array commands (R181 to R196, R215) -/

/-- The rows of streams whose AX update has not performed (R186). -/
def Arch.openRows (c : Arch) : Nat :=
  (c.flight.filter fun f => match f.what with | .axrow .. => true | _ => false).length +
  ((c.eng.arr.streams.filter fun x => x.d.isNone).map fun x => descM x.desc).foldl (fun n m => n + m) 0

/-- Whether an array command of `rows` rows keeps the limits of R186. -/
def Arch.arrayRoom (c : Arch) (rows : Nat) : Bool :=
  decide (c.arrayCmds.length < 16) && decide (c.openRows + rows ≤ 768)

/-- A cause raised at the bundle; LANDFULL from the array has code 4 (R102). -/
def State.raiseArray (s : State) (k : Cause) : State := if k = .landfull then s.landfull 4 else s.raise k

/-- The activation register of a stream as a circular buffer or none. -/
def cbArg (cbf : Bool) (n : BitVec 4) : Option (BitVec 4) := if cbf then some n else none

/-- What keeps a stream from issuing: descriptor, areas, circular buffer, limits. `own`: it reads activations (R182,
R186, R193, R196, R215, R239). -/
def streamFault (c : Core) (own : Bool) (d axb act : W64) (cb : Option (BitVec 4)) : Option Cause :=
  if !descOk d then some .illop
  else if !axFits d axb then some .perm
  else if own && !actFits d act.toNat cb.isSome then some .perm
  else
    let bad : Option Cause :=
      if own then
        match cb with
        | none => none
        | some n =>
          match c.cb n with
          | none => some .cberr
          | some b =>
            if b.inC then some .perm
            else if b.elem ≠ recordBytes d ∨ b.size < descM d * b.elem then some .cberr
            else none
      else none
    match bad with
    | some k => some k
    | none => if c.arrayRoom (descM d) then none else some .landfull

/-- A byte of A as a row of a stream that enters at logical cycle `e` reads it: what stands there, without the writes with a
logical time that performed later (R191, R197). -/
def Core.byteAt (c : Core) (st : Stream) (e x : Nat) : Byte :=
  match st.undo.find? fun u => decide (e < u.1) && u.2.1 == x with
  | some u => u.2.2
  | none => c.store.a.get c.ctx.toNat x

/-- The logical cycle in which row `j` of a stream enters the array of its tile (R185, R193). -/
def Stream.entry (x : Stream) (j : Nat) : Nat := x.lt.toNat + x.d.getD 1 * j + 16 * x.hops

/-- The row data of a direct stream as it stands at the row's entry cycle (R191). -/
def Core.directData (c : Core) (st : Stream) (j : Nat) : RowData :=
  directRow (c.byteAt st (st.entry j)) st.desc st.act j

/-- A stream that waits for its copy to read its activations from A (R197). -/
def Stream.waits (st : Stream) : Bool := st.gate.isSome && st.cb.isNone

/-- Bytes about to be written to A with a logical time: streams that wait for their copy keep what stood there (R191). -/
def Core.keepOld (c : Core) (w : List (Nat × Byte)) : Core :=
  c.onEng fun e => { e with arr := { e.arr with streams := e.arr.streams.map fun x =>
    if x.waits then { x with undo := x.undo ++ w.map fun b => (c.now, b.1, c.store.a.get c.ctx.toNat b.1) } else x } }

/-- A stream of known steps begins: its entries after row 0, its AX updates and its consumer advance in flight, row 0 of
a direct stream read (R185, R191, R195). -/
def Core.startStream (c : Core) (desc axb act : W64) (cb : Option (BitVec 4)) (gate : Option Nat) (chain : Option Nat) :
    Core :=
  let a := c.eng.arr
  let d := stepsOf (fdWidth (descAfd desc)) a.active
  let m := descM desc
  let st0 : Stream :=
    { id := c.eng.nextId, lt := c.spec.lt, desc := desc, axb := axBase axb, axv := axb, act := act.toNat, cb := cb
      fired := cb.isNone && gate.isNone, gate := gate, d := some d, hops := 0, chain := chain, data := [], undo := [] }
  let st := { st0 with data := if st0.fired then [c.directData st0 0] else [] }
  let c := c.onEng fun e => { e with
    nextId := e.nextId + 1
    arr := { a with
      streams := a.streams ++ [st]
      nchain := if chain.isSome then a.nchain + 1 else a.nchain
      log := match chain with
        | some k => a.log ++ [(k, c.spec.lt, desc, d)]
        | none => a.log } }
  let c := if cb.isSome then c.push (d * m) (.cbtake st.id)
    else (List.range (m - 1)).foldl (fun c j => c.push (d * (j + 1)) (.enter st.id (j + 1))) c
  (List.range m).foldl (fun c j => c.push (552 + d * (j + 1)) (.axrow st.id j)) c

/-- A stream on a chained tile: its steps are those of tile 0's command, met once both have issued. Until then one entry
stands in its place, due where the first result could be (R185, R193, R194). -/
def Core.startChained (c : Core) (desc axb : W64) : Core :=
  let a := c.eng.arr
  let h := c.num % 4
  let st : Stream :=
    { id := c.eng.nextId, lt := c.spec.lt, desc := desc, axb := axBase axb, axv := axb, act := 0, cb := none, fired := false
      gate := none, d := none, hops := h, chain := some a.nchain, data := [], undo := [] }
  (c.onEng fun e => { e with
    nextId := e.nextId + 1
    arr := { a with streams := a.streams ++ [st], nchain := a.nchain + 1
                    log := a.log ++ [(a.nchain, c.spec.lt, desc, 0)] } }).push (553 + 16 * h) (.enter st.id 0)

/-- The steps per row that a stream takes on a core; for an `mmulc` on tiles 1 to 3 those of tile 0's command, or, where that has not
issued yet, as tile 0 stands (R185, R193). -/
def State.steps (s : State) (chained : Bool) (desc : W64) : Nat :=
  let w := fdWidth (descAfd desc)
  let z := s.core (s.me.num / 4 * 4)
  if !chained || s.me.num % 4 == 0 then stepsOf w s.me.eng.arr.active
  else ((z.eng.arr.log.find? fun e => e.1 == s.me.eng.arr.nchain).map fun e => e.2.2.2).getD (stepsOf w z.eng.arr.active)

/-- The leave of a stream of `d` steps per row: its op, its steps, the activation width, the bytes copied before it (R198; DESIGN
CHOICE log 3). -/
def streamLeave (op : BitVec 8) (d : Nat) (desc : W64) (n : Nat) : BitVec 32 :=
  Config.leave op (d * descM desc) (fdWidth (descAfd desc)) n

/-- `mmul` (R182 to R196). -/
def execMmul (a b c : Reg) (cbf : Bool) (n : BitVec 4) (s : State) : Host.Outcome State Fault Refusal :=
  let x := s.me.s a
  let y := s.me.s b
  let z := s.me.s c
  let cb := cbArg cbf n
  issue (.mmul a b c cbf n) s
    (s.unpoisoned [x, y, z]
      (match streamFault s.me true x.val y.val z.val cb with
       | some k => s.raiseArray k
       | none =>
         s.withLeave s.me.eng.nextId (streamLeave 0x07 (s.steps false x.val) x.val 0)
           (s.done fun k => k.startStream x.val y.val z.val cb none none)))

/-- `mmulc`: tile 0 of the cluster reads the activations (R193, R194). Its own `c` and IMM6 a tile other than 0 does not
read, nor does a poison there fire. -/
def execMmulc (a b c : Reg) (cbf : Bool) (n : BitVec 4) (s : State) : Host.Outcome State Fault Refusal :=
  let x := s.me.s a
  let y := s.me.s b
  let z := s.me.s c
  let cb := cbArg cbf n
  let own := s.me.num % 4 == 0
  issue (.mmulc a b c cbf n) s
    (s.unpoisoned (if own then [x, y, z] else [x, y])
      (match streamFault s.me own x.val y.val z.val cb with
       | some k => s.raiseArray k
       | none =>
         s.withLeave s.me.eng.nextId (streamLeave 0x08 (s.steps true x.val) x.val 0)
           (s.done fun k =>
             if own then k.startStream x.val y.val z.val cb none (some k.eng.arr.nchain)
             else k.startChained x.val y.val)))

/-- The load an `mlds` begins, by the active set at its issue: the planes it writes and whether it activates itself
(R184, R187). Group 0 is read at once. -/
def Core.startLoad (c : Core) (d a b : W64) : Core :=
  let r := c.eng.arr
  let paired := fdWidth (wFd d) == 16
  let g := weightGroup (fun x => c.store.w.get c.ctx.toNat x) d a.toNat b.toNat 0
  let l : Load :=
    { id := c.eng.nextId, desc := d, a := a.toNat, b := b.toNat, paired := paired
      self := paired || r.active == PSet.pair, groups := [g.1], fl := g.2, ready := false }
  let self := paired || r.active == PSet.pair
  let r := { r with
    loads := r.loads ++ [l]
    p0 := if paired || r.active == PSet.pair || r.active == PSet.p1 then l.id else r.p0
    p1 := if paired then l.id else if r.active == PSet.pair then 0 else if r.active == PSet.p0 then l.id else r.p1
    selfAct := if self then r.selfAct + 1 else r.selfAct }
  let r := r.mark (c.spec.lt.toNat + 1)
  let c := c.onEng fun e => { e with nextId := e.nextId + 1, arr := r }
  let step := if paired then 49 else 25
  let c := (List.range (kBlocks (wKw d) - 1)).foldl (fun c j => c.push (step * (j + 1)) (.wgroup l.id (j + 1))) c
  c.push (12 * step) (.plane l.id)

/-- `mlds` (R184, R187, R215). -/
def execMlds (a b c : Reg) (s : State) : Host.Outcome State Fault Refusal :=
  let x := s.me.s a
  let y := s.me.s b
  let z := s.me.s c
  issue (.mlds a b c) s
    (s.unpoisoned [x, y, z]
      (if !wOk z.val then s.raise .illop
       else if !wFits z.val x.val.toNat y.val.toNat then s.raise .perm
       else if !s.me.arrayRoom 0 then s.landfull 4
       else
         let w := fdWidth (wFd z.val)
         s.withLeave s.me.eng.nextId (Config.leave 0x05 w (if w = 16 then 1 else 0) 0)
           (s.done fun k => k.startLoad z.val x.val y.val)))

/-- `mswap` (R187). -/
def execMswap (s : State) : Host.Outcome State Fault Refusal := issue .mswap s (s.done fun c => c.push 1 .swap)

/-- `mclr` (R192). -/
def execMclr (a b : Reg) (s : State) : Host.Outcome State Fault Refusal :=
  let x := s.me.s a
  let y := s.me.s b
  let base := axBase x.val
  let e := y.val.toNat
  issue (.mclr a b) s
    (s.unpoisoned [x, y]
      (if BSpace.c.size < base + 8 * e + (e + 3) / 4 then s.raise .perm
       else if !s.me.arrayRoom 0 then s.landfull 4
       else s.done fun c => (c.push (2 + (e + 127) / 128) (.mclr c.eng.nextId x.val.toNat e)).fresh))

/-! ### Copies (R200, R201, R212 to R214) -/

/-- A buffer place that a copy may use as its destination (`dst`) or its source: the spaces of R239, the area within
its buffer, the element size of a circular buffer dividing the length (R212). -/
def placeFault (c : Core) (dst : Bool) (p : Place) (len : Nat) : Option Cause :=
  match p with
  | .at sp off =>
    if (if dst then sp == .c else sp == .w) then some .perm
    else if spaceSize sp < off + len then some .perm else none
  | .cb n =>
    match c.cb n with
    | none => some .cberr
    | some b =>
      if dst && b.inC then some .perm
      else if len % b.elem ≠ 0 ∨ b.size < len then some .cberr else none

/-- A copy put into the engine's queue (R213); PIXC counts it by issue order (R114). -/
def Core.addCopy (c : Core) (op : BitVec 8) (dst src : Side) (len : Nat) (tag : BitVec 6) (record : List Byte) : Core :=
  c.onEng fun e => { e with
    nextId := e.nextId + 1
    unretired := e.unretired ++ [(op, tag)]
    copies := e.copies ++
      [{ id := e.nextId, op := op, dst := dst, src := src, len := len, tag := tag, got := none, done := 0
         record := record, lt := c.spec.lt, stale := false, faulted := false, way := .home }] }

/-- A copy that may issue: the queue holds 16 (R213). -/
def State.queueCopy (s : State) (k : State) : State := if 16 ≤ s.me.eng.copies.length then s.stall .engine else k

/-- The longest copy (R212). -/
def copyMax : Nat := 2 ^ 24 - 1

/-- `cp` (R212, R213). -/
def execCp (a b c : Reg) (t : BitVec 6) (s : State) : Host.Outcome State Fault Refusal :=
  let x := s.me.s a
  let y := s.me.s b
  let z := s.me.s c
  let n := z.val.toNat
  issue (.cp a b c t) s
    (s.unpoisoned [x, y, z]
      (match bufPlace x.val, bufPlace y.val with
       | some p, some q =>
         if copyMax < n then s.raise .perm
         else
           match placeFault s.me true p n, placeFault s.me false q n with
           | some k, _ => s.raise k
           | none, some k => s.raise k
           | none, none => s.queueCopy (s.done fun k => k.addCopy 0x02 (.buf p) (.buf q) n t [])
       | _, _ => s.raise .illop))

/-- `cpg`; OUT gives the direction (R201, R212). -/
def execCpg (a b c : Reg) (t : BitVec 6) (s : State) : Host.Outcome State Fault Refusal :=
  let x := s.me.s a
  let y := s.me.s b
  let z := s.me.s c
  let n := z.val.toNat
  issue (.cpg a b c t) s
    (s.unpoisoned [x, y, z]
      (match bufPlace x.val, globPlace y.val with
       | some p, some g =>
         if copyMax < n then s.raise .perm
         else
           match placeFault s.me (!g.1) p n with
           | some k => s.raise k
           | none =>
             s.queueCopy (s.done fun k =>
               if g.1 then k.addCopy 0x03 (.glob g.2.1 g.2.2) (.buf p) n t []
               else k.addCopy 0x03 (.buf p) (.glob g.2.1 g.2.2) n t [])
       | _, _ => s.raise .illop))

/-- A little-endian field of a record. -/
def field (bs : List Byte) (off n : Nat) : Nat := leNat ((bs.drop off).take n)

/-- The stream of a `cpm` record: descriptor, AX address, activation address, circular buffer (R197); none where SRC or
the last byte is not legal. -/
def cpmStream (rec' : List Byte) : Option (W64 × W64 × W64 × Option (BitVec 4)) :=
  let src := field rec' 30 1
  if field rec' 31 1 ≠ 0 ∨ 64 ≤ src ∨ src / 16 % 2 = 1 ∨ (src < 32 ∧ src % 16 ≠ 0) then none
  else some (BitVec.ofNat 64 (field rec' 8 8), BitVec.ofNat 64 (field rec' 16 8), BitVec.ofNat 64 (field rec' 24 6),
    cbArg (decide (32 ≤ src)) (BitVec.ofNat 4 src))

/-- `cpm`: a copy whose stream counts as issued with it and waits for the copy's last byte (R197, R198). -/
def execCpm (a b c : Reg) (t : BitVec 6) (s : State) : Host.Outcome State Fault Refusal :=
  let x := s.me.s a
  let y := s.me.s b
  let z := s.me.s c
  issue (.cpm a b c t) s
    (s.unpoisoned [x, y, z]
      (match bufPlace x.val, bufPlace y.val with
       | some p, some q =>
         if BSpace.a.size < z.val.toNat + 32 then s.raise .perm
         else
           let rec' := s.me.bytes .a z.val.toNat 32
           let n := field rec' 0 8
           if copyMax < n then s.raise .perm
           else
             match placeFault s.me true p n, placeFault s.me false q n, cpmStream rec' with
             | some k, _, _ => s.raise k
             | none, some k, _ => s.raise k
             | none, none, none => s.raise .illop
             | none, none, some st =>
               match streamFault s.me true st.1 st.2.1 st.2.2.1 st.2.2.2 with
               | some k => s.raiseArray k
               | none =>
                 s.queueCopy (s.withLeave (s.me.eng.nextId + 1) (streamLeave 0x04 (s.steps false st.1) st.1 n)
                   (s.done fun k =>
                     let id := k.eng.nextId
                     (k.addCopy 0x04 (.buf p) (.buf q) n t rec').startStream st.1 st.2.1 st.2.2.1 st.2.2.2 (some id) none))
       | _, _ => s.raise .illop))

/-! ### Sends and receives (R25, R26, R216, R217, R307, R308) -/

/-- The far-tile entry an ALIAS names in the partition of a core (R306). -/
def State.farEntry (s : State) (c : Core) (num : Nat) : Option W64 :=
  if num = 0 then none
  else
    match s.part c.part with
    | none => none
    | some p => p.far.find? fun w => w.toNat % 256 == num

/-- A group through which far messages may go: UALink, ACTIVE or DRAINING (R308). -/
def State.farOpen (s : State) (w : W64) : Bool :=
  let g := s.group (w.toNat / 2 ^ 43 % 32)
  g.pers == 2 && (g.state == .active || g.state == .draining)

/-- Whether a value names a tile of the partition or an open far-tile number; `some true` for a far one (R216, R217). -/
def State.peer (s : State) (c : Core) (v : W64) : Option Bool :=
  if 256 ≤ v.toNat then none
  else if s.inPart c v.toNat then some false
  else
    match s.farEntry c v.toNat with
    | some w => if s.farOpen w then some true else none
    | none => none

/-- Messages sent to a receiver and not yet taken (R26). -/
def Arch.sent (c : Arch) (n : Nat) : Nat := ((c.eng.credit.find? fun e => e.1 == n).map Prod.snd).getD 0

/-- The count of untaken messages to `n` set. -/
def Core.setSent (c : Core) (n k : Nat) : Core :=
  c.onEng fun e => { e with credit := (e.credit.filter fun x => x.1 != n) ++ (if k = 0 then [] else [(n, k)]) }

/-- `snd` (R25, R26, R216, R307). -/
def execSnd (a b c : Reg) (s : State) : Host.Outcome State Fault Refusal :=
  let x := s.me.s a
  let y := s.me.s b
  let z := s.me.s c
  let n := x.val.toNat
  issue (.snd a b c) s
    (if 2 ^ 26 ≤ s.me.delta.toNat then s.raise .stamp
     else s.unpoisoned [x, y, z]
      (match s.peer s.me x.val with
       | none => s.raise .perm
       | some far =>
         if 4096 < z.val.toNat ∨ BSpace.a.size < y.val.toNat + z.val.toNat then s.raise .perm
         else if 32 ≤ s.me.sent n then s.stall .fabric
         else s.done fun k =>
           (k.setSent n (k.sent n + 1)).request
             (.snd n far (BitVec.ofNat 26 k.delta.toNat) (k.bytes .a y.val.toNat z.val.toNat))))

/-- The first message of a list from a source taken out. -/
def takeMsg (n : Nat) : List Msg → List Msg
  | [] => []
  | m :: r => if m.src = n then r else m :: takeMsg n r

/-- `rcv` (R25, R26, R217, R307). -/
def execRcv (a b : Reg) (sig : BitVec 6) (s : State) : Host.Outcome State Fault Refusal :=
  let x := s.me.s a
  let y := s.me.s b
  let n := x.val.toNat
  issue (.rcv a b sig) s
    (s.unpoisoned [x, y]
      (match s.peer s.me x.val with
       | none => s.raise .perm
       | some far =>
         match s.me.eng.skid.find? fun m => m.src == n with
         | none => s.stall .recv
         | some m =>
           if m.stamp.toNat ≠ (immZ s.me.iss.ext sig).toNat then s.raise .tsmismatch
           else if BSpace.a.size < y.val.toNat + m.bytes.length then s.raise .perm
           else
             let t := s.done fun k =>
               ((k.onEng fun e => { e with skid := takeMsg n e.skid }).push 4
                 (.rcvdata k.eng.nextId (leBytes 8 x.val.toNat ++ leBytes 8 y.val.toNat) (place y.val.toNat m.bytes))).fresh
             if far then t else t.onCore n fun k => k.setSent t.me.num (k.sent t.me.num - 1)))

/-! ### `msq` (R218, R219) -/

/-- The region of a context in a die's program store: first word and words (R218). -/
def Msq.region (m : Msq) (ctx : BitVec 16) : Nat × Nat :=
  match m.regions.find? fun r => r.1 == ctx with
  | some r => r.2
  | none => (0, 0)

/-- A program slot begins a program that `msq` number `key` of a tile asked for, at a word, its registers 0 (R218, R219). -/
def Msq.begin (m : Msq) (k tile : Nat) (ctx : BitVec 16) (first key : Nat) : Msq :=
  { m with
    slots := m.slots.setIfInBounds k
      { State.freeSlot with busy := true, num := m.nextId, key := key, tile := tile, ctx := ctx, first := first, pc := first }
    nextId := m.nextId + 1 }

/-- A request takes a free slot at once, else it waits in issue order (R218). -/
def Msq.ask (m : Msq) (tile : Nat) (ctx : BitVec 16) (first key : Nat) : Msq :=
  match m.wait, m.slots.toList.findIdx? fun p => !p.busy with
  | [], some k => m.begin k tile ctx first key
  | _, _ => { m with wait := m.wait ++ [(tile, first, key)] }

/-- `msq`: a request for a program slot of the tile's die; beyond 16 that wait, the tile stalls (R218, R219). A non-zero bit
of [63:13] raises ILLOP, as a reserved field value does (DESIGN CHOICE log 55). -/
def execMsq (a : Reg) (s : State) : Host.Outcome State Fault Refusal :=
  let x := s.me.s a
  let d := s.me.die
  let m := (s.die d).msq
  issue (.msq a) s
    (s.unpoisoned [x]
      (if x.val.extractLsb' 13 51 != 0 then s.raise .illop
       else if (m.region s.me.ctx).2 ≤ x.val.toNat then s.raise .perm
       else if 16 ≤ m.wait.length then s.stall .engine
       else (s.onDie d fun q => { q with msq := q.msq.ask s.me.num s.me.ctx x.val.toNat s.me.eng.nextId }).done Core.fresh))

end Sys2Proof.Machine
end

