-- ==== Sys2Proof/Machine/Translate.lean ====
section
/-! DEFINITION. Windows, page tables, the micro-TLB and the address decoder (R202, R242 to R248, R263, R264). -/

namespace Sys2Proof.Machine

/-! ### Windows (R202, R242) -/

/-- The virtual address of an access of `n` bytes at an offset; none where it breaks R202 or passes 2^80. -/
def windowVa (w : Window) (o n : Nat) : Option Nat :=
  if w.limit ≠ 0 ∧ o + n ≤ w.limit.toNat ∧ w.base.toNat + o + n ≤ 2 ^ 80 then some (w.base.toNat + o) else none

/-! ### Page tables (R243 to R245) -/

/-- The index of a virtual address at a level (R243). -/
def vaIndex (va l : Nat) : Nat :=
  match l with
  | 0 => va / 2 ^ 68 % 4096
  | 1 => va / 2 ^ 55 % 8192
  | 2 => va / 2 ^ 42 % 8192
  | 3 => va / 2 ^ 29 % 8192
  | _ => va / 2 ^ 16 % 8192

/-- Bits of the page a leaf of a level maps (R243). -/
def pageBits (l : Nat) : Nat :=
  match l with
  | 2 => 42
  | 3 => 29
  | _ => 16

/-- The physical address an entry holds (R244). -/
def ptePa (e : W64) : PAddr := e.toNat / 2 ^ 16 % 2 ^ 40 * 2 ^ 16

def pteV (e : W64) : Bool := e.getLsbD 0
def pteLeaf (e : W64) : Bool := e.getLsbD 1
def pteR (e : W64) : Bool := e.getLsbD 2
def pteW (e : W64) : Bool := e.getLsbD 3
def pteMig (e : W64) : Bool := e.getLsbD 5
def pteTier (e : W64) : Nat := e.toNat / 64 % 4

/-- The bits an entry must hold 0 (R244). -/
def pteOk (e : W64) : Bool :=
  e.extractLsb' 56 8 == 0 && e.extractLsb' 8 8 == 0 && !e.getLsbD 4 &&
  (pteLeaf e || (pteTier e == 0 && !pteMig e && !pteR e && !pteW e))

/-- An entry as the walker reads it: past the owner check, under the steward's key (R243). -/
def PMem.entry (m : PMem) (pa : PAddr) : W64 :=
  BitVec.ofNat 64 (leNat ((List.range 8).map fun i => m.get (look 0 m.owner ((pa + i) / 4096)) 0 false (pa + i)))

/-- Whether a leaf's TIER agrees with the range of its address (R245). -/
def tierOk (e : W64) : Bool :=
  if pteTier e = 0 then inHbm (ptePa e)
  else if pteTier e = 3 then false
  else (groupOf (ptePa e)).isSome

/-- Whether a leaf allows an access (R245). -/
def leafAllows (e : W64) (rd wr : Bool) : Bool := (!rd || pteR e) && (!wr || pteW e)

/-- A walk from level `l` on, at most `k` levels: the leaf and its page bits; none is XLATE (R245). -/
def PMem.walk (m : PMem) (va : Nat) (rd wr : Bool) : Nat → Nat → PAddr → Option (W64 × Nat)
  | 0, _, _ => none
  | k + 1, l, ptr =>
    if !inHbm ptr then none
    else
      let e := m.entry (ptr + 8 * vaIndex va l)
      if !pteV e || !pteOk e then none
      else if !pteLeaf e then (if l = 4 then none else m.walk va rd wr k (l + 1) (ptePa e))
      else if l < 2 then none
      else
        let b := pageBits l
        if ptePa e % 2 ^ b ≠ 0 ∨ (pteMig e ∧ b ≠ 16) ∨ !leafAllows e rd wr ∨ !tierOk e then none
        else some (e, b)

/-- The places of the entries that a walk reads, from level `l` on, at most `k` of them (R243, R245). -/
def PMem.path (m : PMem) (va : Nat) : Nat → Nat → PAddr → List Piece
  | 0, _, _ => []
  | k + 1, l, ptr =>
    if !inHbm ptr then []
    else
      let a := ptr + 8 * vaIndex va l
      let e := m.entry a
      { pa := a, n := 8 } :: if !pteV e || !pteOk e || pteLeaf e then [] else m.path va k (l + 1) (ptePa e)

/-- The root of the tables of a context; none has none (DEDUCED log 16). -/
def State.root (s : State) (ctx : BitVec 16) : PAddr :=
  match s.ctx ctx with
  | some x => x.root
  | none => 2 ^ 56

/-! ### Micro-TLB (R246) -/

/-- The entry of a core's micro-TLB for a virtual address. -/
def Core.tlb (c : Core) (va : Nat) : Option Tlb := c.utlb.find? fun t => t.ctx == c.ctx && t.vpn == va / 2 ^ t.bits

/-- An entry put in, the oldest leaving when 64 are held. -/
def Core.fillTlb (c : Core) (va : Nat) (e : W64) (b : Nat) : Core :=
  { c with utlb := ({ ctx := c.ctx, vpn := va / 2 ^ b, bits := b, leaf := e } :: c.utlb).take 64 }

/-- The entry of a die's last-level TLB for a virtual address of a context. -/
def State.dieTlb (s : State) (d : Nat) (ctx : BitVec 16) (va : Nat) : Option Tlb :=
  (s.die d).tlb.find? fun t => t.ctx == ctx && t.vpn == va / 2 ^ t.bits

/-- The part of a leaf that a last-level TLB holds: the 512 MiB part of a 4 TiB page that is used (R246). -/
def leafPart (e : W64) (b va : Nat) : W64 × Nat :=
  if b = 42 then (e + BitVec.ofNat 64 (va % 2 ^ 42 / 2 ^ 29 * 2 ^ 29), 29) else (e, b)

/-- Entries of one page size kept, at most `n` of them. -/
def keepTlb (bits n : Nat) (l : List Tlb) : List Tlb := (l.filter fun t => decide (t.bits = bits)).take n

/-- An entry put into a last-level TLB of 2,048 entries for 512 MiB pages and 16,384 for 64 KiB pages (R246). -/
def Die.fillTlb (d : Die) (ctx : BitVec 16) (va : Nat) (e : W64) (b : Nat) : Die :=
  let p := leafPart e b va
  let l := { ctx := ctx, vpn := va / 2 ^ p.2, bits := p.2, leaf := p.1 } :: d.tlb
  { d with tlb := keepTlb 29 2048 l ++ keepTlb 16 16384 l }

/-- A translation of a page of a context from the last-level TLB of a die, else by a walk of the context's tables (R246). -/
def State.lookup (s : State) (d : Nat) (ctx : BitVec 16) (va : Nat) : Option (W64 × Nat) :=
  match s.dieTlb d ctx va with
  | some t => some (t.leaf, t.bits)
  | none => s.mem.walk va false false 5 0 (s.root ctx)

/-- What translating and decoding one piece of an access gives: an address with its tier, a miss, XLATE, an access held
for a draining group, WINDOW. -/
inductive XRes where
  | ok (pa : PAddr)
  | miss
  | xlate
  | drain
  | window
  deriving DecidableEq, Repr, Inhabited

/-- The physical address of a virtual one through a leaf (R245). -/
def leafPa (e : W64) (b va : Nat) : PAddr := ptePa e + va % 2 ^ b

/-- A group with link security enabled that still lacks a key carries no traffic, nor does one whose link retrains (R338;
DEDUCED log 44). -/
def Group.keyless (g : Group) : Bool := (g.secure && (g.tx.cur.isEmpty || g.rx.cur.isEmpty)) || g.retrain

/-- A group that carries traffic: ACTIVE, with its keys, its link up (R333, R338). -/
def Group.carries (g : Group) : Bool := g.state == .active && !g.keyless

/-- Whether group `g` carries UALink traffic (R329, R335). -/
def State.ualOpen (s : State) (g : Nat) : Bool := (s.group g).pers == 2 && (s.group g).carries

/-- Whether a key identifier names CUR or OLD (R338). -/
def LinkKey.knows (k : LinkKey) (id : Nat) : Bool :=
  (id == k.curId && !k.cur.isEmpty) || (id + 1 == k.curId && !k.old.isEmpty)

/-- The key of the slot that an identifier names (R338). -/
def LinkKey.slot (k : LinkKey) (id : Nat) : List Byte := if id == k.curId then k.cur else k.old

/-- Whether what comes in over a group names one of its keys; a group without security asks for none (R338). -/
def Group.keyOk (g : Group) (key : Option Nat) : Bool := !g.secure || key.any g.rx.knows

/-- The bytes of what comes in over a group, decrypted under the slot that its key identifier names (R338). -/
def Group.plain (g : Group) (key : Option Nat) (bs : List Byte) : List Byte :=
  match g.secure, key with
  | true, some id => Config.decipher (g.rx.slot id) id bs
  | _, _ => bs

/-- The first flit under an identifier taken out. -/
def takeFlit (id : Nat) : List (Nat × List Byte) → List (Nat × List Byte)
  | [] => []
  | f :: r => if f.1 == id then r else f :: takeFlit id r

/-- A flit has come in and is acknowledged (R339). -/
def Group.came (g : Group) (key : Option Nat) : Group :=
  match key with
  | some id => { g with rx := { g.rx with flits := takeFlit id g.rx.flits } }
  | none => g

/-- A flit or packet first transmitted: encrypted under CUR where security is enabled, and kept as sent until it is acknowledged
(R338, R339). -/
def Group.transmit (g : Group) (bs : List Byte) : Group :=
  if !g.secure then g
  else
    let f := (g.tx.curId, Config.cipher g.tx.cur g.tx.curId bs)
    { g with wire := g.wire ++ [f], tx := { g.tx with flits := g.tx.flits ++ [f] } }

/-- Whether a group's range is mapped at an address: that of a CXL root where one of its decoders covers it (R263, R328;
DEDUCED log 44). -/
def Group.mappedAt (g : Group) (pa : PAddr) : Bool :=
  g.mapped != 1 || g.decs.any fun d => decide (d.1 ≤ pa) && decide (pa < d.1 + d.2)

/-- A mapped range whose group is between GO and its next personality, or carries no traffic yet, holds new requests (R264,
R335, R338). -/
def Group.holdsNew (g : Group) : Bool :=
  g.mapped != 0 && (g.state == .draining || g.state == .quiesced || g.state == .retraining || g.state == .mapping ||
    (g.state == .active && g.keyless))

/-- The decoder: HBM4, or the range of a group, held while it switches, WINDOW where it is not mapped to the TIER's
personality, XLATE where a page reaches past HBM4 into no range (R245, R248, R263, R264). -/
def State.decode (s : State) (e : W64) (pa : PAddr) : XRes :=
  match groupOf pa with
  | none => if inHbm pa then .ok pa else .xlate
  | some g =>
    let x := s.group g
    if x.holdsNew then .drain
    else if x.mapped.toNat = pteTier e ∧ x.mappedAt pa then .ok pa
    else .window

/-- Translation of one piece by a core's micro-TLB, or by a walk that has ended (R246). -/
def State.xlat (s : State) (c : Core) (va : Nat) (rd wr : Bool) : XRes :=
  match c.tlb va with
  | some t => if leafAllows t.leaf rd wr then s.decode t.leaf (leafPa t.leaf t.bits va) else .xlate
  | none =>
    match c.walk with
    | .fault v r w => if v / 65536 = va / 65536 ∧ r = rd ∧ w = wr then .xlate else .miss
    | _ => .miss

/-- A page walk of a context asked for on a die; one for the same page serves all who ask (R246). -/
def State.askWalk (s : State) (d : Nat) (ctx : BitVec 16) (va : Nat) : State :=
  s.onDie d fun x => if x.walks.contains (ctx, va / 65536) then x else { x with walks := x.walks ++ [(ctx, va / 65536)] }

/-- Translation of one piece by an entry of a TLB; a page that no entry maps is a miss (R245, R246). -/
def State.byEntry (s : State) (t : Option Tlb) (va : Nat) (rd wr : Bool) : XRes :=
  match t with
  | some t => if leafAllows t.leaf rd wr then s.decode t.leaf (leafPa t.leaf t.bits va) else .xlate
  | none => .miss

/-- Translation of one piece by a copy engine as it reaches the page, or of an access that is issued again: by its tile's micro-TLB,
which the last-level TLB serves; a page that neither maps is a miss, for which a walk is asked (R115, R246). -/
def State.xlatCopy (s : State) (c : Core) (va : Nat) (rd wr : Bool) : XRes :=
  s.byEntry ((c.tlb va).or (s.dieTlb c.die c.ctx va)) va rd wr

/-- Translation of one piece by the memory sequencer of a core's die, or by a collective: by the last-level TLB (R246, R251). -/
def State.xlatSeq (s : State) (c : Core) (va : Nat) (rd wr : Bool) : XRes := s.byEntry (s.dieTlb c.die c.ctx va) va rd wr

/-- The pieces of `n` bytes at a virtual address, cut at 64 KiB; an empty access keeps its first byte's page (R214). -/
def cut (va n : Nat) : List (Nat × Nat) :=
  if va % 65536 + n ≤ 65536 then [(va, n)]
  else [(va, 65536 - va % 65536), (va / 65536 * 65536 + 65536, n - (65536 - va % 65536))]

/-- The pieces of an access, or what keeps it: with the virtual address of the first piece that is not ready. -/
inductive XAll where
  | ok (ps : List Piece)
  | no (r : XRes) (va : Nat)
  deriving DecidableEq, Repr, Inhabited

/-- All pieces translated by `f`. -/
def translateAll (f : Nat → XRes) : List (Nat × Nat) → XAll
  | [] => .ok []
  | (va, n) :: r =>
    match f va with
    | .ok pa =>
      match translateAll f r with
      | .ok ps => .ok ({ pa := pa, n := n } :: ps)
      | x => x
    | x => .no x va

/-! ### Channels of HBM4 (R248 to R250) -/

/-- The die and the channel of an address in HBM4, 32 for each of its two stacks: PA[14:10] (R248, R249). -/
def chanOf (pa : PAddr) : Nat × Nat := (pa / 2 ^ 37 % 8, pa / 2 ^ 36 % 2 * 32 + pa / 1024 % 32)

/-- The pseudo-channel of an address within its channel: PA[9] (R249). -/
def pseudoOf (pa : PAddr) : Nat := pa / 512 % 2

/-- A channel of a die. -/
def Die.chan (d : Die) (k : Nat) : Chan := d.chans[k]?.getD .normal

/-- The pair neighbour of a channel: 2i with 2i + 1. -/
def pairOf (k : Nat) : Nat := if k % 2 = 0 then k + 1 else k - 1

/-- Whether a channel holds its requests: it lends its lanes, or it or its pair neighbour is in a handshake (R250). -/
def Die.holds (d : Die) (k : Nat) : Bool :=
  d.chan k != .normal || d.chan (pairOf k) == .lend || d.chan (pairOf k) == .reclaim

/-- The channels that pieces of accesses reach: those of a long piece go round after 32 KiB. -/
def chansOf (ps : List Piece) : List (Nat × Nat) :=
  ((ps.filter fun p => inHbm p.pa && decide (0 < p.n)).flatMap fun p =>
    (List.range (min 32 ((p.pa % 1024 + p.n + 1023) / 1024))).map (fun i => chanOf (p.pa / 1024 * 1024 + 1024 * i)) ++
      [chanOf (p.pa + p.n - 1)]).dedup

/-- Whether a request to pieces waits at a channel (R250). -/
def State.chansHold (s : State) (ps : List Piece) : Bool := (chansOf ps).any fun k => (s.die k.1).holds k.2

/-- A request reaches pieces whose channels lend their lanes: it starts the reclaim (R250). -/
def State.askReclaim (s : State) (ps : List Piece) : State :=
  (chansOf ps).foldl (fun s k => s.onDie k.1 fun d =>
    if d.chan k.2 = .lending then { d with chans := d.chans.setIfInBounds k.2 .reclaim } else d) s

/-- What a request sends over the port groups of its pieces (R329, R338, R339). -/
def State.overGroups (s : State) (ps : List Piece) (bs : List Byte) : State :=
  (ps.filterMap fun p => groupOf p.pa).foldl (fun s g => s.onGroup g fun x => x.transmit bs) s

/-! ### Bytes of global memory -/

/-- Whether the data of an address is encrypted under a key slot: HBM4 and CXL memory (R260). -/
def State.encrypted (s : State) (pa : PAddr) : Bool :=
  match groupOf pa with
  | none => true
  | some g => (s.group g).mapped == 1

/-- Bytes of pieces as a context reads them under a key slot. -/
def State.readPieces (s : State) (ctx key : Nat) (ps : List Piece) : List Byte :=
  ps.flatMap fun p => s.mem.bytes ctx key (s.encrypted p.pa) p.pa p.n

/-- Whether a read of pieces touches a region that is not live (R261). -/
def State.stalePieces (s : State) (ps : List Piece) : Bool :=
  ps.any fun p => decide (0 < p.n) && (s.mem.isDead p.pa || s.mem.isDead (p.pa + p.n - 1))

/-- Bytes written to pieces. -/
def State.writePieces (s : State) (ctx key : Nat) : List Piece → List Byte → State
  | [], _ => s
  | p :: r, bs => ({ s with mem := s.mem.write ctx key p.pa (bs.take p.n) }).writePieces ctx key r (bs.drop p.n)

/-! ### Asynchronous causes (R106) -/

/-- An asynchronous stop: raised before the core's next bundle (R106). The offset and window go to FINFO0 and FINFO1, with the
number of the entry of what it names (R111). -/
def asyncStop (k : Cause) (off : Nat) (win : BitVec 3) (who : Culprit) : Stop :=
  { mkStop k 0 0 with async := true, finfo0 := BitVec.ofNat 64 off, finfo1 := win.setWidth 64, culprit := who }

/-- An asynchronous cause of a memory sequencer word of program `num`, charged to the tile that started the program; FINFO0
holds the index of the word (R48, R106, R111). -/
def msqStop (k : Cause) (pc num : Nat) : Stop :=
  { mkStop k 0 0 with async := true, msq := true, finfo0 := BitVec.ofNat 64 pc, culprit := .program num }

/-- The first asynchronous cause of a core stands. What a tile that has stopped, or is about to, meets waits in the replay queue or
with its engine, and is met again once it is released (R106, R108). -/
def Core.async (c : Core) (p : Stop) : Core :=
  if c.fault.isSome || c.run == .stopping || c.run == .stopped then c else { c with fault := some p }

/-- A stop for no cause of its own becomes one for a cause, at the same place (R107). -/
def Stop.orRaise (q p : Stop) : Stop :=
  if q.faulting then q else { p with addr := q.addr, done := q.done, syncw := q.syncw, syncst := q.syncst, final := q.final }

/-- A cause of a core that nothing will raise again: a tile about to stop for no cause of its own records it, one that has stopped
raises it when it is released (R106, R107). -/
def Core.owes (c : Core) (p : Stop) : Core :=
  match c.run, c.stop with
  | .stopping, some q => if q.faulting then { c with fault := c.fault.or (some p) } else { c with stop := some (q.orRaise p) }
  | .stopped, _ => { c with fault := c.fault.or (some p) }
  | _, _ => c.async p

end Sys2Proof.Machine
end

