-- ==== Sys2Proof/Machine/Global.lean ====
section
/-! DEFINITION. The global, atomic, tag, fence and collective instructions of the M pipe: GL words (R221 to R232). -/

namespace Sys2Proof.Machine

/-! ### Issue of a global access (R222, R246) -/

/-- Whether the replay queue of a die is full: 1,024 accesses of its tiles wait to be issued again (R256). -/
def State.replayFull (s : State) (d : Nat) : Bool :=
  decide (1024 ≤ ((s.rest.filter fun c => !c.steward && c.die == d).map fun c =>
    ((s.core c.num).eng.reqs.filter fun r => r.fault.isSome).length).foldl (fun a b => a + b) 0)

/-- The global access of a bundle that is about to issue: it waits for its translation and for a draining group, then
issues with its pieces, or with the cause it meets after issue; one that would find the replay queue full waits (R222, R246,
R256, R263, R264). -/
def State.globalIssue (s : State) (va n : Nat) (rd wr : Bool) (k : Except Cause (List Piece) → State) : State :=
  match translateAll (fun v => s.xlat s.me v rd wr) (cut va n) with
  | .ok ps => k (.ok ps)
  | .no .miss v => ((s.askWalk s.me.die s.me.ctx v).onMe fun c => { c with walk := .wait v rd wr }).stall .xlat
  | .no .drain _ => s.stall .fabric
  | .no r _ =>
    if s.replayFull s.me.die then s.stall .xlat
    else k (.error (match r with | .window => .window | _ => .xlate))

/-- A remote access issued, with its fault when it met one: the stop comes before the next bundle, and the access is
kept to be issued again (R106, R108, R222). -/
def Core.remote (c : Core) (kind : List Piece → ReqKind) (r : Except Cause (List Piece)) (off : W64) (win : BitVec 3) :
    Core :=
  match r with
  | .ok ps => { (c.request (kind ps)) with walk := .none }
  | .error k =>
    let c := { c with walk := .none }
    (c.onEng fun e => { e with
      reqs := e.reqs ++ [{ id := e.nextId, kind := kind [], fault := some k }]
      nextId := e.nextId + 1 }).async (asyncStop k off.toNat win (.access c.eng.nextId))

/-- A cause found at issue, or its code as a poisoned result of a speculative load at its due cycle (R222). -/
def State.defer (s : State) (sp : Bool) (k : Cause) (l : Nat) (w : W64 → Landing) : State :=
  if sp then s.done fun c => { c.push l (w (BitVec.ofNat 64 k.num)) with walk := .none } else s.raise k

/-- An offset aligned down (R221). -/
def alignDown (v : W64) (n : Nat) : Nat := v.toNat / n * n

/-- A global load of `n` bytes at an offset aligned down to `al`, due after `l` cycles: `w` is the landing of its value
and `p` of a poison code (R221, R222). -/
def State.loadGlobal (s : State) (vec sp : Bool) (win : BitVec 3) (off : W64) (al n l : Nat) (w : Landing)
    (p : W64 → Landing) : State :=
  let o := alignDown off al
  match windowVa (s.me.win win) o n with
  | none => s.defer sp .window l p
  | some va =>
    s.globalIssue va n true false fun r =>
      match r, sp with
      | .error k, true => s.defer true k l p
      | r, _ =>
        s.done fun c =>
          (c.pushAwait l (.reply c.eng.nextId) w).remote (fun ps => .gload ps win off.toNat sp vec) r off win

/-- A global store of bytes at an offset aligned down to `al` (R221, R222). -/
def State.storeGlobal (s : State) (win : BitVec 3) (off : W64) (al : Nat) (bs : List Byte) : State :=
  let o := alignDown off al
  match windowVa (s.me.win win) o bs.length with
  | none => s.raise .window
  | some va =>
    s.globalIssue va bs.length false true fun r =>
      s.done fun c => c.remote (fun ps => .gstore ps win off.toNat bs) r off win

/-- The cycles of a class (R41). -/
def classCycles (cls : BitVec 3) : Nat := 64 * 2 ^ cls.toNat

/-- `ldg` (R221, R222). -/
def execLdg (d a : Reg) (sp : Bool) (win cls : BitVec 3) (s : State) : Host.Outcome State Fault Refusal :=
  let x := s.me.s a
  issue (.ldg d a sp win cls) s
    (s.unpoisoned [x]
      (s.loadGlobal false sp win x.val 8 8 (classCycles cls) (.sreg d 0 false 0)
        (fun v => .sreg d v true 0)))

/-- `stg` (R221, R222). -/
def execStg (d a : Reg) (size : Size) (win : BitVec 3) (s : State) : Host.Outcome State Fault Refusal :=
  let x := s.me.s a
  let v := s.me.s d
  issue (.stg d a size win) s
    (s.unpoisoned [v, x] (s.storeGlobal win x.val (sizeBytes size) (stBytes size v.val)))

/-- `vldg` (R221, R222). -/
def execVldg (d a : Reg) (sp : Bool) (win cls : BitVec 3) (s : State) : Host.Outcome State Fault Refusal :=
  let x := s.me.s a
  issue (.vldg d a sp win cls) s
    (s.unpoisoned [x]
      (s.loadGlobal true sp win x.val 4 256 (classCycles cls) (.vreg d 0 0 0)
        (fun v => .vreg d (ofLanes (List.replicate 64 v.toNat)) (BitVec.allOnes 64) 0)))

/-- `vstg` (R221, R222). -/
def execVstg (d a : Reg) (win : BitVec 3) (s : State) : Host.Outcome State Fault Refusal :=
  let x := s.me.s a
  let v := s.me.v d
  issue (.vstg d a win) s
    (s.unpoisoned (lanePoison v ++ [x]) (s.storeGlobal win x.val 4 (vstBytes 4 v.val)))

/-! ### Atomics, the load queue, reductions (R223 to R227) -/

/-- The latency of an atomic's result by its scope (R53). -/
def amoLatency (sc : Scope) : Nat :=
  match sc with
  | .tile | .cluster | .die => 128
  | .partition | .module => 512
  | .pod => 8192

/-- Bytes of an atomic. -/
def amoBytes (w4 : Bool) : Nat := if w4 then 4 else 8

/-- A value truncated to the size of an atomic. -/
def amoTrunc (w4 : Bool) (v : Nat) : Nat := v % 2 ^ (8 * amoBytes w4)

/-- FP32 or BF16 addition at an atomic unit (R224). -/
def fpAdd (f : Fmt) (x y : Nat) : Nat × Fl := f.addOp { mode := .rne, graded := true } 0 false x y

/-- The new value at the address and the flags (R223, R224); `old`, `v`, `v2` are of the size. -/
def amoNew (op : AmoOp) (w4 : Bool) (old v v2 : Nat) : Nat × Fl :=
  let n := 8 * amoBytes w4
  match op with
  | .add => ((old + v) % 2 ^ n, 0)
  | .faddF32 => fpAdd fp32 old v
  | .faddBf16x2 =>
    let lo := fpAdd bf16 (old % 65536) (v % 65536)
    let hi := fpAdd bf16 (old / 65536 % 65536) (v / 65536 % 65536)
    (lo.1 + 65536 * hi.1, lo.2 ||| hi.2)
  | .min => (if sgn n old < sgn n v then old else v, 0)
  | .max => (if sgn n old < sgn n v then v else old, 0)
  | .minn => (if old < v then old else v, 0)
  | .maxn => (if old < v then v else old, 0)
  | .swap => (v, 0)
  | .cas => (if old = v then v2 else old, 0)
  | .and => (old &&& v, 0)
  | .or => (old ||| v, 0)
  | .xor => (old ^^^ v, 0)

/-- The old value as it enters the LQ (R223). -/
def amoOld (op : AmoOp) (w4 : Bool) (old : Nat) : W64 :=
  if !w4 then BitVec.ofNat 64 old
  else
    match op with
    | .minn | .maxn | .faddF32 | .faddBf16x2 => BitVec.ofNat 64 old
    | _ => (BitVec.ofNat 32 old).signExtend 64

/-- An LQ entry due after `l` cycles. -/
def Core.queueLq (c : Core) (l : Nat) : Core :=
  c.onEng fun e => { e with lq := e.lq ++ [{ id := e.nextId, remain := l, here := false, val := 0, fl := 0 }] }

/-- `amo` (R202, R222 to R225). -/
def execAmo (d a : Reg) (w4 : Bool) (win : BitVec 3) (sc : Scope) (op : AmoOp) (s : State) :
    Host.Outcome State Fault Refusal :=
  let x := s.me.s a
  let v := s.me.s d
  let v2 := s.me.s (d + 1)
  let n := amoBytes w4
  let o := alignDown x.val n
  issue (.amo d a w4 win sc op) s
    (s.unpoisoned (if op = .cas then [v, v2, x] else [v, x])
      (if 16 ≤ s.me.eng.lq.length then s.landfull 2
       else
         match windowVa (s.me.win win) o n with
         | none => s.raise .window
         | some va =>
           s.globalIssue va n true true fun r =>
             s.done fun c => (c.queueLq (amoLatency sc)).remote (fun ps => .amo ps win x.val.toNat op w4 v.val v2.val) r x.val win))

/-- `red` (R226). -/
def execRed (d a : Reg) (w4 : Bool) (win : BitVec 3) (sc : Scope) (op : AmoOp) (s : State) :
    Host.Outcome State Fault Refusal :=
  let x := s.me.s a
  let v := s.me.s d
  let n := amoBytes w4
  let o := alignDown x.val n
  issue (.red d a w4 win sc op) s
    (s.unpoisoned [v, x]
      (match windowVa (s.me.win win) o n with
       | none => s.raise .window
       | some va =>
         s.globalIssue va n true true fun r =>
           s.done fun c => c.remote (fun ps => .red ps win x.val.toNat op w4 v.val) r x.val win))

/-- `lqpop` (R225). -/
def execLqpop (d : Reg) (s : State) : Host.Outcome State Fault Refusal :=
  issue (.lqpop d) s
    (match s.me.eng.lq with
     | [] => s.landfull 3
     | q :: r =>
       if 0 < q.remain then s.onMe Core.hold
       else if !q.here then s.stall .land
       else s.done fun c => (c.onEng fun e => { e with lq := r }).push 1 (.sreg d q.val false q.fl))

/-! ### Tags (R228) -/

/-- Whether a tag is set. -/
def Arch.tag (c : Arch) (t : BitVec 6) : Bool := c.spec.tagmap.getLsbD t.toNat

/-- The tags of a mask observed: copies that name them retire from PIXC (R114), the flags of their deliveries are
raised with the bundle (R144). -/
def Core.observe (c : Core) (m : W64) : Core :=
  let fl := (c.eng.lazyFl.filter fun e => m.getLsbD e.1.toNat).foldl (fun f e => f ||| e.2) 0
  { c with
    iss := { c.iss with fl := c.iss.fl ||| fl }
    eng := { c.eng with
      unretired := c.eng.unretired.filter fun x => !m.getLsbD x.2.toNat
      lazyFl := c.eng.lazyFl.filter fun x => !m.getLsbD x.1.toNat } }

/-- The mask of one tag. -/
def tagMask (t : BitVec 6) : W64 := 1 <<< t.toNat

/-- `tagw` (R228). -/
def execTagw (t : BitVec 6) (s : State) : Host.Outcome State Fault Refusal :=
  issue (.tagw t) s (if s.me.tag t then s.done fun c => c.observe (tagMask t) else s.stall .sync)

/-- `tagwa` (R228). -/
def execTagwa (a : Reg) (s : State) : Host.Outcome State Fault Refusal :=
  let x := s.me.s a
  issue (.tagwa a) s
    (s.unpoisoned [x]
      (if x.val &&& ~~~s.me.spec.tagmap = 0 then s.done fun c => c.observe x.val else s.stall .sync))

/-- Signals posted by a tile for a tag and not yet taken (R228). -/
def Msq.count (m : Msq) (tile : Nat) (t : BitVec 6) : Nat :=
  ((m.signals.find? fun e => e.1 == (tile, t)).map Prod.snd).getD 0

/-- A signal count set. -/
def Msq.setCount (m : Msq) (tile : Nat) (t : BitVec 6) (n : Nat) : Msq :=
  { m with signals := (m.signals.filter fun e => e.1 != (tile, t)) ++ (if n = 0 then [] else [((tile, t), n)]) }

/-- The cycles until every store to A, W and C issued so far has performed, at least 2 (R228; DEDUCED log 54). -/
def Arch.lastStore (c : Arch) : Nat :=
  c.flight.foldl (fun n f => match f.what with | .bstore .. => max n f.remain | _ => n) 2

/-- `tagff`: the signals of the tag that are under way count against the limit (R228; DEDUCED log 54). -/
def execTagff (t : BitVec 6) (s : State) : Host.Outcome State Fault Refusal :=
  issue (.tagff t) s
    (if 255 ≤ (s.die s.me.die).msq.count s.me.num t + (s.me.flight.filter fun f => f.what == .signal t).length then
       s.stall .engine
     else s.done fun c => c.push s.me.lastStore (.signal t))

/-- `tagclr`: the tag is cleared at issue + 1 and copies that name it retire from PIXC; flags of a delivery whose tag was
never observed are lost (R114, R228; DEDUCED log 15). -/
def execTagclr (t : BitVec 6) (s : State) : Host.Outcome State Fault Refusal :=
  issue (.tagclr t) s
    (s.done fun c =>
      (c.onEng fun e => { e with
        unretired := e.unretired.filter fun x => x.2 != t
        lazyFl := e.lazyFl.filter fun x => x.1 != t }).push 1 (.tagset t false))

/-! ### Fences and drains (R229, R230) -/

/-- A copy whose destination side is remote: K, or global memory (R229). -/
def Copy.outbound (k : Copy) : Bool :=
  match k.dst with
  | .buf (.at .k _) => true
  | .glob .. => true
  | _ => false

/-- An access R229 covers that has not performed. -/
def Req.covered (r : Req) : Bool :=
  match r.kind with
  | .kload .. | .gload .. | .back .. => false
  | _ => true

/-- Every access R229 covers has performed, window reductions by the close of their rounds (R274); writes of nothing have their
acknowledgement (R277). -/
def Arch.drained (c : Arch) : Bool :=
  !(c.eng.reqs.any Req.covered) && !(c.eng.copies.any fun k => k.outbound || k.len == 0) && c.eng.openRed == 0 &&
  !(c.eng.colls.any fun k => field k.record 8 8 == 0)

/-- Every access R229 covers has performed, empty transfers of the memory sequencer for the tile among them (R229, R277). -/
def State.drained (s : State) (c : Core) : Bool :=
  c.drained && !((s.die c.die).msq.xfers.any fun x => x.owner == c.num && x.len == 0)

/-- A copy with a side that is remote: K, or global memory (R267). -/
def Copy.remote (k : Copy) : Bool :=
  k.outbound ||
  match k.src with
  | .buf (.at .k _) => true
  | .glob .. => true
  | _ => false

/-- The remote sides of the copies and of the memory sequencer's transfers that a tile started have performed (R267). Of the transfers
those count that have begun: which of the ones that its programs have still to begin are earlier than a fence the spec does not say, and
a program may wait for a signal that the tile posts behind it (R228; DESIGN CHOICE log 65). -/
def State.enginesHere (s : State) (c : Core) : Bool :=
  !(c.eng.copies.any Copy.remote) && !((s.die c.die).msq.xfers.any fun x => x.owner == c.num)

/-- Every remote load and `amo` result has arrived (R230, R267). -/
def Arch.loadsHere (c : Arch) : Bool :=
  !(c.eng.reqs.any fun r =>
    match r.kind with
    | .kload .. | .gload .. | .amo .. | .back .. => true
    | _ => false)

/-- The flags of window reductions merged by a drain at module or pod scope (R227). -/
def Core.mergeRed (c : Core) (sc : Scope) : Core :=
  if (sc = .module ∨ sc = .pod) ∧ c.eng.redFl ≠ 0 then
    (c.onEng fun e => { e with redFl := 0 }).push 1 (.flags c.eng.redFl)
  else c

/-- `drain` (R229). -/
def execDrain (sc : Scope) (s : State) : Host.Outcome State Fault Refusal :=
  issue (.drain sc) s (if s.drained s.me then s.done fun c => c.mergeRed sc else s.stall .sync)

/-- `fence.acq` (R230). -/
def execFenceAcq (sc : Scope) (s : State) : Host.Outcome State Fault Refusal :=
  issue (.fenceAcq sc) s (if s.me.loadsHere then s.done id else s.stall .sync)

/-- Every earlier remote access of a tile is ordered: its loads are here, what a drain covers has performed, and its engines' remote
sides have (R267, R270). -/
def State.ordered (s : State) (c : Core) : Bool := c.loadsHere && s.drained c && s.enginesHere c

/-- `fence.rel` (R230). -/
def execFenceRel (sc : Scope) (s : State) : Host.Outcome State Fault Refusal :=
  issue (.fenceRel sc) s (if s.ordered s.me then s.done id else s.stall .sync)

/-- `fence.sc` (R230). -/
def execFenceSc (sc : Scope) (s : State) : Host.Outcome State Fault Refusal :=
  issue (.fenceSc sc) s (if s.ordered s.me then s.done id else s.stall .sync)

/-! ### Triggers (R231) -/

/-- `trig`: a second one, or one in a leg without early launch, has no effect (R231). -/
def execTrig (s : State) : Host.Outcome State Fault Refusal :=
  issue .trig s
    (s.done fun c =>
      if c.eng.trig || !s.earlyLeg c then c
      else (c.request (.trig (s.boxNow c) false)).onEng fun e => { e with trig := true })

/-! ### Collectives (R232, R325) -/

/-- A record whose fields hold no reserved value (R232). -/
def collOk (r : List Byte) : Bool :=
  let op := field r 0 1
  let red := field r 1 1
  decide (op ≤ 3) && decide (red ≤ 2) && (!(op == 1 || op == 3) || red == 0) && decide (field r 2 1 ≤ 3) &&
  decide (field r 3 1 < 64) && field r 34 30 == 0 &&
  [16, 24].all fun o =>
    match globPlace (BitVec.ofNat 64 (field r o 8)) with
    | some g => !g.1
    | none => false

/-- The group a record names (R325, R353). -/
def State.collGroup (s : State) (r : List Byte) : Option CGroup := s.cgroups.find? fun g => g.num.toNat == field r 4 4

/-- The entry of a core in a group: its accelerator, partition and rank in the sense of R306. -/
def isSelf (c : Core) (w : W64) : Bool :=
  w.toNat / 2 ^ 30 % 1024 == Config.accel.toNat && w.toNat / 2 ^ 24 % 64 == c.part.toNat &&
  w.toNat / 2 ^ 16 % 256 == c.rank.toNat

/-- Whether the personality group that carries a rank is ready: ranks of this module need none; a rank of another needs its
group in the personality that reaches it, UALink or UET (R325). -/
def State.carrierOk (s : State) (w : W64) (need : BitVec 2) : Bool :=
  w.toNat / 2 ^ 30 % 1024 == Config.accel.toNat ||
  let g := s.group (w.toNat / 2 ^ 43 % 32)
  g.carries && (if need = 2 ∨ need = 3 then g.pers == need else g.pers == 2 || g.pers == 3)

/-- Whether the groups of all ranks of a collective group are ready (R325). -/
def State.carried (s : State) (g : CGroup) : Bool := (g.entries.zipIdx).all fun e => s.carrierOk e.1 (g.need.getD e.2 0)

/-- `coll` (R110, R232, R325). -/
def execColl (a : Reg) (s : State) : Host.Outcome State Fault Refusal :=
  let x := s.me.s a
  let at' := x.val.toNat / 64 * 64
  issue (.coll a) s
    (s.unpoisoned [x]
      (if BSpace.a.size < at' + 64 then s.raise .perm
       else
         let r := s.me.bytes .a at' 64
         if !collOk r then s.raise .illop
         else
           match s.collGroup r with
           | none => s.raise .perm
           | some g =>
             if !(g.entries.any fun w => isSelf s.me w) then s.raise .perm
             else if 16 ≤ s.me.eng.colls.length ∨ !s.carried g then s.stall .engine
             else
               s.done fun c => c.onEng fun e => { e with
                 nextId := e.nextId + 1
                 colls := e.colls ++ [{ id := e.nextId, record := r, steps := 0, fl := 0, gone := false, told := false }] }))

end Sys2Proof.Machine
end

