-- ==== Sys2Proof/Machine/Barrier.lean ====
section
/-! DEFINITION. Barriers: the post, the release and the STAMP of a tile that waits at one (R27, R92, R321). -/

namespace Sys2Proof.Machine

/-- Whether a barrier of scope `sc` of core `c` covers tile `n` (R27). -/
def State.covers (s : State) (c : Core) (sc : Scope) (n : Nat) : Bool :=
  s.inPart c n &&
  (match sc with
    | .tile => n == c.num
    | .cluster => n / 4 == c.num / 4
    | .die => n / 32 == c.num / 32
    | _ => true)

/-- The tiles a barrier covers, in rank order. -/
def State.covered (s : State) (c : Core) (sc : Scope) : List Nat := (s.tiles c.part).filter (s.covers c sc)

/-- The release time of a tile at a barrier: the LT of its sync bundle (R27). -/
def Arch.release (c : Arch) : Nat := c.spec.lt.toNat - 1

/-- Whether a tile has posted at a scope. -/
def Arch.postedAt (c : Arch) (sc : Scope) : Bool := c.run == .barrier true sc

/-- SYNC_POST: a tile that has drained and fenced posts its release time (R27). -/
def execSyncPost (core : Nat) (s : State) : Host.Outcome State Fault Refusal :=
  let c := s.core core
  .next
    (match c.run with
     | .barrier false sc =>
       if s.ordered c then
         s.onCore core fun c => { (c.mergeRed sc) with run := .barrier true sc, since := 0 }
       else s
     | _ => s)

/-- STAMP at a barrier: the tile stops after its sync bundle, its stamp and scope kept (R92, R106). -/
def Core.stampStop (c : Core) : Core :=
  { c with run := .stopping, stop := some { mkStop .stamp c.pc 0 with syncw := true, syncst := c.syncst } }

/-- A tile stops with STAMP at its barrier and drives the halt line. -/
def State.stampAt (s : State) (n : Nat) : State :=
  (s.onCore n Core.stampStop).onPart (s.core n).part fun q => { q with halt := true }

/-- The tile cycles from a post in which its tile still waits when no other post is missing: the next bundle issues 6 tile
cycles after the last post within a die, 38 where the barrier spans dies (R27, R321). -/
def postWait (l : List Nat) : Nat := if l.all fun n => n / 32 == l.headD 0 / 32 then 5 else 37

/-- What becomes of a barrier a core has posted at: when every covered tile has posted and the posts have reached every die,
those whose release time differs from that of the lowest-ranked take STAMP, or all go on together; a covered tile that has
halted makes the others take STAMP; a driven halt line lets no barrier release (R27, R92, R107). -/
def State.barrier (s : State) (core : Nat) : State :=
  let c := s.core core
  match c.run, s.part c.part with
  | .barrier true sc, some p =>
    let l := s.covered c sc
    let here := l.filter fun n => (s.core n).postedAt sc
    let gone := l.filter fun n => (s.core n).run == .halted
    if p.halt ∨ here.length + gone.length ≠ l.length ∨ here.any fun n => decide ((s.core n).since < postWait l) then s
    else if !gone.isEmpty then here.foldl (fun s n => s.stampAt n) s
    else
      let t := (s.core (l.headD core)).release
      let bad := l.filter fun n => (s.core n).release != t
      if bad.isEmpty then l.foldl (fun s n => s.onCore n fun c => { c with run := .running }) s
      else bad.foldl (fun s n => s.stampAt n) s
  | _, _ => s

/-- BARRIER_RELEASE (R27, R92, R107). -/
def execBarrierRelease (core : Nat) (s : State) : Host.Outcome State Fault Refusal := .next (s.barrier core)

end Sys2Proof.Machine
end

