-- ==== Sys2Proof/Machine/Ring.lean ====
section
/-! DEFINITION. The Flecia ring: cells, reservation, insertion, delivery, refusal and order (R313 to R320, R323). -/

namespace Sys2Proof.Machine

/-! ### Where cells go (R313, R314, R316) -/

/-- The unit of a core on its die (R316). -/
def Core.unit (c : Core) : Nat := if c.steward then 36 else c.num % 32

/-- The ring a cell takes from die `d` to die `e`: true for ring W (R314). -/
def ringOf (d e : Nat) : Bool :=
  let k := (e + 8 - d) % 8
  decide (5 ≤ k) || (k == 4 && d % 2 == 1)

/-- The destinations in a string that cells from die `d` reach on one ring (R314). -/
def ringPart (d : Nat) (w : Bool) (dstr : BitVec 8) : BitVec 8 :=
  (List.range 8).foldl (fun m e => if dstr.getLsbD e && e != d && ringOf d e == w then m ||| 1 <<< e else m) 0

/-- The die and the unit of the bridge of a group (R316). -/
def bridgeOf (g : Nat) : Nat × Nat := (g / 3, 39 + g % 3)

/-- Die and unit that hold a physical address for a class of access (R248, R316). -/
def paUnit (pa : PAddr) (unit : Nat) : Nat × Nat :=
  match groupOf pa with
  | some g => bridgeOf g
  | none => (pa / 2 ^ 37 % 8, unit)

/-- Pieces cut at lines of 128 bytes (R314, R315). -/
def linesOf : Nat → List Piece → List Piece
  | 0, _ => []
  | _ + 1, [] => []
  | k + 1, p :: r =>
    let m := 128 - p.pa % 128
    if p.n ≤ m then p :: linesOf k r else { p with n := m } :: linesOf k ({ pa := p.pa + m, n := p.n - m } :: r)

/-- The lines of an access, each with the offset of its first byte in the access and its bytes of `bs`. -/
def withBytes : Nat → List Piece → List Byte → List (Piece × Nat × List Byte)
  | _, [], _ => []
  | i, p :: r, bs => (p, i, bs.take p.n) :: withBytes (i + p.n) r (bs.drop p.n)

/-- The lines of an access that are on another die than `d`. -/
def remoteLines (d unit : Nat) (ps : List Piece) (bs : List Byte) : List (Piece × Nat × List Byte) :=
  (withBytes 0 (linesOf (ps.foldl (fun k p => k + p.n / 128 + 2) 0) ps) bs).filter fun l => (paUnit l.1.pa unit).1 != d

/-- A run of bytes cut into payloads of 128 (R315). -/
def payloads : Nat → List Byte → List (List Byte)
  | 0, _ => []
  | k + 1, bs => if bs.length ≤ 128 then [bs] else bs.take 128 :: payloads k (bs.drop 128)

/-- A cell from unit `u` of die `d` to unit `v` of die `e` (R315). -/
def mkCell (d u e v : Nat) (kind : BitVec 4) (part : BitVec 6) (tid : Nat) (bs : List Byte) : RCell :=
  { dstr := 1 <<< e, dstr0 := 1 <<< e, sdie := BitVec.ofNat 3 d, sunit := BitVec.ofNat 6 u, dunit := BitVec.ofNat 6 v
    kind := kind, again := false, part := part, tid := BitVec.ofNat 16 tid, vlen := BitVec.ofNat 8 bs.length, seq := 0
    payload := bs, born := 0 }

/-- A transaction of a unit: its die, its unit, its number, the partition for which it acts (R315). -/
structure Trip where
  die : Nat
  unit : Nat
  tid : Nat
  part : BitVec 6
  deriving DecidableEq, Repr, Inhabited

/-- The cells that a transaction sends to the places of an access, with their strands (R314, R316). -/
def Trip.ask (x : Trip) (unit : Nat) (kind : BitVec 4) (ps : List Piece) (bs : List Byte) : List (Nat × RCell) :=
  (remoteLines x.die unit ps bs).map fun l =>
    let at' := paUnit l.1.pa unit
    (l.1.pa / 128 % 8, mkCell x.die x.unit at'.1 at'.2 kind x.part x.tid l.2.2)

/-- The cells that the places of an access send back; `strand` gives the strand from the line and its offset in the access (R314,
R316). -/
def Trip.answer (x : Trip) (unit : Nat) (kind : BitVec 4) (ps : List Piece) (bs : List Byte) (strand : Piece → Nat → Nat) :
    List (Nat × RCell) :=
  (remoteLines x.die unit ps bs).map fun l =>
    let at' := paUnit l.1.pa unit
    (strand l.1 l.2.1, mkCell at'.1 at'.2 x.die x.unit kind x.part x.tid l.2.2)

/-- The strand of a line (R314). -/
def lineStrand (p : Piece) (_ : Nat) : Nat := p.pa / 128 % 8

/-- The cells of a message: none within a die (R314, R316). -/
def Trip.message (x : Trip) (at' : Nat × Nat) (kind : BitVec 4) (bs : List Byte) : List (Nat × RCell) :=
  if at'.1 = x.die then []
  else (payloads 33 bs).map fun b => (x.unit % 8, mkCell x.die x.unit at'.1 at'.2 kind x.part x.tid b)

/-- The pieces of a remote access. -/
def ReqKind.pieces : ReqKind → List Piece
  | .gload ps .. => ps
  | .gstore ps .. => ps
  | .amo ps .. => ps
  | .red ps .. => ps
  | _ => []

/-- The pieces that an access which has not arrived reached, also one that has performed (R264, R278). -/
def ReqKind.reached : ReqKind → List Piece
  | .back _ _ _ k => k.pieces
  | k => k.pieces

/-- The reduction window an address lies in (R322). -/
def State.rwinAt (s : State) (pa : PAddr) : Option RWin :=
  s.rwins.find? fun w => decide (w.base ≤ pa) && decide (pa < w.base + 65536 * w.size)

/-- The address of the first piece. -/
def headPa (ps : List Piece) : PAddr := (ps.map Piece.pa).headD 0

/-- The transaction of a request of a core. -/
def Core.trip (c : Core) (id : Nat) : Trip := { die := c.die, unit := c.unit, tid := id, part := c.part }

/-- The request cells of a remote access; none where it stays on its die (R314, R316). -/
def State.cellsOf (s : State) (c : Core) (r : Req) : List (Nat × RCell) :=
  let x := c.trip r.id
  match r.kind with
  | .gload ps .. => x.ask 34 0 ps []
  | .gstore ps _ _ bs => x.ask 34 2 ps bs
  | .amo ps _ _ _ w4 v v2 =>
    let n := if w4 then 4 else 8
    (x.ask 33 4 ps []).map fun e =>
      (e.1, { e.2 with payload := leBytes n v.toNat ++ leBytes n v2.toNat, vlen := BitVec.ofNat 8 (2 * n) })
  | .red ps _ _ _ w4 v =>
    let bs := leBytes (if w4 then 4 else 8) v.toNat
    if (s.rwinAt (headPa ps)).isSome then x.ask 35 6 ps bs else x.ask 33 4 ps bs
  | .snd dst far _ bs =>
    if far then
      (match s.farEntry c dst with
       | some w => x.message (bridgeOf (w.toNat / 2 ^ 43 % 32)) 7 bs
       | none => [])
    else x.message (dst / 32, dst % 32) 7 bs
  | _ => []

/-- The cells that answer an access which has performed at its places: its bytes, or its acknowledgement (R314, R316). -/
def replies (c : Core) (r : Req) (ps : List Piece) (bs : List Byte) : List (Nat × RCell) :=
  let x := c.trip r.id
  match r.kind with
  | .gload .. => x.answer 34 1 ps bs lineStrand
  | .gstore .. => x.answer 34 3 ps [] lineStrand
  | .amo .. => x.answer 33 5 ps bs lineStrand
  | _ => []

/-! ### Flows and queues (R319, R320) -/

/-- The flow of a cell on a ring and strand (R320). -/
def RCell.flow (c : RCell) (w : Bool) (strand : BitVec 3) : Flow :=
  { ringW := w, strand := strand, sdie := c.sdie, sunit := c.sunit, dunit := c.dunit, dstr := c.dstr0 }

/-- The entry of a flow. -/
def flowGet (l : List (Flow × BitVec 6)) (f : Flow) : BitVec 6 := ((l.find? fun e => e.1 == f).map Prod.snd).getD 0

/-- The entry of a flow set. -/
def flowSet (l : List (Flow × BitVec 6)) (f : Flow) (v : BitVec 6) : List (Flow × BitVec 6) :=
  (l.filter fun e => e.1 != f) ++ [(f, v)]

/-- A cell numbered in its flow and queued at its source station (R320). -/
def Station.queue (t : Station) (w : Bool) (strand : BitVec 3) (x : RCell) : Station :=
  let f := x.flow w strand
  let n := flowGet t.sent f
  { t with egress := t.egress ++ [(w, strand, { x with seq := n })], sent := flowSet t.sent f (n + 1) }

/-- Cells queued at the stations of their source dies, a multicast one split between the rings (R314). -/
def State.queueCells (s : State) (l : List (Nat × RCell)) : State :=
  l.foldl (fun s e =>
    [false, true].foldl (fun s w =>
      let m := ringPart e.2.sdie.toNat w e.2.dstr
      if m = 0 then s
      else s.onDie e.2.sdie.toNat fun d => { d with
        station := d.station.queue w (BitVec.ofNat 3 e.1) { e.2 with dstr := m, dstr0 := m } }) s) s

/-- The flows of cells as they are queued. -/
def flowsOf (l : List (Nat × RCell)) : List Flow :=
  l.flatMap fun e => [false, true].filterMap fun w =>
    let m := ringPart e.2.sdie.toNat w e.2.dstr
    if m = 0 then none else some ({ e.2 with dstr0 := m }.flow w (BitVec.ofNat 3 e.1))

/-- Cells of a flow that its source station keeps: queued, or not confirmed (R319). -/
def Station.kept (t : Station) (f : Flow) : Nat :=
  (t.egress.filter fun e => RCell.flow e.2.2 e.1 e.2.1 == f).length +
  (t.unconf.filter fun e => RCell.flow e.2 e.1.1 e.1.2.1 == f).length

/-- Whether no flow would hold more than 32 unconfirmed cells with these among them (R319). -/
def State.ringRoom (s : State) (l : List (Nat × RCell)) : Bool :=
  let fs := flowsOf l
  fs.all fun f => decide ((s.die f.sdie.toNat).station.kept f + (fs.filter fun g => g == f).length ≤ 32)

/-- A cell of a transaction: one it sends, or an answer to it (R316). -/
def Trip.owns (x : Trip) (c : RCell) : Bool :=
  c.tid == BitVec.ofNat 16 x.tid &&
  ((c.sdie.toNat == x.die && c.sunit.toNat == x.unit && c.kind != 1 && c.kind != 3 && c.kind != 5 && c.kind != 8) ||
   (c.dstr0.getLsbD x.die && c.dunit.toNat == x.unit && (c.kind == 1 || c.kind == 5 || c.kind == 8)))

/-- Cells of a transaction that have not been delivered. -/
def State.under (s : State) (x : Trip) : Bool :=
  (s.ring.slots.any fun e => x.owns e.2) || s.dies.any fun d => d.station.egress.any fun e => x.owns e.2.2

/-- The delivered cells of a transaction leave their ingress queues. -/
def State.absorb (s : State) (x : Trip) : State :=
  { s with dies := s.dies.map fun d => { d with
      station := { d.station with ingress := d.station.ingress.filter fun e => !x.owns e.2.2 } } }

/-- Cells of an access that have not been delivered keep it from performing. -/
def State.inRing (s : State) (c : Core) (id : Nat) : Bool := s.under (c.trip id)

/-- The delivered cells of an access leave their ingress queues when it performs. -/
def State.consumeCells (s : State) (c : Core) (id : Nat) : State := s.absorb (c.trip id)

/-- The cells of a remote access of a core queued at the station of its die. -/
def State.sendCells (s : State) (c : Core) (r : Req) : State := s.queueCells (s.cellsOf c r)

/-- The requests of a core numbered from `n` on. -/
def Arch.newReqs (c : Arch) (n : Nat) : List Req := c.eng.reqs.filter fun r => decide (n ≤ r.id) && r.fault.isNone

/-- Whether a unit of a core has to wait with its requests from number `n` on: one of its flows would hold more than 32
unconfirmed cells (R319). -/
def State.ringFull (s : State) (n : Nat) : Bool := !s.ringRoom ((s.me.newReqs n).flatMap fun r => s.cellsOf s.me r)

/-- The requests of a core numbered from `n` on enter the ring where they cross dies (R316). -/
def State.sendNew (s : State) (n : Nat) : State := (s.me.newReqs n).foldl (fun s r => s.sendCells s.me r) s

/-! ### Slots (R313, R318) -/

/-- The slot of a strand that passes station `d` in tile cycle `n` (R313). -/
def passing (w : Bool) (d n : Nat) : BitVec 6 := BitVec.ofNat 6 (if w then n + 8 * d else n + 512 - 8 * d)

/-- The slot of a strand that passes station `d` now. -/
def State.slotAt (s : State) (w : Bool) (d : Nat) : BitVec 6 := passing w d s.wall

/-- The owner of an unreserved slot in the revolution of cycle `n`; none before its first (R318; DEDUCED log 60). -/
def slotOwner (k n : Nat) : Option Nat := if n < k then none else some ((k + (n - k) / 64) % 8)

/-- The cycle in which slot `k` passes its owner in revolution `r` (R313, R318). -/
def ownerPass (w : Bool) (k r : Nat) : Nat :=
  let o := (k + r) % 8
  k + 64 * r + 8 * (if w then (8 - o) % 8 else o)

/-- The last cycle, up to `n`, in which slot `k` passed its owner. -/
def lastPass (w : Bool) (k n : Nat) : Option Nat :=
  if n < k then none
  else
    let r := (n - k) / 64
    if ownerPass w k r ≤ n then some (ownerPass w k r)
    else if r = 0 then none
    else some (ownerPass w k (r - 1))

/-- Whether a station may use an unreserved slot that passes it in cycle `n`: it owns it, or its owner left it empty, and it has not
yet come back to the owner (R318). -/
def Ring.mayUse (r : Ring) (w : Bool) (strand : BitVec 3) (d n : Nat) : Bool :=
  let k := passing w d n
  slotOwner k.toNat n == some d ||
  match lastPass w k.toNat n with
  | some t => decide (t < n) && decide (n < t + 64) && !r.taken.contains (w, strand, k)
  | none => false

/-- The cell in a slot. -/
def Ring.cell (r : Ring) (w : Bool) (strand : BitVec 3) (k : BitVec 6) : Option RCell :=
  (r.slots.find? fun e => e.1 == (w, strand, k)).map Prod.snd

/-- A slot filled or emptied; an emptied one is empty from the next hop on (R319). -/
def Ring.setCell (r : Ring) (w : Bool) (strand : BitVec 3) (k : BitVec 6) (c : Option RCell) : Ring :=
  { r with
    slots := (r.slots.filter fun e => e.1 != (w, strand, k)) ++
      (match c with | none => [] | some x => [((w, strand, k), x)])
    freed := if c.isNone && (r.cell w strand k).isSome then r.freed ++ [(w, strand, k)] else r.freed }

/-! ### Reservation (R317, R343) -/

/-- The index of a reservation mask: station, ring, strand. -/
def rsvIdx (d : Nat) (w : Bool) (strand : BitVec 3) : Nat := 16 * d + 8 * w.toNat + strand.toNat

/-- Whether another station holds a slot of a mask on the same strand. -/
def Ring.clash (r : Ring) (idx : Nat) (v : W64) : Bool :=
  (List.range 8).any fun d =>
    let j := 16 * d + idx % 16
    j != idx && (r.rsvm[j]?.getD 0) &&& v != 0

/-- A write of a reservation mask: rejected where a slot would go to two stations (R317). -/
def State.writeRsvm (s : State) (idx : Nat) (v : W64) : State :=
  if s.ring.clash idx v then { s with ring := { s.ring with errs := s.ring.errs + 1 } }
  else { s with ring := { s.ring with rsvm := s.ring.rsvm.setIfInBounds idx v } }

/-- RSVM_WRITE (R317). -/
def execRsvmWrite (idx : BitVec 7) (value : W64) (s : State) : Host.Outcome State Fault Refusal :=
  .next (s.writeRsvm idx.toNat value)

/-- The index of a mask: its station, ring and strand. -/
def rsvAt (i : Nat) : Nat × Bool × BitVec 3 := (i / 16, i / 8 % 2 == 1, BitVec.ofNat 3 i)

/-- The masks in effect in cycle `n`, in which each takes effect at the slot that passes its station (R317). -/
def Ring.masks (r : Ring) (n : Nat) : Vector W64 128 :=
  Vector.ofFn fun i =>
    let x := rsvAt i.val
    let b : W64 := 1 <<< (passing x.2.1 x.1 n).toNat
    (r.live[i] &&& ~~~b) ||| (r.rsvm[i] &&& b)

/-- The slots that their owners do not leave empty at the end of cycle `n` (R318). -/
def Ring.leftFull (r : Ring) (n : Nat) : List (Bool × BitVec 3 × BitVec 6) :=
  (List.range 128).foldl (fun l i =>
    let x := rsvAt i
    let k := passing x.2.1 x.1 n
    let key := (x.2.1, x.2.2, k)
    if slotOwner k.toNat n != some x.1 then l
    else
      let l := l.filter fun e => e != key
      if (r.cell x.2.1 x.2.2 k).isSome || r.freed.contains key then l ++ [key] else l) r.taken

/-- The ring at the end of tile cycle `n`: its slots move on (R313, R317 to R319). -/
def Ring.tick (r : Ring) (n : Nat) : Ring :=
  if r.live = r.rsvm ∧ r.livef = r.rsvf ∧ r.slots = [] ∧ r.freed = [] ∧ r.taken = [] then r
  else { r with live := r.masks (n + 1), livef := r.rsvf, freed := [], taken := r.leftFull n }

/-! ### Insertion, delivery, return (R318 to R320, R323) -/

/-- The first queued cell of a ring and strand that a predicate accepts taken out. -/
def takeCell (p : RCell → Bool) (w : Bool) (strand : BitVec 3) :
    List (Bool × BitVec 3 × RCell) → Option (RCell × List (Bool × BitVec 3 × RCell))
  | [] => none
  | e :: r =>
    if e.1 == w && e.2.1 == strand && p e.2.2 then some (e.2.2, r)
    else (takeCell p w strand r).map fun x => (x.1, e :: x.2)

/-- CELL_INSERT: the station fills the empty slot that passes it: one reserved for it with a cell of a unit of its mask, an
unreserved one as its owner, or as the owner leaves it (R317, R318). -/
def execCellInsert (w : Bool) (strand station : BitVec 3) (s : State) : Host.Outcome State Fault Refusal :=
  let d := station.toNat
  let k := s.slotAt w d
  let mask := fun e => (s.ring.live[rsvIdx e w strand]?.getD 0).getLsbD k.toNat
  let mine := mask d
  let other := (List.range 8).any fun e => e != d && mask e
  let fit := fun (c : RCell) => !mine || (s.ring.livef[d]?.getD 0).getLsbD c.sunit.toNat
  .next
    (if (s.ring.cell w strand k).isSome || s.ring.freed.contains (w, strand, k) || other ||
        !(mine || s.ring.mayUse w strand d s.wall) then s
     else
       match takeCell fit w strand (s.die d).station.egress with
       | none => s
       | some x =>
         let c := { x.1 with born := s.wall }
         { s with ring := s.ring.setCell w strand k (some c) }.onDie d fun q => { q with
           station := { q.station with egress := x.2, unconf := q.station.unconf ++ [((w, strand, k), c)] } })

/-- Whether a traverse still waits for the cells of number `tid` from die `d`. -/
def Trav.awaits (t : Trav) (d tid : Nat) : Bool :=
  (t.arriving.any fun m => m.via == some (d, tid)) || t.out.any fun m => m.via == some (d, tid)

/-- The transaction of what has come in over a port group, from its bridge (R316). -/
def InItem.trip (m : InItem) : Trip := { die := (bridgeOf m.grp).1, unit := (bridgeOf m.grp).2, tid := m.tid, part := 0 }

/-- The transaction of a collective, at the reduction unit of the die that combines it (R316; DEDUCED log 61). -/
def CRun.trip (r : CRun) : Trip := { die := r.die, unit := 35, tid := r.tid, part := 0 }

/-- All traverses, of partitions and of contexts that are switched out. -/
def State.travs (s : State) : List Trav := (s.parts.map fun e => e.2.trav) ++ s.ctxs.filterMap fun c => c.trav

/-- Whether the unit to which a cell comes keeps it until its access performs; a cell that nothing waits for, such as a write's
acknowledgement, it takes at once. -/
def State.wanted (s : State) (c : RCell) : Bool :=
  (s.cores.any fun x =>
    (x.eng.reqs.any fun r => r.fault.isNone && (x.trip r.id).owns c) ||
    x.eng.copies.any fun k => k.way != .home && (x.trip k.id).owns c) ||
  (s.cruns.any fun r => r.trip.owns c) ||
  (s.inbound.any fun m => m.trip.owns c) ||
  (s.dies.zipIdx.any fun d => d.1.msq.xfers.any fun y => y.way != .home &&
    Trip.owns { die := d.2, unit := 32, tid := y.id, part := 0 } c) ||
  (c.sunit.toNat == 38 && s.travs.any fun t => t.awaits c.sdie.toNat c.tid.toNat)

/-- The ingress queues of a die without what its units have taken. -/
def State.tidy (s : State) (d : Nat) : List (Bool × BitVec 3 × RCell) :=
  (s.die d).station.ingress.filter fun e => s.wanted e.2.2

/-- Entries of the ingress queue of a unit on a strand. -/
def depth (l : List (Bool × BitVec 3 × RCell)) (w : Bool) (strand : BitVec 3) (u : BitVec 6) : Nat :=
  (l.filter fun e => e.1 == w && e.2.1 == strand && e.2.2.dunit == u).length

/-- A cell with a unit or a kind that R316 reserves. -/
def RCell.reserved (c : RCell) : Bool :=
  decide (42 ≤ c.sunit.toNat) || decide (42 ≤ c.dunit.toNat) || decide (10 ≤ c.kind.toNat)

/-- A cell with destination `d` taken off (R314). -/
def RCell.without (c : RCell) (d : Nat) : Option RCell :=
  let left := c.dstr &&& ~~~((1 : BitVec 8) <<< d)
  if left = 0 then none else some { c with dstr := left }

/-! ### The room of a reduction unit (R323) -/

/-- The open round of an element, of any size. -/
def Die.roundAt (d : Die) (pa : PAddr) : Option Round := d.rounds.find? fun r => r.pa == pa

/-- Contributions held at a station. -/
def Die.held (d : Die) : Nat := (d.rounds.map fun r => r.got.length).foldl (fun a b => a + b) 0

/-- The element to which a contribution's cell goes. -/
def State.elementOf (s : State) (c : RCell) : Option PAddr :=
  (s.cores.find? fun x => x.die == c.sdie.toNat && x.unit == c.sunit.toNat).bind fun x =>
    (x.eng.reqs.find? fun r => BitVec.ofNat 16 r.id == c.tid && !r.kind.pieces.isEmpty).map fun r => headPa r.kind.pieces

/-- The elements of the contributions that a reduction unit has accepted and not yet entered in a round. -/
def State.accepted (s : State) (d : Nat) : List PAddr :=
  (s.tidy d).filterMap fun e => if e.2.2.kind = 6 then s.elementOf e.2.2 else none

/-- Whether a station accepts a contribution to an element: always where it has an open round, or is to get one; else while
neither limit is reached (R323). -/
def State.mayOpen (s : State) (d : Nat) (pa : PAddr) : Bool :=
  let y := s.die d
  let l := s.accepted d
  (y.roundAt pa).isSome || l.contains pa ||
  (decide (y.rounds.length + (l.dedup.filter fun q => (y.roundAt q).isNone).length < 1024) &&
   decide (y.held + l.length < 4096))

/-- Whether a contribution's cell is refused because it would open a round at a full station (R320, R323). -/
def State.roundsFull (s : State) (d : Nat) (c : RCell) : Bool :=
  c.kind == 6 && (match s.elementOf c with | some pa => !s.mayOpen d pa | none => false)

/-- CELL_DELIVERY: a passing cell is taken by the ingress queue of its unit or refused; refused, it stays in its slot
(R319, R320, R323). A cell with a reserved value is discarded and counted (R316). `bad`: it has an uncorrectable error. -/
def execCellDelivery (w : Bool) (strand station : BitVec 3) (bad : Bool) (s : State) :
    Host.Outcome State Fault Refusal :=
  let d := station.toNat
  let k := s.slotAt w d
  let l := s.tidy d
  .next
    (match s.ring.cell w strand k with
     | none => s
     | some c =>
       let f := c.flow w strand
       if c.dstr.getLsbD d && !bad && c.reserved then
         { s with ring := { s.ring.setCell w strand k (c.without d) with errs := s.ring.errs + 1 } }
       else if !c.dstr.getLsbD d || bad || (if c.again then 32 else 28) ≤ depth l w strand c.dunit ||
           flowGet (s.die d).station.expect f != c.seq || s.roundsFull d c then s
       else
         { s with ring := s.ring.setCell w strand k (c.without d) }.onDie d fun q => { q with
           station := { q.station with
             ingress := if s.wanted c then l ++ [(w, strand, c)] else l
             expect := flowSet q.station.expect f (c.seq + 1) } })

/-- Whether a slot holds a cell that its source keeps. -/
def sameCell (w : Bool) (strand : BitVec 3) (x : Option RCell) (c : RCell) : Bool :=
  match x with
  | some y => y.flow w strand == c.flow w strand && y.seq == c.seq
  | none => false

/-- The cells of a slot that its source no longer keeps as the slot passes in cycle `n`: those sent before that are not in it are
confirmed (R319). -/
def Station.confirm (t : Station) (w : Bool) (strand : BitVec 3) (k : BitVec 6) (x : Option RCell) (n : Nat) : Station :=
  { t with unconf := t.unconf.filter fun e =>
      !(e.1 == (w, strand, k)) || decide (n ≤ e.2.born) || sameCell w strand x e.2 }

/-- Whether a queued cell comes before a cell of its flow that is sent again: the numbers of a flow are at most 32 apart (R319,
R320). -/
def RCell.before (x : RCell) (w : Bool) (strand : BitVec 3) (e : Bool × BitVec 3 × RCell) : Bool :=
  e.2.2.flow e.1 e.2.1 == x.flow w strand && decide (0 < (x.seq - e.2.2.seq).toNat) && decide ((x.seq - e.2.2.seq).toNat < 32)

/-- A cell to be sent again queued before all others, but behind the earlier cells of its flow (R320). -/
def requeue (w : Bool) (strand : BitVec 3) (x : RCell) :
    List (Bool × BitVec 3 × RCell) → List (Bool × BitVec 3 × RCell)
  | [] => [(w, strand, x)]
  | e :: r => if (e :: r).any (x.before w strand) then e :: requeue w strand x r else (w, strand, x) :: e :: r

/-- CELL_RETURN: a slot passes the source of cells it took. A cell that has circled is given its second circulation; or, after that,
is removed and sent again with its number and remaining destinations, the oldest of its flow first; a cell whose slot comes back without it is
confirmed (R319, R320). -/
def execCellReturn (w : Bool) (strand station : BitVec 3) (s : State) : Host.Outcome State Fault Refusal :=
  let d := station.toNat
  let k := s.slotAt w d
  let x := s.ring.cell w strand k
  let s := s.onDie d fun q => { q with station := q.station.confirm w strand k x s.wall }
  .next
    (match x with
     | none => s
     | some c =>
       if c.sdie.toNat ≠ d ∨ s.wall ≤ c.born then s
       else if !c.again then { s with ring := s.ring.setCell w strand k (some { c with again := true, born := s.wall }) }
       else
         { s with ring := s.ring.setCell w strand k none }.onDie d fun q => { q with
           station := { q.station with
             egress := requeue w strand { c with again := false } q.station.egress
             unconf := q.station.unconf.filter fun e => !(e.1 == (w, strand, k) && sameCell w strand x e.2) } })

end Sys2Proof.Machine
end

