-- ==== Sys2Proof/Machine/Msq.lean ====
section
/-! DEFINITION. The memory sequencer: its words, its transfers and the conversions of layouts (R47, R48, R218 to R220,
R228, R251 to R253). A word acts on the program slot whose turn it is. -/

namespace Sys2Proof.Machine

/-! ### The slot whose turn it is -/

/-- Program slot `k` of a sequencer. -/
def Msq.slot (m : Msq) (k : Nat) : Slot := m.slots[k]?.getD State.freeSlot

/-- A program slot changed. -/
def Msq.onSlot (m : Msq) (k : Nat) (f : Slot → Slot) : Msq := { m with slots := m.slots.setIfInBounds k (f (m.slot k)) }

/-- A sequencer changed. -/
def State.onMsq (s : State) (d : Nat) (f : Msq → Msq) : State := s.onDie d fun x => { x with msq := f x.msq }

/-- The program slot whose word executes. -/
def State.slotNow (s : State) : Slot := (s.die s.turnAt.1).msq.slot s.turnAt.2

/-- That slot changed. -/
def State.onSlot (s : State) (f : Slot → Slot) : State := s.onMsq s.turnAt.1 fun m => m.onSlot s.turnAt.2 f

/-- The tile a program belongs to. -/
def State.seqTile (s : State) : Core := s.core s.slotNow.tile

/-- The next word follows. -/
def State.seqNext (s : State) : State := s.onSlot fun x => { x with pc := x.pc + 1 }

/-- The word raises a cause and has no effect. -/
def State.seqFault (s : State) (k : Cause) : State :=
  s.onCore s.slotNow.tile fun c => c.async (msqStop k s.slotNow.pc s.slotNow.num)

/-- Tile `t` of the slot's die, where it belongs to the program's partition (R219). -/
def State.seqPeer (s : State) (t : Nat) : Option Nat :=
  let n := 32 * s.turnAt.1 + t
  if s.inPart s.seqTile n then some n else none

/-! ### Re-block descriptors (R253) -/

def rbRows (v : BitVec 54) : Nat := (v.extractLsb' 38 16).toNat
def rbK (v : BitVec 54) : Nat := (v.extractLsb' 22 16).toNat
def rbN (v : BitVec 54) : Nat := (v.extractLsb' 18 4).toNat
def rbFmt (v : BitVec 54) : Nat := (v.extractLsb' 0 5).toNat

/-- The formats a re-block reads: FP32, FP16, BF16, E5M2, E4M3, INT8 (R126, R253). -/
def rbFmtOk (f : Nat) : Bool := decide (f ≤ 4) || f == 9

/-- A descriptor with a length that matches it (R253). -/
def rbOk (v : BitVec 54) (len : Nat) : Bool :=
  decide (0 < rbRows v) && decide (0 < rbK v) && decide (2 ≤ rbN v) && decide (rbN v ≤ 8) && rbFmtOk (rbFmt v) &&
  v.extractLsb' 5 13 == 0 && decide (len = (arrayBytes (rbFmt v) (rbRows v * rbK v) + 127) / 128)

/-- Blocks of a re-blocked output. -/
def rbBlocks (v : BitVec 54) : Nat := rbRows v * kBlocks (rbK v)

/-- Where the scale array of a re-blocked output starts (R253). -/
def rbScale (v : BitVec 54) : Nat := up128 (3 * rbN v * rbBlocks v)

/-- Bytes from BOFF·128 on that a transfer of `len` bursts writes or reads, to its last byte. -/
def seqSpan (layout : BitVec 2) (v : BitVec 54) (len : Nat) : Nat :=
  if layout = 2 then rbScale v + rbBlocks v else 128 * len

/-- The value of element `i` of an input in format `f`. -/
def rbElem (rd : Nat → Byte) (f i : Nat) : FVal :=
  if f = 9 then
    let x := sgn 8 (elemAt rd 0 8 i)
    .fin (decide (x < 0)) x.natAbs 0
  else (fpOf f).value (elemAt rd 0 (fmtBits f) i)

/-- Block `j` of row `r` by R133. -/
def rbBlock (rd : Nat → Byte) (v : BitVec 54) (r j : Nat) : Nat × List Int × Fl :=
  blockRule (rbN v) ((List.range (min 24 (rbK v - 24 * j))).map fun i => rbElem rd (rbFmt v) (r * rbK v + 24 * j + i))

/-- The bytes of the mantissas of a block (R132). -/
def rbBytes (n : Nat) (ms : List Int) : List Byte := leBytes (3 * n) (packW n (ms.map fun x => code n x))

/-- Blocks of all rows in order. -/
def rbAll (rd : Nat → Byte) (v : BitVec 54) : List (Nat × List Int × Fl) :=
  (List.range (rbRows v)).flatMap fun r => (List.range (kBlocks (rbK v))).map fun j => rbBlock rd v r j

/-! ### Conversions (R252) -/

/-- The source offset of byte `o` of a transposed transfer: groups of `n` rows of `n` elements of `128 / n` bytes. -/
def transposed (n o : Nat) : Nat :=
  let e := 128 / n
  let g := o / (128 * n)
  let x := o % (128 * n)
  128 * n * g + 128 * (x % 128 / e) + e * (x / 128) + x % e

/-- The bytes a transfer writes from BOFF·128 on, as (offset, byte), and its flags. -/
def converted (layout : BitVec 2) (v : BitVec 54) (src : List Byte) : List (Nat × Byte) × Fl :=
  let rd := fun i => src.getD i 0
  if layout = 0 then (place 0 src, 0)
  else if layout = 1 then (place 0 ((List.range src.length).map fun o => rd (transposed 32 o)), 0)
  else if layout = 3 then (place 0 ((List.range src.length).map fun o => rd (transposed 64 o)), 0)
  else
    let bs := rbAll rd v
    (place 0 (bs.flatMap fun b => rbBytes (rbN v) b.2.1) ++
      place (rbScale v) (bs.map fun b => BitVec.ofNat 8 b.1),
      bs.foldl (fun f b => f ||| b.2.2) 0)

/-! ### Transfers (R220, R251) -/

/-- The window and the offset an address register names, with bits [6:0] cleared (R47, R220). -/
def maWin (v : BitVec 54) : BitVec 3 := v.extractLsb' 51 3
def maOff (v : BitVec 54) : Nat := (v.extractLsb' 0 51).toNat / 128 * 128

/-- A transfer begun by the slot's word, which is then passed. -/
def State.seqBegin (s : State) (x : Xfer) : State :=
  (s.onMsq s.turnAt.1 fun m => { m with xfers := m.xfers ++ [{ x with id := m.nextId }], nextId := m.nextId + 1 }).seqNext

/-- The space a code of `xrd` and `xwr` names. -/
def seqSpace (c : BitVec 2) : BSpace := if c = 0 then .a else if c = 1 then .w else .c

/-- Whether a window admits a transfer of `len` bursts; an empty one is translated at its first byte (R202, R214). -/
def seqWindow (w : Window) (off len : Nat) : Bool := (windowVa w off (128 * len)).isSome

/-- Tiles of a mask, as tiles of a die. -/
def maskTiles (m : BitVec 32) : List Nat := (List.range 32).filter fun t => m.getLsbD t

/-- `xrd` (R220, R251 to R253). Where several causes hold, ILLOP comes before PERM, and PERM before WINDOW (DEDUCED log 17). -/
def execXrd (areg : BitVec 4) (space layout : BitVec 2) (tag : BitVec 6) (len : BitVec 16) (boff : BitVec 15)
    (sel : BitVec 3) (s : State) : Host.Outcome State Fault Refusal :=
  let p := s.slotNow
  let ma := p.ma[areg.toNat]
  let v := p.ms[15]
  let n := len.toNat
  let tiles := maskTiles (p.mm[sel.toNat])
  .next
    (if layout = 1 ∧ n % 32 ≠ 0 ∨ layout = 3 ∧ n % 64 ≠ 0 ∨ layout = 2 ∧ !rbOk v n then s.seqFault .illop
     else if space = 2 ∨ tiles.any (fun t => (s.seqPeer t).isNone) ∨
         (seqSpace space).size < 128 * boff.toNat + seqSpan layout v n then s.seqFault .perm
     else if !seqWindow (s.seqTile.win (maWin ma)) (maOff ma) n then s.seqFault .window
     else
       s.seqBegin
         { id := 0, prog := p.num, slot := s.turnAt.2, write := false, tag := tag, cores := tiles.map fun t => 32 * s.turnAt.1 + t
           space := space, boff := boff.toNat, len := n, layout := layout, desc := v, win := maWin ma, off := maOff ma
           owner := p.tile, key := p.key, first := p.first, word := p.pc, done := 0, stale := false
           way := .home, got := [], out := none, fl := 0 })

/-- `xwr` (R220, R251). -/
def execXwr (areg : BitVec 4) (space : BitVec 2) (tag : BitVec 6) (len : BitVec 16) (boff : BitVec 15) (sel : BitVec 5)
    (s : State) : Host.Outcome State Fault Refusal :=
  let p := s.slotNow
  let ma := p.ma[areg.toNat]
  let n := len.toNat
  .next
    (match s.seqPeer sel.toNat with
     | none => s.seqFault .perm
     | some t =>
       if space = 1 ∨ (seqSpace space).size < 128 * boff.toNat + 128 * n then s.seqFault .perm
       else if !seqWindow (s.seqTile.win (maWin ma)) (maOff ma) n then s.seqFault .window
       else
         s.seqBegin
           { id := 0, prog := p.num, slot := s.turnAt.2, write := true, tag := tag, cores := [t], space := space, boff := boff.toNat, len := n
             layout := 0, desc := 0, win := maWin ma, off := maOff ma, owner := p.tile, key := p.key, first := p.first
             word := p.pc, done := 0, stale := false, way := .home, got := [], out := none, fl := 0 })

/-- `xset` (R47, R220). -/
def execXset (kind : BitVec 2) (idx : BitVec 4) (value : BitVec 54) (s : State) : Host.Outcome State Fault Refusal :=
  .next ((s.onSlot fun x =>
    if kind = 0 then { x with ma := x.ma.set idx.toNat value }
    else if kind = 1 then { x with ms := x.ms.set idx.toNat value }
    else { x with mm := x.mm.setIfInBounds idx.toNat (value.setWidth 32) }).seqNext)

/-- An address register advanced by a stride: the offset moves, the window index stays (R47, R220; DEDUCED log 17). -/
def maAdd (a d : BitVec 54) : BitVec 54 := a.extractLsb' 51 3 ++ (a.extractLsb' 0 51 + d.setWidth 51)

/-- `xlp` (R48, R220). -/
def execXlp (count : BitVec 16) (back : BitVec 12) (areg sreg : BitVec 4) (level : BitVec 2) (s : State) :
    Host.Outcome State Fault Refusal :=
  let p := s.slotNow
  .next
    (if p.pc < p.first + back.toNat then s.seqFault .illop
     else
       s.onSlot fun x =>
         let c := x.cnt[level.toNat] + 1
         let again := decide (c.toNat < count.toNat)
         { x with
           ma := x.ma.set areg.toNat (maAdd (x.ma[areg.toNat]) (x.ms[sreg.toNat]))
           cnt := x.cnt.set level.toNat (if again then c else 0)
           pc := if again then x.pc - back.toNat else x.pc + 1 })

/-- `xwt`: while the count is zero the program waits (R220, R228). -/
def execXwt (tile : BitVec 5) (tag : BitVec 6) (s : State) : Host.Outcome State Fault Refusal :=
  .next
    (match s.seqPeer tile.toNat with
     | none => s.seqFault .perm
     | some n =>
       let c := (s.die s.turnAt.1).msq.count n tag
       if c = 0 then s else (s.onMsq s.turnAt.1 fun m => m.setCount n tag (c - 1)).seqNext)

/-- A completion tag of a tile set away from its bundles (R28). -/
def Core.setTag (c : Core) (t : BitVec 6) : Core := c.onSpec fun p => { p with tagmap := p.tagmap ||| tagMask t }

/-- Flags kept for the bundle that first observes a tag (R144). -/
def Core.lazy (c : Core) (t : BitVec 6) (fl : Fl) : Core :=
  if fl = 0 then c else c.onEng fun e => { e with lazyFl := e.lazyFl ++ [(t, fl)] }

/-- `xsg`: waits for the program's transfers, then sets the tag (R220). -/
def execXsg (tile : BitVec 5) (tag : BitVec 6) (s : State) : Host.Outcome State Fault Refusal :=
  .next
    (match s.seqPeer tile.toNat with
     | none => s.seqFault .perm
     | some n =>
       if (s.die s.turnAt.1).msq.xfers.any fun x => x.prog == s.slotNow.num then s
       else (s.onCore n fun c => c.setTag tag).seqNext)

/-- The request that has waited longest starts in slot `k` (R218). -/
def State.seqStart (s : State) (d k : Nat) : State :=
  match (s.die d).msq.wait with
  | [] => s
  | w :: r => s.onMsq d fun m => { m.begin k w.1 (s.core w.1).ctx w.2.1 w.2.2 with wait := r }

/-- `xend`: the slot is free for the next request (R218, R220). -/
def execXend (s : State) : Host.Outcome State Fault Refusal :=
  .next ((s.onSlot fun x => { x with busy := false }).seqStart s.turnAt.1 s.turnAt.2)

/-! ### Moving bytes -/

/-- What one burst of a transfer finds at its place in memory, with its virtual address (R246, R251). -/
def State.burstAt (s : State) (x : Xfer) (k : Nat) : XRes × Nat :=
  let c := s.core x.owner
  match windowVa (c.win x.win) (x.off + 128 * k) (if x.len = 0 then 0 else 128) with
  | none => (.window, 0)
  | some va => (s.xlatSeq c va (!x.write) x.write, va)

/-- The addresses of `n` bursts from `k` on; or what keeps one of them, and its virtual address. -/
def State.bursts (s : State) (x : Xfer) : Nat → Nat → Except (XRes × Nat) (List PAddr)
  | _, 0 => .ok []
  | k, n + 1 =>
    match s.burstAt x k with
    | (.ok pa, _) => (s.bursts x (k + 1) n).map fun r => pa :: r
    | r => .error r

/-- The bursts still to move, at least the first byte of an empty transfer. -/
def State.restOf (s : State) (x : Xfer) (n : Nat) : Except (XRes × Nat) (List PAddr) :=
  if x.len = 0 then (s.bursts x 0 1).map fun _ => [] else s.bursts x x.done n

/-- The key slot a transfer uses. -/
def State.keyOf (s : State) (x : Xfer) : Nat := ((s.core x.owner).win x.win).key.toNat

/-- The bytes of bursts at physical addresses. -/
def State.burstBytes (s : State) (x : Xfer) (ps : List PAddr) : List Byte :=
  s.readPieces (s.core x.owner).ctx.toNat (s.keyOf x) (ps.map fun pa => { pa := pa, n := 128 })

/-- Whether an engine's queue of a core has room for a delivery: it has 16 entries (R26). -/
def Arch.engineRoom (c : Arch) (copy : Bool) : Bool := decide ((c.eng.inq.filter fun q => q.copy == copy).length < 16)

/-- Whether an engine's queue of a core holds a delivery. -/
def Arch.engineWaits (c : Arch) (copy : Bool) : Bool := c.eng.inq.any fun q => q.copy == copy

/-- A delivery of an engine put into its queue (R26). -/
def Core.delivered (c : Core) (copy : Bool) (sp : BSpace) (w : List (Nat × Byte)) : Core :=
  c.onEng fun e => { e with inq := e.inq ++ [{ copy := copy, space := sp, bytes := w }] }

/-- A core writes the oldest delivery that its engines have brought; one that has stopped keeps them (R26, R108). -/
def State.takeDelivery (s : State) (n : Nat) : State :=
  match (s.core n).eng.inq with
  | [] => s
  | q :: r =>
    if (s.core n).run = .stopped then s
    else s.onCore n fun c => ((c.onEng fun e => { e with inq := r }).writeBuf q.space q.bytes).wrote q.space q.bytes

/-- Bytes that go into the buffers of a transfer's tiles from BOFF·128 on (R26, R251). -/
def State.deliver (s : State) (x : Xfer) (w : List (Nat × Byte)) : State :=
  x.cores.foldl (fun s n => s.onCore n fun c =>
    c.delivered false (seqSpace x.space) (w.map fun e => (128 * x.boff + e.1, e.2))) s

/-- Whether all tiles of a transfer have room for a delivery (R26). -/
def State.roomFor (s : State) (x : Xfer) : Bool := x.cores.all fun n => (s.core n).engineRoom false

/-- The bytes of the source tile from burst `k` on. -/
def State.seqSource (s : State) (x : Xfer) (k n : Nat) : List Byte :=
  (s.core (x.cores.headD 0)).bytes (seqSpace x.space) (128 * x.boff + 128 * k) (128 * n)

/-- A transfer changed. -/
def State.onXfer (s : State) (d id : Nat) (f : Xfer → Xfer) : State :=
  s.onMsq d fun m => { m with xfers := m.xfers.map fun y => if y.id = id then f y else y }

/-- A transfer that may move: its tile has not stopped (R108). -/
def State.seqLive (s : State) (x : Xfer) : Bool := (s.core x.owner).engines

/-- The transaction of a transfer: the memory sequencer acts for its starter's partition (R315, R316). -/
def State.xferTrip (s : State) (d : Nat) (x : Xfer) : Trip :=
  { die := d, unit := 32, tid := x.id, part := (s.core x.owner).part }

/-- The cells that answer bursts: what a read delivers, on the strand of its buffer offset, or a write's acknowledgement (R314,
R316; DEDUCED log 61). -/
def State.burstBack (s : State) (d : Nat) (x : Xfer) (ps : List Piece) (bs : List Byte) : List (Nat × RCell) :=
  if x.write then (s.xferTrip d x).answer 34 3 ps [] lineStrand
  else (s.xferTrip d x).answer 34 8 ps bs fun _ j => (128 * (x.boff + x.done) + j) / 128 % 8

/-- The request cells of bursts (R316). -/
def State.burstAsk (s : State) (d : Nat) (x : Xfer) (ps : List Piece) (bs : List Byte) : List (Nat × RCell) :=
  (s.xferTrip d x).ask 34 (if x.write then 2 else 0) ps bs

/-- A burst that has been read: it goes to its tiles, or waits for the conversion. -/
def State.burstIn (s : State) (d : Nat) (x : Xfer) (bs : List Byte) (stale : Bool) : State :=
  let s := if x.layout = 0 then s.deliver x (place (128 * x.done) bs) else s
  s.onXfer d x.id fun y => { y with
    done := y.done + 1, stale := y.stale || stale, way := .home, got := if x.layout = 0 then [] else y.got ++ bs }

/-- A transfer whose next burst may move. -/
def State.movable (s : State) (x : Xfer) : Bool :=
  x.way == .home && decide (x.done < x.len) && s.seqLive x && (x.write || x.layout != 0 || s.roomFor x) &&
  (match s.restOf x 1 with
   | .ok _ => true
   | .error _ => false)

/-- How long the turn of a slot's burst is away: slots take turns after the last one (R218). -/
def Msq.turnOf (m : Msq) (x : Xfer) : Nat := (x.slot + 7 - m.last) % 8

/-- What keeps a burst of a transfer: WINDOW and XLATE stop the tile that started the program, and the transfer waits to be issued
again; a walk is asked for; a page under migration or a draining group is waited for (R106, R220, R246, R251, R255, R264). -/
def State.seqHeld (s : State) (d : Nat) (x : Xfer) (r : XRes) (va : Nat) : State :=
  match r with
  | .window => s.onCore x.owner fun c => c.async (msqStop .window x.word x.prog)
  | .xlate => s.onCore x.owner fun c => c.async (msqStop .xlate x.word x.prog)
  | .miss => s.askWalk d (s.core x.owner).ctx va
  | _ => s

/-- A burst performs at its place in memory, over the port group it lies behind: written there, or read and on its way to its tiles
(R251, R314, R339). -/
def State.burstHere (s : State) (d : Nat) (x : Xfer) (pcs : List Piece) : State :=
  let bs := if x.write then s.seqSource x x.done 1 else s.readPieces (s.core x.owner).ctx.toNat (s.keyOf x) pcs
  let back := s.burstBack d x pcs bs
  if s.chansHold pcs then s.askReclaim pcs
  else if !s.ringRoom back || (back.isEmpty && !x.write && x.layout == 0 && !s.roomFor x) then s
  else
    let s := (s.absorb (s.xferTrip d x)).onMsq d fun m => { m with last := x.slot }
    (if x.write then
      ((s.writePieces (s.core x.owner).ctx.toNat (s.keyOf x) pcs bs).onXfer d x.id fun y =>
        { y with done := y.done + 1, way := .home }).queueCells back
     else if back.isEmpty then s.burstIn d x bs (s.stalePieces pcs)
     else (s.onXfer d x.id fun y => { y with way := .back pcs bs (s.stalePieces pcs) }).queueCells back).overGroups pcs
      (if x.write then bs else leBytes 8 (headPa pcs))

/-- A list cut into parts of `n`. -/
def chunks {α : Type} (n : Nat) : Nat → List α → List (List α)
  | 0, _ => []
  | k + 1, l => if l.isEmpty then [] else l.take n :: chunks n k (l.drop n)

/-- A transfer that has read all its bursts converts them, and writes what comes of them 128 bytes at a time (R251, R252). -/
def State.seqConvert (s : State) (d : Nat) (x : Xfer) : State :=
  match x.out with
  | none =>
    if x.layout = 0 ∨ x.len = 0 then s
    else
      let r := converted x.layout x.desc x.got
      s.onXfer d x.id fun y => { y with got := [], out := some (chunks 128 r.1.length r.1), fl := r.2 }
  | some [] => s
  | some (w :: r) => if s.roomFor x then (s.deliver x w).onXfer d x.id fun y => { y with out := some r } else s

/-- One burst moves, when its slot's turn has come: a word's bytes come one after another, slots in round-robin (R28, R218); to
and from another die by cells, and one that has begun ends also where its tile stops (R108, R316). -/
def State.moveBurst (s : State) (d id : Nat) : State :=
  let m := (s.die d).msq
  match m.xfers.find? fun x => x.id == id with
  | none => s
  | some x =>
    match x.way with
    | .back _ bs stale =>
      if s.under (s.xferTrip d x) || (x.layout == 0 && !s.roomFor x) then s
      else (s.absorb (s.xferTrip d x)).burstIn d x bs stale
    | .out pcs => if s.under (s.xferTrip d x) then s else s.burstHere d x pcs
    | .home =>
      if !s.seqLive x then s
      else if x.len ≤ x.done then s.seqConvert d x
      else
        match s.restOf x 1 with
        | .error (r, va) => s.seqHeld d x r va
        | .ok ps =>
          let pcs : List Piece := ps.map fun pa => { pa := pa, n := 128 }
          let ask := s.burstAsk d x pcs (if x.write then s.seqSource x x.done 1 else [])
          if m.xfers.any (fun y => s.movable y && decide (m.turnOf y < m.turnOf x)) then s
          else if ask.isEmpty then s.burstHere d x pcs
          else if s.chansHold pcs then s.askReclaim pcs
          else if s.ringRoom ask then
            ((s.onMsq d fun m => { m with last := x.slot }).onXfer d id fun y => { y with way := .out pcs }).queueCells ask
          else s

/-- The tiles of a transfer whose bytes have all performed get its tag, with its flags kept for their observers; the transfer is over
with the last of them (R144, R220, R251). -/
def State.seqFinish (s : State) (d : Nat) (x : Xfer) : State :=
  let wait := fun (n : Nat) => !x.write && (s.core n).engineWaits false
  let s1 := (x.cores.filter fun n => !wait n).foldl (fun s n => s.onCore n fun c =>
    (c.setTag x.tag).lazy x.tag (x.fl ||| flIf x.stale flSTALE)) s
  if x.cores.any wait then s1.onXfer d x.id fun y => { y with cores := y.cores.filter wait }
  else s1.onMsq d fun m => { m with xfers := m.xfers.filter fun y => y.id != x.id }

/-- MSQ_TRANSFER_COMPLETE: with every burst moved, and what its conversion writes, the tags of a transfer are set, tile by tile as all
bytes of the tile have performed; an empty transfer is translated. A page that faults raises its cause, and the transfer waits to be
issued again (R106, R214, R220, R246, R251 to R255, R264). -/
def execMsqTransferComplete (die : BitVec 3) (id : Nat) (s : State) : Host.Outcome State Fault Refusal :=
  let d := die.toNat
  .next
    (match (s.die d).msq.xfers.find? fun x => x.id == id with
     | none => s
     | some x =>
       if !s.seqLive x ∨ x.way ≠ .home then s
       else
         match s.restOf x (min 1 (x.len - x.done)) with
         | .error (r, va) => s.seqHeld d x r va
         | .ok _ =>
           if x.done < x.len ∨ (x.layout ≠ 0 ∧ 0 < x.len ∧ x.out ≠ some []) then s else s.seqFinish d x)

/-! ### Turns of the sequencer (R48, R218, R219) -/

/-- The bytes of a word of the program store. -/
def Msq.word (m : Msq) (i : Nat) : W64 := BitVec.ofNat 64 (leNat (memBytes m.prog (8 * i) 8))

/-- Whether the program of a slot may go on: its tile neither stops nor is about to (R106, R108). -/
def State.seqRuns (s : State) (p : Slot) : Bool := (s.core p.tile).engines

end Sys2Proof.Machine
end

