-- ==== Sys2Proof/Machine/Ports.lean ====
section
/-! DEFINITION. The Kraos port groups, their personalities and keys, and PTP time (R326 to R342). -/

namespace Sys2Proof.Machine

/-! ### PGCTL (R332 to R334) -/

def ctlPers (v : W64) : BitVec 2 := v.extractLsb' 4 2
def ctlRole (v : W64) : BitVec 2 := v.extractLsb' 2 2
def ctlPeer (v : W64) : Nat := (v.extractLsb' 8 5).toNat
def ctlBond (v : W64) : Bool := v.getLsbD 13
def ctlGo (v : W64) : Bool := v.getLsbD 7
def ctlForce (v : W64) : Bool := v.getLsbD 6

/-- A role R327 lists for a personality. -/
def roleOk (pers role : BitVec 2) : Bool :=
  if pers = 0 ∨ pers = 3 then role == 0 else role == 0 || role == 1

/-- An ACTIVE CXL upstream group. -/
def Group.upstream (g : Group) : Bool := g.state == .active && g.pers == 1 && g.role == 0

/-- The groups that switch with group `g`: itself and its bonded partner (R333). -/
def State.machine (s : State) (g : Nat) : List Nat :=
  let x := s.group g
  if x.bond then [g, x.peer.toNat] else [g]

/-- The groups that a GO moves: the group's pair, and that of the partner named by BOND (R333, R334). -/
def State.goTeam (s : State) (g : Nat) (v : W64) : List Nat :=
  s.machine g ++ if ctlBond v then (s.machine (ctlPeer v)).filter fun k => !(s.machine g).contains k else []

/-- Why a GO is rejected. That BOND with the group itself as PEER is among the cases is the model's choice: R334's list does not name
it (R334; DESIGN CHOICE log 65). -/
def State.goBad (s : State) (g : Nat) (v : W64) : Bool :=
  let x := s.group g
  let p := ctlPeer v
  v.extractLsb' 14 50 != 0 || v.extractLsb' 0 2 != 0 || !roleOk (ctlPers v) (ctlRole v) ||
  !(x.state == .active || x.state == .off || x.state == .failed) ||
  (x.state == .active && x.pers == ctlPers v && x.role == ctlRole v) ||
  (ctlBond v && (p / 3 != g / 3 || p == g || (s.group p).state != x.state || ctlPers v != 1)) ||
  (!ctlForce v && ((s.goTeam g v).any fun k => (s.group k).upstream) &&
    !((List.range 24).any fun k => !(s.goTeam g v).contains k && (s.group k).upstream))

/-- An error recorded in a group. -/
def Group.fail (g : Group) (n : BitVec 4) : Group := { g with err := true, errc := n }

/-- A switch of a team begun: DRAINING from ACTIVE, RETRAINING from OFF and FAILED (R333). -/
def Group.go (x : Group) (team : List Nat) (v : W64) : Group :=
  { x with tgt := v, team := team, retrain := false, state := if x.state = .active then .draining else .retraining }

/-- GO on group `g`: the group, its bonded partner and the partner named by BOND switch as one (R334). -/
def State.pgGo (s : State) (g : Nat) (v : W64) : State :=
  if s.goBad g v then s.onGroup g fun x => x.fail 3
  else (s.goTeam g v).foldl (fun t k => t.onGroup k fun x => x.go (s.goTeam g v) v) s

/-- ERR and ERRC cleared (R343). -/
def State.pgClear (s : State) (g : Nat) : State := s.onGroup g fun x => { x with err := false, errc := 0 }

/-- A write of PGCTL (R332, R343). -/
def State.pgCtl (s : State) (g : Nat) (v : W64) : State :=
  if v = 0 then s.pgClear g else if ctlGo v then s.pgGo g v else s

/-- PGCTL_GO (R334). -/
def execPgctlGo (group : BitVec 5) (value : W64) (s : State) : Host.Outcome State Fault Refusal :=
  .next (if group.toNat < 24 ∧ ctlGo value then s.pgGo group.toNat value else s)

/-- PGCTL_CLEAR (R343). -/
def execPgctlClear (group : BitVec 5) (s : State) : Host.Outcome State Fault Refusal :=
  .next (if group.toNat < 24 then s.pgClear group.toNat else s)

/-! ### Draining (R264, R333, R335, R336) -/

/-- The window and the register offset of a global access as issued. -/
def ReqKind.issued : ReqKind → BitVec 3 × Nat
  | .gload _ w o _ _ => (w, o)
  | .gstore _ w o _ => (w, o)
  | .amo _ w o .. => (w, o)
  | .red _ w o .. => (w, o)
  | _ => (0, 0)

/-- Whether pieces lie in a group's range. -/
def inGroup (g : Nat) (ps : List Piece) : Bool := ps.any fun p => groupOf p.pa == some g

/-- An accepted access to a group's range that is still open: its reply has not come, on its die or over the ring (R264, R278). -/
def Req.opens (r : Req) (g : Nat) : Bool := r.fault.isNone && inGroup g r.kind.reached

/-- The pieces of a unit that an engine has on its way. -/
def Way.reached : Way → List Piece
  | .home => []
  | .out ps => ps
  | .back ps _ _ => ps

/-- Whether a core, or a transfer of a memory sequencer, has an accepted access to a group's range that is still open (R264, R333). -/
def Core.opens (c : Core) (g : Nat) : Bool :=
  (c.eng.reqs.any fun r => r.opens g) || c.eng.copies.any fun k => inGroup g k.way.reached
def Xfer.opens (x : Xfer) (g : Nat) : Bool := inGroup g x.way.reached

/-- Whether an accepted request to a group's range is still open (R264, R333). -/
def State.opens (s : State) (g : Nat) : Bool :=
  (s.cores.any fun c => c.opens g) || (s.dies.any fun d => d.msq.xfers.any fun x => x.opens g) ||
  s.inbound.any fun m => m.grp == g && m.what matches .req _

/-- Every core changed. -/
def State.onCores (s : State) (f : Core → Core) : State := { s with me := f s.me, rest := s.rest.map f }

/-- The distinct entries listed in a table (R243). -/
def PMem.tableEntries (m : PMem) (ptr : PAddr) : List W64 :=
  ((((m.cells.filter fun e => decide (ptr ≤ e.1) && decide (e.1 < ptr + 65536)).map fun e => e.1 / 8).dedup).map fun a =>
    m.entry (8 * a)).filter pteV

/-- The leaves of the tables below a root, `k` levels deep. -/
def PMem.leaves (m : PMem) : Nat → PAddr → List W64
  | 0, _ => []
  | k + 1, ptr =>
    (m.tableEntries ptr).flatMap fun e => if pteLeaf e then [e] else m.leaves k (ptePa e)

/-- Whether a leaf of some context points into a group's range (R264, R333). -/
def State.leafInto (s : State) (g : Nat) : Bool :=
  s.ctxs.any fun c => c.state != .ended && (s.mem.leaves 5 c.root).any fun e => groupOf (ptePa e) == some g

/-- Whether a group's drain is complete (R333). -/
def State.drainDone (s : State) (g : Nat) : Bool :=
  !s.opens g && !s.leafInto g

/-- A word in the places of a far-tile entry: its bits that must be 0 (R306). -/
def farBits (w : W64) : Bool := decide (w.toNat < 2 ^ 48) && w.extractLsb' 40 3 == 0 && w.extractLsb' 8 8 == 0

/-- A far-tile table the steward accepts (R306). -/
def farOk (mask : BitVec 64) (l : List W64) : Bool :=
  let full := l.filter fun w => w.toNat % 256 != 0
  l.all farBits &&
  (full.all fun w => !inMask mask (w.toNat % 256) && w.toNat / 2 ^ 30 % 1024 != Config.accel.toNat &&
    decide (w.toNat / 2 ^ 43 < 24)) &&
  (full.map fun w => w.toNat % 256).Nodup && (full.map fun w => w.toNat / 2 ^ 16 % 2 ^ 24).Nodup

/-- A far-tile table without the entries a group carries (R336). -/
def withdrawFar (g : Nat) (l : List Far) : List Far :=
  l.map fun w => if w.toNat / 2 ^ 43 % 32 = g then 0 else w

/-- The neighbour words of a binding: accelerator number (R291). -/
def bindAcc (b : List Byte) (off : Nat) : Nat := field b off 4 / 2 ^ 16 % 1024

/-- The group that carries what a traverse sends to one side on another module (R291). -/
def Trav.carrier (t : Trav) (up : Bool) : Nat := Config.route (bindAcc t.bind (if up then 8 else 12))

/-- Whether a traverse reaches one side over group `g`. -/
def Trav.overGroup (t : Trav) (up : Bool) (g : Nat) : Bool :=
  t.bound && (if up then t.upv && t.upx else t.dnv && t.dnx) && t.carrier up == g

/-- A traverse whose neighbours reached through a group are withdrawn; what still waits for them is discarded, its messages
counted (R299, R336). -/
def Trav.withdraw (t : Trav) (g : Nat) : Trav :=
  { t with
    upGone := t.upGone || t.overGroup true g
    dnGone := t.dnGone || t.overGroup false g
    out := t.out.filter fun m => !t.overGroup m.up g
    drop := t.drop + (t.out.filter fun m => t.overGroup m.up g && !m.ret).length }

/-- More discarded messages counted in the trace (R26). -/
def Trav.dropped (t : Trav) (n : Nat) : Trav := { t with drop := t.drop + n }

/-- A far `snd` of a tile with a table of far tiles that waits for a group. -/
def farWaits (far : List Far) (g : Nat) (r : Req) : Bool :=
  match r.kind with
  | .snd dst true _ _ => far.any fun w => w.toNat % 256 == dst && w.toNat / 2 ^ 43 % 32 == g
  | _ => false

/-- The far sends of a tile that wait for a group counted, and dropped. -/
def Arch.farHeld (c : Arch) (far : List Far) (g : Nat) : Nat := (c.eng.reqs.filter (farWaits far g)).length
def Arch.farDrop (c : Arch) (far : List Far) (g : Nat) : Arch :=
  { c with eng := { c.eng with reqs := c.eng.reqs.filter fun r => !farWaits far g r } }

/-- The far-tile table of a context that does not run set, and its saved bytes with it (R306). -/
def Ctx.setFar (x : Ctx) (l : List Far) : Ctx :=
  { x with far := l, shadow := splice x.shadow 0x100 0x80 (cellsAt 0x100 ((l.flatMap fun w => leBytes 8 w.toNat).take 0x80)) }

/-- What a group carries is withdrawn: far-tile entries, traverse bindings, waiting messages, which the partition's trace
counts (R336). -/
def State.withdraw (s : State) (g : Nat) : State :=
  let s1 := s.parts.foldl (fun s e =>
    let tiles := s.tiles e.1
    let n := (tiles.map fun k => (s.core k).farHeld e.2.far g).foldl (fun a b => a + b) 0
    let s := tiles.foldl (fun s k => s.onCore k fun c => { c with toArch := c.toArch.farDrop e.2.far g }) s
    s.onPart e.1 fun p => { p with far := withdrawFar g p.far, trav := (p.trav.withdraw g).dropped n }) s
  { s1 with ctxs := s1.ctxs.map fun c =>
      if c.state = .out then
        let n := (c.images.map fun a => a.farHeld c.far g).foldl (fun a b => a + b) 0
        { c.setFar (withdrawFar g c.far) with
          images := c.images.map fun a => a.farDrop c.far g
          trav := c.trav.map fun t => (t.withdraw g).dropped n }
      else if c.state = .halted then c.setFar (withdrawFar g c.far)
      else c }

/-- QUIESCED: keys are discarded, and what the group carries is withdrawn unless the target is UALink (R333, R336,
R338). -/
def State.quiesce (s : State) (g : Nat) : State :=
  let s := s.onGroup g fun x => { x with state := .quiesced, tx := State.noKey, rx := State.noKey }
  if ctlPers (s.group g).tgt = 2 then s else s.withdraw g

/-- The groups whose switch is that of `g` (R333). -/
def State.moving (s : State) (g : Nat) : List Nat :=
  let t := (s.group g).team
  if t.isEmpty then [g] else t

/-- QUIESCED: the groups of a switch leave DRAINING together (R333, R336). -/
def execQuiesced (group : BitVec 5) (s : State) : Host.Outcome State Fault Refusal :=
  let g := group.toNat
  let m := s.moving g
  .next
    (if g < 24 ∧ m.all (fun k => (s.group k).state == .draining && s.drainDone k) then
       m.foldl (fun s k => s.quiesce k) s
     else s)

/-- Whether an open access can end with WINDOW: one that has not performed, or a load, which is read again; an atomic that has
performed has only its reply to come. -/
def Req.ends (r : Req) (g : Nat) : Bool :=
  r.opens g && (match r.kind with | .back _ _ amo _ => !amo | _ => true)

/-- An access that ends with WINDOW at a drain timeout, to be issued again (R108, R333). A load with S = 1 does so too: R333 names
each request and R222 no cause for such a load, so which of them counts here is the model's choice (DESIGN CHOICE log 65). -/
def Req.timedOut (r : Req) : Req :=
  { r with fault := some .window, kind := match r.kind with | .back _ _ _ k => k | k => k }

/-- The register offset and the window of a copy's global side (R111). -/
def Copy.glob (k : Copy) : Nat × BitVec 3 :=
  match k.src, k.dst with
  | .glob w off, _ => (off, w)
  | _, .glob w off => (off, w)
  | _, _ => (0, 0)

/-- A core whose open accesses to a group's range, and the unit of whose copy, end with WINDOW (R333). -/
def Core.drainOut (c : Core) (g : Nat) : Core :=
  let d := c.onEng fun e => { e with
    reqs := e.reqs.map fun r => if r.ends g then r.timedOut else r
    copies := e.copies.map fun k => if inGroup g k.way.reached then { k with faulted := true, way := .home } else k }
  let d := match c.eng.reqs.find? fun r => r.ends g with
    | some q =>
      let i := q.timedOut.kind.issued
      d.async (asyncStop .window i.2 i.1 (.access q.id))
    | none => d
  match c.eng.copies.find? fun k => inGroup g k.way.reached with
  | some k => d.async (asyncStop .window k.glob.1 k.glob.2 (.engine k.id))
  | none => d

/-- The transfers of a die's memory sequencer whose burst to a group's range is open: it ends with WINDOW at the tile that started
the program (R106, R219, R333). -/
def State.seqDrainOut (s : State) (d g : Nat) : State :=
  ((s.die d).msq.xfers.filter fun x => x.opens g).foldl (fun s x =>
    (s.onDie d fun y => { y with msq := { y.msq with
      xfers := y.msq.xfers.map fun z => if z.id = x.id then { z with way := .home } else z } }).onCore x.owner fun c =>
        c.async (msqStop .window x.word x.prog)) s

/-- DRAIN_TIMEOUT: open requests complete with WINDOW, ERRC becomes 1, of all groups that switch together (R333). -/
def execDrainTimeout (group : BitVec 5) (s : State) : Host.Outcome State Fault Refusal :=
  let g := group.toNat
  let m := s.moving g
  .next
    (if g < 24 ∧ (s.group g).state = .draining ∧ m.any (fun k => s.opens k) then
       m.foldl (fun s k =>
         ((List.range 8).foldl (fun s d => s.seqDrainOut d k) (s.onCores fun c => c.drainOut k)).onGroup k fun x => x.fail 1) s
     else s)

/-- What a group's range maps to in a personality and role (R263). -/
def mapOf (pers role : BitVec 2) : BitVec 2 :=
  if pers = 1 ∧ role = 1 then 1 else if pers = 2 then 2 else 0

/-- The MAC address of a port in the UET personality (R350). -/
def macOf (port : Nat) : List Byte := [0x02] ++ (Config.shake256 Config.serial 4).take 4 ++ leBytes 1 port

/-- The role a training settles at: native lanes only at their rate (R329). -/
def settled (pers role : BitVec 2) (rate : BitVec 4) : BitVec 2 := if pers = 2 ∧ rate ≠ 4 then 0 else role

/-- Group `k` in its new personality (R263, R327, R329, R330, R333). A group that leaves its bonded partner for another is no
longer bonded (DEDUCED log 44). -/
def Group.mapTo (x : Group) (k : Nat) : Group :=
  let v := x.tgt
  let lead := x.team.headD k
  let bond := ctlBond v && (k == lead || k == ctlPeer v)
  let role := settled (ctlPers v) (ctlRole v) x.rate
  { x with
    state := .mapping
    pers := ctlPers v, role := role, bond := bond
    peer := if bond then BitVec.ofNat 5 (if k = lead then ctlPeer v else lead) else 0
    rate := if ctlPers v = 0 then 0 else x.rate
    mapped := mapOf (ctlPers v) role
    macs := if ctlPers v = 3 then [macOf (2 * k), macOf (2 * k + 1)] else []
    decs := if ctlPers v = 1 ∧ role = 1 then x.decs else []
    team := [] }

/-- MAPPING: the decoder entries of the groups of a switch are rewritten on every die and MAPGEN rises (R263, R333). -/
def State.mapGroups (s : State) (gs : List Nat) : State :=
  let s := gs.foldl (fun s k => s.onGroup k fun x => x.mapTo k) s
  { s with mapgen := s.mapgen + 1 }

/-- A group as a training leaves it: its rate, and the decoders of a CXL root, up to 16 (R328, R333). -/
def Group.trained (x : Group) (link : Trained) : Group := { x with rate := link.rate, decs := link.decs.take 16 }

/-- A group whose training fails (R333). -/
def Group.failed (x : Group) : Group :=
  { x.fail 2 with state := .failed, mapped := 0, rate := 0, decs := [], team := [] }

/-- RETRAINING: training ends in MAPPING or in FAILED; a link that retrains by itself comes back, its personality kept (R333,
R338). -/
def execRetraining (group : BitVec 5) (ok : Bool) (link : Trained) (s : State) : Host.Outcome State Fault Refusal :=
  let g := group.toNat
  let gs := s.moving g
  .next
    (if g < 24 ∧ (s.group g).state = .retraining then
       (if ok then (gs.foldl (fun s k => s.onGroup k fun x => x.trained link) s).mapGroups gs
        else gs.foldl (fun s k => s.onGroup k Group.failed) s)
     else if g < 24 ∧ (s.group g).state = .active ∧ (s.group g).retrain ∧ ok then
       s.onGroup g fun x => { x with retrain := false, rate := link.rate }
     else s)

/-- The states of one tile cycle pass: MAPPING to ACTIVE or OFF, QUIESCED to RETRAINING or MAPPING (R333). -/
def State.portCycle (s : State) : State :=
  let s1 := { s with groups := s.groups.map fun x =>
    if x.state = .mapping then { x with state := if x.pers = 0 then .off else .active } else x }
  (List.range 24).foldl (fun t g =>
    if (s.group g).state = .quiesced then
      if ctlPers (s.group g).tgt = 0 then
        (if (t.group g).state = .quiesced then t.mapGroups (t.moving g) else t)
      else t.onGroup g fun x => { x with state := .retraining }
    else t) s1

/-! ### Keys (R338, R339) -/

/-- A rotation: CUR moves to OLD, the new key to CUR, under a new identifier; while OLD is held it waits (R339). -/
def LinkKey.rotate (k : LinkKey) (key : List Byte) : LinkKey :=
  if k.old.isEmpty then { k with cur := key, old := k.cur, curId := k.curId + 1 }
  else { k with pend := k.pend ++ [key] }

/-- Whether a flit or packet sent under OLD has not been acknowledged (R339). -/
def LinkKey.oldOut (k : LinkKey) : Bool := k.flits.any fun f => f.1 != k.curId

/-- OLD dropped, once all that was sent under it has been acknowledged; the oldest waiting rotation happens (R339). -/
def LinkKey.release (k : LinkKey) : LinkKey :=
  if k.oldOut then k
  else
    match k.pend with
    | key :: r => { k with old := [], pend := r }.rotate key
    | [] => { k with old := [] }

/-- The oldest flits acknowledged (R339). -/
def Group.acked (g : Group) (n : Nat) : Group := { g with tx := { g.tx with flits := g.tx.flits.drop n } }

/-- A replay: the flits not acknowledged go out again as they were first sent (R339). -/
def Group.replayed (g : Group) : Group := { g with wire := g.wire ++ g.tx.flits }

/-- A direction's key slots changed. -/
def Group.onKey (g : Group) (dir : LinkDir) (f : LinkKey → LinkKey) : Group :=
  match dir with
  | .tx => { g with tx := f g.tx }
  | .rx => { g with rx := f g.rx }

/-- KEY_ROTATION (R339). -/
def execKeyRotation (group : BitVec 5) (dir : LinkDir) (key : List Byte) (s : State) :
    Host.Outcome State Fault Refusal :=
  .next (if group.toNat < 24 then
    s.onGroup group.toNat fun g => { g.onKey dir fun k => k.rotate key with secure := true } else s)

/-- OLD_KEY_RELEASE (R339). -/
def execOldKeyRelease (group : BitVec 5) (dir : LinkDir) (s : State) : Host.Outcome State Fault Refusal :=
  .next (if group.toNat < 24 then s.onGroup group.toNat fun g => g.onKey dir LinkKey.release else s)

/-! ### PTP time (R340 to R342) -/

/-- All eight clocks changed alike (R340). -/
def State.onPtc (s : State) (f : Ptc → Ptc) : State := { s with dies := s.dies.map fun d => { d with ptc := f d.ptc } }

/-- A clock advanced by one tile cycle: 0.4 ns scaled by the rate. The resolution of the rate, whole parts per million, is the
model's: the spec gives only its limits (R340; DESIGN CHOICE log 65). -/
def Ptc.advance (p : Ptc) : Ptc :=
  let x := p.frac + (4000000 + 4 * p.rate).toNat
  let ns := p.ns.toNat + x / 10000000
  if ns < 1000000000 then { p with ns := BitVec.ofNat 32 ns, frac := x % 10000000 }
  else { p with sec := p.sec + 1, ns := BitVec.ofNat 32 (ns - 1000000000), frac := x % 10000000 }

/-- A rate kept within ±200 ppm (R340). -/
def clampRate (r : Int) : Int := max (-200) (min 200 r)

/-- A clock after a Sync of an offset: the lock indicator is set after 16 consecutive offsets under 15 ns and cleared above 30 ns;
with it set the servo sets its rate, else it holds its last one (R340, R342). -/
def Ptc.sync (p : Ptc) (offset rate : Int) : Ptc :=
  let good := if offset.natAbs < 15 then p.good + 1 else 0
  let lock := if 30 < offset.natAbs then false else if 16 ≤ good then true else p.lock
  { p with rate := if lock then clampRate rate else p.rate, good := good, lock := lock }

/-- Whether PTP runs on a port: its group carries traffic in the UET personality (R341). -/
def State.ptpPort (s : State) (port : Nat) : Bool :=
  decide (port < 48) && (s.group (port / 2)).pers == 3 && (s.group (port / 2)).carries

/-- The calibrated asymmetry of a port (R341). -/
def asymOf (c : PtpCfg) (port : Nat) : Int := ((c.asym.find? fun e => e.1 == port).map Prod.snd).getD 0

/-- PTP_SYNC: a Sync of the module's domain on its timing port, in UET and as a slave, moves the servo by its offset less the
port's asymmetry; others are not its own. The steward may select another setting (R341, R342). -/
def execPtpSync (event : PtpEvent) (rate : Int) (s : State) : Host.Outcome State Fault Refusal :=
  .next
    (if !s.servo.on then s
     else
       match event with
       | .select cfg => { s with servo := { s.servo with cfg := cfg } }
       | .sync port domain offset =>
         let c := s.servo.cfg
         if c.port = some port ∧ c.domain = domain ∧ !c.master ∧ s.ptpPort port then
           s.onPtc fun p => p.sync (offset - asymOf c port) rate
         else s)

/-- SYNC_LOSS: three intervals without a Sync clear the indicator; the servo holds its last rate (R342). -/
def execSyncLoss (s : State) : Host.Outcome State Fault Refusal :=
  .next (if s.servo.on then s.onPtc fun p => { p with good := 0, lock := false } else s)

/-- Whether a context is resident on the module. -/
def State.anyResident (s : State) : Bool := s.parts.any fun e => e.2.ctx != 0

/-- PTC_STEP: forward at any time, backward only while no context is resident (R340). -/
def execPtcStep (sec : BitVec 48) (ns : BitVec 32) (s : State) : Host.Outcome State Fault Refusal :=
  .next
    (if ns.toNat < 1000000000 ∧ (s.dies.all (fun d => !ptcReached d.ptc sec ns) ∨ !s.anyResident) then
       s.onPtc fun p => { p with sec := sec, ns := ns, frac := 0 }
     else s)

end Sys2Proof.Machine
end

