-- ==== Sys2Proof/Machine/Landing.lean ====
section
/-! DEFINITION. Results as they perform at the start of a logical cycle: registers, stores, tags, pointers, the array, the
writes of system registers; and what keeps a cycle from beginning (R19, R22, R28, R54, R144, R187 to R195). -/

namespace Sys2Proof.Machine

/-! ### Special registers (R52, R95, R343) -/

/-- ERR of a partition's traverse cleared (R303, R343). -/
def State.tstatClear (s : State) (p : BitVec 6) : State :=
  s.onPart p fun q => { q with trav := { q.trav with err := false } }

/-- The bits of TRCTL: base [55:16], area size [11:8], EN [0] (R343). -/
def trctlMask : W64 := 0x00FFFFFFFFFF0F01

/-- TRCTL of a partition set; its records begin anew, and reserved bits are discarded (R52, R343; DEDUCED log 21). -/
def State.setTrctl (s : State) (p : BitVec 6) (v : W64) : State :=
  let v := v &&& trctlMask
  { s with trctl := (s.trctl.filter fun e => e.1 != p) ++ (if v = 0 then [] else [(p, v, 0)]) }

/-- A write of a steward system register (R343). -/
def State.writeSys (s : State) (n : Nat) (v : W64) : State :=
  if n < 0x8140 then (if v.getLsbD 15 then s.tstatClear (BitVec.ofNat 6 n) else s)
  else if n < 0x8200 then s.setTrctl (BitVec.ofNat 6 n) v
  else if n < 0x8280 then s.writeRsvm (n - 0x8200) v
  else if n < 0x8300 then { s with ring := { s.ring with rsvf := s.ring.rsvf.setIfInBounds (n - 0x8280) v } }
  else if n < 0x8400 then s.pgCtl (n - 0x8320) v
  else s.onDie (n - 0x8400) fun d => { d with pwrbud := v.setWidth 32 }

/-- The bits of FPCTL: rounding mode [2:0], trap enables [24:16] (R138). -/
def fpctlMask : W64 := 0x01FF0007

/-- A window register written: base bits [79:16], limit, key (R52, R242). -/
def Core.setWinReg (c : Core) (n : Nat) (v : W64) : Core :=
  let k := n % 8
  let w := c.regs.win[k]?.getD { base := 0, limit := 0, key := 0 }
  let w := if n < 0x88 then { w with base := v.setWidth 80 <<< 16 }
    else if n < 0x90 then { w with limit := v.setWidth 56 }
    else { w with key := v.setWidth 8 }
  { c with regs := { c.regs with win := c.regs.win.setIfInBounds k w } }

/-- A write of one of the core's own special registers; reserved bits are discarded (R52). -/
def Core.writeSpec (c : Core) (n : Nat) (v : W64) : Core :=
  if n = 0x02 then c.onSpec fun p => { p with frame := v }
  else if n < 0x10 then c.onSpec fun p => { p with stallc := p.stallc.setIfInBounds (n - 8) v }
  else if n = 0x10 then c.onSpec fun p => { p with leavec := v }
  else if n = 0x20 then c.onSpec fun p => { p with fpctl := v &&& fpctlMask }
  else if n = 0x21 then c.onSpec fun p => { p with fpstat := v &&& 0x1FF }
  else if n = 0x22 then c.onSpec fun p => { p with srk0 := v }
  else if n = 0x23 then c.onSpec fun p => { p with srk1 := v }
  else if n = 0x24 then c.onSpec fun p => { p with src0 := v }
  else if n = 0x25 then c.onSpec fun p => { p with src1 := v }
  else if n = 0x31 then c.onSpec fun p => { p with trappc := v.setWidth 15 }
  else if n = 0x32 then c.onSpec fun p => { p with trapv := v.setWidth 15 }
  else if 0x80 ≤ n ∧ n ≤ 0x97 then c.setWinReg n v
  else c

/-- A special register of the executing core written. -/
def State.writeSpecial (s : State) (n : BitVec 16) (v : W64) : State :=
  if 0x8000 ≤ n.toNat then s.writeSys n.toNat v else s.onMe fun c => c.writeSpec n.toNat v

/-! ### The array's results (R185 to R195) -/

/-- The stream with a number. -/
def Arch.stream (c : Arch) (st : Nat) : Option Stream := c.eng.arr.streams.find? fun x => x.id == st

/-- A stream changed. -/
def Core.onStream (c : Core) (st : Nat) (f : Stream → Stream) : Core :=
  c.onEng fun e => { e with arr := { e.arr with streams := e.arr.streams.map fun x => if x.id == st then f x else x } }

/-- A load changed. -/
def Core.onLoad (c : Core) (l : Nat) (f : Load → Load) : Core :=
  c.onEng fun e => { e with arr := { e.arr with loads := e.arr.loads.map fun x => if x.id == l then f x else x } }

/-- The cluster's tile 0 of a core. -/
def State.tile0 (s : State) (c : Core) : Core := s.core (c.num / 4 * 4)

/-- The rows a stream has: its own, or on tiles 1 to 3 of a chain those that tile 0 passed on (R193). -/
def State.rowsOf (s : State) (c : Core) (x : Stream) : List RowData :=
  if x.hops = 0 then x.data
  else (((s.tile0 c).eng.arr.streams.find? fun y => y.chain == x.chain && y.hops == 0).map fun y => y.data).getD []

/-- Row `j` of a stream, where it has been read. -/
def State.rowOf (s : State) (c : Core) (st j : Nat) : Option RowData :=
  match c.stream st with
  | none => none
  | some x => (s.rowsOf c x).find? fun r => r.row == j

/-- A load of nothing: the reset contents of a plane, zero mantissas latched as B8 at width 8 (R134, R187). -/
def emptyLoad : Load :=
  { id := 0, desc := 0x53, a := 0, b := 0, paired := false, self := false, groups := [], fl := 0, ready := true }

/-- What row `j` of a stream adds to its elements (R137, R188). -/
def Arch.rowAdd (c : Arch) (x : Stream) (row : RowData) : RowAdd :=
  { stream := x.id, acc := descAcc x.desc, load := (c.eng.arr.tagged (x.entry row.row)).getD emptyLoad, blks := row.blks }

/-- Where the values and the status bits of row `j` of a stream's AX region lie (R136). -/
def Stream.valsAt (x : Stream) (j : Nat) : Nat := x.axb + 2048 * j
def Stream.statAt (x : Stream) (j : Nat) : Nat := x.axb + 2048 * descM x.desc + 64 * j

/-- The row of AX elements that row `j` of a stream adds to: the elements are the same where their values and their status bits
lie in the same places, whatever the regions (R136, R137; DEDUCED log 15). -/
def EarlyRow.is (e : EarlyRow) (x : Stream) (j : Nat) : Bool := e.vals == x.valsAt j && e.stat == x.statAt j

/-- Whether a row of a stream issued before stream number `n` has still to add to a row of AX elements (R137). -/
def Arch.rowAwaits (c : Arch) (e : EarlyRow) (n : Nat) : Bool :=
  c.eng.arr.streams.any fun y => decide (y.id < n) && (List.range (descM y.desc)).any fun j =>
    e.is y j && (y.d.isNone || c.flight.any fun f => f.what == .axrow y.id j)

/-- The AX update of row `j` of stream `st`: writes over the buffer C as it stood before the cycle, flags, the row as the
additions so far leave it; with the stream's last row the flags of its aligner (R134, R137, R144, R191). -/
def State.axRow (s : State) (ref : Buf) (st j : Nat) : Option (List (Nat × Byte) × Fl × EarlyRow) :=
  let c := s.me
  match c.stream st, s.rowOf c st j with
  | some x, some row =>
    let m := descM x.desc
    let now := axRowGet (fun y => ref.get c.ctx.toNat y) x.axb m j
    let r := addInOrder (c.eng.arr.early.find? fun e => e.is x j) (c.rowAdd x row) now
    let al := if x.hops = 0 ∧ j + 1 = m then x.data.foldl (fun f y => f ||| y.fl) 0 else 0
    some (axBytes x.axb m j (r.1.map Prod.fst), r.1.foldl (fun f y => f ||| y.2) al,
      { r.2 with vals := x.valsAt j, stat := x.statAt j })
  | _, _ => none

/-- The rows of AX regions that wait for the additions of earlier streams, one of them as it stands now. -/
def Core.setEarly (c : Core) (e : EarlyRow) : Core :=
  c.onEng fun g => { g with arr := { g.arr with
    early := (g.arr.early.filter fun x => !(x.vals == e.vals && x.stat == e.stat)) ++ [e] } }

/-- A plane becomes ready; a load that activates itself sets the active set (R184, R187). -/
def Core.planeReady (c : Core) (l : Nat) : Core :=
  match c.eng.arr.loads.find? fun x => x.id == l with
  | none => c
  | some x =>
    let c := c.onLoad l fun y => { y with ready := true }
    if x.self then
      c.onEng fun e => { e with arr := ({ e.arr with
        active := if x.paired then PSet.pair else PSet.p0, selfAct := e.arr.selfAct - 1 }).mark c.now }
    else c

/-- `mswap` performs; it has no effect on a pair or while a load that activates itself is pending (R187). -/
def Core.swapPlanes (c : Core) : Core :=
  let a := c.eng.arr
  if a.active = .pair ∨ 0 < a.selfAct then c
  else c.onEng fun e => { e with
    arr := ({ a with active := if a.active = PSet.p0 then .p1 else .p0 }).mark c.now }

/-- The flags of a load that becomes ready. -/
def Arch.loadFl (c : Arch) (l : Nat) : Fl :=
  ((c.eng.arr.loads.find? fun x => x.id == l).map fun x => x.fl).getD 0

/-- Group `g` of a load read from W (R184, R215). -/
def Core.readGroup (c : Core) (l g : Nat) : Core :=
  c.onLoad l fun x =>
    let r := weightGroup (fun y => c.store.w.get c.ctx.toNat y) x.desc x.a x.b g
    { x with groups := x.groups ++ [r.1], fl := x.fl ||| r.2 }

/-- A row of a direct stream enters: it is read from A (R191). -/
def Core.enterRow (c : Core) (st j : Nat) : Core :=
  c.onStream st fun x => if x.fired then { x with data := x.data ++ [c.directData x j] } else x

/-- The consumer pointer of a stream's buffer moves by its records (R195). -/
def Core.takeRecords (c : Core) (st : Nat) : Core :=
  match c.stream st with
  | none => c
  | some x =>
    match x.cb with
    | none => c
    | some n =>
      match c.cb n with
      | none => c
      | some b => c.setCb n (some (b.move true (descM x.desc * b.elem)))

/-- A circular-buffer pointer moves (R211). -/
def Core.movePtr (c : Core) (n : BitVec 4) (cons : Bool) (k : Nat) : Core :=
  match c.cb n with
  | none => c
  | some b => c.setCb n (some (b.move cons k))

/-! ### Performing the due results -/

/-- What performing results has come to: the state, buffer C before the cycle's writes as the array sees it, the flags
raised. -/
structure Perf where
  s : State
  ref : Buf
  fl : Fl
  deriving DecidableEq, Repr

/-- The executing core of a performing changed. -/
def Perf.me (x : Perf) (f : Core → Core) : Perf := { x with s := x.s.onMe f }

/-- Flags raised. -/
def Perf.raise (x : Perf) (fl : Fl) : Perf := { x with fl := x.fl ||| fl }

/-- One result performs (R19, R112). -/
def Perf.one (x : Perf) (w : Landing) : Perf :=
  match w with
  | .sreg d v p fl => (x.me fun c => c.setS d { val := v, poison := p }).raise fl
  | .vreg d v p fl => (x.me fun c => c.setV d { val := v, poison := p }).raise fl
  | .gcond g v p => x.me fun c => c.setG g { c.g g with c := v, cp := p }
  | .gtarg g t => x.me fun c => c.setG g { c.g g with t := t }
  | .special n v => { x with s := x.s.writeSpecial n v }
  | .bstore sp w _ => x.me fun c => (if sp = .a then c.keepOld w else c).writeBuf sp w
  | .tagset t v => x.me fun c => c.onSpec fun p =>
      { p with tagmap := if v then p.tagmap ||| tagMask t else p.tagmap &&& ~~~tagMask t }
  | .cbptr n cons k => x.me fun c => c.movePtr n cons k
  | .rcvdata _ _ w => x.me fun c => (c.keepOld w).writeBuf .a w
  | .signal t => { x with s := x.s.onDie x.s.me.die fun d =>
      { d with msq := d.msq.setCount x.s.me.num t (d.msq.count x.s.me.num t + 1) } }
  | .mclr _ base n => x.me fun c => c.writeBuf .c (mclrBytes base n)
  | .swap => x.me Core.swapPlanes
  | .wgroup l g => x.me fun c => c.readGroup l g
  | .plane l => (x.me fun c => c.planeReady l).raise (x.s.me.loadFl l)
  | .enter st j => x.me fun c => c.enterRow st j
  | .axrow st j =>
    match x.s.axRow x.ref st j with
    | none => x
    | some r =>
      { s := x.s.onMe fun c => (c.writeBuf .c r.1).setEarly r.2.2, ref := x.ref.write x.s.me.ctx.toNat r.1
        fl := x.fl ||| r.2.1 }
  | .cbtake st => x.me fun c => c.takeRecords st
  | .flags fl => x.raise fl

/-- A result that is due and whose value is here. -/
def Flight.due (f : Flight) : Bool := f.remain == 0 && f.await == .no

/-- Whether two results go to the same register. -/
def Landing.sameReg (w x : Landing) : Bool :=
  match w, x with
  | .sreg d .., .sreg e .. => d == e && d != 0
  | .vreg d .., .vreg e .. => d == e
  | _, _ => false

/-- The results that may perform now, from a list in issue order. A variable-latency result that is here waits for one of the
same register that was due before it, or was due with it and issued before it, and is missing (R28, R54). `l` holds the
results that issued before. -/
def dueNow (all : List Flight) : List Flight → List Flight → List Flight
  | _, [] => []
  | l, f :: r =>
    let rest := dueNow all (l ++ [f]) r
    let before := fun (g : Flight) => g.remain == 0 && g.await != .no && g.what.sameReg f.what
    if !f.due || (f.declared != 0 && (all.any fun g => before g && decide (f.past < g.past)) ||
        l.any fun g => before g && g.past == f.past) then rest
    else f :: rest

/-- The results of a core that may perform now. -/
def Arch.ready (c : Arch) : List Flight := dueNow c.flight [] c.flight

/-- Results that read what the cycle's writes leave: rows that enter and weight groups (R191, R215). -/
def Landing.readsAfter : Landing → Bool
  | .wgroup .. | .enter .. => true
  | _ => false

/-- Results that may perform, in the order in which they do: by the cycle in which they were due, then in issue order, then
the array's reads (R28, R54, R191). So a plane that becomes ready in the cycle in which a later-issued `mswap` performs is no
pending load for it (R187; DESIGN CHOICE log 55). -/
def dueOrder (d : List Flight) : List Landing :=
  (sortBy (fun f g => decide (g.past < f.past)) (d.filter fun f => !f.what.readsAfter) ++
    d.filter fun f => f.what.readsAfter).map fun f => f.what

/-- Streams that nothing in flight names are gone; those of a chain stay until the next leg, for tiles that are behind
(R193). Loads that neither a plane, nor a row, nor a result in flight names are gone. -/
def Core.tidy (c : Core) : Core :=
  let a := c.eng.arr
  let live := fun (x : Stream) => x.chain.isSome || !x.fired || c.flight.any fun f =>
    match f.what with
    | .enter st _ => st == x.id
    | .axrow st _ => st == x.id
    | .cbtake st => st == x.id
    | _ => false
  let held := fun (l : Load) => l.id == a.p0 || l.id == a.p1 || !l.ready ||
    a.hist.any fun h => h.2.2.1 == l.id || h.2.2.2 == l.id
  c.onEng fun e => { e with arr := { a with
    streams := a.streams.filter live
    loads := a.loads.filter held
    early := a.early.filter fun e => c.rowAwaits e ((e.adds.getLast?.map fun x => x.stream).getD 0) } }

/-- The due results of the executing core perform; the flags they raise (R19, R54, R144). -/
def State.performDue (s : State) : State × Fl :=
  let d := s.me.ready
  let x := (dueOrder d).foldl Perf.one { s := s, ref := s.me.store.c, fl := 0 }
  (x.s.onMe fun c =>
    ({ c with
      flight := c.flight.filter fun f => !d.contains f
      spec := { c.spec with fpstat := c.spec.fpstat ||| x.fl.setWidth 64 } }).tidy, x.fl)

/-! ### What keeps a cycle from beginning (R19, R22, R54) -/

/-- A result that is due and whose reply is missing (R28). -/
def Flight.missing (f : Flight) : Bool :=
  match f.await with
  | .reply _ => f.remain == 0
  | _ => false

/-- A fixed write due to a register that waits for a reply already due (R54); or such a reply where its STALE flag would trap,
so that the LT of the trap is that of its due cycle (R32, R144, R145; DEDUCED log 56). -/
def Arch.landHeld (c : Arch) : Bool :=
  (c.flight.any fun f => f.due && f.declared == 0 && c.flight.any fun g => g.missing && f.what.sameReg g.what) ||
  (c.spec.fpctl.getLsbD 24 && c.flight.any Flight.missing)

/-- A K load due and not delivered (R207). -/
def Arch.netHeld (c : Arch) : Bool :=
  c.flight.any fun f => f.remain == 0 && (match f.await with | .net _ => true | _ => false)

/-- An engine result due and not finished (R19, R186, R195). -/
def State.engineHeld (s : State) : Bool :=
  s.me.flight.any fun f => f.due &&
    (match f.what with
      | .axrow st j => (s.rowOf s.me st j).isNone
      | .enter st _ => ((s.me.stream st).map fun x => x.d.isNone).getD false
      | .cbtake st => ((s.me.stream st).map fun x => !x.fired).getD false
      | _ => false)

/-- The bytes a result changes in a buffer. -/
def Arch.changes (c : Arch) (w : Landing) : List (BSpace × Nat) :=
  match w with
  | .bstore sp l _ => l.map fun e => (sp, e.1)
  | .rcvdata _ _ l => l.map fun e => (.a, e.1)
  | .mclr _ base n => (mclrBytes base n).map fun e => (.c, e.1)
  | .axrow st j =>
    ((c.stream st).map fun x =>
      (place (x.axb + 2048 * j) (List.replicate 2048 0) ++
        place (x.axb + 2048 * descM x.desc + 64 * j) (List.replicate 64 0)).map fun e => (BSpace.c, e.1)).getD []
  | _ => []

/-- The 4 KiB blocks that due results of one kind would change and that the checkpoint under way has not yet copied (R100, R119). -/
def Core.uncopied (c : Core) (own : Bool) : List (BSpace × Nat) :=
  match c.ckpt with
  | [] => []
  | k :: _ =>
    if k.image.isNone then []
    else
      (((c.ready.filter fun f => f.what.ownPipe == own).flatMap fun f =>
        (c.changes f.what).map fun x => (x.1, x.2 / 4096)).dedup).filter fun b => !k.saved.contains b

/-- The trickle copies the blocks that due results would change ahead of its other work (R100). -/
def Core.copyAhead (c : Core) : Core :=
  let bs := c.uncopied true ++ c.uncopied false
  { c with ckpt := match c.ckpt with | [] => [] | k :: r => { k with saved := k.saved ++ bs } :: r }

/-- The cause that keeps the due results of the executing core from performing: a missing reply, or a block that a checkpoint has
yet to copy (R22, R28, R100). -/
def State.dueStall (s : State) : Option StallCause :=
  if s.me.landHeld then some .land else if s.me.netHeld then some .fabric
  else if s.engineHeld ∨ s.me.uncopied false ≠ [] then some .engine
  else if s.me.uncopied true ≠ [] then some .misc else none

/-! ### The chain (R193, R194) -/

/-- The fields in which the descriptors of paired `mmulc` must agree: AFD, MR, KLEN (R194). -/
def chainSame (d e : W64) : Bool := descAfd d == descAfd e && descM d == descM e && descK d == descK e

/-- The AX updates of a chained stream whose steps are known, in the place of the entry that stood for them. -/
def chainRows (x : Stream) (lt d : Nat) : List Flight :=
  (List.range (descM x.desc)).map fun j =>
    { remain := x.lt.toNat + 552 + d * (j + 1) + 16 * x.hops - lt, past := 0, declared := 0, await := .no
      what := .axrow x.id j }

/-- A stream of tiles 1 to 3 met with tile 0's command, once that has issued; a mismatch is an asynchronous TSMISMATCH,
and the rows of that stream never come (R194). -/
def State.meetChain (s : State) : State :=
  let c := s.me
  match c.eng.arr.streams.find? fun x => x.d.isNone with
  | none => s
  | some x =>
    match (s.tile0 c).eng.arr.log.find? fun e => some e.1 == x.chain with
    | none => s
    | some e =>
      if e.2.1 = x.lt ∧ chainSame e.2.2.1 x.desc then
        s.onMe fun c =>
          { c.onStream x.id fun y => { y with d := some e.2.2.2 } with
            flight := c.flight.flatMap fun f =>
              if f.what == .enter x.id 0 then chainRows x c.now e.2.2.2 else [f] }
      else s.onMe fun c => c.async { mkStop .tsmismatch 0 0 with async := true, culprit := .engine x.id }

end Sys2Proof.Machine
end

