-- ==== Sys2Proof/Machine/Scalar.lean ====
section
/-! DEFINITION. The scalar instructions of the S pipe: SR, SI and SU words (R68 to R76). -/

namespace Sys2Proof.Machine

/-! ### The computations (R70 to R73) -/

/-- The low 32 bits of a result, sign-extended (R70). -/
def low32 (x : W64) : W64 := (x.setWidth 32).signExtend 64

/-- A source of the 32-bit form of a signed operation (R70). -/
def srcS (w : Bool) (x : W64) : W64 := if w then (x.setWidth 32).signExtend 64 else x

/-- A source of the 32-bit form of an unsigned operation (R70). -/
def srcN (w : Bool) (x : W64) : W64 := if w then (x.setWidth 32).setWidth 64 else x

/-- A result of the 64-bit or the 32-bit form (R70). -/
def res (w : Bool) (x : W64) : W64 := if w then low32 x else x

/-- A shift amount (R70, R71). -/
def shamt (w : Bool) (b : W64) : Nat := if w then b.toNat % 32 else b.toNat % 64

def aluAdd (w : Bool) (a b : W64) : W64 := res w (a + b)
def aluSub (w : Bool) (a b : W64) : W64 := res w (a - b)
def aluMul (w : Bool) (a b : W64) : W64 := res w (a * b)

/-- The upper half of the signed product: bits [127:64], or bits [63:32] in the 32-bit form. -/
def aluMulh (w : Bool) (a b : W64) : W64 :=
  if w then low32 ((srcS true a * srcS true b) >>> 32)
  else BitVec.ofInt 64 (a.toInt * b.toInt / ((2 ^ 64 : Nat) : Int))

/-- The upper half of the unsigned product. -/
def aluMulhn (w : Bool) (a b : W64) : W64 :=
  if w then low32 ((srcN true a * srcN true b) >>> 32)
  else BitVec.ofNat 64 (a.toNat * b.toNat / 2 ^ 64)

/-- The signed quotient, all ones for a zero divisor (R72). -/
def aluDiv (w : Bool) (a b : W64) : W64 :=
  let x := srcS w a
  let y := srcS w b
  res w (if y = 0 then BitVec.allOnes 64 else BitVec.ofInt 64 (x.toInt.tdiv y.toInt))

/-- The unsigned quotient (R72). -/
def aluDivn (w : Bool) (a b : W64) : W64 :=
  let x := srcN w a
  let y := srcN w b
  res w (if y = 0 then BitVec.allOnes 64 else BitVec.ofNat 64 (x.toNat / y.toNat))

/-- The signed remainder, the dividend for a zero divisor (R72). -/
def aluRem (w : Bool) (a b : W64) : W64 :=
  let x := srcS w a
  let y := srcS w b
  res w (if y = 0 then x else BitVec.ofInt 64 (x.toInt.tmod y.toInt))

/-- The unsigned remainder (R72). -/
def aluRemn (w : Bool) (a b : W64) : W64 :=
  let x := srcN w a
  let y := srcN w b
  res w (if y = 0 then x else BitVec.ofNat 64 (x.toNat % y.toNat))

def aluAnd (w : Bool) (a b : W64) : W64 := res w (a &&& b)
def aluOr (w : Bool) (a b : W64) : W64 := res w (a ||| b)
def aluXor (w : Bool) (a b : W64) : W64 := res w (a ^^^ b)
def aluAndn (w : Bool) (a b : W64) : W64 := res w (a &&& ~~~b)
def aluOrn (w : Bool) (a b : W64) : W64 := res w (a ||| ~~~b)
def aluShl (w : Bool) (a b : W64) : W64 := res w (a <<< shamt w b)
def aluShr (w : Bool) (a b : W64) : W64 := res w (srcN w a >>> shamt w b)
def aluSar (w : Bool) (a b : W64) : W64 := res w ((srcS w a).sshiftRight (shamt w b))

/-- Rotates: over 32 bits in the 32-bit form (R70). -/
def aluRol (w : Bool) (a b : W64) : W64 :=
  if w then ((a.setWidth 32).rotateLeft (shamt true b)).signExtend 64 else a.rotateLeft (shamt false b)
def aluRor (w : Bool) (a b : W64) : W64 :=
  if w then ((a.setWidth 32).rotateRight (shamt true b)).signExtend 64 else a.rotateRight (shamt false b)

def aluMin (w : Bool) (a b : W64) : W64 := res w (if (srcS w a).slt (srcS w b) then srcS w a else srcS w b)
def aluMax (w : Bool) (a b : W64) : W64 := res w (if (srcS w a).slt (srcS w b) then srcS w b else srcS w a)
def aluMinn (w : Bool) (a b : W64) : W64 := res w (if (srcN w a).ult (srcN w b) then srcN w a else srcN w b)
def aluMaxn (w : Bool) (a b : W64) : W64 := res w (if (srcN w a).ult (srcN w b) then srcN w b else srcN w a)

/-- The number of bits of the form. -/
def formBits (w : Bool) : Nat := if w then 32 else 64

def aluClz (w : Bool) (a : W64) : W64 := BitVec.ofNat 64 (formBits w - bitLen 64 (srcN w a).toNat)

/-- Trailing zeros among `k` bits. -/
def tz : Nat → Nat → Nat
  | 0, _ => 0
  | k + 1, n => if n % 2 = 1 then 0 else tz k (n / 2) + 1

def aluCtz (w : Bool) (a : W64) : W64 := BitVec.ofNat 64 (tz (formBits w) (srcN w a).toNat)
def aluPopc (w : Bool) (a : W64) : W64 := BitVec.ofNat 64 (ones 64 (srcN w a).toNat)

/-- Position and length of a bit field (R73). -/
def fieldPos (w : Bool) (b : W64) : Nat := shamt w b
def fieldLen (w : Bool) (b : W64) : Nat := min (fieldPos w b + b.toNat / 256 % 128) (formBits w) - fieldPos w b

/-- Unsigned field extract (R73). -/
def aluBfxn (w : Bool) (a b : W64) : W64 :=
  res w (BitVec.ofNat 64 (a.toNat / 2 ^ fieldPos w b % 2 ^ fieldLen w b))

/-- Signed field extract (R73). -/
def aluBfx (w : Bool) (a b : W64) : W64 :=
  let m := fieldLen w b
  let x := a.toNat / 2 ^ fieldPos w b % 2 ^ m
  res w (if m = 0 then 0 else BitVec.ofInt 64 (sgn m x))

/-- Field insert into `d` (R73). -/
def aluBfi (w : Bool) (d a b : W64) : W64 :=
  let p := fieldPos w b
  let m := fieldLen w b
  let x := d.toNat
  res w (if m = 0 then d else BitVec.ofNat 64 (x - x / 2 ^ p % 2 ^ m * 2 ^ p + a.toNat % 2 ^ m * 2 ^ p))

/-! ### SR words -/

/-- A two-source operation (R68, R71). -/
def State.alu2 (s : State) (l : Nat) (sp : Bool) (d a b : Reg) (f : W64 → W64 → W64) : State :=
  s.scalar l sp [s.me.s a, s.me.s b] d (f (s.me.s a).val (s.me.s b).val)

/-- A one-source operation. -/
def State.alu1 (s : State) (l : Nat) (sp : Bool) (d a : Reg) (f : W64 → W64) : State :=
  s.scalar l sp [s.me.s a] d (f (s.me.s a).val)

/-- `add` (R71). -/
def execAdd (d a b : Reg) (w sp : Bool) (s : State) : Host.Outcome State Fault Refusal :=
  issue (.add d a b w sp) s (s.alu2 1 sp d a b (aluAdd w))

/-- `sub` (R71). -/
def execSub (d a b : Reg) (w sp : Bool) (s : State) : Host.Outcome State Fault Refusal :=
  issue (.sub d a b w sp) s (s.alu2 1 sp d a b (aluSub w))

/-- `mul` (R71). -/
def execMul (d a b : Reg) (w sp : Bool) (s : State) : Host.Outcome State Fault Refusal :=
  issue (.mul d a b w sp) s (s.alu2 3 sp d a b (aluMul w))

/-- `mulh` (R71). -/
def execMulh (d a b : Reg) (w sp : Bool) (s : State) : Host.Outcome State Fault Refusal :=
  issue (.mulh d a b w sp) s (s.alu2 3 sp d a b (aluMulh w))

/-- `mulhn` (R71). -/
def execMulhn (d a b : Reg) (w sp : Bool) (s : State) : Host.Outcome State Fault Refusal :=
  issue (.mulhn d a b w sp) s (s.alu2 3 sp d a b (aluMulhn w))

/-- `div` (R71, R72). -/
def execDiv (d a b : Reg) (w sp : Bool) (s : State) : Host.Outcome State Fault Refusal :=
  issue (.div d a b w sp) s (s.alu2 20 sp d a b (aluDiv w))

/-- `divn` (R71, R72). -/
def execDivn (d a b : Reg) (w sp : Bool) (s : State) : Host.Outcome State Fault Refusal :=
  issue (.divn d a b w sp) s (s.alu2 20 sp d a b (aluDivn w))

/-- `rem` (R71, R72). -/
def execRem (d a b : Reg) (w sp : Bool) (s : State) : Host.Outcome State Fault Refusal :=
  issue (.rem d a b w sp) s (s.alu2 20 sp d a b (aluRem w))

/-- `remn` (R71, R72). -/
def execRemn (d a b : Reg) (w sp : Bool) (s : State) : Host.Outcome State Fault Refusal :=
  issue (.remn d a b w sp) s (s.alu2 20 sp d a b (aluRemn w))

/-- `and` (R71). -/
def execAnd (d a b : Reg) (w sp : Bool) (s : State) : Host.Outcome State Fault Refusal :=
  issue (.and d a b w sp) s (s.alu2 1 sp d a b (aluAnd w))

/-- `or` (R71). -/
def execOr (d a b : Reg) (w sp : Bool) (s : State) : Host.Outcome State Fault Refusal :=
  issue (.or d a b w sp) s (s.alu2 1 sp d a b (aluOr w))

/-- `xor` (R71). -/
def execXor (d a b : Reg) (w sp : Bool) (s : State) : Host.Outcome State Fault Refusal :=
  issue (.xor d a b w sp) s (s.alu2 1 sp d a b (aluXor w))

/-- `andn` (R71). -/
def execAndn (d a b : Reg) (w sp : Bool) (s : State) : Host.Outcome State Fault Refusal :=
  issue (.andn d a b w sp) s (s.alu2 1 sp d a b (aluAndn w))

/-- `orn` (R71). -/
def execOrn (d a b : Reg) (w sp : Bool) (s : State) : Host.Outcome State Fault Refusal :=
  issue (.orn d a b w sp) s (s.alu2 1 sp d a b (aluOrn w))

/-- `shl` (R71). -/
def execShl (d a b : Reg) (w sp : Bool) (s : State) : Host.Outcome State Fault Refusal :=
  issue (.shl d a b w sp) s (s.alu2 1 sp d a b (aluShl w))

/-- `shr` (R71). -/
def execShr (d a b : Reg) (w sp : Bool) (s : State) : Host.Outcome State Fault Refusal :=
  issue (.shr d a b w sp) s (s.alu2 1 sp d a b (aluShr w))

/-- `sar` (R71). -/
def execSar (d a b : Reg) (w sp : Bool) (s : State) : Host.Outcome State Fault Refusal :=
  issue (.sar d a b w sp) s (s.alu2 1 sp d a b (aluSar w))

/-- `rol` (R71). -/
def execRol (d a b : Reg) (w sp : Bool) (s : State) : Host.Outcome State Fault Refusal :=
  issue (.rol d a b w sp) s (s.alu2 1 sp d a b (aluRol w))

/-- `ror` (R71). -/
def execRor (d a b : Reg) (w sp : Bool) (s : State) : Host.Outcome State Fault Refusal :=
  issue (.ror d a b w sp) s (s.alu2 1 sp d a b (aluRor w))

/-- `min` (R71). -/
def execMin (d a b : Reg) (w sp : Bool) (s : State) : Host.Outcome State Fault Refusal :=
  issue (.min d a b w sp) s (s.alu2 1 sp d a b (aluMin w))

/-- `max` (R71). -/
def execMax (d a b : Reg) (w sp : Bool) (s : State) : Host.Outcome State Fault Refusal :=
  issue (.max d a b w sp) s (s.alu2 1 sp d a b (aluMax w))

/-- `minn` (R71). -/
def execMinn (d a b : Reg) (w sp : Bool) (s : State) : Host.Outcome State Fault Refusal :=
  issue (.minn d a b w sp) s (s.alu2 1 sp d a b (aluMinn w))

/-- `maxn` (R71). -/
def execMaxn (d a b : Reg) (w sp : Bool) (s : State) : Host.Outcome State Fault Refusal :=
  issue (.maxn d a b w sp) s (s.alu2 1 sp d a b (aluMaxn w))

/-- `clz` (R71). -/
def execClz (d a : Reg) (w sp : Bool) (s : State) : Host.Outcome State Fault Refusal :=
  issue (.clz d a w sp) s (s.alu1 1 sp d a (aluClz w))

/-- `ctz` (R71). -/
def execCtz (d a : Reg) (w sp : Bool) (s : State) : Host.Outcome State Fault Refusal :=
  issue (.ctz d a w sp) s (s.alu1 1 sp d a (aluCtz w))

/-- `popc` (R71). -/
def execPopc (d a : Reg) (w sp : Bool) (s : State) : Host.Outcome State Fault Refusal :=
  issue (.popc d a w sp) s (s.alu1 1 sp d a (aluPopc w))

/-- `bfx` (R71, R73). -/
def execBfx (d a b : Reg) (w sp : Bool) (s : State) : Host.Outcome State Fault Refusal :=
  issue (.bfx d a b w sp) s (s.alu2 1 sp d a b (aluBfx w))

/-- `bfxn` (R71, R73). -/
def execBfxn (d a b : Reg) (w sp : Bool) (s : State) : Host.Outcome State Fault Refusal :=
  issue (.bfxn d a b w sp) s (s.alu2 1 sp d a b (aluBfxn w))

/-- `bfi`, which reads its destination as a third source (R71, R73). -/
def execBfi (d a b : Reg) (w sp : Bool) (s : State) : Host.Outcome State Fault Refusal :=
  issue (.bfi d a b w sp) s
    (s.scalar 1 sp [s.me.s a, s.me.s b, s.me.s d] d (aluBfi w (s.me.s d).val (s.me.s a).val (s.me.s b).val))

/-- `csel`: the condition fires first, then the arm that is kept (R74). A poisoned condition carries no code (R68). -/
def execCsel (d a b : Reg) (g : GIdx) (s : State) : Host.Outcome State Fault Refusal :=
  let kept := if (s.me.g g).c then s.me.s a else s.me.s b
  issue (.csel d a b g) s
    (if (s.me.g g).cp then s.raiseLocal .poison 0
     else s.unpoisoned [kept] (s.done fun c => c.push 1 (.sreg d kept.val false 0)))

/-! ### SI words (R75) -/

/-- `addi` (R75). -/
def execAddi (sp : Bool) (d a : Reg) (imm : BitVec 12) (s : State) : Host.Outcome State Fault Refusal :=
  let i := immS s.me.iss.ext imm
  issue (.addi sp d a imm) s (s.alu1 1 sp d a fun x => x + i)

/-- `andi` (R75). -/
def execAndi (sp : Bool) (d a : Reg) (imm : BitVec 12) (s : State) : Host.Outcome State Fault Refusal :=
  let i := immS s.me.iss.ext imm
  issue (.andi sp d a imm) s (s.alu1 1 sp d a fun x => x &&& i)

/-- `ori` (R75). -/
def execOri (sp : Bool) (d a : Reg) (imm : BitVec 12) (s : State) : Host.Outcome State Fault Refusal :=
  let i := immS s.me.iss.ext imm
  issue (.ori sp d a imm) s (s.alu1 1 sp d a fun x => x ||| i)

/-- `xori` (R75). -/
def execXori (sp : Bool) (d a : Reg) (imm : BitVec 12) (s : State) : Host.Outcome State Fault Refusal :=
  let i := immS s.me.iss.ext imm
  issue (.xori sp d a imm) s (s.alu1 1 sp d a fun x => x ^^^ i)

/-- `muli` (R75). -/
def execMuli (sp : Bool) (d a : Reg) (imm : BitVec 12) (s : State) : Host.Outcome State Fault Refusal :=
  let i := immS s.me.iss.ext imm
  issue (.muli sp d a imm) s (s.alu1 3 sp d a fun x => x * i)

/-- `shli` (R75). -/
def execShli (sp : Bool) (d a : Reg) (n : BitVec 6) (s : State) : Host.Outcome State Fault Refusal :=
  issue (.shli sp d a n) s (s.alu1 1 sp d a fun x => x <<< n.toNat)

/-- `shri` (R75). -/
def execShri (sp : Bool) (d a : Reg) (n : BitVec 6) (s : State) : Host.Outcome State Fault Refusal :=
  issue (.shri sp d a n) s (s.alu1 1 sp d a fun x => x >>> n.toNat)

/-- `sari` (R75). -/
def execSari (sp : Bool) (d a : Reg) (n : BitVec 6) (s : State) : Host.Outcome State Fault Refusal :=
  issue (.sari sp d a n) s (s.alu1 1 sp d a fun x => x.sshiftRight n.toNat)

/-! ### SU words (R76) -/

/-- `lui` (R76). -/
def execLui (d : Reg) (imm : BitVec 20) (s : State) : Host.Outcome State Fault Refusal :=
  issue (.lui d imm) s (s.done fun c => c.push 1 (.sreg d (immS s.me.iss.ext imm <<< 12) false 0))

/-- The address `aup` forms (R76). -/
def aupAddr (word : IAddr) (x : Option (BitVec 27)) (imm : BitVec 20) : W64 :=
  let o := (immS x imm).sshiftRight 2
  let p := ((pkt word : Int) + o.toInt) % 8192
  BitVec.ofNat 64 (p.toNat * 4 + imm.toNat % 4)

/-- `aup` (R76). -/
def execAup (d : Reg) (imm : BitVec 20) (s : State) : Host.Outcome State Fault Refusal :=
  issue (.aup d imm) s (s.done fun c => c.push 1 (.sreg d (aupAddr s.me.iss.word s.me.iss.ext imm) false 0))

end Sys2Proof.Machine
end

