-- ==== Sys2Proof/Machine/Vector.lean ====
section
/-! DEFINITION. The vector instructions of the V pipe: VR and VX words (09_isa_vector.md). -/

namespace Sys2Proof.Machine

/-- The sources A and B of a vector word. -/
def State.ops2 (s : State) (a b : Reg) : VOps :=
  { a := s.me.v a, b := s.me.v b, c := { val := 0, poison := 0 }, d := { val := 0, poison := 0 } }

/-- The sources A and B, and D read as an accumulator. -/
def State.ops3 (s : State) (a b d : Reg) : VOps := { s.ops2 a b with d := s.me.v d }

/-- Whether an instruction rounds with SR and so draws (R153). -/
def drawsSr (s : State) (md : BitVec 2) : Bool := modMode md s.me.rmode == .sr

/-- Latency of an arithmetic instruction: 4 on floating point, else 2 (R53, R154). -/
def arithLat (ty : VTy) : Nat := if ty.isFp then 4 else 2

/-- `vadd` (R155, R156). -/
def execVadd (d a b : Reg) (ty : VTy) (sp : Bool) (md : BitVec 2) (s : State) : Host.Outcome State Fault Refusal :=
  issue (.vadd d a b ty sp md) s
    (let o := s.ops2 a b
     s.vectorFp (arithLat ty) sp (ty.isFp && drawsSr s md) 1 o d (laneAdd s.me.venv ty md o.src))

/-- `vsub` (R155, R156). -/
def execVsub (d a b : Reg) (ty : VTy) (sp : Bool) (md : BitVec 2) (s : State) : Host.Outcome State Fault Refusal :=
  issue (.vsub d a b ty sp md) s
    (let o := s.ops2 a b
     s.vectorFp (arithLat ty) sp (ty.isFp && drawsSr s md) 1 o d (laneSub s.me.venv ty md o.src))

/-- `vmul` (R155, R156). -/
def execVmul (d a b : Reg) (ty : VTy) (sp : Bool) (md : BitVec 2) (s : State) : Host.Outcome State Fault Refusal :=
  issue (.vmul d a b ty sp md) s
    (let o := s.ops2 a b
     s.vectorFp (arithLat ty) sp (ty.isFp && drawsSr s md) 1 o d (laneMul s.me.venv ty md o.src))

/-- `vmulh` (R155). -/
def execVmulh (d a b : Reg) (ty : VTy) (sp : Bool) (s : State) : Host.Outcome State Fault Refusal :=
  issue (.vmulh d a b ty sp) s
    (let o := s.ops2 a b
     s.vector 2 sp false o d (laneMulh ty o.src))

/-- `vfma` (R156). -/
def execVfma (d a b : Reg) (ty : VTy) (sp : Bool) (md : BitVec 2) (s : State) : Host.Outcome State Fault Refusal :=
  issue (.vfma d a b ty sp md) s
    (let o := s.ops3 a b d
     s.vectorFp 4 sp (drawsSr s md) 1 o d (laneFma s.me.venv ty md false false o.src))

/-- `vfms` (R156). -/
def execVfms (d a b : Reg) (ty : VTy) (sp : Bool) (md : BitVec 2) (s : State) : Host.Outcome State Fault Refusal :=
  issue (.vfms d a b ty sp md) s
    (let o := s.ops3 a b d
     s.vectorFp 4 sp (drawsSr s md) 1 o d (laneFma s.me.venv ty md false true o.src))

/-- `vfnma` (R156). -/
def execVfnma (d a b : Reg) (ty : VTy) (sp : Bool) (md : BitVec 2) (s : State) : Host.Outcome State Fault Refusal :=
  issue (.vfnma d a b ty sp md) s
    (let o := s.ops3 a b d
     s.vectorFp 4 sp (drawsSr s md) 1 o d (laneFma s.me.venv ty md true false o.src))

/-- `vmin` (R157). -/
def execVmin (d a b : Reg) (ty : VTy) (sp : Bool) (s : State) : Host.Outcome State Fault Refusal :=
  issue (.vmin d a b ty sp) s
    (let o := s.ops2 a b
     s.vector 2 sp false o d (laneMinMax s.me.venv ty false o.src))

/-- `vmax` (R157). -/
def execVmax (d a b : Reg) (ty : VTy) (sp : Bool) (s : State) : Host.Outcome State Fault Refusal :=
  issue (.vmax d a b ty sp) s
    (let o := s.ops2 a b
     s.vector 2 sp false o d (laneMinMax s.me.venv ty true o.src))

/-- `vabs` (R157). -/
def execVabs (d a : Reg) (ty : VTy) (sp : Bool) (md : BitVec 2) (s : State) : Host.Outcome State Fault Refusal :=
  issue (.vabs d a ty sp md) s
    (let o := s.ops2 a a
     s.vector 2 sp false o d (laneSign s.me.venv ty false md o.src))

/-- `vneg` (R157). -/
def execVneg (d a : Reg) (ty : VTy) (sp : Bool) (md : BitVec 2) (s : State) : Host.Outcome State Fault Refusal :=
  issue (.vneg d a ty sp md) s
    (let o := s.ops2 a a
     s.vector 2 sp false o d (laneSign s.me.venv ty true md o.src))

/-- `vand` (R158). -/
def execVand (d a b : Reg) (sp : Bool) (s : State) : Host.Outcome State Fault Refusal :=
  issue (.vand d a b sp) s
    (let o := s.ops2 a b
     s.vector 2 sp false o d (laneLogic (fun x y => x &&& y) o.src))

/-- `vor` (R158). -/
def execVor (d a b : Reg) (sp : Bool) (s : State) : Host.Outcome State Fault Refusal :=
  issue (.vor d a b sp) s
    (let o := s.ops2 a b
     s.vector 2 sp false o d (laneLogic (fun x y => x ||| y) o.src))

/-- `vxor` (R158). -/
def execVxor (d a b : Reg) (sp : Bool) (s : State) : Host.Outcome State Fault Refusal :=
  issue (.vxor d a b sp) s
    (let o := s.ops2 a b
     s.vector 2 sp false o d (laneLogic (fun x y => x ^^^ y) o.src))

/-- `vandn` (R158). -/
def execVandn (d a b : Reg) (sp : Bool) (s : State) : Host.Outcome State Fault Refusal :=
  issue (.vandn d a b sp) s
    (let o := s.ops2 a b
     s.vector 2 sp false o d (laneLogic (fun x y => x &&& (y ^^^ (2 ^ 32 - 1))) o.src))

/-- `vshl` (R158). -/
def execVshl (d a b : Reg) (ty : VTy) (sp md : Bool) (s : State) : Host.Outcome State Fault Refusal :=
  issue (.vshl d a b ty sp md) s
    (let o := s.ops2 a b
     s.vector 2 sp false o d (laneShift 0 ty md b.toNat o.src))

/-- `vshr` (R158). -/
def execVshr (d a b : Reg) (ty : VTy) (sp md : Bool) (s : State) : Host.Outcome State Fault Refusal :=
  issue (.vshr d a b ty sp md) s
    (let o := s.ops2 a b
     s.vector 2 sp false o d (laneShift 1 ty md b.toNat o.src))

/-- `vsar` (R158). -/
def execVsar (d a b : Reg) (ty : VTy) (sp md : Bool) (s : State) : Host.Outcome State Fault Refusal :=
  issue (.vsar d a b ty sp md) s
    (let o := s.ops2 a b
     s.vector 2 sp false o d (laneShift 2 ty md b.toNat o.src))

/-- `vcmp` (R159). -/
def execVcmp (d a b : Reg) (ty : VTy) (sp : Bool) (cond : VCond) (s : State) : Host.Outcome State Fault Refusal :=
  issue (.vcmp d a b ty sp cond) s
    (let o := s.ops2 a b
     s.vector 2 sp false o d (laneCmp s.me.venv ty cond o.src))

/-- `vbc` (R160). -/
def execVbc (d a b : Reg) (ty : VTy) (sp md : Bool) (s : State) : Host.Outcome State Fault Refusal :=
  issue (.vbc d a b ty sp md) s
    (let o := s.ops2 a b
     s.vector 2 sp false o d (laneBc ty md b.toNat o.src))

/-- `vxt` (R160). -/
def execVxt (d a b : Reg) (ty : VTy) (sp md : Bool) (s : State) : Host.Outcome State Fault Refusal :=
  issue (.vxt d a b ty sp md) s
    (let o := s.ops2 a b
     s.vector 2 sp false o d (laneXt ty md b.toNat o.src))

/-- `vrot` (R160). -/
def execVrot (d a b : Reg) (ty : VTy) (sp md : Bool) (s : State) : Host.Outcome State Fault Refusal :=
  issue (.vrot d a b ty sp md) s
    (let o := s.ops2 a b
     s.vector 2 sp false o d (laneRot ty md b.toNat o.src))

/-- `vlid` (R160). -/
def execVlid (d : Reg) (ty : VTy) (sp : Bool) (s : State) : Host.Outcome State Fault Refusal :=
  issue (.vlid d ty sp) s
    (s.vector 2 sp false (s.ops2 d d) d (laneLid ty))

/-- `vperm` (R160). -/
def execVperm (d a b : Reg) (ty : VTy) (sp : Bool) (s : State) : Host.Outcome State Fault Refusal :=
  issue (.vperm d a b ty sp) s
    (let o := s.ops2 a b
     s.vector 3 sp false o d (lanePerm ty o.src))

/-- `vrsum` (R161). -/
def execVrsum (d a : Reg) (ty : VTy) (sp : Bool) (md : BitVec 2) (s : State) : Host.Outcome State Fault Refusal :=
  issue (.vrsum d a ty sp md) s
    (let o := s.ops2 a a
     s.vectorFp 6 sp (ty.isFp && drawsSr s md) (treeDepth ty) o d (laneRsum s.me.venv ty md o.src))

/-- `vrmax` (R161). -/
def execVrmax (d a : Reg) (ty : VTy) (sp : Bool) (s : State) : Host.Outcome State Fault Refusal :=
  issue (.vrmax d a ty sp) s
    (let o := s.ops2 a a
     s.vector 6 sp false o d (laneRmm s.me.venv ty true o.src))

/-- `vrmin` (R161). -/
def execVrmin (d a : Reg) (ty : VTy) (sp : Bool) (s : State) : Host.Outcome State Fault Refusal :=
  issue (.vrmin d a ty sp) s
    (let o := s.ops2 a a
     s.vector 6 sp false o d (laneRmm s.me.venv ty false o.src))

/-- `vrcp` (R162, R163). -/
def execVrcp (d a : Reg) (ty : VTy) (sp : Bool) (s : State) : Host.Outcome State Fault Refusal :=
  issue (.vrcp d a ty sp) s
    (let o := s.ops2 a a
     s.vector 10 sp false o d (laneApprox s.me.venv ty Fmt.rcpOp o.src))

/-- `vrsq` (R162, R163). -/
def execVrsq (d a : Reg) (ty : VTy) (sp : Bool) (s : State) : Host.Outcome State Fault Refusal :=
  issue (.vrsq d a ty sp) s
    (let o := s.ops2 a a
     s.vector 10 sp false o d (laneApprox s.me.venv ty Fmt.rsqOp o.src))

/-- `vex2` (R162, R163). -/
def execVex2 (d a : Reg) (ty : VTy) (sp : Bool) (s : State) : Host.Outcome State Fault Refusal :=
  issue (.vex2 d a ty sp) s
    (let o := s.ops2 a a
     s.vector 10 sp false o d (laneApprox s.me.venv ty Fmt.ex2Op o.src))

/-- `vlg2` (R162, R163). -/
def execVlg2 (d a : Reg) (ty : VTy) (sp : Bool) (s : State) : Host.Outcome State Fault Refusal :=
  issue (.vlg2 d a ty sp) s
    (let o := s.ops2 a a
     s.vector 10 sp false o d (laneApprox s.me.venv ty Fmt.lg2Op o.src))

/-- `vdot4` (R164). -/
def execVdot4 (d a b : Reg) (ty : VTy) (sp : Bool) (md : BitVec 2) (s : State) : Host.Outcome State Fault Refusal :=
  issue (.vdot4 d a b ty sp md) s
    (let o := s.ops3 a b d
     s.vectorFp 3 sp (ty.isFp && drawsSr s md) 1 o d (laneDot s.me.venv ty md o.src))

/-- `vpopc` (R166). -/
def execVpopc (d a : Reg) (ty : VTy) (sp : Bool) (s : State) : Host.Outcome State Fault Refusal :=
  issue (.vpopc d a ty sp) s
    (let o := s.ops2 a a
     s.vector 2 sp false o d (lanePopc ty o.src))

/-- `vclz` (R166). -/
def execVclz (d a : Reg) (ty : VTy) (sp : Bool) (s : State) : Host.Outcome State Fault Refusal :=
  issue (.vclz d a ty sp) s
    (let o := s.ops2 a a
     s.vector 2 sp false o d (laneClz ty o.src))

/-- `vtacc` (R122, R165). -/
def execVtacc (d a b : Reg) (ty : VTy) (sp : Bool) (s : State) : Host.Outcome State Fault Refusal :=
  issue (.vtacc d a b ty sp) s
    (let o := s.ops3 a b d
     s.vector 2 sp false o d (laneTacc ty o.src))

/-! ### VX words -/

/-- `vsel` and `vsel.b` (R122, R168): per lane the value kept, and the source lane that fires. Where both the condition lane and a lane
it would keep are poisoned, the condition's fires: the spec does not say whose value TRAPC.CODE takes (R122; DESIGN CHOICE log 65).
-/
def selLane (bitwise : Bool) (o : VOps) (j : Nat) : Nat × Option Dep :=
  let c := o.lane (2, j)
  let x := o.lane (0, j)
  let y := o.lane (1, j)
  let rd : List Dep :=
    if bitwise then (if c = 2 ^ 32 - 1 then [(0, j)] else if c = 0 then [(1, j)] else [(0, j), (1, j)])
    else (if c = 0 then [(1, j)] else [(0, j)])
  (if bitwise then (x &&& c) ||| (y &&& (c ^^^ (2 ^ 32 - 1))) else if c = 0 then y else x,
    if o.pois (2, j) then some (2, j) else firstDep o.pois rd)

/-- The select instructions: of the lanes that fire (`selLane`) the first in the order A, B, third source, then by number, raises
POISON; else every lane is written clear (R122, R168). -/
def State.select (s : State) (bitwise : Bool) (d a b vc : Reg) : State :=
  let o : VOps := { s.ops2 a b with c := s.me.v vc }
  let rs := (upTo 64).map (selLane bitwise o)
  match firstDep (fun _ => true) (rs.filterMap Prod.snd) with
  | some p => s.poison (BitVec.ofNat 64 (o.lane p))
  | none => s.done fun c => c.push 2 (.vreg d (BitVec.ofNat 2048 (packW 32 (rs.map Prod.fst))) 0 0)

/-- `vsel` (R122). -/
def execVsel (d a b vc : Reg) (s : State) : Host.Outcome State Fault Refusal :=
  issue (.vsel d a b vc) s
    (s.select false d a b vc)

/-- `vselB` (R168). -/
def execVselB (d a b vc : Reg) (s : State) : Host.Outcome State Fault Refusal :=
  issue (.vselB d a b vc) s
    (s.select true d a b vc)

/-- `vcvt` (R169, R170). -/
def execVcvt (d a src : Reg) (cf : BitVec 5) (sp md : Bool) (s : State) : Host.Outcome State Fault Refusal :=
  issue (.vcvt d a src cf sp md) s
    (let o := s.ops2 a a
     s.vectorFp 4 sp (s.me.rmode == .sr && cvtDraws src.toNat cf.toNat md != 0) (cvtDraws src.toNat cf.toNat md) o d
       (laneCvt s.me.venv src.toNat cf.toNat md o.src))

/-- `vbq` (R175). -/
def execVbq (d a b : Reg) (fmt : BitVec 5) (sp md : Bool) (s : State) : Host.Outcome State Fault Refusal :=
  issue (.vbq d a b fmt sp md) s
    (let o := s.ops2 a b
     s.vector 6 sp false o d (laneBq (fmt.toNat - 11) md o.src))

/-- `vbdq` (R176). -/
def execVbdq (d a : Reg) (fmt : BitVec 5) (sp md : Bool) (s : State) : Host.Outcome State Fault Refusal :=
  issue (.vbdq d a fmt sp md) s
    (let o := s.ops2 a a
     s.vectorFp 4 sp (s.me.rmode == .sr) 1 o d (laneBdq s.me.venv (fmt.toNat - 11) md o.src))

/-- `vbscl` (R177). -/
def execVbscl (d a b : Reg) (fmt : BitVec 5) (sp md : Bool) (s : State) : Host.Outcome State Fault Refusal :=
  issue (.vbscl d a b fmt sp md) s
    (let o := s.ops2 a b
     s.vector 4 sp false o d (laneBscl (fmt.toNat - 11) md o.src))

/-- `vtunp` (R123). -/
def execVtunp (d a : Reg) (n : BitVec 5) (sp : Bool) (s : State) : Host.Outcome State Fault Refusal :=
  issue (.vtunp d a n sp) s
    (let o := s.ops2 a a
     s.vector 3 sp true o d (laneTunp n.toNat o.src))

/-- `vpak` (R171). -/
def execVpak (d a b : Reg) (wc : BitVec 5) (sp : Bool) (s : State) : Host.Outcome State Fault Refusal :=
  issue (.vpak d a b wc sp) s
    (let o := s.ops2 a b
     s.vector 2 sp false o d (lanePak wc.toNat o.src))

/-- `vupk` (R173). -/
def execVupk (d a : Reg) (h wc : BitVec 5) (sp md : Bool) (s : State) : Host.Outcome State Fault Refusal :=
  issue (.vupk d a h wc sp md) s
    (let o := s.ops2 a a
     s.vector 2 sp false o d (laneUpk wc.toNat h.toNat md o.src))

/-- `vrng` (R179). -/
def execVrng (d a b : Reg) (sp md : Bool) (s : State) : Host.Outcome State Fault Refusal :=
  issue (.vrng d a b sp md) s
    (let o := s.ops2 a b
     s.vector 8 sp false o d (laneRng (if md then s.me.venv.key else o.src.b % 2 ^ 128)
       (if md then [] else (upTo 4).map fun i => (1, i)) o.src))

/-- `vptst` never fires (R122). -/
def execVptst (d a : Reg) (s : State) : Host.Outcome State Fault Refusal :=
  issue (.vptst d a) s
    (let p := (s.me.v a).poison
     s.done fun c => c.push 2
       (.vreg d (BitVec.ofNat 2048 (packW 32 ((upTo 64).map fun j => (p.getLsbD j).toNat))) 0 0))

end Sys2Proof.Machine
end

