-- ==== Sys2Proof/Machine/Words.lean ====
section
/-! DEFINITION. The meanings of the words of bundles put together, for the tile cycle that runs them (R36 to R38). -/

namespace Sys2Proof.Machine

/-- What a word of a bundle does: its meaning. A word of the memory sequencer and a step that is no word is none of a
bundle's. -/
def execWord (i : Instr) (s : State) : Host.Outcome State Fault Refusal :=
  match i with
  | .add d a b w sp => execAdd d a b w sp s
  | .sub d a b w sp => execSub d a b w sp s
  | .mul d a b w sp => execMul d a b w sp s
  | .mulh d a b w sp => execMulh d a b w sp s
  | .mulhn d a b w sp => execMulhn d a b w sp s
  | .div d a b w sp => execDiv d a b w sp s
  | .divn d a b w sp => execDivn d a b w sp s
  | .rem d a b w sp => execRem d a b w sp s
  | .remn d a b w sp => execRemn d a b w sp s
  | .and d a b w sp => execAnd d a b w sp s
  | .or d a b w sp => execOr d a b w sp s
  | .xor d a b w sp => execXor d a b w sp s
  | .andn d a b w sp => execAndn d a b w sp s
  | .orn d a b w sp => execOrn d a b w sp s
  | .shl d a b w sp => execShl d a b w sp s
  | .shr d a b w sp => execShr d a b w sp s
  | .sar d a b w sp => execSar d a b w sp s
  | .rol d a b w sp => execRol d a b w sp s
  | .ror d a b w sp => execRor d a b w sp s
  | .min d a b w sp => execMin d a b w sp s
  | .max d a b w sp => execMax d a b w sp s
  | .minn d a b w sp => execMinn d a b w sp s
  | .maxn d a b w sp => execMaxn d a b w sp s
  | .clz d a w sp => execClz d a w sp s
  | .ctz d a w sp => execCtz d a w sp s
  | .popc d a w sp => execPopc d a w sp s
  | .bfx d a b w sp => execBfx d a b w sp s
  | .bfxn d a b w sp => execBfxn d a b w sp s
  | .bfi d a b w sp => execBfi d a b w sp s
  | .csel d a b g => execCsel d a b g s
  | .addi sp d a imm => execAddi sp d a imm s
  | .andi sp d a imm => execAndi sp d a imm s
  | .ori sp d a imm => execOri sp d a imm s
  | .xori sp d a imm => execXori sp d a imm s
  | .shli sp d a n => execShli sp d a n s
  | .shri sp d a n => execShri sp d a n s
  | .sari sp d a n => execSari sp d a n s
  | .muli sp d a imm => execMuli sp d a imm s
  | .lui d imm => execLui d imm s
  | .aup d imm => execAup d imm s
  | .cmp g a b cond w => execCmp g a b cond w s
  | .cmpi g imm cond a => execCmpi g imm cond a s
  | .tst g a b z w => execTst g a b z w s
  | .gand g ga gb => execGand g ga gb s
  | .gor g ga gb => execGor g ga gb s
  | .gxor g ga gb => execGxor g ga gb s
  | .gnot g ga => execGnot g ga s
  | .ptst g a => execPtst g a s
  | .prep g tgt => execPrep g tgt s
  | .prepr g a => execPrepr g a s
  | .br g => execBr g s
  | .brA g => execBrA g s
  | .brf g => execBrf g s
  | .brl g => execBrl g s
  | .loop a gr epk esl => execLoop a gr epk esl s
  | .loopi cnt gr epk esl => execLoopi cnt gr epk esl s
  | .lbrk g n => execLbrk g n s
  | .sync scope => execSync scope s
  | .frame => execFrame s
  | .waitt a b => execWaitt a b s
  | .nop => execNop s
  | .halt => execHalt s
  | .vadd d a b ty sp md => execVadd d a b ty sp md s
  | .vsub d a b ty sp md => execVsub d a b ty sp md s
  | .vmul d a b ty sp md => execVmul d a b ty sp md s
  | .vmulh d a b ty sp => execVmulh d a b ty sp s
  | .vfma d a b ty sp md => execVfma d a b ty sp md s
  | .vfms d a b ty sp md => execVfms d a b ty sp md s
  | .vfnma d a b ty sp md => execVfnma d a b ty sp md s
  | .vmin d a b ty sp => execVmin d a b ty sp s
  | .vmax d a b ty sp => execVmax d a b ty sp s
  | .vabs d a ty sp md => execVabs d a ty sp md s
  | .vneg d a ty sp md => execVneg d a ty sp md s
  | .vand d a b sp => execVand d a b sp s
  | .vor d a b sp => execVor d a b sp s
  | .vxor d a b sp => execVxor d a b sp s
  | .vandn d a b sp => execVandn d a b sp s
  | .vshl d a b ty sp md => execVshl d a b ty sp md s
  | .vshr d a b ty sp md => execVshr d a b ty sp md s
  | .vsar d a b ty sp md => execVsar d a b ty sp md s
  | .vcmp d a b ty sp cond => execVcmp d a b ty sp cond s
  | .vbc d a b ty sp md => execVbc d a b ty sp md s
  | .vxt d a b ty sp md => execVxt d a b ty sp md s
  | .vlid d ty sp => execVlid d ty sp s
  | .vrot d a b ty sp md => execVrot d a b ty sp md s
  | .vperm d a b ty sp => execVperm d a b ty sp s
  | .vrsum d a ty sp md => execVrsum d a ty sp md s
  | .vrmax d a ty sp => execVrmax d a ty sp s
  | .vrmin d a ty sp => execVrmin d a ty sp s
  | .vrcp d a ty sp => execVrcp d a ty sp s
  | .vrsq d a ty sp => execVrsq d a ty sp s
  | .vex2 d a ty sp => execVex2 d a ty sp s
  | .vlg2 d a ty sp => execVlg2 d a ty sp s
  | .vdot4 d a b ty sp md => execVdot4 d a b ty sp md s
  | .vpopc d a ty sp => execVpopc d a ty sp s
  | .vclz d a ty sp => execVclz d a ty sp s
  | .vtacc d a b ty sp => execVtacc d a b ty sp s
  | .vsel d a b vc => execVsel d a b vc s
  | .vselB d a b vc => execVselB d a b vc s
  | .vcvt d a src cf sp md => execVcvt d a src cf sp md s
  | .vbq d a b fmt sp md => execVbq d a b fmt sp md s
  | .vbdq d a fmt sp md => execVbdq d a fmt sp md s
  | .vbscl d a b fmt sp md => execVbscl d a b fmt sp md s
  | .vtunp d a n sp => execVtunp d a n sp s
  | .vpak d a b wc sp => execVpak d a b wc sp s
  | .vupk d a h wc sp md => execVupk d a h wc sp md s
  | .vrng d a b sp md => execVrng d a b sp md s
  | .vptst d a => execVptst d a s
  | .ld space r b size off => execLd space r b size off s
  | .st space r b size off => execSt space r b size off s
  | .vld space r b size off => execVld space r b size off s
  | .vst space r b size off => execVst space r b size off s
  | .vgat space r b size vi sp => execVgat space r b size vi sp s
  | .vsct space r b size vi => execVsct space r b size vi s
  | .vldb space r b size off => execVldb space r b size off s
  | .cbdef a b c inC n => execCbdef a b c inC n s
  | .cbadvP a n => execCbadvP a n s
  | .cbadvC a n => execCbadvC a n s
  | .cbadvPW a n => execCbadvPW a n s
  | .cbadvCW a n => execCbadvCW a n s
  | .cp a b c t => execCp a b c t s
  | .cpg a b c t => execCpg a b c t s
  | .cpm a b c t => execCpm a b c t s
  | .mlds a b c => execMlds a b c s
  | .mswap => execMswap s
  | .mmul a b c cbf n => execMmul a b c cbf n s
  | .mmulc a b c cbf n => execMmulc a b c cbf n s
  | .mclr a b => execMclr a b s
  | .snd a b c => execSnd a b c s
  | .rcv a b sig => execRcv a b sig s
  | .msq a => execMsq a s
  | .ldg d a sp win cls => execLdg d a sp win cls s
  | .stg d a size win => execStg d a size win s
  | .vldg d a sp win cls => execVldg d a sp win cls s
  | .vstg d a win => execVstg d a win s
  | .amo d a w4 win scope op => execAmo d a w4 win scope op s
  | .red d a w4 win scope op => execRed d a w4 win scope op s
  | .lqpop d => execLqpop d s
  | .tagw t => execTagw t s
  | .tagwa a => execTagwa a s
  | .tagff t => execTagff t s
  | .tagclr t => execTagclr t s
  | .fenceAcq scope => execFenceAcq scope s
  | .fenceRel scope => execFenceRel scope s
  | .fenceSc scope => execFenceSc scope s
  | .drain scope => execDrain scope s
  | .trig => execTrig s
  | .coll a => execColl a s
  | .rdsr d n => execRdsr d n s
  | .wrsr a n => execWrsr a n s
  | .trap k => execTrap k s
  | .tret => execTret s
  | .stop k => execStop k s
  | .swap => execSwap s
  | .swapSteward a => execSwapSteward a s
  | .ckpt t => execCkpt t s
  | .lsv b off => execLsv b off s
  | .lrs b off => execLrs b off s
  | .stampAt sig => execStampAt sig s
  | .stampHold sig => execStampHold sig s
  | .xt e => execXt e s
  | _ => .next s

end Sys2Proof.Machine
end

