-- ==== Sys2Proof/Machine/Cycle.lean ====
section
/-! DEFINITION. A tile cycle of a core: the attempt to issue the bundle at the program counter, its close, the cycles in
which a core issues nothing (R14, R17, R19, R21, R22, R27, R36 to R38, R86, R91, R100, R103, R109, R145, R240). -/

namespace Sys2Proof.Machine

/-! ### The words of the bundle (R36 to R38) -/

/-- A decoded word of a bundle: its address, the XT value that follows it, its class, the instruction. -/
structure Op where
  addr : IAddr
  ext : Option (BitVec 27)
  cls : Nat
  instr : Instr
  deriving DecidableEq, Repr

/-- The value of the XT word that comes next (R43). -/
def xtValue : List (IAddr × Word) → Option (BitVec 27)
  | [] => none
  | x :: _ => if classOf x.2 = 11 then some (x.2.extractLsb' 0 27) else none

/-- The core about to issue a word at an address. -/
def Core.atWord (c : Core) (a : IAddr) (e : Option (BitVec 27)) : Core :=
  c.onIss fun i => { i with word := a, ext := e, verdict := .idle }

/-- The words of a bundle decoded; none where one is illegal on this core (R38 step 3). -/
def Core.ops (c : Core) : List (IAddr × Word) → Option (List Op)
  | [] => some []
  | (a, w) :: r =>
    if classOf w = 11 then c.ops r
    else
      match decode c.steward w with
      | .error _ => none
      | .ok i =>
        if legal i (c.atWord a (xtValue r)) then
          (c.ops r).map fun l => { addr := a, ext := xtValue r, cls := classOf w, instr := i } :: l
        else none

/-- The words in the order of their pipes: S0, S1, V, M, X, C (R36). -/
def pipeOrder (l : List Op) : List Op :=
  (l.filter fun o => decide (o.cls ≤ 2)) ++ (l.filter fun o => o.cls == 4 || o.cls == 5) ++
  (l.filter fun o => o.cls == 6 || o.cls == 8) ++ (l.filter fun o => o.cls == 7) ++
  l.filter fun o => o.cls == 3 || o.cls == 9

/-! ### Buffer ports (R239, R240) -/

/-- The bytes a space moves for a tile in a tile cycle (R239). -/
def portBytes : Space → Nat
  | .a => 512
  | .w => 256
  | .c => 1024
  | .k => 128

/-- The space of a buffer. -/
def BSpace.space : BSpace → Space
  | .a => .a
  | .w => .w
  | .c => .c

/-- Quotient rounded up. -/
def upDiv (a b : Nat) : Nat := (a + b - 1) / b

/-- The bytes of a row of activations in each of the `d` cycles that it takes to enter (R185, R240; DEDUCED log 58). -/
def rowShare (desc : W64) (d : Nat) : Nat := upDiv (recordBytes desc) d

/-- The bytes of a group of weights in each of the cycles that it takes (R184, R240; DEDUCED log 58). -/
def groupShare (desc : W64) (step : Nat) : Nat := min 256 (upDiv (arrayBytes (fdCode (wFd desc)) (24 * wNw desc)) step)

/-- Whether logical cycle `t` is one of `n` from `lo` on. -/
def inSpan (t lo n : Nat) : Bool := decide (lo ≤ t) && decide (t < lo + n)

/-- The bytes that a result in flight moves in its space in the logical cycle that begins: a store or a delivery as it performs;
`mclr` in the cycles before it performs, a full line of the port in each (R192, R240; DEDUCED log 58). -/
def Flight.moves (f : Flight) : Option (Space × Nat) :=
  match f.what with
  | .bstore sp l _ => if f.remain = 0 ∧ f.past = 0 then some (sp.space, l.length) else none
  | .rcvdata _ _ l => if f.remain = 0 ∧ f.past = 0 then some (.a, l.length) else none
  | .mclr _ _ n => if inSpan f.remain 1 ((n + 127) / 128) then some (.c, 1024) else none
  | _ => none

/-- The bytes that the array moves in the logical cycle that begins. The rows of a stream, direct or from a circular buffer, are
read from A in the cycles in which they enter; the AX updates of a row move in the `d` cycles before they perform; a group of
weights is read from W in the cycles up to the next (R184, R185, R240; DEDUCED log 58). -/
def Arch.arrayMoves (c : Arch) : List (Space × Nat) :=
  (c.eng.arr.streams.flatMap fun x =>
    match x.d with
    | none => []
    | some d =>
      let n := d * descM x.desc
      (if x.hops = 0 ∧ inSpan c.now (x.lt.toNat + 1) (n - 1) then [(Space.a, rowShare x.desc d)] else []) ++
      if inSpan c.now (x.lt.toNat + 552 + 16 * x.hops) n then [(Space.c, min 1024 (upDiv 2048 d))] else []) ++
  c.flight.filterMap fun f =>
    match f.what with
    | .plane l =>
      (c.eng.arr.loads.find? fun x => x.id == l).bind fun x =>
        let step := if x.paired then 49 else 25
        if inSpan (12 * step - f.remain) 1 (step * kBlocks (wKw x.desc) - 1) then some (Space.w, groupShare x.desc step) else none
    | _ => none

/-- The bytes a word moves in a space at its issue: what it reads, what it stores to K, the first cycle of a stream's row 0 or of a
load's group 0 (R240). -/
def Core.reads (c : Core) (i : Instr) : Option (Space × Nat) :=
  let d := fun (desc : W64) => stepsOf (fdWidth (descAfd desc)) c.eng.arr.active
  match i with
  | .ld sp _ _ z _ => some (sp, formBytes false z)
  | .vld sp _ _ z _ => some (sp, formBytes true z)
  | .vldb sp _ _ z _ => some (sp, sizeBytes z)
  | .vgat sp _ _ z _ _ => some (sp, formBytes true z)
  | .st .k _ _ z _ => some (.k, formBytes false z)
  | .vst .k _ _ z _ => some (.k, formBytes true z)
  | .lrs .. => some (.a, 384)
  | .snd _ _ n => some (.a, (c.s n).val.toNat)
  | .mmul a .. => some (.a, rowShare (c.s a).val (d (c.s a).val))
  | .mmulc a .. => if c.num % 4 = 0 then some (.a, rowShare (c.s a).val (d (c.s a).val)) else none
  | .cpm _ _ z _ =>
    let desc := BitVec.ofNat 64 (leNat (c.bytes .a ((c.s z).val.toNat + 8) 8))
    some (.a, rowShare desc (d desc))
  | .mlds _ _ z => some (.w, groupShare (c.s z).val (if fdWidth (wFd (c.s z).val) = 16 then 49 else 25))
  | _ => none

/-- Tile cycles that the ports need for what a logical cycle moves: the results that performed in it, the words it issues. -/
def portCycles (l : List (Space × Nat)) : Nat :=
  [Space.a, .w, .c, .k].foldl (fun n sp =>
    max n (upDiv ((l.filter fun x => x.1 == sp).foldl (fun k x => k + x.2) 0) (portBytes sp))) 1

/-! ### The attempt -/

/-- What an attempt to issue comes to: a stall with the requests it leaves behind, a state to go on with, or a stop of
the model. -/
inductive Attempt where
  | stall (k : StallCause) (u : State)
  | commit (u : State)
  | stop (o : Host.Outcome State Fault Refusal)

/-- The state before the words, with the cause that one of them raised: no word of the bundle executes (R38). -/
def State.adopt (t u : State) : State :=
  { t with
    parts := u.parts
    me := { t.me with
      run := u.me.run, stop := u.me.stop, pc := u.me.pc, xfer := u.me.xfer, fromTrap := u.me.fromTrap
      iss := { u.me.iss with fl := 0 }
      spec := { t.me.spec with trapc := u.me.spec.trapc, trappc := u.me.spec.trappc } } }

/-- What a stalled bundle has asked for stays asked: its page walk, its power leave, granted or not (R198, R246). -/
def State.keepAsk (s u : State) : State :=
  (s.onMe fun c => { c with
      walk := if u.me.walk = .none then c.walk else u.me.walk
      leave := if c.grants.length < u.me.grants.length then .granted else u.me.leave
      served := u.me.served }).onDie s.me.die fun d =>
    { d with leaves := (u.die s.me.die).leaves, pwruse := (u.die s.me.die).pwruse, walks := (u.die s.me.die).walks }

/-- What the words so far wait for: the lowest-numbered cause (R22); whether one of them may still raise a cause when what it
waits for is here; whether nothing but its leave and its translations keeps the bundle, so that it asks for them (R198);
whether one is held (R225). -/
structure Waits where
  cause : Option StallCause
  blind : Bool
  asks : Bool
  held : Bool
  deriving DecidableEq, Repr

/-- The lower-numbered of two stall causes (R22). -/
def lowerCause (a : Option StallCause) (k : StallCause) : StallCause :=
  match a with
  | none => k
  | some j => if stallNum k < stallNum j then k else j

/-- A word that stalls. -/
def Waits.add (w : Waits) (k : StallCause) : Waits :=
  { w with
    cause := some (lowerCause w.cause k)
    blind := w.blind || k == .land || k == .recv
    asks := w.asks && (k == .xlat || k == .fabric || k == .leave || k == .sync) }

/-- The words of a bundle one after another, from the state they share. -/
inductive Tried where
  | going (s : State) (w : Waits)
  | raised (u : State)
  | stop (o : Host.Outcome State Fault Refusal)

/-- The words in pipe order: the first cause ends the attempt, but not before every earlier word has its operands (R32, R38);
a word that stalls or is held leaves the state to the others. -/
def tryWords : List Op → State → Waits → Tried
  | [], s, w => .going s w
  | o :: r, s, w =>
    match execWord o.instr (s.onMe fun c => c.atWord o.addr o.ext) with
    | .next u =>
      match u.me.iss.verdict with
      | .raised => if w.blind then .going s w else .raised u
      | .stall k => tryWords r (s.keepAsk u) (w.add k)
      | .held => tryWords r s { w with held := true }
      | _ => tryWords r u w
    | x => .stop x

/-- Whether control reached no start word, or the bundle runs past the plane (R35, R49). -/
def Arch.badTarget (c : Arch) : Bool :=
  (c.xfer && !c.isStart c.pc) || c.pc == 0x7FFF || c.pc.toNat % 4 == 3 || c.runsPast planeWords c.pc

/-- The issue context of the bundle at the program counter. -/
def Core.beginIss (c : Core) : Core :=
  c.onIss fun _ =>
    { start := c.pc
      seqNext := c.afterBundle 7 c.pc
      word := c.pc, ext := none, held := none, next := none, skip := false, verdict := .idle
      fl := 0
      seen := { lqn := BitVec.ofNat 64 c.eng.lq.length, pixm := c.pixm, pixg := c.pixg, pixc := c.pixc } }

/-! ### The close of a bundle -/

/-- The loop-end check of a bundle that started at `a`: the stack after it, and LBEG where a level repeats (R86). -/
def Core.loopCheck (c : Core) (a : IAddr) : Nat → Core × Option IAddr
  | 0 => (c, none)
  | k + 1 =>
    let l := c.level (c.loops.lsd.toNat - 1)
    if c.loops.lsd = 0 ∨ l.fin.setWidth 15 ≠ a then (c, none)
    else if l.idx.toNat + 1 < l.cnt.toNat then
      (c.setLevel (c.loops.lsd.toNat - 1) { l with idx := l.idx + 1 }, some l.beg)
    else (c.setLsd (c.loops.lsd - 1)).loopCheck a k

/-- `trap`, by which the next bundle is one that trap entry reaches (R104). -/
def isTrap : Instr → Bool
  | .trap _ => true
  | _ => false

/-- Leave goes back to the die when its array command is complete (R198, R354; DEDUCED log 18). -/
def State.returnLeave (s : State) : State :=
  let live := s.me.arrayCmds.map Prod.snd
  let back := s.me.grants.filter fun g => !live.contains g.1
  if back.isEmpty then s
  else
    (s.onMe fun c => { c with grants := c.grants.filter fun g => live.contains g.1 }).onDie s.me.die fun d =>
      { d with pwruse := back.foldl (fun u g => u - g.2) d.pwruse }

/-- After the words: the flags of the deliveries the bundle observes, the loop-end check, the next address, logical time; a
`halt` keeps its own address and its LT; the stop address of a `stop` is the next start word in sequence (R17, R86, R91, R98, R107,
R144; DEDUCED log 57). -/
def Core.nextBundle (c : Core) (trap : Bool) : Core :=
  let r : Core × Option IAddr := if c.iss.skip then (c, c.iss.next) else c.loopCheck c.iss.start 7
  let a := r.2.getD r.1.iss.seq
  let c : Core := { r.1 with
    pc := if r.1.run = Run.halted then r.1.iss.start else a
    after := if r.1.run = Run.halted then 1 else r.1.after
    stop := if r.1.run = Run.stopping then r.1.stop.map fun p => { p with addr := r.1.iss.seq } else r.1.stop
    xfer := r.2.isSome, fromTrap := trap && r.1.run == Run.running }
  (c.onSpec fun p => { p with
    lt := if c.run = Run.halted then p.lt else p.lt + 1
    cyc := p.cyc + 1
    fpstat := p.fpstat ||| c.iss.fl.setWidth 64 }).age

/-- A bundle that has issued is closed; its new requests number from `n` on. -/
def State.close (u : State) (ops : List Op) (n : Nat) : State :=
  ((u.onMe fun c => c.nextBundle (ops.any fun o => isTrap o.instr)).sendNew n).returnLeave

/-- The words of a bundle behind its stamp: causes, stalls, a ring that takes no more of its cells, the held form of `lqpop`, the
limit of results in flight, or the close (R22, R38, R109, R225, R319). -/
def State.words (t : State) (ops : List Op) : Attempt :=
  match tryWords (pipeOrder ops) t { cause := none, blind := false, asks := true, held := false } with
  | .stop o => .stop o
  | .raised u => .commit (t.adopt u)
  | .going u w =>
    match (if u.ringFull t.me.eng.nextId then w.add .fabric else w).cause with
    | some k => .stall k (if w.asks then u else t)
    | none =>
      if w.held then .commit (t.onMe Core.hold)
      else if 48 < u.me.landCount then .commit (t.landfull 1)
      else .commit (u.close ops t.me.eng.nextId)

/-- The bundle at the program counter tried: fetch, composition, legality, stamp, words (R38). -/
def State.attempt (s : State) : Attempt :=
  let t := s.onMe Core.beginIss
  let c := t.me
  if c.badTarget then .commit (t.raise .badtarget)
  else
    let b := (c.bundle 7 c.pc).1
    if !composed (c.pc.toNat % 4) (b.map Prod.snd) then .commit (t.raise .illbundle)
    else
      match c.ops b with
      | none => .commit (t.raise .illop)
      | some ops =>
        match ops.find? fun o => o.cls == 10 with
        | none => t.words ops
        | some o =>
          match execWord o.instr (t.onMe fun c => c.atWord o.addr o.ext) with
          | .next u => if u.me.iss.verdict = .issued then u.words ops else .commit u
          | x => .stop x

/-! ### The cycles of a core -/

/-- No bundle is being issued. -/
def State.rested (s : State) : State := s.onMe fun c => { c with iss := State.resetIss }

/-- The state of a core's checkpoint requests is taken at the start of the cycle after the `ckpt` bundle (R100). -/
def Core.capture (c : Core) : Core :=
  { c with ckpt := c.ckpt.map fun k => if k.image.isNone then { k with image := some c.toArch } else k }

/-- The flags whose trap is enabled. -/
def Arch.enabled (c : Arch) (fl : Fl) : Fl := fl &&& c.spec.fpctl.extractLsb' 16 9

/-- The results of the executing core that are due perform before it stops, where nothing keeps them and none raises a flag whose trap
is enabled (R91, R115, R199). -/
def State.dueNow (s : State) : State :=
  let r := s.performDue
  if s.dueStall.isNone && r.1.me.enabled r.2 == 0 then r.1 else s

/-- An asynchronous cause stops the core before the bundle it would issue next, as the results due by then have performed (R106,
R199). -/
def State.asyncHalt (s : State) (p : Stop) : State :=
  (s.dueNow.onMe fun c => { c with fault := none }).halt
    { p with
      addr := s.me.pc, done := s.me.run == .halted, syncw := s.me.atBarrier.isSome, syncst := s.me.syncst }

/-! ### FPX (R103, R145) -/

/-- The number of the lowest flag of a set. -/
def lowFlag (fl : Fl) : Nat := ((List.range 9).find? fun k => fl.getLsbD k).getD 0

/-- FPX is taken for enabled flags at the bundle that would issue in the cycle in which they are raised (R103, R145). -/
def State.fpx (s : State) (fl : Fl) : State :=
  if fl ≠ 0 ∧ s.me.run = .running then
    (s.onMe fun c => c.onIss fun i => { i with start := c.pc }).raiseLocal .fpx (BitVec.ofNat 8 (lowFlag fl))
  else s

/-- The due results of the executing core perform; FPX is taken for the enabled flags they raise (R19, R103, R145). -/
def State.performFpx (s : State) : State := s.performDue.1.fpx (s.performDue.1.me.enabled s.performDue.2)

/-- FPX at the bundle that observes a delivery with an enabled flag: the flag is set, the bundle does not execute (R144, R145). -/
def State.observedFpx (s : State) (u : State) : State :=
  (s.onMe fun c =>
    (c.onSpec fun p => { p with fpstat := p.fpstat ||| u.me.iss.fl.setWidth 64 }).onEng fun e =>
      { e with lazyFl := u.me.eng.lazyFl }).fpx (s.me.enabled u.me.iss.fl)

/-! ### The cycle of a running core -/

/-- The tile cycles that the ports need for the executing core's next logical cycle: its results, its array and, where the bundle
at its program counter issues, its words (R240). -/
def State.portNeed (s : State) (issues : Bool) : Nat :=
  portCycles ((s.me.flight.filterMap Flight.moves) ++ s.me.arrayMoves ++
    if issues then ((s.me.ops (s.me.bundle 7 s.me.pc).1).getD []).filterMap fun o => s.me.reads o.instr else [])

/-- A cycle of a running core tried: an asynchronous cause, a stall, a trap of a flag, or its bundle. Where due results are
missing the cause is the lowest of theirs and of what the bundle meets; so it is where the ports have still to serve accesses, also
those of a bundle that waits for nothing but its leave or a MISC cause (R22, R240). -/
def State.tryCycle (s : State) : Attempt :=
  match s.me.fault with
  | some p => .commit (s.asyncHalt p)
  | none =>
    let r := s.performDue
    match s.dueStall, r.1.attempt with
    | some k, .stall j _ => .stall (lowerCause (some k) j) s
    | some k, _ => .stall k s
    | none, .commit u =>
      if s.me.served + 1 < s.portNeed (u.me.iss.verdict == .issued) then
        .stall .engine (s.onMe fun c => { c with served := c.served + 1 })
      else .commit (if r.1.me.enabled r.2 ≠ 0 then s.performFpx
        else if r.1.me.enabled u.me.iss.fl ≠ 0 then r.1.observedFpx u else u)
    | none, .stall k u =>
      if s.me.served + 1 < s.portNeed (stallNum .engine < stallNum k) then
        .stall (lowerCause (some .engine) k) (u.onMe fun c => { c with served := s.me.served + 1 })
      else .stall k u
    | none, a => a

/-- A stall cycle of a running core, with what its bundle has asked for and what its checkpoint copies ahead (R100, R198). -/
def State.stalled (s : State) (k : StallCause) (u : State) : State :=
  (((s.onMe Core.copyAhead).stall k).keepAsk u).rested

/-- A cycle of a running core. -/
def State.cycle (s : State) : Host.Outcome State Fault Refusal :=
  match s.tryCycle with
  | .stop o => o
  | .stall k u => .next (s.stalled k u)
  | .commit u => .next (u.onMe fun c => { c with served := 0 }).rested

/-- A cycle of a core at a barrier: SYNC, counted from its post on (R27). -/
def State.atBarrierCycle (s : State) : State :=
  match s.me.fault with
  | some p => (s.asyncHalt p).rested
  | none => ((s.stall .sync).onMe fun c => { c with since := c.since + 1 }).rested

/-- A cycle of a core that has halted: what its engines owe performs in their own time (R91). -/
def State.haltedCycle (s : State) : State :=
  match s.me.fault with
  | some p => (s.asyncHalt p).rested
  | none =>
    let t := s.onMe Core.tick
    if t.dueStall.isSome then t.onMe Core.copyAhead
    else (t.performDue.1.onMe fun c => { c.age with after := c.after + 1 }).returnLeave

/-- A tile cycle of core `n`; a tile that has posted at a barrier first sees whether it releases. -/
def State.coreTurn (s : State) (n : Nat) : Host.Outcome State Fault Refusal :=
  if 264 ≤ n then .next s
  else
    let s := ((s.barrier n).focus n |>.onMe Core.capture).meetChain
    match s.me.run with
    | .idle => .next (if s.me.ctx = 0 then s else s.onMe Core.tick)
    | .running => s.cycle
    | .barrier _ _ => .next s.atBarrierCycle
    | .halted => .next s.haltedCycle
    | _ => .next s

/-- Whether the due results of the executing core perform in its next tile cycle: nothing keeps the cycle (R19, R21). -/
def State.mayPerform (s : State) : Bool :=
  s.me.fault.isNone &&
  (match s.me.run with
   | .running => (match s.tryCycle with | .commit _ => true | _ => false)
   | .halted => s.dueStall.isNone
   | _ => false)

end Sys2Proof.Machine
end

