-- ==== Sys2Proof/Machine/Timing.lean ====
section
/-! DEFINITION. Steps of the part that concern logical time: held bundles, results that perform, replies, elastic stalls
(R17 to R22, R24, R28, R103, R145). -/

namespace Sys2Proof.Machine

/-! ### Steps within a tile cycle (R17, R19, R21, R22, R24) -/

/-- RESULT_PERFORMS: the due results of the executing core perform at the start of its tile cycle (R19, R54, R144). -/
def execResultPerforms (s : State) : Host.Outcome State Fault Refusal := .next (if s.mayPerform then s.performFpx else s)

/-- HOLD: a tile cycle in which the next bundle is held, by its stamp or by a load queue entry not yet due (R17, R24,
R225). -/
def execHold (s : State) : Host.Outcome State Fault Refusal :=
  .next
    (match s.me.run, s.tryCycle with
     | .running, .commit u => if u.me.iss.verdict = .held then (u.onMe fun c => { c with served := 0 }).rested else s
     | _, _ => s)

/-- Results of engines, which their engine may finish late (R19, R186, R188). -/
def Landing.ofEngine : Landing → Bool
  | .mclr .. | .wgroup .. | .plane .. | .enter .. | .axrow .. | .cbtake .. | .rcvdata .. => true
  | _ => false

/-- Whether a cause that the state of the module does not show may stand in a tile cycle that would go on: MISC, and ENGINE
where an engine result is due (R22; DESIGN CHOICE log 59). -/
def Arch.mayStall (c : Arch) (k : StallCause) : Bool :=
  k == .misc || (k == .engine && c.ready.any fun f => f.what.ofEngine)

/-- ELASTIC_STALL: a stall cycle of the executing core with its cause, the lowest present (R21, R22, R29). -/
def execElasticStall (cause : StallCause) (s : State) : Host.Outcome State Fault Refusal :=
  .next
    (match s.me.run with
     | .running =>
       (match s.tryCycle with
        | .stall k u => if k = cause then s.stalled k u else s
        | .commit _ => if s.me.fault.isNone && s.me.mayStall cause then s.stalled cause s else s
        | .stop _ => s)
     | .barrier .. => if cause = .sync ∧ s.me.fault = none then s.atBarrierCycle else s
     | _ => s)

/-! ### Replies (R28, R222) -/

/-- A request of a core. -/
def Arch.req (c : Arch) (id : Nat) : Option Req := c.eng.reqs.find? fun r => r.id == id

/-- A request gone. -/
def Core.dropReq (c : Core) (id : Nat) : Core := c.onEng fun e => { e with reqs := e.reqs.filter fun r => r.id != id }

/-- A result that waits for a reply gets its value: 8 bytes in a scalar register, 256 in a vector register (R221). -/
def Landing.fill (w : Landing) (bs : List Byte) (fl : Fl) : Landing :=
  match w with
  | .sreg d _ _ _ => .sreg d (BitVec.ofNat 64 (leNat bs)) false fl
  | .vreg d _ _ _ => .vreg d (vldVal 4 bs) 0 fl
  | w => w

/-- The reply of request `id` reaches its result; it performs at its due cycle, or at once where that has passed (R28). -/
def Core.reply (c : Core) (id : Nat) (bs : List Byte) (fl : Fl) : Core :=
  { c.dropReq id with
    flight := c.flight.map fun f =>
      if f.await == .reply id then { f with await := .no, what := f.what.fill bs fl } else f }

/-- The pieces a remote access reaches set. -/
def ReqKind.setPieces (k : ReqKind) (ps : List Piece) : ReqKind :=
  match k with
  | .gload _ w o sp v => .gload ps w o sp v
  | .gstore _ w o bs => .gstore ps w o bs
  | .amo _ w o op w4 v v2 => .amo ps w o op w4 v v2
  | .red _ w o op w4 v => .red ps w o op w4 v
  | k => k

/-- The window, offset and bytes of a global access, and whether it reads and writes: the register offset aligned down to the
element size (R221, R245). -/
def ReqKind.place : ReqKind → Option (BitVec 3 × Nat × Nat × Bool × Bool)
  | .gload _ w o _ vec => some (w, if vec then o / 4 * 4 else o / 8 * 8, if vec then 256 else 8, true, false)
  | .gstore _ w o bs =>
    let n := if bs.length = 256 then 4 else bs.length
    some (w, o / n * n, bs.length, false, true)
  | .amo _ w o _ w4 _ _ => some (w, o / amoBytes w4 * amoBytes w4, amoBytes w4, true, true)
  | .red _ w o _ w4 _ => some (w, o / amoBytes w4 * amoBytes w4, amoBytes w4, true, true)
  | _ => none

/-- The pieces a global access reaches: as translated at issue, or translated again where it is issued again (R108, R115, R246,
R255). -/
def State.placed (s : State) (c : Core) (k : ReqKind) : XAll :=
  if !k.pieces.isEmpty then .ok k.pieces
  else
    match k.place with
    | none => .no .miss 0
    | some x =>
      match windowVa (c.win x.1) x.2.1 x.2.2.1 with
      | none => .no .window 0
      | some va => translateAll (fun v => s.xlatCopy c v x.2.2.2.1 x.2.2.2.2) (cut va x.2.2.1)

/-- A request of a core changed. -/
def Core.onReq (c : Core) (id : Nat) (f : Req → Req) : Core :=
  c.onEng fun e => { e with reqs := e.reqs.map fun r => if r.id == id then f r else r }

/-- An access that has performed on another die: the cells of its reply are under way (R314, R316). -/
def State.sendBack (s : State) (c : Core) (id : Nat) (cells : List (Nat × RCell)) (bs : List Byte) (fl : Fl) (amo : Bool) : State :=
  ((s.consumeCells c id).onCore c.num fun c => c.onReq id fun r => { r with kind := .back bs fl amo r.kind }).queueCells cells

/-- A poisoned result with the code of a cause (R222). -/
def Landing.poisoned (w : Landing) (k : Cause) : Landing :=
  match w with
  | .sreg d _ _ _ => .sreg d (BitVec.ofNat 64 k.num) true 0
  | .vreg d _ _ _ => .vreg d (ofLanes (List.replicate 64 k.num)) (BitVec.allOnes 64) 0
  | w => w

/-- A speculative load that meets a cause after its issue delivers it as a poisoned result (R222). -/
def Core.replyPoison (c : Core) (id : Nat) (k : Cause) : Core :=
  { c.dropReq id with
    flight := c.flight.map fun f =>
      if f.await == .reply id then { f with await := .no, what := f.what.poisoned k } else f }

/-- Whether an access is a load with S = 1 (R222). -/
def ReqKind.speculative : ReqKind → Bool
  | .gload _ _ _ sp _ => sp
  | _ => false

/-- A cause that an access meets after its issue: a load with S = 1 ends poisoned; another waits to be issued again, and its tile
stops (R106, R108, R222). -/
def Core.reqFault (c : Core) (id : Nat) (k : Cause) : Core :=
  if (c.req id).any fun r => r.kind.speculative then c.replyPoison id k
  else
    let w := ((c.req id).map fun r => r.kind.issued).getD (0, 0)
    (c.onReq id fun r => { r with fault := some k, kind := r.kind.setPieces [] }).async (asyncStop k w.2 w.1 (.access id))

/-- An access that has left the replay queue and not yet performed: its place is to be translated again (R108, R255). -/
def Req.again (r : Req) : Bool := r.kind.place.isSome && r.kind.pieces.isEmpty

/-- Whether an access of a tile waits: for its cells, to be issued again, or for one of the tile that entered the replay queue
before it (R108, R256, R320). -/
def State.waits (s : State) (c : Core) (r : Req) : Bool :=
  s.inRing c r.id || r.fault.isSome || (r.again && c.eng.reqs.any fun q => decide (q.id < r.id) && q.again)

/-- What a request sends: the bytes it writes, or the address it reads. -/
def ReqKind.sends (k : ReqKind) : List Byte :=
  match k with
  | .gstore _ _ _ bs => bs
  | .amo _ _ _ _ _ v _ => leBytes 8 v.toNat
  | .red _ _ _ _ _ v => leBytes 8 v.toNat
  | k => leBytes 8 k.issued.2

/-- An access issued again that crosses dies: its cells enter the ring, where they find room (R108, R256, R319). -/
def State.resend (s : State) (n : Nat) (r : Req) (ps : List Piece) : State :=
  let r' := { r with kind := r.kind.setPieces ps }
  let l := s.cellsOf (s.core n) r'
  if s.ringRoom l then (s.onCore n fun c => c.onReq r.id fun _ => r').queueCells l else s

/-- An access that performs where its pieces stand, over the port groups they lie behind; or it is kept by a migration, a draining
group, a page walk, a channel, a full replay queue or a ring without room for its cells, or meets a cause (R222, R250, R255, R256, R264,
R319, R339). -/
def State.atPlace (s : State) (n : Nat) (r : Req) (k : List Piece → State) : State :=
  let c := s.core n
  if s.waits c r then s
  else
    match s.placed c r.kind with
    | .ok ps =>
      if s.chansHold ps then s.askReclaim ps
      else if r.again && !(s.cellsOf c { r with kind := r.kind.setPieces ps }).isEmpty then s.resend n r ps
      else if !s.ringRoom (replies c r ps []) then s
      else (k ps).overGroups ps r.kind.sends
    | .no .miss va => s.askWalk c.die c.ctx va
    | .no .drain _ => s
    | .no x _ =>
      if s.replayFull c.die then s
      else (s.consumeCells c r.id).onCore n fun c => c.reqFault r.id (match x with | .window => .window | _ => .xlate)

/-- VARIABLE_LATENCY_REPLY: the bytes of a global load as they stand at its place in memory return to their register; from another
die by the cells of a reply (R28, R222, R261, R316). -/
def execVariableLatencyReply (core id : Nat) (s : State) : Host.Outcome State Fault Refusal :=
  let c := s.core core
  .next
    (match c.req id with
     | some r =>
       match r.kind with
       | .gload _ win _ _ _ =>
         s.atPlace core r fun ps =>
           let bs := s.readPieces c.ctx.toNat (c.win win).key.toNat ps
           let fl := flIf (s.stalePieces ps) flSTALE
           let l := replies c r ps bs
           if l.isEmpty then (s.consumeCells c id).onCore core fun c => c.reply id bs fl else s.sendBack c id l bs fl false
       | .back bs fl false _ =>
         if s.inRing c id then s else (s.consumeCells c id).onCore core fun c => c.reply id bs fl
       | _ => s
     | none => s)

/-! ### Other bytes that arrive (R207, R241) -/

/-- The register of a result. -/
def Landing.reg : Landing → Reg
  | .sreg d .. => d
  | .vreg d .. => d
  | _ => 0

/-- The results of a K load get their values: the entries that wait for it, in their order. -/
def fillNet (id : Nat) : List Flight → List Landing → List Flight
  | [], _ => []
  | f :: r, ws =>
    if f.await == .net id then
      (match ws with
      | w :: ws => { f with await := .no, what := w } :: fillNet id r ws
      | [] => f :: fillNet id r [])
    else f :: fillNet id r ws

/-- The bytes of a K load arrive from the tiles of the cluster (R207, R241). -/
def State.kArrive (s : State) (n id : Nat) : State :=
  let c := s.core n
  match c.req id with
  | some { kind := .kload x vec size, .. } =>
    let r := ((c.flight.find? fun f => f.await == .net id).map fun f => f.what.reg).getD 0
    let ws := loadLandings vec size r (s.kBytes c x (formBytes vec size))
    s.onCore n fun c => { c.dropReq id with flight := fillNet id c.flight ws }
  | _ => s

/-- A remote store performs: to K or to global memory (R207, R222, R229). -/
def State.performStore (s : State) (n id : Nat) : State :=
  let c := s.core n
  match c.req id with
  | some r =>
    match r.kind with
    | .kstore w => (s.kWrite c w).onCore n fun c => c.dropReq id
    | .gstore _ win _ bs =>
      s.atPlace n r fun ps =>
        (((s.consumeCells c id).writePieces c.ctx.toNat (c.win win).key.toNat ps bs).onCore n fun c => c.dropReq id).queueCells
          (replies c r ps [])
    | _ => s
  | none => s

end Sys2Proof.Machine
end

