-- ==== Sys2Proof/Machine/Copies.lean ====
section
/-! DEFINITION. The copy engine and the engine events of the array: bytes read and written, completion, streams that fire,
planes that become ready, AX updates (R134, R144, R184, R191, R195, R197, R210 to R214, R272). -/

namespace Sys2Proof.Machine

/-! ### Places a copy reads and writes -/

/-- The address of byte `i` from a pointer of a circular buffer on (R210). -/
def Cb.addr (b : Cb) (ptr i : Nat) : Nat := b.base + (ptr + i) % b.size

/-- Bytes of a circular buffer from a pointer on. -/
def Core.cbBytes (c : Core) (b : Cb) (ptr : Nat) : Nat → Nat → List Byte
  | _, 0 => []
  | i, n + 1 => (c.buf b.space).get c.ctx.toNat (b.addr ptr i) :: c.cbBytes b ptr (i + 1) n

/-- Bytes `i` to `i + n - 1` of a copy's buffer source (R200, R241). -/
def State.placeBytes (s : State) (c : Core) (p : Place) (i n : Nat) : List Byte :=
  match p with
  | .at sp off =>
    match bufOf sp with
    | some u => c.bytes u (off + i) n
    | none => s.kBytes c (off + i) n
  | .cb k =>
    match c.cb k with
    | some b => c.cbBytes b b.cons i n
    | none => []

/-- Bytes that go to place `i` of a copy's buffer destination: into the engine's queue, or at once to the tiles of K (R26, R241). -/
def State.placeWrite (s : State) (n : Nat) (p : Place) (i : Nat) (bs : List Byte) : State :=
  let c := s.core n
  match p with
  | .at sp off =>
    match bufOf sp with
    | some u => s.onCore n fun c => c.delivered true u (place (off + i) bs)
    | none => s.kWrite c (place (off + i) bs)
  | .cb k =>
    match c.cb k with
    | some b => s.onCore n fun c => c.delivered true b.space ((place i bs).map fun e => (b.addr b.prod e.1, e.2))
    | none => s

/-- The pieces of bytes `i` to `i + n - 1` of a global side, or what keeps them: WINDOW where the whole side, of `len`
bytes, breaks R202. An empty side has its first byte translated (R214). -/
def State.globPieces (s : State) (c : Core) (win : BitVec 3) (off len i n : Nat) (rd wr : Bool) : XAll :=
  match windowVa (c.win win) off len with
  | none => .no .window 0
  | some va => translateAll (fun v => s.xlatCopy c v rd wr) (cut (va + i) n)

/-! ### Firing, reading, writing (R210, R213, R214) -/

/-- Whether the circular buffers of a copy let it start: the source holds its length, the destination has room; a
definition that is gone is CBERR (R210, R213). -/
def Arch.copyFires (c : Arch) (k : Copy) : Except Cause Bool :=
  let src : Except Cause Bool :=
    match k.src with
    | .buf (.cb n) => match c.cb n with | some b => .ok (decide (k.len ≤ b.occ)) | none => .error .cberr
    | _ => .ok true
  let dst : Except Cause Bool :=
    match k.dst with
    | .buf (.cb n) => match c.cb n with | some b => .ok (decide (b.occ + k.len ≤ b.size)) | none => .error .cberr
    | _ => .ok true
  match src, dst with
  | .ok a, .ok b => .ok (a && b)
  | .error e, _ => .error e
  | _, .error e => .error e

/-- The copy at the head of a core's queue changed. -/
def Core.onCopy (c : Core) (f : Copy → Copy) : Core :=
  c.onEng fun e => { e with copies := match e.copies with | [] => [] | k :: r => f k :: r }

/-- A copy's asynchronous cause: the tile stops, the copy waits to be issued again (R106, R213). -/
def State.copyFault (s : State) (n : Nat) (k : Cause) (off : Nat) (win : BitVec 3) : State :=
  s.onCore n fun c => (c.onCopy fun y => { y with faulted := true, way := .home }).async
    (asyncStop k off win ((c.eng.copies.head?.map fun y => Culprit.engine y.id).getD .none))

/-- What keeps a global side: WINDOW and XLATE stop the tile, a walk is asked for, a draining group is waited for. A unit that has
begun and meets WINDOW or XLATE while its tile stops waits in the replay queue (R108, R213, R246, R255, R264). -/
def State.globHeld (s : State) (n : Nat) (r : XRes) (va off : Nat) (win : BitVec 3) : State :=
  match r with
  | .window => s.copyFault n .window off win
  | .xlate => s.copyFault n .xlate off win
  | .miss => s.askWalk (s.core n).die (s.core n).ctx va
  | _ => s

/-- The pieces that the copy at the head of a core's queue reads or writes next in global memory, or what keeps them. -/
def State.copyNext (s : State) (c : Core) : Option XAll :=
  match c.eng.copies with
  | [] => none
  | k :: _ =>
    let i := (k.got.getD []).length
    match k.src, k.dst with
    | .glob w off, _ =>
      if i < k.len ∨ k.got.isNone then some (s.globPieces c w off k.len i (min 128 (k.len - i)) true false) else none
    | _, .glob w off => some (s.globPieces c w off k.len k.done (min 128 (k.len - k.done)) false true)
    | _, _ => none

/-- The consumer pointer of a copy's source moves once all its bytes are read (R213). -/
def Core.srcTaken (c : Core) (k : Copy) : Core :=
  match k.src with
  | .buf (.cb n) => c.movePtr n true k.len
  | _ => c

/-- Bytes added to what a copy has read. -/
def Core.gotBytes (c : Core) (k : Copy) (bs : List Byte) (stale : Bool) : Core :=
  let g := (k.got.getD []) ++ bs
  let c := c.onCopy fun y => { y with got := some g, stale := y.stale || stale }
  if g.length = k.len ∧ 0 < k.len then c.srcTaken k else c

/-- A unit of the oldest copy at its place in global memory: at once on its own die; else its request cells go there, and it
performs as they have arrived and the cells that answer them find room (R314, R316, R319). -/
def State.copyVia (s : State) (n : Nat) (k : Copy) (ps : List Piece) (ask back : List (Nat × RCell)) (act : State → State) : State :=
  let c := s.core n
  match k.way with
  | .out _ => if s.inRing c k.id || !s.ringRoom back then s else act (s.consumeCells c k.id)
  | _ =>
    if ask.isEmpty then act s
    else if s.ringRoom ask then (s.onCore n fun c => c.onCopy fun y => { y with way := .out ps }).queueCells ask
    else s

/-- The pieces of a unit of a copy: those with which it has begun, or as its place translates now (R264, R278). -/
def Copy.unitAt (k : Copy) (r : XAll) : XAll :=
  match k.way with
  | .out ps => .ok ps
  | _ => r

/-- The strand of a delivery: bits [9:7] of its buffer offset (R314). -/
def Arch.boxStrand (c : Arch) (p : Place) (i : Nat) (_ : Piece) (j : Nat) : Nat :=
  match p with
  | .at _ off => (off + i + j) / 128 % 8
  | .cb n => match c.cb n with | some b => b.addr b.prod (i + j) / 128 % 8 | none => 0

/-- The cells that bring a unit of a copy from global memory to its buffer (R314, R316). -/
def Arch.deliveries (c : Arch) (x : Trip) (k : Copy) (i : Nat) (ps : List Piece) (bs : List Byte) : List (Nat × RCell) :=
  match k.dst with
  | .buf p => x.answer 34 8 ps bs (c.boxStrand p i)
  | .glob .. => []

/-- The engine reads the next unit of at most 128 bytes of the oldest copy, once that fires; a unit that has begun ends also where
the tile stops (R108, R213; DEDUCED log 19). -/
def State.copyRead (s : State) (n : Nat) : State :=
  let c := s.core n
  match c.eng.copies with
  | [] => s
  | k :: _ =>
    let i := (k.got.getD []).length
    let m := min 128 (k.len - i)
    if k.faulted ∨ (!c.engines ∧ k.way = .home) ∨ (k.got.isSome ∧ m = 0) then s
    else
      match k.way with
      | .back _ bs stale =>
        if s.inRing c k.id then s
        else (s.consumeCells c k.id).onCore n fun c => (c.onCopy fun y => { y with way := .home }).gotBytes k bs stale
      | _ =>
      match (if k.got.isNone then c.copyFires k else .ok true) with
      | .error e => s.copyFault n e 0 0
      | .ok false => s
      | .ok true =>
        match k.src, k.dst with
        | .buf p, .glob w off =>
          if k.len = 0 then
            match k.unitAt (s.globPieces c w off 0 0 0 false true) with
            | .ok ps =>
              let x := c.trip k.id
              let back := x.answer 34 3 ps [] lineStrand
              s.copyVia n k ps (x.ask 34 2 ps []) back fun s =>
                ((s.onCore n fun c => (c.onCopy fun y => { y with way := .home }).gotBytes k [] false).queueCells back).overGroups ps []
            | .no r va => s.globHeld n r va off w
          else s.onCore n fun c => c.gotBytes k (s.placeBytes c p i m) false
        | .buf p, _ => s.onCore n fun c => c.gotBytes k (s.placeBytes c p i m) false
        | .glob w off, _ =>
          match k.unitAt (s.globPieces c w off k.len i m true false) with
          | .ok ps =>
            if k.len = 0 then s.onCore n fun c => c.gotBytes k [] false
            else if s.chansHold ps then s.askReclaim ps
            else
              let x := c.trip k.id
              s.copyVia n k ps (x.ask 34 0 ps []) (c.deliveries x k i ps []) fun s =>
                let bs := s.readPieces c.ctx.toNat (c.win w).key.toNat ps
                let l := c.deliveries x k i ps bs
                (if l.isEmpty then
                  s.onCore n fun c => (c.onCopy fun y => { y with way := .home }).gotBytes k bs (s.stalePieces ps)
                 else (s.onCore n fun c => c.onCopy fun y => { y with way := .back ps bs (s.stalePieces ps) }).queueCells l).overGroups
                  ps (leBytes 8 (headPa ps))
          | .no r va => s.globHeld n r va off w

/-- All source bytes are read. -/
def Copy.read (k : Copy) : Bool :=
  match k.got with
  | some g => decide (g.length = k.len)
  | none => false

/-- The engine writes the next unit of the oldest copy, all of whose bytes are read (R213: as if all were read before any
is written). -/
def State.copyUnit (s : State) (n : Nat) : State :=
  let c := s.core n
  match c.eng.copies with
  | [] => s
  | k :: _ =>
    let m := min 128 (k.len - k.done)
    if k.faulted ∨ (!c.engines ∧ k.way = .home) ∨ !k.read ∨ m = 0 then s
    else
      let bs := ((k.got.getD []).drop k.done).take m
      let fin := fun (t : State) => t.onCore n fun c => c.onCopy fun y => { y with done := y.done + m, way := .home }
      match k.dst with
      | .buf p => if c.engineRoom true then fin (s.placeWrite n p k.done bs) else s
      | .glob w off =>
        match k.unitAt (s.globPieces c w off k.len k.done m false true) with
        | .ok ps =>
          if s.chansHold ps then s.askReclaim ps
          else
            let x := c.trip k.id
            let back := x.answer 34 3 ps [] lineStrand
            s.copyVia n k ps (x.ask 34 2 ps bs) back fun s =>
              ((fin (s.writePieces c.ctx.toNat (c.win w).key.toNat ps bs)).queueCells back).overGroups ps bs
        | .no r va => s.globHeld n r va off w

/-- Row `j` of a stream has not yet entered. -/
def Arch.toEnter (c : Arch) (st j : Nat) : Bool := c.flight.any fun f => f.what == .enter st j

/-- The stream of a `cpm` is handed over: a direct one reads the rows whose entry cycle has come, each as of that cycle; one that
takes a circular buffer may fire (R191, R197). -/
def Core.openGate (c : Core) (id : Nat) : Core :=
  let f := fun (x : Stream) =>
    if x.gate = some id then
      (if x.cb.isSome then { x with gate := none }
       else
         let js := (List.range (descM x.desc)).filter fun j => !c.toEnter x.id j
         { x with gate := none, fired := true, data := js.map fun j => c.directData x j, undo := [] })
    else x
  c.onEng fun e => { e with arr := { e.arr with streams := e.arr.streams.map f } }

/-- COPY_COMPLETE: every byte of the oldest copy has performed, none of its deliveries waiting in the engine's queue (R26): its producer pointer advances, its tag is set, its flags
wait for the observer, its stream is handed over (R144, R197, R213, R214). -/
def execCopyComplete (core : Nat) (s : State) : Host.Outcome State Fault Refusal :=
  .next
    (match (s.core core).eng.copies with
     | [] => s
     | k :: _ =>
       if (!k.read) ∨ k.done < k.len ∨ k.way ≠ .home ∨ (s.core core).engineWaits true ∨ !(s.core core).engines then s
       else
         s.onCore core fun c =>
           let c := match k.dst with
             | .buf (.cb n) => c.movePtr n false k.len
             | _ => c
           ((((c.setTag k.tag).lazy k.tag (flIf k.stale flSTALE)).onEng fun e => { e with
             copies := e.copies.drop 1 }).openGate k.id))

/-! ### Streams from circular buffers (R195) -/

/-- The bytes of records that streams fired before hold and have not yet taken off a circular buffer. -/
def Arch.reserved (c : Arch) (n : BitVec 4) (elem : Nat) : Nat :=
  ((c.eng.arr.streams.filter fun x => x.cb == some n && x.fired && c.flight.any fun f => f.what == .cbtake x.id).map
    fun x => descM x.desc * elem).foldl (fun a b => a + b) 0

/-- The stream that fires next: the oldest that waits for its circular buffer. -/
def Arch.nextStream (c : Arch) : Option Stream := c.eng.arr.streams.find? fun x => x.cb.isSome && !x.fired && x.gate.isNone

/-- The rows of a stream that fires, from the consumer pointer and past what earlier streams hold. -/
def Core.recordRows (c : Core) (b : Cb) (x : Stream) (skip : Nat) : List RowData :=
  (List.range (descM x.desc)).map fun r =>
    recordRow (fun y => (c.buf b.space).get c.ctx.toNat (b.addr b.cons (skip + r * b.elem + y)))
      (fun y => c.store.a.get c.ctx.toNat y) x.desc x.act r

/-- STREAM_FIRE: the buffer holds the stream's records, which the engine reads (R195, R196). -/
def execStreamFire (core : Nat) (s : State) : Host.Outcome State Fault Refusal :=
  let c := s.core core
  .next
    (match c.nextStream with
     | none => s
     | some x =>
       match x.cb with
       | none => s
       | some n =>
         match c.cb n with
         | none => s
         | some b =>
           let held := c.reserved n b.elem
           if b.occ < held + descM x.desc * b.elem ∨ !c.engines then s
           else s.onCore core fun c => c.onStream x.id fun y => { y with fired := true, data := c.recordRows b x held })

/-! ### Planes and AX updates at their cycles -/

/-- The due results of a core perform, where all of them are of one kind and nothing keeps the cycle. -/
def State.performOnly (s : State) (core : Nat) (p : Landing → Bool) : State :=
  let t := (s.focus core).meetChain
  let d := t.me.ready
  if core < 264 ∧ !d.isEmpty ∧ d.all (fun f => p f.what) ∧ t.mayPerform then t.performFpx
  else s

/-- PLANE_READY: a load's plane is ready at its cycle (R134, R184, R187). -/
def execPlaneReady (core : Nat) (s : State) : Host.Outcome State Fault Refusal :=
  .next (s.performOnly core fun w => match w with | .plane _ => true | _ => false)

/-- AX_UPDATE: rows of streams are added to their AX elements at their cycle (R137, R185, R191). -/
def execAxUpdate (core : Nat) (s : State) : Host.Outcome State Fault Refusal :=
  .next (s.performOnly core fun w => match w with | .axrow .. => true | _ => false)

end Sys2Proof.Machine
end

