-- ==== Sys2Proof/Machine/Halts.lean ====
section
/-! DEFINITION. The halt line, the stop record and its parts (R106 to R113, R118, R199). -/

namespace Sys2Proof.Machine

/-! ### The halt line (R106, R107, R120) -/

/-- How core `c` stops when the halt line of its partition reaches it: before its next bundle, after its sync bundle, or
at its `halt`; with its own cause where one has been raised away from a bundle, else with HALTED, on pre-emption PREEMPT (R107,
R120). A tile that is idle between two legs has DONE set (DESIGN CHOICE log 55). -/
def Core.lineStop (c : Core) (pre : Bool) : Stop :=
  { c.fault.getD { mkStop (if pre then .preempt else .halted) c.pc 0 with faulting := false } with
    addr := c.pc
    done := c.run == .halted || c.run == .idle
    syncw := c.atBarrier.isSome
    syncst := c.syncst }

/-- A core that is about to stop before its next bundle: the results due by now perform, where nothing keeps them and they raise no
flag whose trap is enabled (R91, R115, R199). -/
def State.stopDue (s : State) (core : Nat) : State :=
  let t := (s.focus core).meetChain
  if t.me.run == .running || t.me.run == .halted then t.dueNow else s

/-- HALT_LINE: a driven halt line reaches a core of its partition, as the results of its last cycle have performed (R107, R199). -/
def execHaltLine (core : Nat) (s : State) : Host.Outcome State Fault Refusal :=
  let c := s.core core
  .next
    (match s.part c.part with
     | none => s
     | some p =>
       if p.halt ∧ p.ctx = c.ctx ∧ c.ctx ≠ 0 ∧ !c.steward ∧ c.run ≠ .stopping ∧ c.run ≠ .stopped then
         (s.stopDue core).onCore core fun c =>
           { c with run := .stopping, stop := some (c.lineStop p.haltPre), fault := none, iss := State.resetIss }
       else s)

/-! ### Fields of the stop record (R111 to R113) -/

/-- Bits as a number, bit 0 first. -/
def bitsNat (l : List Bool) : Nat := packW 1 (l.map Bool.toNat)

/-- FLAGS (R111). -/
def Stop.flags (p : Stop) : Nat :=
  bitsNat [p.faulting, p.escalated, p.async, p.msq, p.done, p.syncw, p.final]

/-- Entries made so far with the spill bytes they name. -/
structure Spill where
  out : List Byte
  spill : List Byte
  deriving DecidableEq, Repr

/-- A landing entry of 16 bytes (R112). -/
def landEntry (kind index remain eflags value : Nat) : List Byte :=
  leBytes 1 kind ++ leBytes 1 index ++ leBytes 2 remain ++ leBytes 1 eflags ++ leBytes 3 0 ++ leBytes 8 value

/-- The bytes of a store's descriptor: space, byte address, size, data, poison, which no stored byte has; of a group of 16 lanes
space, size, then the lane addresses with their elements (R112; the widths: DEDUCED log 20). -/
def storeDesc (sp : BSpace) (w : List (Nat × Byte)) (lanes : Bool) : List Byte :=
  let n := w.length / 16
  leBytes 1 (match sp with | .a => 0 | .w => 1 | .c => 2) ++
  (if lanes then
     leBytes 2 w.length ++ (List.range 16).flatMap fun k =>
       leBytes 4 ((w.drop (n * k)).headD (0, 0)).1 ++ ((w.drop (n * k)).take n).map Prod.snd
   else leBytes 4 (w.headD (0, 0)).1 ++ leBytes 2 w.length ++ w.map Prod.snd) ++
  List.replicate ((w.length + 7) / 8) 0

/-- The fault that keeps the access of a number from performing. -/
def Arch.faultOf (c : Arch) (id : Nat) : Option Cause := (c.eng.reqs.find? fun r => r.id == id).bind fun r => r.fault

/-- The number of the request a result waits for. -/
def Flight.awaits (f : Flight) : Option Nat :=
  match f.await with
  | .reply n => some n
  | _ => none

/-- The request of a result that is to be issued again (R108). -/
def Core.again (c : Core) (f : Flight) : Option Req :=
  f.awaits.bind fun n => c.eng.reqs.find? fun r => r.id == n && r.fault.isSome && r.fault != some .uecc

/-- EFLAGS of a result with the fault of its access: poisoned, variable-latency, to be issued again, ended in an uncorrectable
error (R108, R112). -/
def eflags (p var : Bool) (fault : Option Cause) : Nat :=
  bitsNat [p, var, fault.isSome && fault != some .uecc, fault == some .uecc]

/-- An access as issued: operation, window, register offset, size, latency class (R112; the order within it: DEDUCED log
20). The class k declares 64·2^k cycles. -/
def accessDesc (r : Req) (declared : Nat) : List Byte :=
  match r.kind with
  | .gload _ w o _ vec =>
    leBytes 1 (if vec then 2 else 0) ++ leBytes 1 w.toNat ++ leBytes 8 o ++ leBytes 2 (if vec then 256 else 8) ++
    leBytes 1 (Nat.log2 (declared / 64))
  | _ => []

/-- A core with the pointer moves of a result made. -/
def Core.pointed (c : Core) (w : Landing) : Core :=
  match w with
  | .cbptr n cons k => c.movePtr n cons k
  | _ => c

/-- The pointer word of a circular buffer: producer, consumer (R113). -/
def Arch.cbWord (c : Arch) (n : BitVec 4) : Nat := ((c.cb n).map fun b => b.prod + 2 ^ 32 * b.cons).getD 0

/-- A result of a core put among the landing entries; engine operations are no landing entries (R109, R112). The core has the
pointers as the results before it leave them. -/
def Spill.land (x : Spill) (c : Core) (f : Flight) : Spill :=
  let fl := fun p => eflags p (f.declared != 0) (f.awaits.bind c.faultOf)
  let e := fun k i p v => { x with out := x.out ++ landEntry k i f.remain (fl p) v }
  let sp := fun k i p (bs : List Byte) =>
    { out := x.out ++ landEntry k i f.remain (fl p) x.spill.length, spill := x.spill ++ bs : Spill }
  match f.what, c.again f with
  | .sreg d _ p _, some r => sp 1 d.toNat p (accessDesc r f.declared)
  | .vreg d _ _ _, some r => sp 2 d.toNat false (accessDesc r f.declared)
  | w, _ =>
  match w with
  | .sreg d v p _ => e 1 d.toNat p v.toNat
  | .vreg d v p _ => sp 2 d.toNat false (leBytes 256 v.toNat ++ leBytes 8 p.toNat)
  | .gcond g v p => e 3 g.toNat p v.toNat
  | .gtarg g t => e 4 g.toNat false t.toNat
  | .special n v => e 5 (n.toNat % 256) false v.toNat
  | .bstore u w lanes => sp 6 0 false (storeDesc u w lanes)
  | .tagset t v => e 7 t.toNat false v.toNat
  | .cbptr n .. => e 8 n.toNat false ((c.pointed w).cbWord n)
  | _ => x

/-- The landing entries of a core and their spill bytes (R111). -/
def Core.landing (c : Core) : Spill :=
  (c.flight.foldl (fun (y : Spill × Core) f => (y.1.land y.2 f, y.2.pointed f.what)) ({ out := [], spill := [] }, c)).1

/-- An LQ entry: the old value of an atomic, a variable-latency result (R112, R113). -/
def lqBytes (c : Arch) (q : LqEntry) : List Byte :=
  leBytes 8 q.val.toNat ++ leBytes 2 q.remain ++ leBytes 1 (eflags false true (c.faultOf q.id)) ++ leBytes 5 0

/-- An engine entry to be written: its place in issue order, what a cause names it by, ENGINE, op, TAG, CBUF, ASYNCF, REMAIN,
PROGRESS, operand bytes, stage records and the first of them (R113). -/
structure EngEntry where
  key : Nat
  who : Culprit
  engine : Nat
  op : Nat
  tag : Nat
  cbuf : Nat
  asyncf : Nat
  remain : Nat
  progress : Nat
  opnd : List Byte
  nstg : Nat
  fstg : Nat
  deriving DecidableEq, Repr, Inhabited

/-- The number of a circular buffer an entry names. -/
def cbNat (x : Option (BitVec 4)) : Nat := (x.map BitVec.toNat).getD 0

/-- The number of the tile on which rank `r` of a context was resident last. -/
def Ctx.tileNo (x : Ctx) (r : Nat) : Nat := ((tilesOf x.mask)[r]?).getD 0

/-- The core that a rank of a switched-out context was, with the state `a`. -/
def Ctx.imageCore (x : Ctx) (r : Nat) (a : Arch) : Core :=
  { State.resetCore (x.tileNo r) with
    toArch := a, ctx := x.id, part := x.part, rank := BitVec.ofNat 8 r, ncl := BitVec.ofNat 6 (x.ncl - 1) }

/-- The context of a core, where it is switched out. -/
def State.outCtx (s : State) (c : Core) : Option Ctx := (s.ctx c.ctx).filter fun x => x.state == .out

/-- Tile 0 of a core's cluster, that of a switched-out context as its image. -/
def State.head0 (s : State) (c : Core) : Core :=
  match s.outCtx c with
  | some x => let r := c.rank.toNat / 4 * 4; x.imageCore r ((x.images[r]?).getD State.resetArch)
  | none => s.tile0 c

/-- The longest time to a result of an array command. -/
def Arch.lastRemain (c : Arch) (id : Nat) : Nat :=
  ((c.flight.filter fun f => (arrayCmd c.eng.arr f.what).any fun x => x.2 == id).map fun f => f.remain).foldl max 0

/-- Rows of a stream that have entered: those whose entry cycle is below the LT at which the tile stopped, on a chain tile 0 of
the cluster (R199). -/
def State.entered (s : State) (c : Core) (x : Stream) : Nat :=
  let z := if x.hops = 0 then c else s.head0 c
  match z.eng.arr.streams.find? fun y => if x.hops = 0 then y.id == x.id else y.chain == x.chain && y.hops == 0 with
  | some y => if y.fired then min (descM y.desc) (upDiv (z.now - y.lt.toNat) (y.d.getD 1)) else 0
  | none => 0

/-- The rows whose AX update is still to come and that have entered: stream, row, logical cycles to the update (R199). -/
def State.staged (s : State) (c : Core) : List (Nat × Nat × Nat) :=
  c.flight.filterMap fun f =>
    match f.what with
    | .axrow st j => if (c.stream st).any fun x => decide (j < s.entered c x) then some (st, j, f.remain) else none
    | _ => none

/-- The load whose contents a plane still holds because a staged row is tagged with it: a later load writes it once the row has left
(R188, R199). -/
def State.heldPlane (s : State) (c : Core) (p1 : Bool) : Option Nat :=
  (s.staged c).findSome? fun y => (c.stream y.1).bind fun x =>
    let h := c.eng.arr.at (x.entry y.2.1)
    match h.1, p1 with
    | .pair, _ | .p0, false => some h.2.1
    | .p1, true => some h.2.2
    | _, _ => none

/-- Whether a load waits for a tagged plane that it is to write (R188). -/
def State.loadHeld (s : State) (c : Core) (id : Nat) : Bool :=
  (c.eng.arr.p0 == id && (s.heldPlane c false).any fun n => n != id) ||
  (c.eng.arr.p1 == id && (s.heldPlane c true).any fun n => n != id)

/-- The operand values of an array command as read at issue: descriptor, AX base, activation place; weights, scales, descriptor; AX
base, elements (R113). -/
def Arch.arrayOperands (c : Arch) (id : Nat) : List Byte :=
  (((c.stream id).map fun y => [y.desc.toNat, y.axv.toNat, y.act]).getD
    (((c.eng.arr.loads.find? fun l => l.id == id).map fun l => [l.a, l.b, l.desc.toNat]).getD
      (c.flight.flatMap fun f => match f.what with | .mclr n b e => if n = id then [b, e] else [] | _ => []))).flatMap
        (leBytes 8)

/-- Whether a cause of a core's stop names an engine operation. -/
def Arch.blames (c : Arch) (w : Culprit) : Bool := w != .none && c.stop.any fun p => p.culprit == w

/-- The array's engine entries; their stage records follow one another by stream. An `mlds` has run on to the end of the group
it reads (R108, R113, R199). -/
def State.arrayEntries (s : State) (c : Core) : List EngEntry :=
  let sg := s.staged c
  c.arrayCmds.map fun x =>
    let st := c.stream x.2
    let n := (sg.filter fun y => y.1 == x.2).length
    { key := x.2, who := .engine x.2, engine := 0, op := x.1, tag := 0, cbuf := cbNat (st.bind fun y => y.cb)
      asyncf := bitsNat [c.blames (.engine x.2)], remain := c.lastRemain x.2
      progress := match st with
        | some y => s.entered c y
        | none => if s.loadHeld c x.2 then 0 else ((c.eng.arr.loads.find? fun l => l.id == x.2).map fun l => l.groups.length).getD 0
      opnd := c.arrayOperands x.2, nstg := n
      fstg := if n = 0 then 0 else (sg.findIdx? fun y => y.1 == x.2).getD 0 }

/-- A place as the register value that names it (R200, R201). -/
def Side.value (out : Bool) : Side → Nat
  | .buf (.at sp off) => sp.toNat * 2 ^ 24 + off
  | .buf (.cb n) => 2 ^ 31 + n.toNat
  | .glob w off => out.toNat * 2 ^ 63 + w.toNat * 2 ^ 60 + off

/-- Whether a side lies in global memory. -/
def Side.isGlob : Side → Bool
  | .glob .. => true
  | .buf _ => false

/-- The circular buffer a side is. -/
def Side.cb : Side → Option (BitVec 4)
  | .buf (.cb n) => some n
  | _ => none

/-- A copy's engine entry: its places as the command names them, its length or its record (R113). -/
def copyEntry (c : Core) (k : Copy) : EngEntry :=
  let out := k.dst.isGlob
  let ab := if out then [k.src.value false, k.dst.value true] else [k.dst.value false, k.src.value false]
  { key := k.id, who := .engine k.id, engine := 1, op := k.op.toNat, tag := k.tag.toNat, cbuf := cbNat (k.dst.cb.or k.src.cb)
    asyncf := bitsNat [k.faulted || c.blames (.engine k.id), c.eng.arr.streams.any fun x => x.gate == some k.id]
    remain := 0xFFFF, progress := k.done / 128
    opnd := ab.flatMap (leBytes 8) ++ (if k.op = 0x04 then k.record else leBytes 8 k.len), nstg := 0, fstg := 0 }

/-- A collective's engine entry: OPND holds its record (R110). -/
def collEntry (c : Core) (k : Coll) : EngEntry :=
  { key := k.id, who := .engine k.id, engine := 5, op := 0x0E, tag := field k.record 3 1, cbuf := 0
    asyncf := bitsNat [c.blames (.engine k.id)], remain := 0xFFFF, progress := k.steps, opnd := k.record, nstg := 0, fstg := 0 }

/-- A gather's or scatter's engine entry; it has run on to the end of its group of 16 lanes (R108, R113). -/
def gsEntry (g : GatScat) : EngEntry :=
  { key := g.id, who := .none, engine := 2, op := g.op.toNat, tag := 0, cbuf := 0, asyncf := 0, remain := 12 - g.age
    progress := upDiv g.age 3, opnd := g.opnd, nstg := 0, fstg := 0 }

/-- A receive's engine entry: its operand values, then its message's place and bytes, which its skid no longer holds (R113; the
message: DEDUCED log 20). -/
def rcvEntry (f : Flight) : Option EngEntry :=
  match f.what with
  | .rcvdata n o w => some
    { key := n, who := .none, engine := 4, op := 0x0B, tag := 0, cbuf := 0, asyncf := 0, remain := f.remain, progress := 0
      opnd := o ++ storeDesc .a w false, nstg := 0, fstg := 0 }
  | _ => none

/-- An MSQ program's engine entry; PROGRESS is the index of its next word in its context's region (R113). -/
def seqEntry (c : Core) (p : Slot) : EngEntry :=
  { key := p.key, who := .program p.num, engine := 3, op := 0x0C, tag := 0, cbuf := 0
    asyncf := bitsNat [p.num != 0 && c.blames (.program p.num)], remain := 0xFFFF
    progress := p.pc, opnd := leBytes 8 p.first, nstg := 0, fstg := 0 }

/-- The programs a tile has with a memory sequencer: those in slots, those that wait for one, those that have ended with transfers
still under way (R113, R218). -/
def programsOf (slots : List Slot) (wait : List (Nat × Nat × Nat)) (xfers : List Xfer) (tile : Nat) : List Slot :=
  let here := slots.filter fun p => p.busy && p.tile == tile
  here ++ ((wait.filter fun w => w.1 == tile).map fun w =>
    ({ State.freeSlot with key := w.2.2, pc := w.2.1, first := w.2.1 } : Slot)) ++
  (xfers.filter fun x => x.owner == tile && !here.any fun p => p.num == x.prog).foldl (fun l x =>
    if l.any fun p => p.num == x.prog then l
    else l ++ [({ State.freeSlot with num := x.prog, key := x.key, first := x.first, pc := x.word + 1 } : Slot)]) []

/-- The programs of a core, of a switched-out one as its context keeps them by rank. -/
def State.programs (s : State) (c : Core) : List Slot :=
  match s.outCtx c with
  | some x => (programsOf x.seq.slots x.seq.wait x.seq.xfers c.rank.toNat).map fun p => { p with num := p.num / 8 }
  | none => let m := (s.die c.die).msq; programsOf m.slots.toList m.wait m.xfers c.num

/-- The engine entries of a core in issue order (R111, R113). -/
def State.engEntries (s : State) (c : Core) : List EngEntry :=
  sortBy (fun a b => decide (a.key < b.key))
    (s.arrayEntries c ++ c.eng.copies.map (copyEntry c) ++ c.eng.colls.map (collEntry c) ++ c.eng.gs.map gsEntry ++
      c.flight.filterMap rcvEntry ++ (s.programs c).map (seqEntry c))

/-- An engine entry of 32 bytes put among the others (R113). -/
def Spill.eng (x : Spill) (e : EngEntry) : Spill :=
  { out := x.out ++ leBytes 1 e.engine ++ leBytes 1 e.op ++ leBytes 1 e.tag ++ leBytes 1 e.cbuf ++ leBytes 2 e.asyncf ++
      leBytes 2 e.remain ++ leBytes 8 e.progress ++ leBytes 8 x.spill.length ++ leBytes 2 e.nstg ++ leBytes 2 e.fstg ++
      leBytes 4 0
    spill := x.spill ++ e.opnd }

/-- Where a skid entry of a core comes from, KIND and source: a far tile by its number, a tile of its die over the on-die network,
one of another die over a ring strand, that of the sender's unit, with 8 for ring W (R113, R308, R314; DEDUCED log 20). -/
def Core.skidFrom (c : Core) (m : Msg) : Nat × Nat :=
  if m.far then (4, m.src)
  else if m.src / 32 = c.die then (2, m.src)
  else (1, m.src % 8 + 8 * (ringOf (m.src / 32) c.die).toNat)

/-- A SKID entry for each source of untaken arrivals, in arrival order (R113, R308). -/
def Core.skidEntry (c : Core) (x : Spill) (k : Nat × Nat) : Spill :=
  let ms := c.eng.skid.filter fun m => c.skidFrom m == k
  { out := x.out ++ leBytes 4 x.spill.length ++ leBytes 2 k.2 ++ leBytes 1 ms.length ++ leBytes 1 k.1
    spill := x.spill ++ ms.flatMap fun m =>
      leBytes 4 m.stamp.toNat ++ leBytes 2 m.src ++ leBytes 2 m.bytes.length ++ m.bytes }

/-- Deliveries of a core that wait in the queue of an engine (R26). -/
def Arch.engineQueue (c : Arch) (copy : Bool) : List Deliv := c.eng.inq.filter fun q => q.copy == copy

/-- A SKID entry of KIND 3 for each engine queue that holds deliveries, the source 1 for the copies' and 3 for the memory sequencer's,
as ENGINE numbers them; each delivery as the descriptor of a store (R26, R113; DEDUCED log 20). -/
def Arch.queueEntry (c : Arch) (x : Spill) (copy : Bool) : Spill :=
  let ds := c.engineQueue copy
  if ds.isEmpty then x
  else
    { out := x.out ++ leBytes 4 x.spill.length ++ leBytes 2 (if copy then 1 else 3) ++ leBytes 1 ds.length ++ leBytes 1 3
      spill := x.spill ++ ds.flatMap fun q => storeDesc q.space q.bytes false }

/-- Bytes filled with zeros to a length. -/
def padTo (n : Nat) (bs : List Byte) : List Byte := (bs ++ List.replicate (n - bs.length) 0).take n

/-- The stop record of a core and its spill bytes (R111). The directory has 16 SKID entries; of more sources of untaken arrivals
the first 16 get one: the spec does not say what becomes of the others, which the core's image keeps all the same (R113; DESIGN
CHOICE log 65). -/
def State.record (s : State) (c : Core) (p : Stop) : List Byte × List Byte :=
  let land := c.landing
  let es := s.engEntries c
  let eng := (es.take 16).foldl (fun x e => x.eng e) ({ out := [], spill := land.spill } : Spill)
  let more := (es.drop 16).foldl (fun x e => x.eng e) ({ out := [], spill := eng.spill } : Spill)
  let skid := (c.eng.skid.map c.skidFrom).dedup.foldl c.skidEntry
    ([true, false].foldl c.queueEntry { out := [], spill := more.spill })
  (leBytes 1 (Cause.num p.cause) ++ leBytes 1 p.flags ++ leBytes 2 p.code.toNat ++
    leBytes 1 (land.out.length / 16) ++ leBytes 1 es.length ++ leBytes 1 c.eng.lq.length ++
    leBytes 1 c.loops.lsd.toNat ++ leBytes 8 p.addr.toNat ++ leBytes 8 c.spec.lt.toNat ++ leBytes 8 c.spec.cyc.toNat ++
    leBytes 8 c.spec.frame.toNat ++ leBytes 8 p.finfo0.toNat ++ leBytes 8 p.finfo1.toNat ++ leBytes 8 p.syncst.toNat ++
    ((List.range 6).flatMap fun k =>
      let l := c.level k
      leBytes 8 l.cnt.toNat ++ leBytes 8 l.idx.toNat ++ leBytes 8 l.beg.toNat ++ leBytes 8 l.fin.toNat) ++
    padTo 768 land.out ++ padTo 256 (c.eng.lq.flatMap (lqBytes c.toArch)) ++ padTo 512 eng.out ++
    ((List.range 16).flatMap fun n => leBytes 8 (c.cbWord (BitVec.ofNat 4 n))) ++ padTo 128 skid.out,
   padTo 128000 skid.spill ++ more.out)

/-! ### The register image and the stage records (R118, R199) -/

/-- Bits of a core's poison flags. -/
def poisonBits (l : List Bool) : Nat := packW 1 (l.map Bool.toNat)

/-- The special registers of the register image, by number (R52, R118). -/
def State.specImage (s : State) (c : Core) : List (Nat × Nat) :=
  let p := c.spec
  [(0, p.lt.toNat), (1, p.cyc.toNat), (2, p.frame.toNat), (0x10, p.leavec.toNat), (0x18, p.tagmap.toNat),
    (0x20, p.fpctl.toNat), (0x21, p.fpstat.toNat), (0x22, p.srk0.toNat), (0x23, p.srk1.toNat), (0x24, p.src0.toNat),
    (0x25, p.src1.toNat), (0x30, p.trapc.toNat), (0x31, p.trappc.toNat), (0x32, p.trapv.toNat), (0x38, p.stage.toNat),
    (0x39, c.coord.toNat), (0x40, (s.die c.die).ptc.ns.toNat), (0x41, p.ptcs.toNat), (0x48, p.bubup.toNat),
    (0x49, p.bubdn.toNat), (0x4A, p.bubst.toNat),
    (0x50, c.loops.lsd.toNat), (0x19, c.eng.lq.length), (0x28, c.pixm.toNat), (0x29, c.pixg.toNat),
    (0x2A, c.pixc.toNat)] ++
  ((List.range 6).flatMap fun k => [0x58, 0x60, 0x68, 0x70].map fun n => (n + k, (c.loopReg (n + k)).toNat)) ++
  ((List.range 8).map fun k => (8 + k, (p.stallc[k]?.getD 0).toNat)) ++
  ((List.range 8).flatMap fun k =>
    let w := c.win (BitVec.ofNat 3 k)
    [(0x80 + k, w.base.toNat / 65536), (0x88 + k, w.limit.toNat), (0x90 + k, w.key.toNat)])

/-- The register image of a tile block, as runs of bytes by offset (R118). -/
def State.regImage (s : State) (c : Core) : List (Nat × List Byte) :=
  [(0x0000, (List.range 32).flatMap fun k => leBytes 8 (c.s (BitVec.ofNat 5 k)).val.toNat),
    (0x0100, leBytes 8 (poisonBits ((List.range 32).map fun k => (c.s (BitVec.ofNat 5 k)).poison))),
    (0x0108, leBytes 2 (poisonBits ((List.range 12).map fun k => (c.g (BitVec.ofNat 4 k)).c))),
    (0x010A, leBytes 2 (poisonBits ((List.range 12).map fun k => (c.g (BitVec.ofNat 4 k)).cp))),
    (0x0110, (List.range 12).flatMap fun k => leBytes 2 (c.g (BitVec.ofNat 4 k)).t.toNat)] ++
  ((s.specImage c).map fun e => (0x0200 + 8 * e.1, leBytes 8 e.2)) ++
  ((List.range 16).filterMap fun n => (c.cb (BitVec.ofNat 4 n)).map fun b =>
    (0x0A00 + 32 * n, leBytes 8 b.inC.toNat ++ leBytes 8 b.base ++ leBytes 8 b.size ++ leBytes 8 b.elem)) ++
  [(0x0C00, leBytes 8 c.spec.tagmap.toNat),
    (0x1000, (List.range 32).flatMap fun k => leBytes 256 (c.v (BitVec.ofNat 5 k)).val.toNat),
    (0x3000, (List.range 32).flatMap fun k => leBytes 8 (c.v (BitVec.ofNat 5 k)).poison.toNat)]

/-- The number of a plane tag. -/
def PSet.num : PSet → Nat
  | .p0 => 0
  | .p1 => 1
  | .pair => 2

/-- A stage record of 640 bytes (R199). -/
def State.stageRecord (s : State) (c : Core) (es : List EngEntry) (y : Nat × Nat × Nat) : List Byte :=
  match c.stream y.1, s.rowOf c y.1 y.2.1 with
  | some x, some r =>
    let e := x.entry y.2.1
    leBytes 1 ((es.findIdx? fun z => z.engine == 0 && z.key == y.1).getD 0) ++ leBytes 1 y.2.1 ++
    leBytes 1 (PSet.num (c.eng.arr.at e).1) ++ leBytes 1 r.wid ++ leBytes 2 y.2.2 ++ leBytes 2 r.blks.length ++
    padTo 12 (r.blks.map fun b => b.e) ++ leBytes 44 0 ++
    padTo 576 (r.blks.flatMap fun b => padTo 48 (leBytes (3 * r.wid) (packW r.wid (b.m.map fun m => code r.wid m))))
  | _, _ => padTo 640 []

/-- The place of the tile block of rank `r` in a shadow region (R118). -/
def tileBlock (r : Nat) : Nat := 0x100000 + 0x800000 * r

/-- A stationary plane in the ARRAY block: 24 bytes of mantissas for block j of column n at 24·(256·j + n), of a paired load the
low bytes in P0 and the high bytes in P1; its scale byte at 0x1_2000 + 256·j + n; the latched descriptor at 0x1_2C00 (R118, R199;
the layout within the block: DEDUCED log 20). -/
def planeCells (base : Nat) (l : Load) (p1 : Bool) : Mem :=
  let at' := fun (f : Nat → Blk → Mem) =>
    (List.range 12).flatMap fun j => (List.range 256).flatMap fun n => f (256 * j + n) (l.blk j n)
  at' (fun k b => cellsAt (base + 24 * k)
    (b.m.map fun x => BitVec.ofNat 8 (code 16 x / (if p1 && l.paired then 256 else 1)))) ++
  at' (fun k b => cellsAt (base + 0x12000 + k) [b.e]) ++ cellsAt (base + 0x12C00) (leBytes 8 l.desc.toNat)

/-- The ARRAY block: both planes, 96 KiB each, as the staged rows hold them (`h0`, `h1`); at 0x1_7000 the active set, the count of pending loads that activate themselves, and
the pending swaps and loads with their remaining logical cycles (R118, R199; DEDUCED log 20). -/
def Arch.arrayCells (c : Arch) (h0 h1 : Option Nat) (base : Nat) : Mem :=
  let a := c.eng.arr
  let load := fun (n : Nat) => (a.loads.find? fun l => l.id == n).getD emptyLoad
  let due := c.flight.flatMap fun f =>
    match f.what with
    | .swap => leBytes 2 1 ++ leBytes 2 f.remain
    | .plane _ => leBytes 2 2 ++ leBytes 2 f.remain
    | _ => []
  planeCells base (load (h0.getD a.p0)) false ++
  cellsAt (base + 0x17000) (leBytes 1 (PSet.num a.active) ++ leBytes 1 a.selfAct ++ leBytes 2 (due.length / 4) ++ due) ++
  planeCells (base + 0x18000) (load (h1.getD a.p1)) true

/-- The cells of a buffer that a context owns, moved to a place of its tile block (R118). -/
def Buf.image (b : Buf) (t base size : Nat) : Mem :=
  (b.cells.filter fun e => decide (e.1 < size) && decide (b.tag (e.1 / 128) = t)).map fun e => (base + e.1, e.2)

/-- A stop record and its spill bytes in a tile block (R111, R118). -/
def putRecord (m : Mem) (base : Nat) (rs : List Byte × List Byte) : Mem :=
  splice (splice m (base + 0x4000) 0x800 (cellsAt (base + 0x4000) rs.1)) (base + 0x8000) 0x20000 (cellsAt (base + 0x8000) rs.2)

/-- A core's stop record and its spill bytes in its context's shadow region (R111, R118). -/
def State.recordImage (s : State) (c : Core) (p : Stop) : State :=
  s.onCtx c.ctx fun x => { x with
    shadow := putRecord x.shadow (tileBlock c.rank.toNat) (s.record c p)
    images := x.images.set c.rank.toNat c.toArch }

/-- A core's state with the stop `p` in its context's shadow region: registers, stop record, spill, instruction planes, array,
stage records, buffers (R111, R118, R119, R199). The region is the context's own, by its offsets (DESIGN CHOICE log 62). -/
def State.tileImage (s : State) (c : Core) (p : Stop) : State :=
  let base := tileBlock c.rank.toNat
  let rs := s.record c p
  let st := (s.staged c).flatMap (s.stageRecord c (s.engEntries c))
  let t := c.ctx.toNat
  s.onCtx c.ctx fun x =>
    let m := splice x.shadow base 0x4000 ((s.regImage c).foldl (fun m e => memWrite m (base + e.1) e.2) [])
    let m := putRecord m base rs
    let m := splice m (base + 0x28000) 0x30000 ((c.store.ip0.map fun e => (base + 0x28000 + e.1, e.2)) ++
      c.store.ip1.map fun e => (base + 0x40000 + e.1, e.2))
    let m := splice m (base + 0x58000) 0x30000 (c.arrayCells (s.heldPlane c false) (s.heldPlane c true) (base + 0x58000))
    let m := splice m (base + 0x88000) 0x78000 (cellsAt (base + 0x88000) st)
    let m := splice m (base + 0x100000) 0x400000 (c.store.a.image t (base + 0x100000) 0x400000)
    let m := splice m (base + 0x500000) 0x200000 (c.store.w.image t (base + 0x500000) 0x200000)
    let m := splice m (base + 0x700000) 0x100000 (c.store.c.image t (base + 0x700000) 0x100000)
    { x with shadow := m, images := x.images.set c.rank.toNat c.toArch }


/-- A tile that has stopped, written again after a change of what it keeps (R113, R308). -/
def State.imageAgain (s : State) (n : Nat) : State :=
  let c := s.core n
  match c.run, c.stop with
  | .stopped, some p => s.tileImage c p
  | _, _ => s

/-- A tile of a switched-out context with its stop record and spill written again after a change of what it keeps (R113, R118,
R308). -/
def State.ctxImage (s : State) (i : BitVec 16) (r : Nat) (a : Arch) : State :=
  match s.ctx i with
  | none => s
  | some x =>
    let c := x.imageCore r a
    s.recordImage c (a.stop.getD (mkStop .none a.pc 0))

/-- The accesses of a core that wait to be issued again (R108). -/
def Arch.replay (c : Arch) : List Req := c.eng.reqs.filter fun r => r.fault.isSome

/-! ### The partition block (R118, R304, R306) -/

/-- The bytes of a traverse plane with its header (R285, R304). -/
def planeBytes (l : List LegW) : List Byte :=
  leBytes 2 l.length ++ leBytes 14 0 ++ l.flatMap fun w => leBytes 8 w.w0.toNat ++ leBytes 8 w.w1.toNat

/-- The traverse state of a partition block (R304). -/
def Trav.block (t : Trav) (swp : Bool) : List Byte :=
  leBytes 2 (t.cursor % 512) ++ leBytes 1 t.state.num ++ leBytes 1 (bitsNat [t.plane, swp, t.early]) ++ leBytes 2 t.lpc ++
  leBytes 1 t.stash.length ++ leBytes 1 0 ++ leBytes 1 t.inf ++ leBytes 1 t.inb ++ leBytes 1 t.freedn ++
  leBytes 1 t.freeup ++ leBytes 1 t.wrf ++ leBytes 1 t.wrb ++ leBytes 2 0 ++
  leBytes 8 t.bubup.toNat ++ leBytes 8 t.bubdn.toNat ++ leBytes 8 t.bubst.toNat ++ leBytes 2 t.ntrig ++ leBytes 22 0 ++
  padTo 64 (t.stash.flatMap fun m => leBytes 2 m) ++ padTo 32 t.bind ++ leBytes 96 0

/-- The traverse as it is saved: READY as WAIT (R299). -/
def Trav.saved (t : Trav) : Trav := if t.state = .ready then { t with state := .wait } else t

/-- The traverse of a switched-out context changed, and its saved bytes with it (R299, R304). -/
def Ctx.setTrav (x : Ctx) (f : Trav → Trav) : Ctx :=
  match x.trav with
  | none => x
  | some t => { x with trav := some (f t), shadow := splice x.shadow 0 0x100 (cellsAt 0 ((f t).block x.swp)) }

/-- Bytes of collectives that completed while a context was away: count, then rank and number of each (R110; the place and the
layout: DEDUCED log 20). -/
def noteBytes (l : List (Nat × Nat)) : List Byte := leBytes 8 l.length ++ l.flatMap fun e => leBytes 2 e.1 ++ leBytes 6 e.2

/-- The notes of completed collectives set, also in the partition block, at +0x400 (R110, R118). -/
def Ctx.setNotes (x : Ctx) (l : List (Nat × Nat)) : Ctx :=
  { x with collsDone := l, shadow := splice x.shadow 0x400 0xC00 (cellsAt 0x400 (noteBytes l)) }

/-- A window in 32 bytes: base, limit, key index (DEDUCED log 20). -/
def windowBytes (w : Window) : List Byte :=
  leBytes 10 w.base.toNat ++ leBytes 7 w.limit.toNat ++ leBytes 1 w.key.toNat ++ leBytes 14 0

/-- An entry of the replay queue as its access was issued: rank, kind, window, operation, register offset, length, bytes
(R108, R118; DEDUCED log 20). -/
def replayEntry (rank kind : Nat) (win : BitVec 3) (op off : Nat) (bs : List Byte) : List Byte :=
  leBytes 1 rank ++ leBytes 1 kind ++ leBytes 1 win.toNat ++ leBytes 1 op ++ leBytes 8 off ++ leBytes 4 bs.length ++ bs

/-- The replay queue entry of an access; a register-destination load has a landing entry instead (R108). -/
def Req.replayBytes (rank : Nat) (r : Req) : List Byte :=
  match r.kind with
  | .gstore _ w o bs => replayEntry rank 1 w 0 o bs
  | .amo _ w o op w4 v v2 => replayEntry rank 2 w (op.toNat + 64 * w4.toNat) o (leBytes 8 v.toNat ++ leBytes 8 v2.toNat)
  | .red _ w o op w4 v => replayEntry rank 3 w (op.toNat + 64 * w4.toNat) o (leBytes 8 v.toNat)
  | _ => []

/-- The replay queue entries of a tile: its accesses and its copy's unit that met a fault (R108). -/
def Core.replayBytes (c : Core) : List Byte :=
  (c.replay.flatMap fun r => r.replayBytes c.rank.toNat) ++
  (c.eng.copies.filter fun k => k.faulted).flatMap fun k =>
    match k.src, k.dst with
    | .glob w o, _ => replayEntry c.rank.toNat 4 w k.op.toNat (o + (k.got.getD []).length) []
    | _, .glob w o => replayEntry c.rank.toNat 5 w k.op.toNat (o + k.done) (((k.got.getD []).drop k.done).take 128)
    | _, _ => []

/-- An open reduction round with its contributions, tiles by rank (R324; DEDUCED log 20). -/
def Round.bytes (r : Round) : List Byte :=
  leBytes 8 r.pa ++ leBytes 1 r.op.toNat ++ leBytes 1 r.w4.toNat ++ leBytes 1 r.mixed.toNat ++ leBytes 1 0 ++
  leBytes 4 r.got.length ++ r.got.flatMap fun x =>
    leBytes 2 x.tile ++ leBytes 1 x.win.toNat ++ leBytes 1 0 ++ leBytes 4 x.seq ++ leBytes 8 x.val.toNat ++ leBytes 8 x.off

/-- The partition block of a context written from its partition, the open rounds and the cores of its tiles: traverse, far
tiles, windows and key slots, notes, planes, MSQ image, replay queue, open rounds (R118, R304, R306, R324). -/
def Ctx.saveBlock (x : Ctx) (q : Part) (cs : List Core) (rounds : List Round) : Ctx :=
  let put' := fun (m : Mem) (a n : Nat) (bs : List Byte) => splice m a n (cellsAt a (bs.take n))
  let m := put' x.shadow 0 0x100 (q.trav.saved.block q.swp)
  let m := put' m 0x100 0x80 (q.far.flatMap fun w => leBytes 8 w.toNat)
  let m := put' m 0x200 0x100 (x.win.toList.flatMap windowBytes)
  let m := put' m 0x300 0x100 (leBytes 1 x.keys.length ++ x.keys.map fun k => k)
  let m := put' m 0x400 0xC00 (noteBytes x.collsDone)
  let m := put' m 0x1000 0x3000 (planeBytes q.trav.img0)
  let m := put' m 0x4000 0x3000 (planeBytes q.trav.img1)
  let m := splice m 0x10000 0x10000 (x.msq.filterMap fun e =>
    if e.1 < 8 * x.msqWords ∧ e.1 < 0x10000 then some (0x10000 + e.1, e.2) else none)
  let m := put' m 0x20000 0x20000 (cs.flatMap Core.replayBytes)
  { x with shadow := put' m 0x40000 0xC0000 (rounds.flatMap Round.bytes) }

/-! ### What a stop record waits for, and its stop (R108, R111) -/

/-- Whether what R108 waits for is done: stores, contributions, messages, triggers performed and replies here, but for
what waits in the replay queue. -/
def Core.settled (c : Core) : Bool :=
  (c.eng.reqs.all fun r => r.fault.isSome) && c.eng.copies.all fun k => k.way == .home

/-- The number of the entry that identifies an asynchronous cause: of an engine operation its engine entry, of an access the
landing entry or the LQ entry that waits for it, else its place in the tile's part of the replay queue (R111; DEDUCED log 20). -/
def State.entryNo (s : State) (c : Core) (w : Culprit) : Nat :=
  match w with
  | .none => 0
  | .access n =>
    ((((c.flight.filter fun f => f.what.weight != 0).findIdx? fun f => f.awaits == some n).or
      (c.eng.lq.findIdx? fun q => q.id == n)).or (c.replay.findIdx? fun r => r.id == n)).getD 0
  | w => ((s.engEntries c).findIdx? fun e => e.who == w).getD 0

/-- The stop of a core as its record gives it: FINAL where its context cannot resume, and the entry number of an
asynchronous cause (R111, R121). -/
def State.finalStop (s : State) (c : Core) (p : Stop) : Stop :=
  let p := { p with final := ((s.ctx c.ctx).map Ctx.final).getD false }
  if p.async then { p with finfo1 := BitVec.ofNat 64 (p.finfo1.toNat % 8 + 256 * (s.entryNo c p.culprit % 256)) } else p

/-- The event a context's halt posts: STOP where a tile raised it, a fault where another cause was raised, none on
pre-emption (R348). -/
def haltKind (l : List Stop) : Option Nat :=
  match l.find? fun p => p.faulting with
  | none => none
  | some p => if p.cause = .stop then some 2 else some 1

/-- The record the status of a context shows: of the lowest-ranked faulting tile, else of rank 0 (R347). -/
def headStop (l : List Stop) : Stop := ((l.find? fun p => p.faulting).or l.head?).getD { mkStop .none 0 0 with faulting := false }

/-- The stops of a partition's tiles in rank order. -/
def State.stopsOf (s : State) (p : BitVec 6) : List Stop := (s.tiles p).filterMap fun n => (s.core n).stop

/-- Whether every tile of a partition has its record. -/
def State.allStopped (s : State) (p : BitVec 6) : Bool := (s.tiles p).all fun n => (s.core n).run == .stopped

/-- An event of 32 bytes without its number (R348). -/
def eventBytes (ctx : BitVec 16) (p : BitVec 6) (kind : Nat) (x : Stop) (tstat : W64) : List Byte :=
  leBytes 2 ctx.toNat ++ leBytes 1 p.toNat ++ leBytes 1 kind ++ leBytes 1 (Cause.num x.cause) ++ leBytes 1 x.flags ++
  leBytes 2 x.code.toNat ++ leBytes 8 tstat.toNat

/-- An event waits to be posted. -/
def State.notify (s : State) (bs : List Byte) : State :=
  { s with host := { s.host with pending := s.host.pending ++ [{ bytes := bs }] } }

end Sys2Proof.Machine
end

