-- ==== Sys2Proof/Machine/Traverse.lean ====
section
/-! DEFINITION. The traverse: evaluation, start and completion of legs, messages and slot returns, triggers, flips, bubbles
and trace records; what comes in over the port groups, on its way to its unit (R14, R26, R276, R289 to R305, R314, R319). -/

namespace Sys2Proof.Machine

/-! ### Where a traverse is held (R299, R304) -/

/-- A traverse by its place: of a partition, or of a switched-out context. -/
inductive TLoc where
  | part (p : BitVec 6)
  | ctx (i : BitVec 16)
  deriving DecidableEq, Repr, Inhabited

/-- The traverse at a place. -/
def State.trav (s : State) (l : TLoc) : Option Trav :=
  match l with
  | .part p => (s.part p).map fun q => q.trav
  | .ctx i => (s.ctx i).bind fun c => c.trav

/-- The traverse at a place changed. -/
def State.onTrav (s : State) (l : TLoc) (f : Trav → Trav) : State :=
  match l with
  | .part p => s.onPart p fun q => { q with trav := f q.trav }
  | .ctx i => s.onCtx i fun c => c.setTrav f

/-- The traverse of partition `p` that a predicate accepts: the resident one, else that of a context switched out of `p`. -/
def State.findTrav (s : State) (p : BitVec 6) (ok : Trav → Bool) : Option TLoc :=
  if (s.trav (.part p)).any ok then some (.part p)
  else (s.ctxs.find? fun c => c.part == p && c.trav.any ok).map fun c => .ctx c.id

/-- The anchor tile of a partition: its tile of rank 0 (R11). -/
def State.anchor (s : State) (p : BitVec 6) : Nat := (s.tiles p).headD 0

/-- Bytes put into the inbox of a traverse: the anchor's A buffer, or its image (R299). -/
def State.inboxWrite (s : State) (l : TLoc) (a : Nat) (bs : List Byte) : State :=
  match l with
  | .part p => s.onCore (s.anchor p) fun c => c.writeBuf .a (place a bs)
  | .ctx i => s.onCtx i fun c =>
      { c with
        shadow := memWrite c.shadow (tileBlock 0 + 0x100000 + a) bs
        images := match c.images with
          | [] => []
          | x :: r => { x with store := { x.store with a := x.store.a.write i.toNat (place a bs) } } :: r }

/-! ### Neighbours (R287, R291) -/

/-- Whether a traverse names partition `q` of this module as its neighbour on one side. -/
def Trav.names (t : Trav) (up : Bool) (q : BitVec 6) : Bool :=
  t.bound && (if up then t.upv && !t.upx && t.upPart == q else t.dnv && !t.dnx && t.dnPart == q)

/-- The neighbour of the traverse of partition `p` on one side of this module, mirrored. -/
def State.neighbour (s : State) (p : BitVec 6) (t : Trav) (up : Bool) : Option TLoc :=
  let q := if up then t.upPart else t.dnPart
  if t.names up q then s.findTrav q fun u => u.names (!up) p else none

/-- Whether a traverse has its neighbour on one side on another module (R291). -/
def Trav.isFar (t : Trav) (up : Bool) : Bool := t.bound && (if up then t.upv && t.upx else t.dnv && t.dnx)

/-- Whether a neighbour is missing: withdrawn, or not yet bound (R291, R299). -/
def State.missing (s : State) (p : BitVec 6) (t : Trav) (up : Bool) : Bool :=
  if up then t.upGone || (if t.upx then !t.upMet else (s.neighbour p t true).isNone)
  else t.dnGone || (if t.dnx then !t.dnMet else (s.neighbour p t false).isNone)

/-- The die of a partition's traverse: that of its anchor (DEDUCED log 61). -/
def State.travDie (s : State) (p : BitVec 6) : Nat := (s.core (s.anchor p)).die

/-- Die and unit of a traverse: the traverse unit on its anchor's die; of a context that is switched out the memory of the die where
its anchor was, which holds its state (R118, R299, R316; DEDUCED log 61). -/
def State.travUnit (s : State) : TLoc → Nat × Nat
  | .part p => (s.travDie p, 38)
  | .ctx i => ((((s.ctx i).map fun x => x.tileNo 0).getD 0) / 32, 34)

/-- Where the traverse of partition `p` sends what goes to one side: the bridge of the group that carries it to another module, or the
neighbour's unit (R291, R316). -/
def State.sendUnit (s : State) (p : BitVec 6) (t : Trav) (up : Bool) : Nat × Nat :=
  if t.isFar up then bridgeOf (t.carrier up) else ((s.neighbour p t up).map s.travUnit).getD (s.travDie p, 38)

/-- The cells that carry what a traverse sends to a unit: a message or a slot return; none within a die (R314, R316). -/
def State.travCells (s : State) (p : BitVec 6) (at' : Nat × Nat) (ret : Bool) (bs : List Byte) : List (Nat × RCell) :=
  ({ die := s.travDie p, unit := 38, tid := s.ring.tids, part := p } : Trip).message at' (if ret then 9 else 7) bs

/-- Whether what a traverse sends finds room: no flow of its unit would hold more than 32 unconfirmed cells (R319). -/
def State.sendRoom (s : State) (p : BitVec 6) (l : List ((Nat × Nat) × Bool)) : Bool :=
  s.ringRoom (l.flatMap fun e => s.travCells p e.1 e.2 (if e.2 then [] else List.replicate 128 0))

/-- The cells of what a traverse sends queued, and the die and number by which the receiver knows them. -/
def State.viaRing (s : State) (p : BitVec 6) (at' : Nat × Nat) (ret : Bool) (bs : List Byte) : State × Option (Nat × Nat) :=
  let d := s.travDie p
  let n := s.ring.tids
  let l := s.travCells p at' ret bs
  if l.isEmpty then (s, none)
  else ({ s with ring := { s.ring with tids := (n + 1) % 65536 } }.queueCells l, some (d, n))

/-- Whether the cells of an item are still under way; and the state with them taken. -/
def State.viaOut (s : State) (via : Option (Nat × Nat)) : Bool :=
  match via with
  | none => false
  | some x => s.under { die := x.1, unit := 38, tid := x.2, part := 0 }

def State.viaTake (s : State) (via : Option (Nat × Nat)) : State :=
  match via with
  | none => s
  | some x => s.absorb { die := x.1, unit := 38, tid := x.2, part := 0 }

/-- A message or a slot return sent by the traverse of partition `p` to the neighbour on one side; to another module it waits for
the group that carries it (R287, R292, R299, R335). What a leg that runs sends to a neighbour that has ended or moved
meanwhile is discarded, and nothing is recorded: R299 speaks of legs in WAIT only (DESIGN CHOICE log 63). -/
def State.sendTo (s : State) (p : BitVec 6) (t : Trav) (up : Bool) (ret : Bool) (bs : List Byte) : State :=
  if t.isFar up then
    (if (if up then t.upGone else t.dnGone) then s
     else
       let x := s.viaRing p (bridgeOf (t.carrier up)) ret bs
       x.1.onTrav (.part p) fun u => { u with out := u.out ++ [{ up := up, ret := ret, bytes := bs, via := x.2 }] })
  else
    match s.neighbour p t up with
    | none => s
    | some l =>
      let x := s.viaRing p (s.travUnit l) ret bs
      x.1.onTrav l fun u => { u with arriving := u.arriving ++ [{ fwd := !up, ret := ret, bytes := bs, via := x.2 }] }

/-- Whether an item has come to its bridge and the group carries it now (R299, R335). -/
def State.mayLeave (s : State) (t : Trav) (m : TOut) : Bool := s.ualOpen (t.carrier m.up) && !s.viaOut m.via

/-- What a traverse has for neighbours on other modules that their groups carry now, and what still waits (R299, R335). -/
def State.leaving (s : State) (t : Trav) : List TOut := t.out.filter fun m => s.mayLeave t m
def State.waiting (s : State) (t : Trav) : Trav := { t with out := t.out.filter fun m => !s.mayLeave t m }

/-- Messages and slot returns for other modules leave in order over the groups that carry them (R299, R335, R336). -/
def State.sendOut (s : State) : State :=
  let s1 := s.travs.foldl (fun u t =>
    (s.leaving t).foldl (fun u m => (u.viaTake m.via).onGroup (t.carrier m.up) fun g => g.transmit m.bytes) u) s
  { s1 with
    parts := s1.parts.map fun e => (e.1, { e.2 with trav := s.waiting e.2.trav })
    ctxs := s1.ctxs.map fun c => { c with trav := c.trav.map s.waiting } }

/-! ### Bindings with other modules (R291) -/

/-- A traverse with its counters as binding sets them (R292). -/
def newTrav (bound : Bool) (bind : List Byte) : Trav :=
  { (default : Trav) with
    bound := bound, bind := bind, state := .wait, freedn := field bind 5 1, freeup := field bind 6 1 }

/-- Whether a traverse names partition `q` of module `acc` as its neighbour on one side. -/
def Trav.namesFar (t : Trav) (up : Bool) (acc : Nat) (q : BitVec 6) : Bool :=
  t.isFar up && bindAcc t.bind (if up then 8 else 12) == acc && (if up then t.upPart else t.dnPart) == q

/-- Whether the binding of partition `p` and that of partition `e.1.2` of module `e.1.1` mirror each other, the peer being on the
side `up` (R291). -/
def farMirror (p : BitVec 6) (t : Trav) (up : Bool) (e : (BitVec 10 × BitVec 6) × List Byte) : Bool :=
  let u := newTrav true e.2
  t.namesFar up e.1.1.toNat e.1.2 && u.namesFar (!up) Config.accel.toNat p &&
  (if up then u.dnsl == t.fins && t.upsl == u.bins else t.dnsl == u.fins && u.upsl == t.bins)

/-- Whether one of two such bindings names the other and they do not mirror each other (R291). -/
def farClash (p : BitVec 6) (t : Trav) (e : (BitVec 10 × BitVec 6) × List Byte) : Bool :=
  [true, false].any fun up =>
    (t.namesFar up e.1.1.toNat e.1.2 || (newTrav true e.2).namesFar (!up) Config.accel.toNat p) && !farMirror p t up e

/-- A traverse that meets the binding of a peer (R291). -/
def Trav.meet (t : Trav) (p : BitVec 6) (e : (BitVec 10 × BitVec 6) × List Byte) : Trav :=
  { t with upMet := t.upMet || farMirror p t true e, dnMet := t.dnMet || farMirror p t false e }

/-- Every bound traverse of the module changed, by its partition. -/
def State.onBound (s : State) (f : BitVec 6 → Trav → Trav) : State :=
  { s with
    parts := s.parts.map fun e => (e.1, { e.2 with trav := f e.1 e.2.trav })
    ctxs := s.ctxs.map fun c => { c with trav := c.trav.map (f c.part) } }

/-- All bound traverses of the module with their partitions. -/
def State.bound (s : State) : List (BitVec 6 × Trav) :=
  (s.parts.filterMap fun e => if e.2.trav.bound then some (e.1, e.2.trav) else none) ++
  s.ctxs.filterMap fun c => (c.trav.filter fun t => t.bound).map fun t => (c.part, t)

/-- The steward of a peer binds a partition: kept where it mirrors every binding here that names it or that it names; otherwise
it, the later one, is rejected there (R291). -/
def State.farBind (s : State) (e : (BitVec 10 × BitVec 6) × List Byte) : State :=
  if s.bound.any fun x => farClash x.1 x.2 e then s
  else { s.onBound fun p t => t.meet p e with farBinds := (s.farBinds.filter fun x => x.1 != e.1) ++ [e] }

/-- The steward of a peer withdraws the binding of a partition: its neighbours here find it withdrawn (R291, R299). -/
def State.farUnbind (s : State) (acc : BitVec 10) (q : BitVec 6) : State :=
  { s.onBound fun _ t => { t with
      upGone := t.upGone || (t.upMet && t.namesFar true acc.toNat q)
      dnGone := t.dnGone || (t.dnMet && t.namesFar false acc.toNat q) } with
    farBinds := s.farBinds.filter fun x => x.1 != (acc, q) }

/-! ### Preconditions (R293, R299) -/

/-- The failing groups of a leg, IN in bit 0, then TAGS, OUT, PUSH, POP (R293, R303). -/
def State.unmetOf (s : State) (p : BitVec 6) (t : Trav) (l : LegW) : BitVec 5 :=
  let src := !l.back
  let inBad := (l.inn && (if l.back then t.inb == 0 else t.inf == 0)) || ((l.inn || l.ret) && s.missing p t src)
  let tagBad := l.w1 &&& ~~~(s.core (s.anchor p)).spec.tagmap != 0
  let outBad := l.out && ((if l.back then t.freeup == 0 else t.freedn == 0) || s.missing p t (!src))
  let pushBad := l.push && decide (t.stlim ≤ t.stash.length)
  let popBad := l.pop && t.stash.head? != some (t.mbOf l)
  BitVec.ofNat 5 (bitsNat [inBad, tagBad, outBad, pushBad, popBad])

/-- An error recorded in a traverse (R303). -/
def Trav.fail (t : Trav) (n : BitVec 4) : Trav := { t with err := true, errc := n }

/-- The errors an evaluation finds: a neighbour withdrawn that the leg needs, a POP that can never start (R294, R299). -/
def Trav.evalErr (t : Trav) (l : LegW) : Trav :=
  let up := !l.back
  let gone := fun (b : Bool) => if b then t.upGone else t.dnGone
  let t1 := if ((l.inn || l.ret) && gone up) || (l.out && gone (!up)) then t.fail 3 else t
  if l.pop && (match t.stash with | [] => false | x :: _ => x != t.mbOf l) then t1.fail 1 else t1

/-- The current leg evaluated: READY where every precondition holds, else WAIT (R294). -/
def State.evalLeg (s : State) (p : BitVec 6) : State :=
  match s.trav (.part p) with
  | none => s
  | some t =>
    match t.cur with
    | none => s.onTrav (.part p) fun t => { t with state := .fin }
    | some l =>
      let u := s.unmetOf p t l
      s.onTrav (.part p) fun t =>
        { (t.evalErr l) with unmet := u, state := if u = 0 then .ready else .wait }

/-- A WAIT cycle charged by the groups that failed at the last evaluation (R300). -/
def Trav.charge (t : Trav) : Trav :=
  let t := { t with legbub := t.legbub + 1 }
  if t.unmet.getLsbD 0 || t.unmet.getLsbD 1 then { t with bubup := t.bubup + 1, legcause := t.legcause ||| 1 }
  else if t.unmet.getLsbD 2 then { t with bubdn := t.bubdn + 1, legcause := t.legcause ||| 2 }
  else { t with bubst := t.bubst + 1, legcause := t.legcause ||| 4 }

/-! ### Flips (R302) -/

/-- The planes of a partition flip where a flip is pending and both shadow planes are complete (R302). -/
def State.flip (s : State) (p : BitVec 6) : State :=
  match s.part p with
  | none => s
  | some q =>
    if !(q.swp && q.shi && q.sht) then s
    else
      let s := s.onPart p fun q => { q with
        swp := false, shi := false, sht := false, trav := { q.trav with plane := !q.trav.plane, cursor := 0, lpc := 0 } }
      (s.tiles p).foldl (fun s n => s.onCore n fun c => { c with
        store := { c.store with plane := !c.store.plane } }) s

/-- Whether a partition's context is resident and its halt line is not driven. -/
def Part.live (q : Part) : Bool := q.ctx != 0 && !q.halt

/-- Whether the legs of a partition go on: its context also does not wait for its launch group (R346). -/
def State.legsGo (s : State) (q : Part) : Bool := q.live && !(s.ctx q.ctx).any fun c => c.state == .waiting

/-- PLANE_FLIP: at the end of a DONE cycle, and at END, a pending flip takes place; then the new plane's first leg is
evaluated (R302). -/
def execPlaneFlip (part : BitVec 6) (s : State) : Host.Outcome State Fault Refusal :=
  .next
    (match s.part part with
     | none => s
     | some q =>
       if s.legsGo q ∧ (q.trav.state = .done ∨ q.trav.state = .fin) ∧ q.swp ∧ q.shi ∧ q.sht then (s.flip part).evalLeg part else s)

/-! ### LEG_EVALUATION (R294, R300) -/

/-- An event for the host: the traverse has reached END (R348). -/
def State.endEvent (s : State) (p : BitVec 6) (ctx : BitVec 16) : State :=
  s.notify (eventBytes ctx p 3 (mkStop .none 0 0 |> fun x => { x with faulting := false }) (s.tstat p))

/-- LEG_EVALUATION: the end of a resident tile cycle. A WAIT cycle is charged and the leg evaluated; after a DONE cycle a
pending flip takes place and the next leg becomes current, or the traverse reaches END; at END a pending flip takes place
(R294, R300, R302). -/
def execLegEvaluation (part : BitVec 6) (s : State) : Host.Outcome State Fault Refusal :=
  .next
    (match s.part part with
     | none => s
     | some q =>
       if !s.legsGo q then s
       else
         match q.trav.state with
         | .wait => (s.onTrav (.part part) Trav.charge).evalLeg part
         | .done =>
           let s := s.flip part
           (match (s.trav (.part part)).bind Trav.cur with
           | some _ => s.evalLeg part
           | none => (s.onTrav (.part part) fun t => { t with state := .fin }).endEvent part q.ctx)
         | .fin => if q.swp ∧ q.shi ∧ q.sht then (s.flip part).evalLeg part else s
         | _ => s)

/-! ### RUN (R14, R292, R295, R301) -/

/-- A tile at the start of a leg (R14, R300): LT, FRAME and LSD are 0, with the logical cycles after a `halt`; fetch is at the entry;
the bubble registers hold the totals charged before; the array's counts of the leg begin again. -/
def Core.startLeg (c : Core) (entry : IAddr) (t : Trav) : Core :=
  { c with
    run := .running
    pc := entry, xfer := true, fromTrap := false, iss := State.resetIss, after := 0
    loops := { c.loops with lsd := 0 }
    spec := { c.spec with lt := 0, frame := 0, bubup := t.bubup, bubdn := t.bubdn, bubst := t.bubst }
    eng := { c.eng with
      trig := false
      arr := { c.eng.arr with
        streams := [], nchain := 0, log := [], hist := [(0, c.eng.arr.active, c.eng.arr.p0, c.eng.arr.p1)] } } }

/-- A trace record of 32 bytes (R301). -/
def traceRecord (t : Trav) (l : LegW) (runCyc : W64) : List Byte :=
  leBytes 2 (t.cursor + 512 * t.plane.toNat) ++ leBytes 1 l.kind ++ leBytes 1 t.legcause.toNat ++ leBytes 2 (t.mbOf l) ++
  leBytes 2 t.lpc ++ leBytes 8 runCyc.toNat ++ leBytes 8 t.doneCyc.toNat ++ leBytes 4 (min t.legbub (2 ^ 32 - 1)) ++
  leBytes 1 (min t.drop 255) ++ leBytes 3 0

/-- The trace record of a leg that starts, where tracing is enabled; records wrap at the end of their area (R301, R343;
DEDUCED log 21). -/
def State.writeTrace (s : State) (p : BitVec 6) (t : Trav) (l : LegW) : State :=
  let v := s.trctlOf p
  if !v.getLsbD 0 then s
  else
    let base := v.toNat / 65536 % 2 ^ 40 * 65536
    let size := 65536 * 2 ^ (v.toNat / 256 % 16)
    let cyc := (s.core (s.anchor p)).spec.cyc
    let n := ((s.trctl.find? fun e => e.1 == p).map fun e => e.2.2).getD 0
    { s with
      mem := s.mem.write 0 0 (base + 32 * n % size) (traceRecord t l cyc)
      trctl := s.trctl.map fun e => if e.1 = p then (e.1, e.2.1, e.2.2 + 1) else e }

/-- The counters of a leg that starts (R292, R295). -/
def Trav.startLeg (t : Trav) (l : LegW) : Trav :=
  { t with
    inf := if l.inn && !l.back then t.inf - 1 else t.inf
    inb := if l.inn && l.back then t.inb - 1 else t.inb
    freedn := if l.out && !l.back then t.freedn - 1 else t.freedn
    freeup := if l.out && l.back then t.freeup - 1 else t.freeup
    state := .run, ntrig := 0, early := false, legbub := 0, legcause := 0, drop := 0 }

/-- RUN: a READY leg starts on every tile of its partition (R14, R294, R295, R301). -/
def execRun (part : BitVec 6) (s : State) : Host.Outcome State Fault Refusal :=
  .next
    (match s.part part with
     | none => s
     | some q =>
       match q.trav.cur with
       | none => s
       | some l =>
         if !q.live ∨ q.trav.state ≠ .ready then s
         else
           let t := q.trav
           let s := (s.writeTrace part t l).onTrav (.part part) fun t => t.startLeg l
           (s.tiles part).foldl (fun s n => s.onCore n fun c => c.startLeg l.entry t) s)

/-! ### DONE (R14, R26, R289, R296) -/

/-- Whether a tile has halted and all it issued has performed (R14, R15, R91). -/
def State.tileDone (s : State) (n : Nat) : Bool :=
  let c := s.core n
  let m := (s.die c.die).msq
  c.run == .halted && c.fault.isNone && c.eng.reqs.isEmpty && c.eng.copies.isEmpty && c.eng.colls.isEmpty &&
  c.flight.isEmpty && c.eng.gs.isEmpty && c.eng.openRed == 0 && !(m.slots.toList.any fun p => p.busy && p.tile == n) &&
  !(m.wait.any fun w => w.1 == n) && !(m.xfers.any fun x => x.owner == n)

/-- The cursor after a leg (R289). -/
def Trav.move (t : Trav) (l : LegW) : Trav :=
  if l.rep = 0 then { t with cursor := t.cursor + 1 }
  else if t.lpc < l.rep then { t with lpc := t.lpc + 1, cursor := l.loopTo }
  else { t with lpc := 0, cursor := t.cursor + 1 }

/-- The stash after a leg (R296). -/
def Trav.stashed (t : Trav) (l : LegW) : Trav :=
  let t1 := if l.push then { t with stash := t.stash ++ [t.mbOf l] } else t
  if l.pop then { t1 with stash := t1.stash.drop 1 } else t1

/-- A tile at the end of a leg: arrivals that nothing took are discarded and their credits return (R15, R26). -/
def Core.endOfLeg (c : Core) : Core :=
  { c with run := .idle, eng := { c.eng with skid := [], credit := c.eng.credit.filter fun e => decide (256 ≤ e.1) } }

/-- The outbox of a leg read from the anchor (R296). -/
def State.readBox (s : State) (p : BitVec 6) (t : Trav) (l : LegW) : List Byte :=
  (s.core (s.anchor p)).bytes .a (t.outbox l) 128

/-- Far arrivals and others that no `rcv` took, on all tiles of a partition. -/
def State.untaken (s : State) (p : BitVec 6) : Nat :=
  ((s.tiles p).map fun n => (s.core n).eng.skid.length).foldl (fun a b => a + b) 0

/-- The credits of a tile's sends to far aliases stay with their receivers (R26, R307). -/
def State.keepFar (s : State) (q : Part) (c : Core) : Core :=
  { c.endOfLeg with eng := { c.endOfLeg.eng with
      credit := c.eng.credit.filter fun e => !s.inPart c e.1 && q.far.any fun w => w.toNat % 256 == e.1 } }

/-- What a leg sends as it completes, by unit and kind: its outbox where it has not gone early, its slot return (R296, R298). -/
def State.doneSends (s : State) (p : BitVec 6) (t : Trav) (l : LegW) : List ((Nat × Nat) × Bool) :=
  (if l.out && !t.early then [(s.sendUnit p t l.back, false)] else []) ++ if l.ret then [(s.sendUnit p t (!l.back), true)] else []

/-- DONE: every tile has halted and all it issued has performed, and the ring has room for what the traverse sends: the outbox is
sent, the stash changes, the inbox slot returns, the cursor moves (R14, R26, R289, R294, R296, R319). -/
def execDone (part : BitVec 6) (s : State) : Host.Outcome State Fault Refusal :=
  .next
    (match s.part part with
     | none => s
     | some q =>
       match q.trav.cur with
       | none => s
       | some l =>
         if !q.live ∨ q.trav.state ≠ .run ∨ !(s.tiles part).all s.tileDone ∨ !s.sendRoom part (s.doneSends part q.trav l) then s
         else
           let t := q.trav
           let cyc := (s.core (s.anchor part)).spec.cyc
           let drops := s.untaken part
           let s1 := if l.out && !t.early then s.sendTo part t l.back false (s.readBox part t l) else s
           let s2 := if l.ret then s1.sendTo part t (!l.back) true [] else s1
           let s3 := s2.onTrav (.part part) fun t =>
             { (t.stashed l).move l with state := .done, doneCyc := cyc, drop := t.drop + drops }
           (s.tiles part).foldl (fun s n => s.onCore n (s.keepFar q)) s3)

/-! ### Messages and slot returns (R281, R292, R299) -/

/-- The first item from one side taken off a traverse's queue. -/
def takeItem (fwd : Bool) : List TMsg → Option (TMsg × List TMsg)
  | [] => none
  | m :: r => if m.fwd = fwd then some (m, r) else (takeItem fwd r).map fun x => (x.1, m :: x.2)

/-- A message takes effect: at the next slot of its inbox, or discarded with ERRC 2 where the inbox is full (R292). -/
def State.arrive (s : State) (l : TLoc) (fwd : Bool) (bs : List Byte) : State :=
  match s.trav l with
  | none => s
  | some t =>
    if fwd then
      (if t.fins ≤ t.inf then s.onTrav l fun t => t.fail 2
       else (s.inboxWrite l (t.fibase + 128 * t.wrf) bs).onTrav l fun t =>
         { t with inf := t.inf + 1, wrf := (t.wrf + 1) % t.fins })
    else
      (if t.bins ≤ t.inb then s.onTrav l fun t => t.fail 2
       else (s.inboxWrite l (t.bibase + 128 * t.wrb) bs).onTrav l fun t =>
         { t with inb := t.inb + 1, wrb := (t.wrb + 1) % t.bins })

/-- The traverse of a partition with an item at the head of its queue from one side. -/
def State.withItem (s : State) (p : BitVec 6) (fwd ret : Bool) : Option TLoc :=
  s.findTrav p fun t => (takeItem fwd t.arriving).any fun x => x.1.ret == ret

/-- Whether a traverse takes messages from another module on one side: its neighbour there is bound (R291, R299). -/
def Trav.meets (t : Trav) (up : Bool) : Bool := t.isFar up && if up then t.upMet && !t.upGone else t.dnMet && !t.dnGone

/-- Whether what comes for a traverse from another module may come in: its neighbour there is bound, and the group that carries
it is ACTIVE in UALink (R291, R299, R335). -/
def State.fromFar (s : State) (t : Trav) (up : Bool) : Bool := t.meets up && s.ualOpen (t.carrier up)

/-! ### What comes in over a port group (R299, R307, R314, R328, R329) -/

/-- The pieces of memory that an access from outside reaches. -/
def InAct.pieces : InAct → List Piece
  | .req (.cxlMemRead pa n) | .req (.ualRead pa n) => [{ pa := pa, n := n }]
  | .req (.cxlMemWrite pa bs _) | .req (.ualWrite pa bs _) => [{ pa := pa, n := bs.length }]
  | .req (.ualAtomic _ w4 pa _ _) => [{ pa := pa, n := amoBytes w4 }]
  | _ => []

/-- The unit to which an item goes, by die and number: the receiving tile, of a switched-out context the memory that holds it; a
traverse; the memory or the atomic unit of its address (R299, R308, R316; DEDUCED log 61). -/
def State.inUnit (s : State) (g : Nat) : InAct → Nat × Nat
  | .far p rank .. =>
    match (s.tiles p)[rank.toNat]? with
    | some n => (n / 32, n % 32)
    | none =>
      match s.ctxs.find? fun c => c.part == p && c.state == .out with
      | some x => (x.tileNo rank.toNat / 32, 34)
      | none => bridgeOf g
  | .msg p fwd _ => ((s.findTrav p fun t => t.meets fwd).map s.travUnit).getD (bridgeOf g)
  | .ret p down => ((s.findTrav p fun t => t.meets (!down)).map s.travUnit).getD (bridgeOf g)
  | .req (.ualAtomic _ _ pa ..) => paUnit pa 33
  | .req (.cxlMemRead pa _) | .req (.cxlMemWrite pa ..) | .req (.ualRead pa _) | .req (.ualWrite pa ..) => paUnit pa 34
  | .req _ => bridgeOf g

/-- The cells of an item from its bridge to its unit; none within a die (R314, R316). -/
def InItem.ask (m : InItem) : List (Nat × RCell) :=
  let x := m.trip
  match m.what with
  | .far p _ _ _ bs => { x with part := p }.message (m.die, m.unit) 7 bs
  | .msg p _ bs => { x with part := p }.message (m.die, m.unit) 7 bs
  | .ret p _ => { x with part := p }.message (m.die, m.unit) 9 []
  | .req (.cxlMemRead ..) | .req (.ualRead ..) => x.ask 34 0 m.what.pieces []
  | .req (.cxlMemWrite _ bs _) | .req (.ualWrite _ bs _) => x.ask 34 2 m.what.pieces bs
  | .req (.ualAtomic _ w4 _ v v2) =>
    let n := amoBytes w4
    (x.ask 33 4 m.what.pieces []).map fun e =>
      (e.1, { e.2 with payload := leBytes n v.toNat ++ leBytes n v2.toNat, vlen := BitVec.ofNat 8 (2 * n) })
  | .req _ => []

/-- The cells that bring the answer of an access back to its bridge; a write's acknowledgement needs none that is waited for
(R314, R316). -/
def InItem.answer (m : InItem) (bs : List Byte) : List (Nat × RCell) :=
  match m.what with
  | .req (.cxlMemRead ..) | .req (.ualRead ..) => m.trip.answer 34 1 m.what.pieces bs lineStrand
  | .req (.ualAtomic ..) => m.trip.answer 33 5 m.what.pieces bs lineStrand
  | _ => []

/-- A slot comes back from one side (R292). -/
def Trav.freed (t : Trav) (down : Bool) : Trav :=
  if down then { t with freedn := t.freedn + 1 } else { t with freeup := t.freeup + 1 }

/-- A message of a neighbour of this module, the oldest, its cells delivered, takes effect (R292, R299, R314). -/
def State.nearMessage (s : State) (part : BitVec 6) (fwd : Bool) : State :=
  match s.withItem part fwd false with
  | none => s
  | some l =>
    match (s.trav l).bind fun t => takeItem fwd t.arriving with
    | none => s
    | some x =>
      if s.viaOut x.1.via then s
      else ((s.viaTake x.1.via).onTrav l fun t => { t with arriving := x.2 }).arrive l fwd x.1.bytes

/-- A slot return of a neighbour of this module, the oldest, its cells delivered, takes effect (R292, R299, R314). -/
def State.nearReturn (s : State) (part : BitVec 6) (down : Bool) : State :=
  match s.withItem part (!down) true with
  | none => s
  | some l =>
    match (s.trav l).bind fun t => takeItem (!down) t.arriving with
    | none => s
    | some x =>
      if s.viaOut x.1.via then s else (s.viaTake x.1.via).onTrav l fun t => { t with arriving := x.2 }.freed down

/-! ### Triggers (R231, R297, R298) -/

/-- Whether a round of a reduction holds a contribution that a core issued before its access `id` (R226, R323). -/
def State.redBefore (s : State) (c : Core) (id : Nat) : Bool :=
  s.dies.any fun d => d.rounds.any fun r => r.got.any fun x => x.tile == c.num && decide (x.seq < id)

/-- Whether what a trigger covers has performed: what R229 covers among the accesses issued before it; that of a halt covers
everything the tile writes, its copies, its collectives and its memory sequencer programs among them (R231, R276). -/
def State.trigReady (s : State) (c : Core) (id : Nat) (all : Bool) : Bool :=
  let m := (s.die c.die).msq
  !(c.eng.reqs.any fun r => decide (r.id < id) && r.covered) &&
  !(c.eng.copies.any fun k => decide (k.id < id) && Copy.outbound k) && !s.redBefore c id &&
  (!all || (c.flight.isEmpty && c.eng.copies.isEmpty && c.eng.colls.isEmpty && c.eng.inq.isEmpty && !(m.slots.toList.any fun p => p.busy && p.tile == c.num) &&
    !(m.wait.any fun w => w.1 == c.num) && !(m.xfers.any fun x => x.owner == c.num)))

/-- Whether the ring has room for the early message that the next trigger of a partition sends, where it is the last (R298, R319). -/
def State.postRoom (s : State) (p : BitVec 6) : Bool :=
  match s.trav (.part p) with
  | none => true
  | some t =>
    match t.cur with
    | none => true
    | some l => !(l.early && l.out && !t.early && t.ntrig + 1 == (s.tiles p).length) || s.sendRoom p [(s.sendUnit p t l.back, false)]

/-- TRIGGER_POST: a tile's trigger is counted; with the last one an EARLY leg sends its outbox, as the anchor's trigger
covers it: as it stood at a `trig`, and for the trigger of a halt with all that the tile wrote; where the ring has no room for the
message, the trigger waits (R231, R276, R297, R298, R319). -/
def execTriggerPost (core : Nat) (s : State) : Host.Outcome State Fault Refusal :=
  let c := s.core core
  .next
    (match c.eng.reqs.find? fun r => (match r.kind with | .trig .. => true | _ => false) with
     | none => s
     | some r =>
       if !s.trigReady c r.id (r.kind matches .trig _ true) ∨ !s.postRoom c.part then s
       else
         let now := s.boxNow c
         let s := s.onCore core fun c => c.dropReq r.id
         let s := s.onTrav (.part c.part) fun t => { t with
           ntrig := t.ntrig + 1
           box := match r.kind with
             | .trig b all => if c.rank = 0 then (if all then now else b) else t.box
             | _ => t.box }
         match s.trav (.part c.part) with
         | none => s
         | some t =>
           match t.cur with
           | none => s
           | some l =>
             if l.early && l.out && !t.early && t.ntrig == (s.tiles c.part).length then
               (s.sendTo c.part t l.back false t.box).onTrav (.part c.part) fun t => { t with early := true }
             else s)

/-- TSTAT_ERR_CLEAR (R303, R343). -/
def execTstatErrClear (part : BitVec 6) (s : State) : Host.Outcome State Fault Refusal := .next (s.tstatClear part)

end Sys2Proof.Machine
end

