-- ==== Sys2Proof/Machine/Collect.lean ====
section
/-! DEFINITION. Collectives: who takes part, their sources and destinations, their cells on the ring, completion and abandonment
(R110, R227, R232, R250, R275, R277, R314, R325, R335). -/

namespace Sys2Proof.Machine

/-! ### Combination (R227) -/

/-- Neighbours of a sequence combined, an odd last one passing up (R227 step 2). -/
def pairUp (f : Nat → Nat → Nat × Fl) : List Nat → List Nat × Fl
  | a :: b :: r => let x := f a b; let y := pairUp f r; (x.1 :: y.1, x.2 ||| y.2)
  | l => (l, 0)

/-- A sequence combined to one value in at most `k` levels. -/
def combine (f : Nat → Nat → Nat × Fl) : Nat → List Nat → List Nat × Fl
  | 0, l => (l, 0)
  | k + 1, l =>
    match l with
    | _ :: _ :: _ => let x := pairUp f l; let y := combine f k x.1; (y.1, x.2 ||| y.2)
    | l => (l, 0)

/-! ### Collectives (R110, R232, R275, R325) -/

/-- Where a participant of a collective is: on a tile, in the image of a switched-out context, on another module, or not yet
at its `coll`. -/
inductive Who where
  | tile (n : Nat) (k : Coll)
  | image (ctx : BitVec 16) (rank : Nat) (k : Coll)
  | far
  | absent
  deriving DecidableEq, Repr, Inhabited

/-- The oldest collective of a group that a core has issued and that has not exchanged. -/
def Arch.collOf (c : Arch) (num : BitVec 32) : Option Coll :=
  c.eng.colls.find? fun k => k.steps == 0 && !k.gone && field k.record 4 4 == num.toNat

/-- The participant an entry of a group names (R306, R325). -/
def State.who (s : State) (num : BitVec 32) (w : W64) : Who :=
  let p : BitVec 6 := w.extractLsb' 24 6
  let r := w.toNat / 2 ^ 16 % 256
  if w.toNat / 2 ^ 30 % 1024 ≠ Config.accel.toNat then .far
  else
    match ((s.tiles p)[r]?).bind fun n => ((s.core n).collOf num).map fun k => (n, k) with
    | some x => .tile x.1 x.2
    | none =>
      match s.ctxs.findSome? fun c =>
        if c.part == p && c.state == .out then
          ((c.images[r]?).bind fun a => a.collOf num).map fun k => (c.id, k)
        else none with
      | some x => .image x.1 r x.2
      | none => .absent

/-- The core of a participant: a switched-out one as its image, on the tile where it was resident last. -/
def State.whoCore (s : State) (w : Who) : Core :=
  match w with
  | .tile n _ => s.core n
  | .image i r _ =>
    match s.ctx i with
    | some c => c.imageCore r ((c.images[r]?).getD State.resetArch)
    | none => State.resetCore 0
  | _ => State.resetCore 0

/-- The record of a participant; of one on another module as it comes from there (DESIGN CHOICE log 22). -/
def State.whoRecord (s : State) (k : Nat) (w : Who) : List Byte :=
  match w with
  | .tile _ x => x.record
  | .image _ _ x => x.record
  | _ => (List.range 64).map fun i => Config.outside (s.free + k) i

/-- Bytes of an element (R232). -/
def etBytes (r : List Byte) : Nat := let t := field r 2 1; if t = 0 ∨ t = 3 then 4 else 2

/-- The combination of two elements (R232): RNE with exact subnormals; integers wrap. -/
def collOp (r : List Byte) (a b : Nat) : Nat × Fl :=
  let red := field r 1 1
  if field r 2 1 = 3 then
    (if red = 0 then ((a + b) % 2 ^ 32, 0)
     else if (sgn 32 a < sgn 32 b) = (red = 1) then (b, 0) else (a, 0))
  else
    let f := if field r 2 1 = 0 then fp32 else if field r 2 1 = 1 then fp16 else bf16
    if red = 0 then fpAdd f a b else f.minmax true (red == 1) a b

/-- Pages of an access of any length, at most `k` of them; an empty one keeps its first byte's (R277). -/
def pagesOf : Nat → Nat → Nat → List (Nat × Nat)
  | 0, _, _ => []
  | k + 1, va, n =>
    let m := min n (65536 - va % 65536)
    (va, m) :: if n ≤ m then [] else pagesOf k (va + m) (n - m)

/-- The pieces of `n` bytes at a global place of a core. -/
def State.spread (s : State) (c : Core) (v : W64) (n : Nat) (rd wr : Bool) : XAll :=
  match globPlace v with
  | none => .no .window 0
  | some g =>
    match windowVa (c.win g.2.1) g.2.2 n with
    | none => .no .window 0
    | some va => translateAll (fun x => s.xlatSeq c x rd wr) (pagesOf (n / 65536 + 2) va n)

/-- A place of a record as a value. -/
def placeAt (r : List Byte) (off : Nat) : W64 := BitVec.ofNat 64 (field r off 8)

/-- The key slot of a place. -/
def Core.placeKey (c : Core) (v : W64) : Nat := (c.win (v.extractLsb' 60 3)).key.toNat

/-- Elements that a participant reads from SRC, and writes to DST. -/
def srcElems (r : List Byte) (p : Nat) : Nat := if field r 0 1 = 2 then p * field r 8 8 else field r 8 8
def dstElems (r : List Byte) (p : Nat) : Nat := if field r 0 1 = 1 then p * field r 8 8 else field r 8 8

/-- Whether pieces of global memory have a byte in common. -/
def piecesMeet (a b : List Piece) : Bool := a.any fun x => b.any fun y => decide (x.pa < y.pa + y.n) && decide (y.pa < x.pa + x.n)

/-- The pieces a remote store of a core touches in global memory, translated again where it has to be issued again; none for what
is no store, and everything where its place cannot be translated. -/
def State.storeTouches (s : State) (c : Core) (r : Req) : List Piece :=
  match r.kind with
  | .gstore .. =>
    match s.placed c r.kind with
    | .ok ps => ps
    | .no _ _ => [{ pa := 0, n := 2 ^ 56 }]
  | _ => []

/-- Whether every remote store of a core before a collective that touches its source has performed. Atomics, contributions and the
writes of engines are no stores: nothing else is ordered (R14, R229, R275). -/
def State.storesDone (s : State) (c : Core) (id : Nat) (src : List Piece) : Bool :=
  !(c.eng.reqs.any fun r => decide (r.id < id) && piecesMeet (s.storeTouches c r) src)

/-- What a participant brings: its core, the number of its collective, its record, the pieces of its source and its
destination; one on another module, only its record. -/
structure Participant where
  who : Who
  core : Core
  id : Nat
  record : List Byte
  src : XAll
  dst : XAll
  deriving DecidableEq, Repr

/-- A participant of a collective of `p` ranks, rank `k`. In a broadcast the source of a rank other than ROOT is not read (R232). -/
def State.participant (s : State) (p k : Nat) (w : Who) : Participant :=
  let r := s.whoRecord k w
  let c := s.whoCore w
  let n := etBytes r
  match w with
  | .tile _ x | .image _ _ x =>
    { who := w, core := c, id := x.id, record := r
      src := if field r 0 1 = 3 ∧ field r 32 2 ≠ k then .ok [] else s.spread c (placeAt r 16) (n * srcElems r p) true false
      dst := s.spread c (placeAt r 24) (n * dstElems r p) false true }
  | _ => { who := w, core := c, id := 0, record := r, src := .ok [], dst := .ok [] }

/-- A participant here whose record differs from rank 0's in OP, RED, ETYPE, COUNT or ROOT (R232). -/
def differs (r r0 : List Byte) : Bool :=
  r.take 3 != r0.take 3 || field r 8 8 != field r0 8 8 || field r 32 2 != field r0 32 2

/-- The elements of a participant's source and whether they are not live; from another module as they come from there
(DESIGN CHOICE log 22). -/
def State.sourceOf (s : State) (k : Nat) (x : Participant) (r0 : List Byte) (p : Nat) : List Nat × Bool :=
  let n := etBytes r0
  let bs : List Byte × Bool :=
    match x.who, x.src with
    | .far, _ => ((List.range (n * srcElems r0 p)).map fun i => Config.outside (s.free + k) (64 + i), false)
    | _, .ok ps => (s.readPieces x.core.ctx.toNat (x.core.placeKey (placeAt x.record 16)) ps, s.stalePieces ps)
    | _, _ => ([], false)
  ((List.range (srcElems r0 p)).map fun i => leNat ((bs.1.drop (n * i)).take n), bs.2)

/-- The combination of element `i` over all ranks. -/
def reduceAt (r0 : List Byte) (srcs : List (List Nat)) (i : Nat) : Nat × Fl :=
  let x := combine (collOp r0) 13 (srcs.map fun l => l.getD i 0)
  (x.1.headD 0, x.2)

/-- The elements of rank `rho`'s destination and the flags (R232). A broadcast whose ROOT is no rank of the group writes free
values: the spec names none (DESIGN CHOICE log 55). -/
def collResult (r0 : List Byte) (srcs : List (List Nat)) (rho : Nat) : List (Nat × Fl) :=
  let n := field r0 8 8
  let op := field r0 0 1
  if op = 0 then (List.range n).map fun i => reduceAt r0 srcs i
  else if op = 1 then srcs.flatten.map fun x => (x, 0)
  else if op = 2 then (List.range n).map fun i => reduceAt r0 srcs (rho * n + i)
  else
    let root := field r0 32 2
    (srcs.getD root ((List.range n).map fun i => Config.noRoot root i % 2 ^ (8 * etBytes r0))).map fun x => (x, 0)

/-- A collective of a core changed. -/
def Arch.onColl (c : Arch) (id : Nat) (f : Coll → Coll) : Arch :=
  { c with eng := { c.eng with colls := c.eng.colls.map fun k => if k.id = id then f k else k } }

/-- A collective of a participant changed; of a stopped or switched-out one its completion is noted in its context
(R110). -/
def State.onWho (s : State) (x : Participant) (note : Bool) (f : Coll → Coll) : State :=
  match x.who with
  | .tile n _ =>
    let s := s.onCore n fun c => { c with toArch := c.toArch.onColl x.id f }
    let c := s.core n
    if note && c.run == .stopped then
      s.onCtx c.ctx fun y => y.setNotes (y.collsDone ++ [(c.rank.toNat, x.id)])
    else s
  | .image i r _ =>
    s.onCtx i fun y =>
      { (if note then y.setNotes (y.collsDone ++ [(r, x.id)]) else y) with
        images := y.images.modify r fun a => a.onColl x.id f }
  | _ => s

/-- The participants of a collective of a group by rank. -/
def State.participants (s : State) (g : CGroup) : List Participant :=
  g.entries.mapIdx fun i w => s.participant g.entries.length i (s.who g.num w)

/-- Whether a place is translated. -/
def XAll.isOk : XAll → Bool
  | .ok _ => true
  | .no _ _ => false

/-- The pieces of a translated place. -/
def XAll.pieces : XAll → List Piece
  | .ok ps => ps
  | .no _ _ => []

/-- What rank `rho` receives: its bytes and its flags. -/
def collOut (r0 : List Byte) (srcs : List (List Nat × Bool)) (rho : Nat) : List Byte × Fl :=
  let l := collResult r0 (srcs.map Prod.fst) rho
  (l.flatMap fun e => leBytes (etBytes r0) e.1, l.foldl (fun f e => f ||| e.2) (flIf (srcs.getD rho ([], false)).2 flSTALE))

/-- What the ranks of this module bring goes to those of others over the groups that carry them (R325, R338, R339). -/
def State.toFar (s : State) (g : CGroup) (bs : List Byte) : State :=
  (g.entries.filter fun w => w.toNat / 2 ^ 30 % 1024 != Config.accel.toNat).foldl (fun s w =>
    s.onGroup (w.toNat / 2 ^ 43 % 32) fun x => x.transmit bs) s

/-- Every destination of this module is written under its context and key, and the collective is complete (R110, R232). -/
def State.collWrite (s : State) (xs : List Participant) (r0 : List Byte) (srcs : List (List Nat × Bool)) : State :=
  (xs.zipIdx).foldl (fun t y =>
    match y.1.who, y.1.dst with
    | .far, _ => t
    | _, .ok ps =>
      let o := collOut r0 srcs y.2
      ((t.writePieces y.1.core.ctx.toNat (y.1.core.placeKey (placeAt y.1.record 24)) ps o.1).overGroups ps o.1).onWho y.1 true
        fun k => { k with steps := 1, fl := o.2 }
    | _, _ => t) s

/-! ### The cells of a collective (R314, R316, R325; DEDUCED log 61) -/

/-- A run of a collective put in the place of the one of its group; none where it is over. -/
def State.setRun (s : State) (num : BitVec 32) (r : Option CRun) : State :=
  { s with cruns := (s.cruns.filter fun x => x.num != num) ++ r.toList }

/-- The cells that still have to go, as many as find room (R319). -/
def State.collSend (s : State) (r : CRun) : State :=
  let x := r.todo.foldl (fun (t : State × List (Nat × RCell)) e =>
    if t.2.isEmpty && t.1.ringRoom [e] then (t.1.queueCells [e], []) else (t.1, t.2 ++ [e])) (s, [])
  x.1.setRun r.num (some { r with todo := x.2 })

/-- The results are on their way to the destinations on other dies; where none is, they are written at once. -/
def State.collSpread (s : State) (xs : List Participant) (r : CRun) (srcs : List (List Nat × Bool)) : State :=
  let l := (xs.zipIdx).flatMap fun y =>
    { r.trip with part := y.1.core.part }.ask 34 2 y.1.dst.pieces (collOut r.r0 srcs y.2).1
  if l.isEmpty then (s.setRun r.num none).collWrite xs r.r0 srcs
  else s.collSend { r with stage := .spread srcs, todo := l }

/-- The sources are read as they stand; those of other dies are on their way to the reduction unit that combines them. -/
def State.collGather (s : State) (g : CGroup) (xs : List Participant) (r : CRun) : State :=
  let srcs := xs.mapIdx fun k x => s.sourceOf k x r.r0 xs.length
  let bytes := fun (i : Nat) => (srcs.getD i ([], false)).1.flatMap (leBytes (etBytes r.r0))
  let l := (xs.zipIdx).flatMap fun y =>
    { r.trip with part := y.1.core.part }.answer 34 1 y.1.src.pieces (bytes y.2) lineStrand
  let s := { s with free := s.free + xs.length }
  let s := s.toFar g ((xs.zipIdx).flatMap fun y => if y.1.who = .far then [] else bytes y.2)
  if l.isEmpty then s.collSpread xs r srcs else s.collSend { r with stage := .gather srcs, todo := l }

/-- A collective begins: the requests for the sources of other dies leave the reduction unit of its first rank of this module. -/
def State.collBegin (s : State) (g : CGroup) (xs : List Participant) (r0 : List Byte) : State :=
  let home := ((xs.find? fun x => x.who != .far).map fun x => x.core.die).getD 0
  let r : CRun := { num := g.num, die := home, tid := s.ring.tids, todo := [], r0 := r0, stage := .ask }
  let l := xs.flatMap fun x => { r.trip with part := x.core.part }.ask 34 0 x.src.pieces []
  if l.isEmpty then s.collGather g xs r
  else { s with ring := { s.ring with tids := (s.ring.tids + 1) % 65536 } }.collSend { r with todo := l }

/-- A collective goes on where its cells have been delivered. -/
def State.collNext (s : State) (g : CGroup) (xs : List Participant) (r : CRun) : State :=
  if !r.todo.isEmpty then s.collSend r
  else if s.under r.trip then s
  else
    let s := s.absorb r.trip
    match r.stage with
    | .ask => s.collGather g xs r
    | .gather srcs => s.collSpread xs r srcs
    | .spread srcs => (s.setRun r.num none).collWrite xs r.r0 srcs

/-- Walks asked for the places of a collective that no entry maps (R246). -/
def State.collWalks (s : State) (xs : List Participant) : State :=
  xs.foldl (fun s x =>
    [x.src, x.dst].foldl (fun s p =>
      match p with
      | .no .miss va => s.askWalk x.core.die x.core.ctx va
      | _ => s) s) s

/-- A collective of a group goes on: once all its participants are there, their places translated, their records alike, the stores
before it performed and the groups of far ranks in the personality they need, over channels that are at work (R110, R246, R250, R275,
R325, R335). -/
def State.collGo (s : State) (g : CGroup) : State :=
  let xs := s.participants g
  let ps := xs.flatMap fun x => x.src.pieces ++ x.dst.pieces
  match xs.head? with
  | none => s
  | some x0 =>
    let run := s.cruns.find? fun r => r.num == g.num
    let r0 := (run.map fun r => r.r0).getD x0.record
    if g.dead || !(xs.all fun x => x.who != .absent && (x.who == .far || !differs x.record r0)) then s
    else if !(xs.all fun x => x.src.isOk && x.dst.isOk) then s.collWalks xs
    else if !s.carried g then s
    else if s.chansHold ps then s.askReclaim ps
    else
      match run with
      | some r => s.collNext g xs r
      | none => if xs.all fun x => s.storesDone x.core x.id x.src.pieces then s.collBegin g xs r0 else s

/-- Whether a core has stopped, or is about to stop for a cause that already stands. -/
def Core.stops (c : Core) : Bool := c.run == .stopping || c.run == .stopped || c.fault.isSome

/-- TSMISMATCH of a collective: it is over for its tile, without its tag, and stops it; a tile that has stopped raises it when
it is released (R106, R110, R115, R232; DEDUCED log 23). -/
def State.collStop (s : State) (n id : Nat) : State :=
  s.onCore n fun c =>
    let told := !c.stops
    let d := { c with toArch := c.toArch.onColl id fun x => { x with gone := true, told := told } }
    if told then d.async (asyncStop .tsmismatch 0 0 (.engine id)) else d

/-- The completion of a collective at a core: its tag is set, its flags wait for the observer (R144, R232). -/
def Core.collDone (c : Core) (k : Coll) : Core :=
  let t := BitVec.ofNat 6 (field k.record 3 1)
  ((c.setTag t).lazy t k.fl).onEng fun e => { e with colls := e.colls.filter fun x => x.id != k.id }

/-- The stop of a place of a collective that faults: the offset and the window of SRC, else of DST (R111). -/
def collFault (c : Cause) (k : Coll) (me : Participant) : Stop :=
  let v := placeAt k.record (match me.src with | .ok _ => 24 | .no _ _ => 16)
  asyncStop c (v.toNat % 2 ^ 56) (v.extractLsb' 60 3) (.engine k.id)

/-- A collective not yet exchanged, as one of its participants sees it: one that another has abandoned, or whose record differs from
rank 0's, is TSMISMATCH; a place that faults stops the tile; else it goes on. -/
def State.collTry (s : State) (core : Nat) (k : Coll) : State :=
  match s.collGroup k.record with
  | none => s
  | some g =>
    let xs := s.participants g
    match xs.head?, xs.find? fun x => x.who == .tile core k with
    | some x0, some me =>
      if g.dead then s.collStop core k.id
      else if x0.who = .absent then s
      else if !(s.cruns.any fun r => r.num == g.num) ∧ differs k.record x0.record then s.collStop core k.id
      else
        match me.src, me.dst with
        | .no .window _, _ | _, .no .window _ => s.onCore core fun c => c.async (collFault .window k me)
        | .no .xlate _, _ | _, .no .xlate _ => s.onCore core fun c => c.async (collFault .xlate k me)
        | _, _ => s.collGo g
    | _, _ => s

/-- A collective of a group goes on in the fabric, whether or not the contexts of its participants are resident (R110). -/
def State.collTurn (s : State) (num : Nat) : State :=
  match s.cgroups.find? fun g => g.num.toNat == num with
  | some g => s.collGo g
  | none => s

/-- COLL_COMPLETE: once the participants have exchanged, this tile's tag is set (R110, R232, R275). -/
def execCollComplete (core id : Nat) (s : State) : Host.Outcome State Fault Refusal :=
  .next
    (match (s.core core).eng.colls.find? fun k => k.id == id with
     | none => s
     | some k =>
       if (s.core core).run = .stopped ∧ k.steps = 1 then s
       else
         let t := if k.steps = 0 ∧ !k.gone ∧ (s.core core).fault.isNone then s.collTry core k else s
         match (t.core core).eng.colls.find? fun k => k.id == id with
         | some k => if k.steps = 1 ∧ (t.core core).run ≠ .stopped then t.onCore core fun c => c.collDone k else t
         | none => t)

/-- The collectives of a group that are not complete are abandoned at every participant of this module but those of context
`but`: TSMISMATCH at the tiles, kept for the release of those that have stopped and of switched-out ones. One that a participant
issues later meets the abandonment too (R110; DEDUCED log 23). -/
def State.abandon (s : State) (num : BitVec 32) (but : BitVec 16) : State :=
  let hit := fun (k : Coll) => k.steps == 0 && !k.gone && field k.record 4 4 == num.toNat
  let s1 := (List.range 256).foldl (fun s n =>
    let c := s.core n
    if c.ctx = 0 ∨ c.ctx = but then s
    else (c.eng.colls.filter hit).foldl (fun s k => s.collStop n k.id) s) s
  { s1.setRun num none with
    cgroups := s1.cgroups.map fun g => if g.num = num then { g with dead := true } else g
    ctxs := s1.ctxs.map fun x =>
      if x.id = but then x
      else { x with images := x.images.map fun a => { a with eng := { a.eng with
        colls := a.eng.colls.map fun k => if hit k then { k with gone := true } else k } } } }

/-- COLLECTIVE_ABANDONED: a participant on another module abandons its collective (R110). -/
def execCollectiveAbandoned (group : BitVec 32) (s : State) : Host.Outcome State Fault Refusal :=
  .next (s.abandon group 0)

end Sys2Proof.Machine
end

