-- ==== Sys2Proof/Machine/Fabric.lean ====
section
/-! DEFINITION. What arrives over the fabric: messages, atomics and contributions as they perform, requests from outside the
module and their way to their units, the power governor (R25, R26, R223 to R227, R261, R273, R274, R291, R292, R299, R306 to R308, R314,
R322 to R324, R328 to R330, R335, R338, R339, R354). -/

namespace Sys2Proof.Machine

/-! ### Messages (R26, R307, R308) -/

/-- The oldest untaken sends of a core to one destination come first. -/
def Arch.firstSend (c : Arch) (dst : Nat) (far : Bool) : Option Req :=
  c.eng.reqs.find? fun r =>
    match r.kind with
    | .snd d f _ _ => d == dst && f == far
    | _ => false

/-- The core that receives a message for tile `n`, with the message in its skid. -/
def State.intoSkid (s : State) (n : Nat) (m : Msg) : State :=
  s.onCore n fun c => c.onEng fun e => { e with skid := e.skid ++ [m] }

/-- Whether the group that carries a far-tile number lets messages through now (R308, R335). -/
def State.farActive (s : State) (c : Core) (dst : Nat) : Bool :=
  match s.farEntry c dst with
  | none => false
  | some w => s.ualOpen (w.toNat / 2 ^ 43 % 32)

/-- Whether a message over an entry's group may still come in: the group is ACTIVE, or DRAINING with messages accepted before
GO (R335). -/
def State.farReaches (s : State) (w : Far) : Bool := s.farOpen w && !(s.group (w.toNat / 2 ^ 43 % 32)).keyless

/-- A pending send of a tile of this module arrives: in the skid of its receiver, or over its group at the far tile, whose
skid is no part of this module. -/
def State.sentArrives (s : State) (n id : Nat) : State :=
  let c := s.core n
  match c.req id with
  | none => s
  | some r =>
    match r.kind with
    | .snd dst far stamp bs =>
      if (c.firstSend dst far).map Req.id ≠ some id ∨ s.inRing c id then s
      else if far then
        (if s.farActive c dst then
          (match s.farEntry c dst with
            | some w => (s.consumeCells c id).onGroup (w.toNat / 2 ^ 43 % 32) fun g => g.transmit bs
            | none => s).onCore n fun c => c.dropReq id
         else s)
      else
        ((s.consumeCells c id).onCore n fun c => c.dropReq id).intoSkid dst
          { src := n, far := false, stamp := stamp, bytes := bs }
    | _ => s

/-- The entry of a far-tile table that names a sender by (ACC, PART, RANK) (R306, R307). -/
def farFrom (l : List Far) (src : BitVec 24) : Option Far :=
  l.find? fun w => w.toNat % 256 != 0 && w.extractLsb' 16 24 == src

/-- Whether a skid has room for one more message of a far-tile number (R307). -/
def Arch.farRoom (c : Arch) (num : Nat) : Bool := decide ((c.eng.skid.filter fun m => m.far && m.src == num).length < 32)

/-- A message more in a skid. -/
def Arch.take (c : Arch) (m : Msg) : Arch := { c with eng := { c.eng with skid := c.eng.skid ++ [m] } }

/-- A message that nothing here is for, counted in the trace of the partition it names (R26, R308). -/
def State.farLost (s : State) (p : BitVec 6) : State :=
  if (s.part p).isSome then s.onPart p fun q => { q with trav := { q.trav with drop := q.trav.drop + 1 } }
  else
    { s with ctxs := s.ctxs.map fun c =>
        if c.part == p && c.state == .out then { c with trav := c.trav.map fun t => { t with drop := t.drop + 1 } } else c }

/-- The entry of the far-tile table of a partition, or of a context switched out of it, that names the sender of a message for one of
its ranks (R306, R307). -/
def State.farFor (s : State) (p : BitVec 6) (rank : BitVec 8) (src : BitVec 24) : Option Far :=
  match (s.part p).bind fun q => farFrom q.far src, (s.tiles p)[rank.toNat]? with
  | some w, some _ => some w
  | _, _ =>
    (s.ctxs.find? fun c => c.part == p && c.state == .out && (farFrom c.far src).isSome &&
      decide (rank.toNat < c.images.length)).bind fun x => farFrom x.far src

/-- A message of a far tile comes to a rank of a partition: it goes to the skid of the tile, running, halted or switched out, under the
number whose entry names its sender; with no such entry, partition or rank it is discarded and counted. None where the skid has
no room for it (R307, R308). -/
def State.farLand (s : State) (p : BitVec 6) (rank : BitVec 8) (src : BitVec 24) (stamp : BitVec 26) (bs : List Byte) : Option State :=
  let msg := fun (w : Far) => ({ src := w.toNat % 256, far := true, stamp := stamp, bytes := bs.take 4096 } : Msg)
  match (s.part p).bind fun q => farFrom q.far src, (s.tiles p)[rank.toNat]? with
  | some w, some n => if (s.core n).farRoom (w.toNat % 256) then some ((s.intoSkid n (msg w)).imageAgain n) else none
  | _, _ =>
    match s.ctxs.find? fun c => c.part == p && c.state == .out && (farFrom c.far src).isSome &&
        decide (rank.toNat < c.images.length) with
    | none => some (s.farLost p)
    | some x =>
      match farFrom x.far src, x.images[rank.toNat]? with
      | some w, some a => if a.farRoom (w.toNat % 256) then some (s.ctxImage x.id rank.toNat (a.take (msg w))) else none
      | _, _ => some (s.farLost p)

/-- The far tile takes a message of a rank of a partition: a credit comes back for one that has arrived there and is not yet taken
(R26, R307). -/
def Arch.farTaken (c : Arch) (num : Nat) : Arch :=
  let sent := ((c.eng.credit.find? fun e => e.1 == num).map Prod.snd).getD 0
  let under := (c.eng.reqs.filter fun r => match r.kind with | .snd d true _ _ => d == num | _ => false).length
  if sent ≤ under then c
  else { c with eng := { c.eng with
    credit := (c.eng.credit.filter fun x => x.1 != num) ++ if sent = 1 then [] else [(num, sent - 1)] } }

/-- The credit of a message that a far tile has taken, wherever the sender is (R307, R308). -/
def State.farCredit (s : State) (p : BitVec 6) (rank : BitVec 8) (src : BitVec 24) : State :=
  match (s.part p).bind fun q => farFrom q.far src, (s.tiles p)[rank.toNat]? with
  | some w, some n => s.onCore n fun c => { c with toArch := c.toArch.farTaken (w.toNat % 256) }
  | _, _ =>
    { s with ctxs := s.ctxs.map fun c =>
        match farFrom c.far src with
        | some w =>
          if c.part == p && c.state == .out then
            { c with images := c.images.modify rank.toNat fun a => a.farTaken (w.toNat % 256) }
          else c
        | none => c }

/-- The ALIAS of an entry that names a far tile (R306). -/
def farNames (old : BitVec 24) (w : Far) : Bool := w.toNat % 256 != 0 && w.extractLsb' 16 24 == old

/-- An entry with another ALIAS. -/
def withNumber (entry : W64) (a : Nat) : Far := BitVec.ofNat 64 (entry.toNat / 256 * 256 + a)

/-- An entry put at the first free place of a table of 16. -/
def putFar (w : Far) : List Far → List Far
  | [] => [w]
  | x :: r => if x.toNat % 256 = 0 then w :: r else x :: putFar w r

/-- A table in which a far tile is moved, or withdrawn, by its steward: the entry that names it names its new place, with its own
ALIAS; one withdrawn before, whose ALIAS is `gone`, is there again (R308). -/
def rebound (old : BitVec 24) (entry : W64) (gone : Option (BitVec 8)) (l : List Far) : List Far :=
  if l.any (farNames old) then
    l.map fun w => if farNames old w then (if entry = 0 then 0 else withNumber entry (w.toNat % 256)) else w
  else
    match gone with
    | some a => if entry = 0 then l else putFar (withNumber entry a.toNat) l
    | none => l

/-- The steward of a peer moves or withdraws a far tile: the tables of contexts that do not run follow, with their saved bytes, where
the table that results is one that R306 allows. Of one withdrawn the ALIAS is kept, so that it can be bound again; a send to it
that is still pending waits for that (R306, R308; DESIGN CHOICE log 65). -/
def State.rebind (s : State) (old : BitVec 24) (entry : W64) : State :=
  s.ctxs.foldl (fun (s : State) (x : Ctx) =>
    let q := (s.part x.part).filter fun q => q.ctx == x.id
    let l := (q.map fun q => q.far).getD x.far
    let gone := (s.farGone.find? fun e => e.1 == (x.id, old)).map Prod.snd
    let r := rebound old entry gone l
    if x.state = .running ∨ x.state = .ended ∨ r = l ∨ !farOk ((q.map fun q => q.mask).getD x.mask) r then s
    else
      let s := s.onCtx x.id fun y => y.setFar r
      let s := if q.isSome then s.onPart x.part fun q => { q with far := r } else s
      let rest := s.farGone.filter fun e => e.1 != (x.id, old)
      { s with farGone := rest ++ (match l.find? (farNames old) with
          | some w => if entry = 0 then [((x.id, old), BitVec.ofNat 8 w.toNat)] else []
          | none => []) }) s

/-! ### Atomics (R223, R224, R226, R261, R273) -/

/-- An LQ entry receives its old value and flags (R223, R224). -/
def Core.fillLq (c : Core) (id : Nat) (v : W64) (fl : Fl) : Core :=
  c.onEng fun e => { e with lq := e.lq.map fun q => if q.id = id then { q with here := true, val := v, fl := fl } else q }

/-- An operation of an atomic unit on its word: the state with the new value, the old value, the flags (R223, R261). -/
def State.applyAtomic (s : State) (c : Core) (win : BitVec 3) (ps : List Piece) (op : AmoOp) (w4 : Bool) (v v2 : W64) :
    State × Nat × Fl :=
  let key := (c.win win).key.toNat
  let old := leNat (s.readPieces c.ctx.toNat key ps)
  let r := amoNew op w4 old (amoTrunc w4 v.toNat) (amoTrunc w4 v2.toNat)
  (s.writePieces c.ctx.toNat key ps (leBytes (amoBytes w4) r.1), old, r.2 ||| flIf (s.stalePieces ps) flSTALE)

/-- ATOMIC_OPERATION: an `amo`, or a `red` outside the reduction windows, is applied to its word; the old value goes to the
LQ entry, from another die by a reply cell (R223, R226, R273, R316). -/
def execAtomicOperation (core id : Nat) (s : State) : Host.Outcome State Fault Refusal :=
  let c := s.core core
  .next
    (match c.req id with
     | none => s
     | some r =>
       match r.kind with
       | .amo _ win _ op w4 v v2 =>
         s.atPlace core r fun ps =>
           let x := s.applyAtomic c win ps op w4 v v2
           let old := amoOld op w4 x.2.1
           let l := replies c r ps (leBytes 8 old.toNat)
           if l.isEmpty then (x.1.consumeCells c id).onCore core fun c => (c.dropReq id).fillLq id old x.2.2
           else x.1.sendBack c id l (leBytes 8 old.toNat) x.2.2 true
       | .back bs fl true _ =>
         if s.inRing c id then s
         else (s.consumeCells c id).onCore core fun c => (c.dropReq id).fillLq id (BitVec.ofNat 64 (leNat bs)) fl
       | .red _ win _ op w4 v =>
         s.atPlace core r fun ps =>
           if (s.rwinAt (headPa ps)).isSome then s
           else ((s.consumeCells c id).applyAtomic c win ps op w4 v 0).1.onCore core fun c => c.dropReq id
       | _ => s)

/-! ### Reduction rounds (R227, R274, R322 to R324) -/

/-- Contributions in the order of tiles, those of one tile in the order of issue (R227 step 1). -/
def sortContribs (l : List Contrib) : List Contrib :=
  sortBy (fun a b => decide (a.tile < b.tile) || (decide (a.tile = b.tile) && decide (a.seq < b.seq))) l

/-- The unit that holds an element. -/
def paDie (pa : PAddr) : Nat := pa / 2 ^ 37 % 8

/-- A round with one more contribution. -/
def Round.take (r : Round) (op : AmoOp) (w4 : Bool) (x : Contrib) : Round :=
  { r with mixed := r.mixed || r.op != op || r.w4 != w4, got := r.got ++ [x] }

/-- The contributors of a round, once each. -/
def Round.tiles (r : Round) : List Nat := (r.got.map Contrib.tile).dedup

/-- A round gone from the counts of its contributors: `f` acts on each. -/
def State.endRound (s : State) (r : Round) (f : Core → Core) : State :=
  r.tiles.foldl (fun s n => s.onCore n fun c =>
    f (c.onEng fun e => { e with openRed := e.openRed - (r.got.filter fun x => x.tile == n).length })) s

/-- A round that has all its contributions closes: mixed ones apply nothing and stop their contributors, others combine
and are applied in memory, their flags going to FLAGW and to the contributors (R227, R323, R324). -/
def State.closeRound (s : State) (w : RWin) (key : Nat) (r : Round) : State :=
  if r.mixed then
    s.endRound r fun c =>
      match r.got.find? fun x => x.tile == c.num with
      | some x => c.owes (asyncStop .window x.off x.win .none)
      | none => c
  else
    let f := fun a b => amoNew r.op r.w4 a b 0
    let n := amoBytes r.w4
    let x := combine f 17 ((sortContribs r.got).map fun y => amoTrunc r.w4 y.val.toNat)
    let at' : List Piece := [{ pa := r.pa, n := n }]
    let y := f (leNat (s.readPieces w.ctx.toNat key at')) (x.1.headD 0)
    let fl := x.2 ||| y.2
    let s := s.writePieces w.ctx.toNat key at' (leBytes n y.1)
    let fp : List Piece := [{ pa := w.flagw, n := 8 }]
    let old := leNat (s.readPieces w.ctx.toNat key fp)
    let s := if fl = 0 then s else s.writePieces w.ctx.toNat key fp (leBytes 8 (old ||| fl.toNat))
    s.endRound r fun c => c.onEng fun e => { e with redFl := e.redFl ||| fl }

/-- A contribution accepted by the station of its element; with the last one the round closes. -/
def State.contribute (s : State) (n id : Nat) (w : RWin) (win : BitVec 3) (off : Nat) (pa : PAddr) (op : AmoOp) (w4 : Bool)
    (v : W64) : State :=
  let key := ((s.core n).win win).key.toNat
  let d := paDie pa
  let r0 := ((s.die d).roundAt pa).getD { win := 0, pa := pa, op := op, w4 := w4, mixed := false, got := [] }
  let r := r0.take op w4 { tile := n, seq := id, val := v, win := win, off := off }
  let s := (s.consumeCells (s.core n) id).onCore n fun c =>
    (c.dropReq id).onEng fun e => { e with openRed := e.openRed + 1 }
  let rest := (s.die d).rounds.filter fun x => x.pa != pa
  if r.got.length < w.count then s.onDie d fun x => { x with rounds := rest ++ [r] }
  else (s.onDie d fun x => { x with rounds := rest }).closeRound w key r

/-- Whether a contribution is the last of its round: the round then closes, and may write the flag word of its window (R323, R324). -/
def State.closes (s : State) (w : RWin) (pa : PAddr) : Bool :=
  decide (w.count ≤ (((s.die (paDie pa)).roundAt pa).map fun r => r.got.length).getD 0 + 1)

/-- The flag word of a window. -/
def RWin.flagPiece (w : RWin) : List Piece := [{ pa := w.flagw, n := 8 }]

/-- REDUCTION_CONTRIBUTION: a contribution of another partition or from outside PSET is WINDOW; one of this die that would open
a round at a full station waits; others are entered, those from other dies as their cell was accepted (R226, R322, R323). -/
def execReductionContribution (core id : Nat) (s : State) : Host.Outcome State Fault Refusal :=
  let c := s.core core
  .next
    (match c.req id with
     | none => s
     | some r =>
       match r.kind with
       | .red _ win off op w4 v =>
         s.atPlace core r fun ps =>
           let pa := headPa ps
           match s.rwinAt pa with
           | none => s
           | some w =>
             if w.part ≠ c.part ∨ w.ctx ≠ c.ctx ∨ !w.pset.getLsbD core then s.onCore core fun c => c.reqFault id .window
             else if (s.cellsOf c { r with kind := r.kind.setPieces ps }).isEmpty ∧ !s.mayOpen (paDie pa) pa then s
             else if s.closes w pa ∧ s.chansHold w.flagPiece then s.askReclaim w.flagPiece
             else s.contribute core id w win off pa op w4 v
       | _ => s)

/-! ### Power (R198, R354) -/

/-- LEAVE_GRANT: the governor grants the oldest request while the budget allows it (R354). -/
def execLeaveGrant (die : BitVec 3) (s : State) : Host.Outcome State Fault Refusal :=
  let d := s.die die.toNat
  .next
    (match d.leaves with
     | [] => s
     | x :: r =>
       if d.pwruse.toNat + x.2.toNat ≤ d.pwrbud.toNat then
         (s.onDie die.toNat fun d => { d with leaves := r, pwruse := d.pwruse + x.2 }).onCore x.1 fun c =>
           { c with leave := .granted }
       else s)

/-- THERMAL_LIMIT: the firmware lowers PWRBUD; granted leave stays (R354). -/
def execThermalLimit (die : BitVec 3) (budget : BitVec 32) (s : State) : Host.Outcome State Fault Refusal :=
  .next
    (if budget.toNat < (s.die die.toNat).pwrbud.toNat then s.onDie die.toNat fun d => { d with pwrbud := budget } else s)

/-! ### Requests from outside (R328 to R330, R335, R338) -/

/-- The owner tag of host accesses (R328). -/
def hostTag : Nat := 0xFFFF

/-- Bytes written where they are enabled and the block carries the host's tag, under the steward's key (R328; DEDUCED log 24). -/
def PMem.hostWrite (m : PMem) : PAddr → List Byte → List Bool → PMem
  | _, [], _ => m
  | pa, b :: r, en =>
    let m' := if en.headD true ∧ inHbm pa ∧ look 0 m.owner (pa / 4096) = hostTag then m.set hostTag 0 pa b else m
    m'.hostWrite (pa + 1) r en.tail

/-- Bytes of a peer accelerator written to this module's HBM4, where they are enabled: it writes as the owner of each
block (R329; DEDUCED log 24). -/
def PMem.peerWrite (m : PMem) : PAddr → List Byte → List Bool → PMem
  | _, [], _ => m
  | pa, b :: r, en =>
    let t := look 0 m.owner (pa / 4096)
    let m' := if en.headD true ∧ inHbm pa ∧ t ≠ 0 then m.set t (look 0 m.key (pa / 4096)) pa b else m
    m'.peerWrite (pa + 1) r en.tail

/-- A peer's atomic on a word of this module's HBM4, and the old value, which is its reply (R329; DEDUCED log 24). -/
def State.peerAtomic (s : State) (op : AmoOp) (w4 : Bool) (pa : PAddr) (v v2 : W64) : State × List Byte :=
  let n := amoBytes w4
  let t := look 0 s.mem.owner (pa / 4096)
  let k := look 0 s.mem.key (pa / 4096)
  if !inHbm pa ∨ t = 0 ∨ pa % n ≠ 0 then (s, List.replicate n 0)
  else
    let old := leNat (s.mem.bytes t k true pa n)
    let r := amoNew op w4 old (amoTrunc w4 v.toNat) (amoTrunc w4 v2.toNat)
    ({ s with mem := s.mem.peerWrite pa (leBytes n r.1) [] }, leBytes n old)

/-- A key identifier that names neither slot: the link retrains for CXL and UALink, and carries nothing until it is up again; the
packet is dropped for UET (R338). -/
def State.badKey (s : State) (g : Nat) : State :=
  let x := s.group g
  if x.state = .active ∧ (x.pers = 1 ∨ x.pers = 2) then s.onGroup g fun x => { x with retrain := true } else s

/-- A reply that leaves over a group, encrypted where it is secured: bytes, none of them for an acknowledgement, or no bytes at all
for poisoned data or an unsupported request (R277, R328, R329, R335, R338, R339). -/
def State.replyOut (s : State) (g : Nat) (r : Option (List Byte)) : State :=
  { s.onGroup g fun x => x.transmit (r.getD []) with host := { s.host with replies := s.host.replies ++ [(g, r)] } }

/-- The bytes a peer reads of this module's HBM4: each as the owner of its block reads it (R329; DEDUCED log 24). -/
def PMem.peerRead (m : PMem) (pa : PAddr) (n : Nat) : List Byte :=
  (List.range n).map fun i =>
    let b := (pa + i) / 4096
    if inHbm (pa + i) then m.get (look 0 m.owner b) (look 0 m.key b) true (pa + i) else 0

/-- Whether a group is a CXL upstream one: what reaches it while it is not ACTIVE is refused (R335). -/
def Group.cxlUp (g : Group) : Bool := g.pers == 1 && g.role == 0 && g.state != .off && g.state != .failed

/-! ### On the way from a bridge to a unit (R299, R307, R314, R316) -/

/-- The number of an item on its way no longer in use. -/
def State.dropIn (s : State) (tid : Nat) : State := { s with inbound := s.inbound.filter fun m => m.tid != tid }

/-- An access from outside performs at its place; what it returns (R328, R329). -/
def State.performIn (s : State) : Inbound → State × List Byte
  | .cxlMemRead pa n => (s, s.mem.bytes hostTag 0 true pa n)
  | .cxlMemWrite pa bs en => ({ s with mem := s.mem.hostWrite pa bs en }, [])
  | .ualRead pa n => (s, s.mem.peerRead pa n)
  | .ualWrite pa bs en => ({ s with mem := s.mem.peerWrite pa bs en }, [])
  | .ualAtomic op w4 pa v v2 => s.peerAtomic op w4 pa v v2
  | _ => (s, [])

/-- The acknowledgement cells of a write from outside (R316). -/
def InItem.acks (m : InItem) : List (Nat × RCell) :=
  match m.what with
  | .req (.cxlMemWrite ..) | .req (.ualWrite ..) => m.trip.answer 34 3 m.what.pieces [] lineStrand
  | _ => []

/-- An item that has come to its unit takes effect: a message in a skid that has room, a message or a slot return at the traverse, an
access at memory whose channels are at work. What it returns goes back to the bridge and out over the group (R250, R277, R292, R299,
R307, R319, R328, R329). -/
def State.inEffect (s : State) (m : InItem) : State :=
  match m.what with
  | .far p rank src stamp bs =>
    match s.farLand p rank src stamp bs with
    | some t => t.dropIn m.tid
    | none => s
  | .msg p fwd bs =>
    match s.findTrav p fun t => t.meets fwd with
    | some l => (s.dropIn m.tid).arrive l fwd (padTo 128 bs)
    | none => s.dropIn m.tid
  | .ret p down =>
    match s.findTrav p fun t => t.meets (!down) with
    | some l => (s.dropIn m.tid).onTrav l fun t => t.freed down
    | none => s.dropIn m.tid
  | .req r =>
    if s.chansHold m.what.pieces then s.askReclaim m.what.pieces
    else if !s.ringRoom (m.answer [] ++ m.acks) then s
    else
      let x := s.performIn r
      let l := m.answer x.2
      if l.isEmpty then ((x.1.dropIn m.tid).queueCells m.acks).replyOut m.grp (some x.2)
      else
        { x.1 with inbound := x.1.inbound.map fun (y : InItem) =>
            if y.tid = m.tid then { y with back := some (some x.2) } else y }.queueCells l

/-- What came in over a port group goes on, once its cells have been delivered, behind what the same group brought for the same unit
before it; a reply that has come back to the bridge leaves (R299, R307, R314, R320). -/
def State.inTurn (s : State) (tid : Nat) : State :=
  match s.inbound.find? fun m => m.tid == tid with
  | none => s
  | some m =>
    if s.under m.trip then s
    else
      let t := s.absorb m.trip
      match m.back with
      | some r => (t.dropIn tid).replyOut m.grp r
      | none =>
        if (s.inbound.takeWhile fun y => y.tid != tid).any fun y =>
            y.grp == m.grp && y.die == m.die && y.unit == m.unit && y.back.isNone then s
        else t.inEffect m

/-- An item comes in over group `g` under a key identifier: it is on its way to its unit, or there at once where it stays on the
bridge's die; with no room for its cells it is left at the peer (R314, R319, R338, R339). -/
def State.enterIn (s : State) (g : Nat) (key : Option Nat) (what : InAct) : State :=
  let u := s.inUnit g what
  let m : InItem := { grp := g, tid := s.ring.tids, die := u.1, unit := u.2, back := none, what := what }
  if !(s.group g).keyOk key then s.badKey g
  else if !s.ringRoom m.ask then s
  else
    (({ s with ring := { s.ring with tids := (s.ring.tids + 1) % 65536 }, inbound := s.inbound ++ [m] }.onGroup g fun x =>
      x.came key).queueCells m.ask).inTurn m.tid

/-- A message of a far tile arrives: left at its sender while its group does not carry it; discarded and counted where no entry of the
partition it names is for its sender (R307, R308, R335, R338). -/
def State.farArrives (s : State) (key : Option Nat) (p : BitVec 6) (rank : BitVec 8) (src : BitVec 24) (stamp : BitVec 26)
    (bs : List Byte) : State :=
  match s.farFor p rank src with
  | none => s.farLost p
  | some w =>
    let g := w.toNat / 2 ^ 43 % 32
    if !s.farReaches w then s else s.enterIn g key (.far p rank src stamp ((s.group g).plain key bs))

/-- MESSAGE_ARRIVAL (R26, R307, R308, R338). -/
def execMessageArrival (m : Arrival) (s : State) : Host.Outcome State Fault Refusal :=
  .next
    (match m with
     | .sent sender id => s.sentArrives sender id
     | .far key part rank src stamp bytes => s.farArrives key part rank src stamp bytes)

/-- TRAVERSE_MESSAGE: a message from a neighbour of this module, the oldest, or from one of another module over the group that
carries it, takes effect (R292, R299, R314, R338). -/
def execTraverseMessage (part : BitVec 6) (fwd : Bool) (far : Option FarItem) (s : State) :
    Host.Outcome State Fault Refusal :=
  .next
    (match far with
     | some f =>
       match (s.findTrav part fun t => s.fromFar t fwd).bind s.trav with
       | some t => let g := t.carrier fwd; s.enterIn g f.key (.msg part fwd ((s.group g).plain f.key f.bytes))
       | none => s
     | none => s.nearMessage part fwd)

/-- SLOT_RETURN: a slot return from downstream or upstream takes effect (R292, R299, R314, R338). -/
def execSlotReturn (part : BitVec 6) (down : Bool) (far : Option FarItem) (s : State) : Host.Outcome State Fault Refusal :=
  .next
    (match far with
     | some f =>
       match (s.findTrav part fun t => s.fromFar t (!down)).bind s.trav with
       | some t => s.enterIn (t.carrier (!down)) f.key (.ret part down)
       | none => s
     | none => s.nearReturn part down)

/-! ### What reaches a group (R328 to R330, R335, R338, R339) -/

/-- A request without the key identifiers it came under. -/
def inBody : Inbound → Inbound
  | .keyed _ r => inBody r
  | r => r

/-- The key identifier a request came under. -/
def inKey : Inbound → Option Nat
  | .keyed id _ => some id
  | _ => none

/-- A request whose bytes are decrypted by `f` (R338). -/
def inBytes (f : List Byte → List Byte) : Inbound → Inbound
  | .cxlMemWrite pa bs en => .cxlMemWrite pa (f bs) en
  | .ualWrite pa bs en => .ualWrite pa (f bs) en
  | .uetPacket bs => .uetPacket (f bs)
  | .binding a p r => .binding a p (f r)
  | r => r

/-- What the link of a group itself sees: a key identifier that names no slot, acknowledgements, replays, what the peer sends (R338,
R339). -/
def State.onLink (s : State) (g : Nat) : Inbound → Option State
  | .badKeyId => some (s.badKey g)
  | .ack n => some (s.onGroup g fun x => x.acked n)
  | .replay => some (s.onGroup g Group.replayed)
  | .sent id => some (s.onGroup g fun x => { x with rx := { x.rx with flits := x.rx.flits ++ [(id, [])] } })
  | _ => none

/-- A request whose flits have come in over group `g`, served while the group carries traffic. A CXL.io request to an upstream group
that does not is unsupported; Ultra Ethernet packets are delivered until QUIESCED (R291, R306 to R308, R328, R330, R335). -/
def State.inboundTo (s : State) (g : Nat) : Inbound → State
  | .cxlIo (some v) =>
    if (s.group g).upstream && (s.group g).carries then
      { s with host := { s.host with evtail := v, mbox := memWrite s.host.mbox 0x1004 (leBytes 4 v.toNat) } }
    else if (s.group g).cxlUp then s.replyOut g none else s
  | .cxlIo none => if (s.group g).cxlUp && !(s.group g).carries then s.replyOut g none else s
  | .farTaken p rank src => if s.ualOpen g then s.farCredit p rank src else s
  | .uetPacket bs =>
    if (s.group g).pers = 3 ∧ ((s.group g).carries ∨ (s.group g).state = .draining) then
      { s with host := { s.host with packets := s.host.packets ++ [(g, bs)] } }
    else s
  | .binding acc q r => if s.ualOpen g then s.farBind ((acc, q), padTo 32 r) else s
  | .unbinding acc q => if s.ualOpen g then s.farUnbind acc q else s
  | .rebind old entry => if s.ualOpen g then s.rebind old entry else s
  | _ => s

/-- An access to memory that reaches group `g`: served while the group carries traffic. Else a CXL.mem read of an upstream group
has poisoned data, its write is dropped, and what comes over UALink is left at its peer (R328, R329, R335). -/
def State.inboundMem (s : State) (g : Nat) (key : Option Nat) (r : Inbound) : Option State :=
  let host := fun (no : State) => if (s.group g).upstream && (s.group g).carries then s.enterIn g key (.req r) else no
  let peer := if s.ualOpen g then s.enterIn g key (.req r) else s
  match r with
  | .cxlMemRead .. => some (host (if (s.group g).cxlUp then s.replyOut g none else s))
  | .cxlMemWrite .. => some (host s)
  | .ualRead .. | .ualWrite .. | .ualAtomic .. => some peer
  | _ => none

/-- What reaches group `g`: what the link itself sees; else a request, decrypted under the slot that its key identifier names. On a
secured group one whose identifier names neither slot, or that has none, is not served (R338, R339). -/
def State.inboundAt (s : State) (g : Nat) (r : Inbound) : State :=
  match s.onLink g (inBody r) with
  | some t => t
  | none =>
    let b := inBytes ((s.group g).plain (inKey r)) (inBody r)
    if !(s.group g).keyOk (inKey r) then s.badKey g
    else (s.inboundMem g (inKey r) b).getD ((s.onGroup g fun x => x.came (inKey r)).inboundTo g b)

/-- INBOUND_REQUEST (R291, R308, R328 to R330, R335, R338, R339). -/
def execInboundRequest (group : BitVec 5) (req : Inbound) (s : State) : Host.Outcome State Fault Refusal :=
  .next (if 24 ≤ group.toNat then s else s.inboundAt group.toNat req)

end Sys2Proof.Machine
end

