-- ==== Sys2Proof/Machine/MemSys.lean ====
section
/-! DEFINITION. The memory system's own steps: walks, invalidation, migration, channels, refresh elision (R243 to R250, R255,
R256, R261, R264). -/

namespace Sys2Proof.Machine

/-! ### Walks (R245, R246) -/

/-- Whether the bundle of a core waits for the walk of a page of a context. -/
def Core.waitsFor (c : Core) (ctx : BitVec 16) (page : Nat) : Bool :=
  c.ctx == ctx && (match c.walk with | .wait va _ _ => va / 65536 == page | _ => false)

/-- A core whose walk has ended with a leaf of the page, or without one. -/
def Core.walked (c : Core) (ctx : BitVec 16) (page : Nat) (e : Option (W64 × Nat)) : Core :=
  if !c.waitsFor ctx page then c
  else
    match e, c.walk with
    | some e, _ => { c.fillTlb (65536 * page) e.1 e.2 with walk := .none }
    | none, .wait va rd wr => { c with walk := .fault va rd wr }
    | none, _ => c

/-- The accesses of a core that are to be issued again to a page whose walk has no leaf: XLATE (R106, R108, R246). -/
def State.reqsFail (s : State) (n page : Nat) : State :=
  let c := s.core n
  (c.eng.reqs.filter fun r => r.fault.isNone && r.again &&
    (match s.placed c r.kind with | .no .miss va => va / 65536 == page | _ => false)).foldl
    (fun s r => if s.replayFull c.die then s else (s.consumeCells c r.id).onCore n fun c => c.reqFault r.id .xlate) s

/-- The copy of a core whose next unit lies in such a page: XLATE (R213, R246). -/
def State.copyFails (s : State) (n page : Nat) : State :=
  let c := s.core n
  match c.eng.copies, s.copyNext c with
  | k :: _, some (.no .miss va) => if va / 65536 ≠ page then s else s.copyFault n .xlate k.glob.1 k.glob.2
  | _, _ => s

/-- The collectives of a tile that have a place in such a page: XLATE (R110, R246). -/
def State.collsFail (s : State) (n page : Nat) : State :=
  (s.core n).eng.colls.foldl (fun s k =>
    match (s.collGroup k.record).bind fun g => (s.participants g).find? fun x => x.who == .tile n k with
    | none => s
    | some me =>
      if [me.src, me.dst].any fun p => (match p with | .no .miss va => va / 65536 == page | _ => false) then
        s.onCore n fun c => c.async (collFault .xlate k me)
      else s) s

/-- The transfer of a memory sequencer program of a tile whose next burst lies in such a page: XLATE (R106, R220, R246). -/
def State.xfersFail (s : State) (n page : Nat) : State :=
  match (s.die (s.core n).die).msq.xfers.find? fun x => x.owner == n &&
      (match s.restOf x (min 1 (x.len - x.done)) with | .error (.miss, va) => va / 65536 == page | _ => false) with
  | some x => s.onCore n fun c => c.async (msqStop .xlate x.word x.prog)
  | none => s

/-- What the units of a core have waiting for a walk that ends without a leaf (R106, R246). -/
def State.engineFails (s : State) (n page : Nat) : State :=
  (((s.reqsFail n page).copyFails n page).collsFail n page).xfersFail n page

/-- A walk of a page of a context ends on a die, for all who asked for it: the TLBs are filled, or it is XLATE. A page under migration
is waited for (R246, R255). -/
def State.walkEnds (s : State) (d : Nat) (ctx : BitVec 16) (page : Nat) : State :=
  let here := (List.range 264).filter fun m => (s.core m).die == d && (s.core m).ctx == ctx
  let gone := fun (x : Die) => ({ x with walks := x.walks.filter fun w => w != (ctx, page) } : Die)
  match s.lookup d ctx (65536 * page) with
  | none =>
    let t := here.foldl (fun (t : State) m => (t.engineFails m page).onCore m fun k => k.walked ctx page none) s
    t.onDie d gone
  | some e =>
    if pteMig e.1 then s
    else
      (here.foldl (fun (t : State) m => t.onCore m fun k => k.walked ctx page (some e)) s).onDie d fun x =>
        let x := gone x
        if (s.dieTlb d ctx (65536 * page)).isSome then x else x.fillTlb ctx (65536 * page) e.1 e.2

/-- The walk of core `n`: of the page its bundle waits for, else of the oldest that its context's engines on its die ask for, else the
oldest there of a context that has no tile on that die, for a collective (R110, R246). -/
def State.walkOf (s : State) (n : Nat) : Option (BitVec 16 × Nat) :=
  let c := s.core n
  let l := (s.die c.die).walks
  match c.walk with
  | .wait va _ _ => some (c.ctx, va / 65536)
  | _ =>
    (l.find? fun w => w.1 == c.ctx).or (l.find? fun w =>
      !((List.range 264).any fun m => (s.core m).die == c.die && (s.core m).ctx == w.1))

/-- The entries that the walk of a page reads in memory; none where the last-level TLB of the die maps it (R243, R246). -/
def State.walkReads (s : State) (d : Nat) (w : BitVec 16 × Nat) : List Piece :=
  if (s.dieTlb d w.1 (65536 * w.2)).isSome then [] else s.mem.path (65536 * w.2) 5 0 (s.root w.1)

/-- PAGE_WALK: a walk that a bundle or an engine waits for, with one of the 64 walkers of its die and its entries' channels at work,
ends with a leaf or an XLATE (R245, R246, R250). -/
def execPageWalk (core : Nat) (s : State) : Host.Outcome State Fault Refusal :=
  let d := (s.core core).die
  .next
    (match s.walkOf core with
     | some w =>
       if !((s.die d).walks.take 64).contains w then s
       else if s.chansHold (s.walkReads d w) then s.askReclaim (s.walkReads d w)
       else s.walkEnds d w.1 w.2
     | none => s)

/-! ### Invalidation (R247) -/

/-- Whether two ranges of addresses meet. -/
def meets (a n lo hi : Nat) : Bool := decide (a < hi) && decide (lo < a + n)

/-- Whether `n` bytes at an offset of a window of a core lie in part in a virtual range. -/
def Core.within (c : Core) (w : BitVec 3) (off n lo hi : Nat) : Bool :=
  match windowVa (c.win w) off n with
  | none => false
  | some va => meets va n lo hi

/-- Whether an access of a context translated in a virtual range has not performed, the unit of a copy or the burst of a transfer among
them (R247). -/
def State.openIn (s : State) (ctx : BitVec 16) (lo hi : Nat) : Bool :=
  (s.cores.any fun c => c.ctx == ctx &&
    ((c.eng.reqs.any fun r => r.fault.isNone && !r.kind.pieces.isEmpty &&
      match r.kind.place with
      | none => false
      | some x => c.within x.1 x.2.1 x.2.2.1 lo hi) ||
    c.eng.copies.any fun k => !k.way.reached.isEmpty && c.within k.glob.2 k.glob.1 k.len lo hi)) ||
  s.dies.any fun d => d.msq.xfers.any fun x => !x.way.reached.isEmpty && (s.core x.owner).ctx == ctx &&
    (s.core x.owner).within x.win x.off (128 * x.len) lo hi

/-- A translation entry that maps part of a virtual range of a context. -/
def Tlb.hits (t : Tlb) (ctx : BitVec 16) (lo hi : Nat) : Bool :=
  t.ctx == ctx && meets (t.vpn * 2 ^ t.bits) (2 ^ t.bits) lo hi

/-- A core without its translations of a virtual range. -/
def Core.dropTlb (c : Core) (ctx : BitVec 16) (lo hi : Nat) : Core :=
  { c with
    utlb := c.utlb.filter fun t => !t.hits ctx lo hi
    walk := match c.walk with
      | .fault va r w => if c.ctx = ctx ∧ meets (va / 65536 * 65536) 65536 lo hi then .none else .fault va r w
      | x => x }

/-- The translations of a virtual range of a context dropped from every TLB (R247). -/
def State.dropTlb (s : State) (ctx : BitVec 16) (lo hi : Nat) : State :=
  let s := s.onCores fun c => c.dropTlb ctx lo hi
  { s with dies := s.dies.map fun d => { d with tlb := d.tlb.filter fun t => !t.hits ctx lo hi } }

/-- INVALIDATION: complete once every access translated in the range has performed (R247, R264). -/
def execInvalidation (ctx : BitVec 16) (va size : Nat) (s : State) : Host.Outcome State Fault Refusal :=
  .next (if s.openIn ctx va (va + size) then s else s.dropTlb ctx va (va + size))

/-! ### Migration (R255) -/

/-- The address of the valid level-4 leaf that maps a virtual address, whatever it allows. -/
def PMem.leafAt (m : PMem) (va : Nat) : Nat → Nat → PAddr → Option PAddr
  | 0, _, _ => none
  | k + 1, l, ptr =>
    if !inHbm ptr then none
    else
      let a := ptr + 8 * vaIndex va l
      let e := m.entry a
      if !pteV e || !pteOk e then none
      else if !pteLeaf e then m.leafAt va k (l + 1) (ptePa e)
      else if l = 4 then some a
      else none

/-- A table entry written by the steward: under its key, the block's owner kept (R243). -/
def PMem.setEntry (m : PMem) (pa : PAddr) (e : W64) : PMem :=
  { m with cells := memWrite m.cells pa (leBytes 8 e.toNat), key := put 0 m.key (pa / 4096) 0 }

/-- The die of a physical page. -/
def pageDie (pa : PAddr) : Nat :=
  match groupOf pa with
  | some g => g / 3
  | none => paDie pa

/-- The TIER of a frame; none where it lies in no HBM4 and in no mapped range of an ACTIVE group (R245, R263). -/
def State.frameTier (s : State) (frame : PAddr) : Option Nat :=
  if inHbm frame then some 0
  else
    match groupOf frame with
    | none => none
    | some g => if (s.group g).state = .active ∧ (s.group g).mapped ≠ 0 then some (s.group g).mapped.toNat else none

/-- Whether a page belongs to a reduction window, which keeps it from migration (R353). -/
def State.pinned (s : State) (pa : PAddr) : Bool := s.rwins.any fun w => meets w.base (65536 * w.size) pa (pa + 65536)

/-- The migration of a page of a context that is under way. -/
def State.moving64 (s : State) (ctx : BitVec 16) (page : Nat) : Option Mig :=
  s.dies.findSome? fun d => d.mig.find? fun x => x.ctx == ctx && x.page == page

/-- MIGRATION: MIG is set in the page's leaf and its translation is invalidated (R255). -/
def execMigration (ctx : BitVec 16) (va frame : Nat) (s : State) : Host.Outcome State Fault Refusal :=
  let page := va / 65536
  .next
    (match s.ctx ctx with
     | none => s
     | some x =>
       match s.mem.leafAt va 5 0 x.root with
       | none => s
       | some a =>
         let e := s.mem.entry a
         match s.frameTier frame with
         | none => s
         | some tier =>
           if pteMig e ∨ s.pinned (ptePa e) ∨ frame % 65536 ≠ 0 ∨ ptePa e = frame then s
           else
             (({ s with mem := s.mem.setEntry a (e ||| 0x20) }).onDie (pageDie (ptePa e)) fun d =>
               { d with mig := d.mig ++ [(⟨ctx, page, frame, tier⟩ : Mig)] }).dropTlb ctx (65536 * page)
               (65536 * page + 65536))

/-- The key slot under which a context uses a virtual address: that of a window over it, else its first (DEDUCED log 25). -/
def Ctx.keyAt (x : Ctx) (va : Nat) : Nat :=
  match x.win.toList.find? fun w => decide (w.base.toNat ≤ va) && decide (va < w.base.toNat + w.limit.toNat) with
  | some w => w.key.toNat
  | none => (x.keys.headD 0).toNat

/-- The bytes of a 64 KiB page moved to another frame, with their owners and keys. That the old frame in HBM4 is wiped and freed, and
that a page which comes from other memory, where blocks have no tags, takes the tag of its context, is the model's choice: the spec
says neither (R255, R259, R260; DESIGN CHOICE log 65). -/
def PMem.movePage (m : PMem) (ctx key : Nat) (old frame : PAddr) : PMem :=
  let bytes := if m.isDead old then [] else m.cells.filter fun e => decide (old ≤ e.1) && decide (e.1 < old + 65536)
  let blocks := List.range 16
  let tags := blocks.map fun i => if inHbm old then look 0 m.owner (old / 4096 + i) else ctx
  let keys := blocks.map fun i => let k := look 0 m.key (old / 4096 + i); if inHbm old || k != 0 then k else key
  let m := if inHbm frame then m.revive frame else m
  let m := { m with cells := wipe frame (frame + 65536) m.cells }
  let m := if inHbm old then
      { m with
        cells := wipe old (old + 65536) m.cells
        owner := wipe (old / 4096) (old / 4096 + 16) m.owner
        key := wipe (old / 4096) (old / 4096 + 16) m.key }
    else m
  { m with
    cells := bytes.foldl (fun c e => put 0 c (e.1 - old + frame) e.2) m.cells
    owner := if inHbm frame then
        (blocks.zip tags).foldl (fun o e => put 0 o (frame / 4096 + e.1) e.2) m.owner
      else m.owner
    key := (blocks.zip keys).foldl (fun o e => put 0 o (frame / 4096 + e.1) e.2) m.key }

/-- A leaf that maps a new frame, MIG clear (R255). -/
def newLeaf (e : W64) (frame tier : Nat) : W64 :=
  (e &&& 0xFF0000000000FF1F) ||| BitVec.ofNat 64 (frame / 65536 % 2 ^ 40 * 65536 + 64 * tier)

/-- MIGRATION_RELEASE: with every access under the old entry performed, the page is copied, the new leaf is written, and
held accesses translate again (R255). -/
def execMigrationRelease (ctx : BitVec 16) (va : Nat) (s : State) : Host.Outcome State Fault Refusal :=
  let page := va / 65536
  .next
    (match s.moving64 ctx page, s.ctx ctx with
     | some y, some x =>
       match s.mem.leafAt va 5 0 x.root with
       | none => s
       | some a =>
         let e := s.mem.entry a
         if s.openIn ctx (65536 * page) (65536 * page + 65536) then s
         else
           let m := s.mem.movePage ctx.toNat (x.keyAt (65536 * page)) (ptePa e) y.frame
           { s with
             mem := m.setEntry a (newLeaf e y.frame y.tier)
             dies := s.dies.map fun d => { d with mig := d.mig.filter fun y => !(y.ctx == ctx && y.page == page) } }
     | _, _ => s)

/-! ### Channels (R250) -/

/-- Whether work is queued for a channel: an access of a tile, what a copy or a transfer reads or writes next, what a collective that
has begun reads and writes, what came in over a port group (R250). -/
def State.chanWork (s : State) (d k : Nat) : Bool :=
  let hits := fun (ps : List Piece) => (chansOf ps).contains (d, k)
  (s.cores.any fun c => (c.eng.reqs.any fun r => r.fault.isNone && hits r.kind.pieces) ||
    (match s.copyNext c with | some (.ok ps) => hits ps | _ => false)) ||
  (s.dies.any fun x => x.msq.xfers.any fun y =>
    match s.restOf y (min 1 (y.len - y.done)) with
    | .ok ps => hits (ps.map fun pa => { pa := pa, n := 128 })
    | .error _ => false) ||
  (s.inbound.any fun m => m.back.isNone && hits m.what.pieces) ||
  s.cruns.any fun r => s.cgroups.any fun g => g.num == r.num && (s.participants g).any fun x => hits (x.src.pieces ++ x.dst.pieces)

/-- CHANNEL_LENDING: a channel without queued work begins the handshake for lending its lanes to its pair neighbour, and then
lends them (R250). -/
def execChannelLending (die : BitVec 3) (channel : BitVec 6) (s : State) : Host.Outcome State Fault Refusal :=
  let k := channel.toNat
  let x := s.die die.toNat
  let set := fun (v : Chan) => s.onDie die.toNat fun d => { d with chans := d.chans.setIfInBounds k v }
  .next
    (if x.chan k = .lend then set .lending
     else if x.chan k = .normal ∧ x.chan (pairOf k) = .normal ∧ !s.chanWork die.toNat k then set .lend
     else s)

/-- RECLAIM: the handshake that a request to a lending channel has started ends, and the channel has its lanes back (R250). -/
def execReclaim (die : BitVec 3) (channel : BitVec 6) (s : State) : Host.Outcome State Fault Refusal :=
  .next
    (if (s.die die.toNat).chan channel.toNat = .reclaim then
       s.onDie die.toNat fun d => { d with chans := d.chans.setIfInBounds channel.toNat .normal }
     else s)

/-! ### Refresh elision (R261) -/

/-- REFRESH_ELISION: a 32 MiB region of HBM4 is marked not live; its contents are lost. That its blocks are free afterwards, those of the
host too, and under no key slot, is the model's choice: the spec speaks of the contents alone (R261; DESIGN CHOICE log 65). -/
def execRefreshElision (region : Nat) (s : State) : Host.Outcome State Fault Refusal :=
  .next
    (if 2 ^ 15 ≤ region ∨ s.mem.dead.contains region then s
     else
       { s with mem :=
         { cells := wipe (region * 2 ^ 25) ((region + 1) * 2 ^ 25) s.mem.cells
           owner := wipe (region * 2 ^ 13) ((region + 1) * 2 ^ 13) s.mem.owner
           key := wipe (region * 2 ^ 13) ((region + 1) * 2 ^ 13) s.mem.key
           dead := s.mem.dead ++ [region] } })

end Sys2Proof.Machine
end

