-- ==== Sys2Proof/Machine/Mailbox.lean ====
section
/-! DEFINITION. Boot, the mailbox and its answers, events for the host, attestation, the service bus and the rails (R331, R344,
R347 to R352, R355, R357). -/

namespace Sys2Proof.Machine

/-! ### Answers (R344) -/

/-- Codes of STCODE. -/
def stOk : Nat := 0
def stBusy : Nat := 1
def stFormat : Nat := 2
def stSignature : Nat := 3
def stResource : Nat := 4
def stBinding : Nat := 5
def stEvicting : Nat := 6
def stRefused : Nat := 7
def stUnknown : Nat := 8

/-- The host's side changed. -/
def State.onHost (s : State) (f : HostIf → HostIf) : State := { s with host := f s.host }

/-- An answer in the mailbox: the response bytes by offset, then STSEQ and STCODE; MSI-X vector 0 is raised (R344). -/
def State.answer (s : State) (seq : BitVec 32) (code : Nat) (resp : List (Nat × List Byte)) : State :=
  s.onHost fun h => { h with
    mbox := memWrite (memWrite (resp.foldl (fun m e => memWrite m e.1 e.2) h.mbox) 0x18 (leBytes 4 seq.toNat)) 0x1C
      (leBytes 4 code)
    msix0 := h.msix0 + 1 }

/-- Whether the mailbox is reachable: the firmware runs and a CXL upstream group is ACTIVE, or the steward is in recovery (R328,
R344, R349). -/
def State.mailboxOpen (s : State) : Bool :=
  ((s.host.fw == .running || s.host.fw == .evicting) && s.groups.any Group.upstream) || s.host.fw == .recovery

/-- The bytes of a command in the mailbox, DOORBELL to ARG (R344). -/
def commandBytes (b : Doorbell) (cmd len arg : Nat) : List Byte :=
  leBytes 4 b.seq.toNat ++ leBytes 1 cmd ++ leBytes 3 0 ++ leBytes 8 b.addr.toNat ++ leBytes 4 len ++ leBytes 4 arg

/-- ARG of a command: the low bits that an operand gives, the others as the host writes them. -/
def argWith (b : Doorbell) (bits x : Nat) : Nat := b.arg.toNat / 2 ^ bits * 2 ^ bits + x

/-- Whether ARG has a bit set above those that a command uses, which must be 0 (R344, R347). -/
def argBad (b : Doorbell) (bits : Nat) : Bool := b.arg.toNat / 2 ^ bits != 0

/-- A command whose doorbell the steward meets: answered EVICTING during an eviction, BUSY while another command is
unfinished, REFUSED in recovery, where the mailbox takes only a signed firmware image (BOOT: DESIGN CHOICE log 64), FORMAT where LEN
passes 2^31 or a field that must be 0 is not (DEDUCED log 52), else served (R344, R349, R356). -/
def State.serve (s : State) (b : Doorbell) (cmd len arg : Nat) (bad : Bool) (k : State → State) : State :=
  if !s.mailboxOpen then s
  else
    let s := s.onHost fun h => { h with mbxseq := b.seq, mbox := memWrite h.mbox 0 (commandBytes b cmd len arg) }
    if s.host.fw = .evicting then s.answer b.seq stEvicting []
    else if s.host.task ≠ .none then s.answer b.seq stBusy []
    else if s.host.fw = .recovery then s.answer b.seq stRefused []
    else if bad ∨ 2 ^ 31 < len then s.answer b.seq stFormat []
    else k s

/-- The task of the steward set. -/
def State.setTask (s : State) (t : Task) : State := s.onHost fun h => { h with task := t }

/-! ### Boot (R331, R349, R350) -/

/-- A PGCTL value with GO. -/
def goWord (pers role : Nat) (bond : Bool) (peer : Nat) : W64 :=
  BitVec.ofNat 64 (128 + 16 * pers + 4 * role + (if bond then 8192 + 256 * peer else 0))

/-- The factory's personality map: groups 0 to 3 UET, 4 and 5 one CXL upstream link, 6 to 23 UALink with native lanes (R331). -/
def factoryMap : List (Nat × W64) :=
  ([0, 1, 2, 3].map fun g => (g, goWord 3 0 false 0)) ++ [(4, goWord 1 0 true 5)] ++
  ((List.range 24).filter fun g => decide (6 ≤ g)).map fun g => (g, goWord 2 1 false 0)

/-- A personality map applied (R331). -/
def State.applyMap (s : State) (m : List (Nat × W64)) : State :=
  (m.filter fun e => decide (e.1 < 24)).foldl (fun s e => s.pgGo e.1 e.2) s

/-- Blocks of HBM4 given to the host: they carry its tag (R259, R328). -/
def PMem.giveHost (m : PMem) (first count : Nat) : PMem :=
  ((List.range count).filter fun i => inHbm (4096 * (first + i))).foldl (fun m i => m.claim hostTag (first + i)) m

/-- The firmware slot that is started: the newest that verifies and is not older than the rollback record allows (R349). -/
def bootSlot (slots : List FwSlot) (minVersion : Nat) : Option FwSlot :=
  (slots.mergeSort fun a b => decide (b.version ≤ a.version)).find? fun x =>
    decide (minVersion ≤ x.version) && Config.verify 0 (Config.shake256 x.image 64) x.signature

/-- BOOT: after reset, from recovery, or once the rails come back. The firmware makes the identity key again, gives the host its
memory range, applies the personality map and starts the PTP servo (R328, R331, R341, R349, R350, R357). -/
def execBoot (flash : Flash) (minVersion : Nat) (s : State) : Host.Outcome State Fault Refusal :=
  .next
    (if s.host.fw = .reset ∨ s.host.fw = .recovery ∨ s.host.fw = .unpowered then
       let s := s.onHost fun h => { h with rails := true, ulperm := !h.aux }
       match bootSlot flash.slots minVersion with
       | none => s.onHost fun h => { h with fw := .recovery }
       | some x =>
         { (s.onHost fun h => { h with
             fw := .running, version := x.version, fwdig := Config.shake256 x.image 64, ident := Config.identity.2
             hdm := (flash.hdmFirst, flash.hdmCount) }).applyMap flash.map with
           mem := s.mem.giveHost flash.hdmFirst flash.hdmCount
           servo := { on := true, cfg := flash.ptp } }
     else s)

/-! ### Events (R348) -/

/-- EVENT_POST: the oldest event is posted once the ring has room; MSI-X vector 1 is raised (R348). -/
def execEventPost (s : State) : Host.Outcome State Fault Refusal :=
  .next
    (match s.host.pending with
     | [] => s
     | e :: r =>
       let h := s.host
       if 126 ≤ (h.evhead - h.evtail).toNat ∨ h.fw = .unpowered ∨ h.fw = .reset then s
       else
         s.onHost fun h => { h with
           pending := r
           evhead := h.evhead + 1, evseq := h.evseq + 1, msix1 := h.msix1 + 1
           mbox := memWrite (memWrite h.mbox (0x1040 + 32 * (h.evhead.toNat % 126))
             (padTo 32 (padTo 16 e.bytes ++ leBytes 8 h.evseq.toNat))) 0x1000 (leBytes 4 (h.evhead + 1).toNat) })

/-! ### ATTEST (R351, R352) -/

/-- The wrapping key of the module (R352). -/
def kwrap : List Byte :=
  Config.shake256 (Config.puf ++ [0x6C, 0x61, 0x6E, 0x6E, 0x61, 0x6E, 0x2D, 0x77, 0x72, 0x61, 0x70].map (BitVec.ofNat 8)) 32

/-- RESP of ATTEST from +0x020 to +0x77F: nonce, digests, MAPGEN, AFLAGS and, with a key, the exchange (R351). -/
def State.attestBody (s : State) (req : List Byte) : List Byte :=
  let nonce := req.take 32
  let kem := decide (req.length = 1600)
  let x := Config.encap (req.drop 32) s.free
  padTo 32 nonce ++ padTo 64 s.host.fwdig ++ padTo 64 (Config.shake256 Config.cert 64) ++ padTo 64 s.host.ldig ++
  leBytes 2 s.mapgen.toNat ++ leBytes 1 kem.toNat ++ leBytes 29 0 ++
  padTo 1568 (if kem then x.2 else []) ++
  padTo 40 (if kem then Config.wrap (Config.shake256 (x.1 ++ nonce) 32) kwrap else []) ++ leBytes 24 0

/-- ATTEST: a signed response; a request of another length is FORMAT (R351). -/
def execAttest (bell : Doorbell) (request : List Byte) (s : State) : Host.Outcome State Fault Refusal :=
  .next
    (s.serve bell 2 request.length bell.arg.toNat (argBad bell 0) fun s =>
      if request.length ≠ 32 ∧ request.length ≠ 1600 then s.answer bell.seq stFormat []
      else
        let b := s.attestBody request
        { s with free := s.free + 1 }.answer bell.seq stOk [(0x20, b), (0x780, padTo 1280 (Config.sign s.host.ident b))])

/-! ### The service bus and the rails (R355, R357) -/

/-- The state I3C reports (R355, R356). -/
def FwState.i3c : FwState → Nat
  | .unpowered => 0
  | .reset | .recovery => 1
  | .running => 2
  | .evicting => 3
  | .unlatched => 4

/-- A byte of the I3C target; none without the auxiliary rail (R355). -/
def State.i3cByte (s : State) (off : Nat) : Option Byte :=
  if !s.host.aux then none
  else if off = 0 then some 1
  else if 1 ≤ off ∧ off ≤ 0x10 then some (Config.serial.getD (off - 1) 0)
  else if 0x20 ≤ off ∧ off < 0x60 then some ((Config.shake256 Config.cert 64).getD (off - 0x20) 0)
  else if off = 0x60 then some (BitVec.ofNat 8 s.host.fw.i3c)
  else if off = 0x61 then some (if s.host.ulperm then 1 else 0)
  else some 0

/-- The provisional ID of the I3C target, 48 bits; none without the auxiliary rail. That it is the first six bytes of the serial is
the model's choice (R355; DESIGN CHOICE log 64). -/
def State.i3cId (s : State) : Option (List Byte) := if s.host.aux then some (padTo 6 (Config.serial.take 6)) else none

/-- MAIN_RAILS_OFF: what the module held is gone; it releases ULPERM (R357). -/
def execMainRailsOff (s : State) : Host.Outcome State Fault Refusal :=
  .next
    { State.reset with
      host := { State.resetHost with fw := .unpowered, rails := false, aux := s.host.aux, ulperm := true }
      agenda := s.agenda, turns := s.turns, free := s.free }

/-- AUXILIARY_RAIL: without it the output is high-impedance and reads as released; with it the module drives ULPERM low
while a main rail is on, but in I3C state 4 (R355, R357). -/
def execAuxiliaryRail (on : Bool) (s : State) : Host.Outcome State Fault Refusal :=
  .next (s.onHost fun h => { h with aux := on, ulperm := !on || !h.rails || h.fw == .unlatched })

end Sys2Proof.Machine
end

