-- ==== Sys2Proof/Machine/Switch.lean ====
section
/-! DEFINITION. Contexts as they halt, are switched out, restored, released and ended; checkpoints and uncorrectable errors
(R12, R13, R18, R100, R110 to R121, R257, R258, R291, R299, R304, R324, R347). -/

namespace Sys2Proof.Machine

/-! ### MSQ regions (R218) -/

/-- The first run of `n` words, from word `a` on, that no region of a program store touches. -/
def Msq.fit (m : Msq) (n : Nat) : Nat → Nat → Option Nat
  | 0, _ => none
  | k + 1, a =>
    if 8192 < a + n then none
    else if m.regions.any fun r => meets r.2.1 r.2.2 a (a + n) then m.fit n k (a + 64)
    else some a

/-- The size of a region for an image of `n` words. -/
def regionSize (n : Nat) : Nat := (n + 63) / 64 * 64

/-- A region given to a context: its image, the rest `xend`; none where it does not fit. -/
def Msq.allot (m : Msq) (ctx : BitVec 16) (img : Mem) (words : Nat) : Option Msq :=
  let n := regionSize words
  let m := { m with regions := m.regions.filter fun r => r.1 != ctx }
  if n = 0 then some m
  else
    match m.fit n 129 0 with
    | none => none
    | some a =>
      some { m with
        regions := m.regions ++ [(ctx, a, n)]
        prog := memWrite (memWrite m.prog (8 * a) (memBytes img 0 (8 * words))) (8 * (a + words))
          ((List.replicate (n - words) (leBytes 8 0x6000000000000000)).flatten) }

/-- The dies that hold clusters of a mask. -/
def diesOf (mask : BitVec 64) : List Nat := (List.range 8).filter fun d => (mask.extractLsb' (8 * d) 8) != 0

/-- Regions of a context on every die of a mask, and on no other; none where one does not fit (R218). -/
def State.allotAll (s : State) (ctx : BitVec 16) (img : Mem) (words : Nat) (mask : BitVec 64) : Option State :=
  let s0 := { s with dies := s.dies.map fun d => { d with msq :=
    { d.msq with regions := d.msq.regions.filter fun r => r.1 != ctx } } }
  (diesOf mask).foldl (fun o d => o.bind fun s =>
    ((s.die d).msq.allot ctx img words).map fun m => s.onMsq d fun _ => m) (some s0)

/-! ### What leaves a partition (R113, R120, R324) -/

/-- A core whose context has left it: its buffers stay, tagged (R259). -/
def Core.vacated (c : Core) : Core :=
  let b := State.resetCore c.num
  { b with store := { c.store with ip0 := [], ip1 := [], plane := false } }

/-- The place of a tile in a list; the rank of a tile among a partition's. -/
def rankIn (tiles : List Nat) (n : Nat) : Nat := tiles.idxOf n

/-- A transfer whose tiles are named by rank, its numbers told apart by die. -/
def Xfer.toRank (x : Xfer) (tiles : List Nat) (d : Nat) : Xfer :=
  { x with
    id := 8 * x.id + d, prog := 8 * x.prog + d, cores := x.cores.map (rankIn tiles), owner := rankIn tiles x.owner }

/-- What the sequencers hold of the tiles of a partition, by rank (R113). -/
def State.seqSave (s : State) (tiles : List Nat) : SeqSave :=
  let ds := (List.range 8).map fun d => (d, (s.die d).msq)
  { slots := ds.flatMap fun e => (e.2.slots.toList.filter fun p => p.busy && tiles.contains p.tile).map fun p =>
      { p with tile := rankIn tiles p.tile, num := 8 * p.num + e.1 }
    wait := ds.flatMap fun e => (e.2.wait.filter fun w => tiles.contains w.1).map fun w => (rankIn tiles w.1, w.2)
    xfers := ds.flatMap fun e => (e.2.xfers.filter fun x => tiles.contains x.owner).map fun x => x.toRank tiles e.1
    signals := ds.flatMap fun e => (e.2.signals.filter fun y => tiles.contains y.1.1).map fun y =>
      ((rankIn tiles y.1.1, y.1.2), y.2) }

/-- A sequencer without what belongs to tiles. -/
def Msq.without (m : Msq) (tiles : List Nat) : Msq :=
  { m with
    slots := m.slots.map fun p => if p.busy && tiles.contains p.tile then State.freeSlot else p
    wait := m.wait.filter fun w => !tiles.contains w.1
    xfers := m.xfers.filter fun x => !tiles.contains x.owner
    signals := m.signals.filter fun y => !tiles.contains y.1.1 }

/-- The open rounds of a context's windows, with tiles by rank (R324). -/
def State.roundsOf (s : State) (ctx : BitVec 16) (tiles : List Nat) : List Round :=
  (s.dies.flatMap fun d => d.rounds.filter fun r => ((s.rwinAt r.pa).map RWin.ctx) == some ctx).map fun r =>
    { r with got := r.got.map fun x => { x with tile := rankIn tiles x.tile } }

/-- A participant set under a renaming of tiles. -/
def mapSet (f : Nat → Option Nat) (v : BitVec 256) : BitVec 256 :=
  (List.range 256).foldl (fun a n =>
    if v.getLsbD n then (match f n with | some k => a ||| ((1 : BitVec 256) <<< k) | none => a) else a) 0

/-- The granted leave of tiles goes back to their dies, and their requests are gone (R354). -/
def State.dropLeaves (s : State) (tiles : List Nat) : State :=
  tiles.foldl (fun s n =>
    let c := s.core n
    s.onDie c.die fun d => { d with
      leaves := d.leaves.filter fun x => x.1 != n
      pwruse := c.grants.foldl (fun u g => u - g.2) d.pwruse }) s

/-- The partition block of a resident context brought up to date (R118). -/
def State.savedBlock (s : State) (q : Part) (x : Ctx) : Ctx :=
  let tiles := tilesOf q.mask
  x.saveBlock q (tiles.map s.core) (s.roundsOf x.id tiles)

/-- The tiles of a partition left free, with the partition gone and its reduction windows named by rank (R12). -/
def State.vacate (s : State) (p : BitVec 6) : State :=
  let tiles := s.tiles p
  let s := s.dropLeaves tiles
  let s := tiles.foldl (fun s n => s.onCore n Core.vacated) s
  { s with
    parts := s.parts.filter fun e => e.1 != p
    dies := s.dies.map fun d => { d with
      msq := d.msq.without tiles
      walks := d.walks.filter fun w => some w.1 != (s.part p).map Part.ctx } }

/-- The context of a partition is switched out into its shadow region; its clusters become free (R13, R113, R118, R120,
R304, R324). -/
def State.switchOut (s : State) (p : BitVec 6) : State :=
  match s.part p with
  | none => s
  | some q =>
    let tiles := s.tiles p
    let rounds := s.roundsOf q.ctx tiles
    let seq := s.seqSave tiles
    let images := tiles.map fun n => (s.core n).toArch
    let ckpts := tiles.flatMap fun n => (s.core n).ckpt.map fun k => (rankIn tiles n, k)
    let s1 := s.onCtx q.ctx fun x => { (s.savedBlock q x) with
      state := .out, part := p, mask := q.mask, images := images, trav := some q.trav.saved, far := q.far, swp := q.swp, shi := q.shi
      sht := q.sht
      ckpts := ckpts
      seq := seq, rounds := rounds }
    { s1.vacate p with
      dies := (s1.vacate p).dies.map fun d => { d with
        rounds := d.rounds.filter fun r => ((s.rwinAt r.pa).map RWin.ctx) != some q.ctx }
      rwins := s.rwins.map fun w =>
        if w.ctx = q.ctx then { w with pset := mapSet (fun n => if tiles.contains n then some (rankIn tiles n) else none) w.pset }
        else w }

/-! ### What comes back (R115, R116, R118) -/

/-- Programs put into free slots of a sequencer; none where they do not fit. -/
def Msq.refill (m : Msq) : List Slot → Option Msq
  | [] => some m
  | p :: r =>
    match (List.range 8).find? fun k => !(m.slot k).busy with
    | none => none
    | some k => (m.onSlot k fun _ => p).refill r

/-- The sequencer of die `d` with what a context kept for its tiles there; none where its programs do not fit. -/
def Msq.restore (m : Msq) (d : Nat) (tiles : List Nat) (q : SeqSave) (ctx : BitVec 16) : Option Msq :=
  let on := fun (r : Nat) => decide (tiles.getD r 0 / 32 = d)
  let b := m.nextId
  let sl := (q.slots.filter fun p => on p.tile).map fun p =>
    { p with tile := tiles.getD p.tile 0, num := b + p.num, ctx := ctx }
  let xs := (q.xfers.filter fun x => on x.owner).map fun x =>
    { x with id := b + x.id, prog := b + x.prog, owner := tiles.getD x.owner 0, cores := x.cores.map fun r => tiles.getD r 0 }
  let top := (sl.map Slot.num ++ xs.map Xfer.id ++ xs.map Xfer.prog).foldl max b
  let wt := (q.wait.filter fun w => on w.1).map fun w => (tiles.getD w.1 0, w.2)
  let sg := (q.signals.filter fun y => on y.1.1).map fun y => ((tiles.getD y.1.1 0, y.1.2), y.2)
  let m' : Msq := { m with
    wait := m.wait ++ wt, signals := m.signals ++ sg, xfers := m.xfers ++ xs, nextId := top + 1 }
  m'.refill sl

/-- Sequencers of all dies with what a context kept. -/
def State.restoreSeq (s : State) (tiles : List Nat) (q : SeqSave) (ctx : BitVec 16) : Option State :=
  (List.range 8).foldl (fun o d => o.bind fun s =>
    ((s.die d).msq.restore d tiles q ctx).map fun m => s.onMsq d fun _ => m) (some s)

/-- A tile of a context that is restored on it. -/
def Ctx.tile (x : Ctx) (p : BitVec 6) (count n r : Nat) : Core :=
  { State.resetCore n with
    toArch := x.images.getD r State.resetArch
    ctx := x.id, part := p, rank := BitVec.ofNat 8 r, ncl := BitVec.ofNat 6 (count / 4 - 1)
    ckpt := (x.ckpts.filter fun e => e.1 == r).map Prod.snd }

/-- The keys of a context loaded into their slots on every die of a mask, as a die holds them (R352). -/
def State.keysOn (s : State) (x : Ctx) (mask : BitVec 64) : State :=
  x.keys.foldl (fun s k =>
    match s.dies.findSome? fun d => (d.keys[k.toNat]?).filter fun e => e.1 == x.id with
    | some e => (diesOf mask).foldl (fun s d => s.onDie d fun q => { q with keys := q.keys.setIfInBounds k.toNat e }) s
    | none => s) s

/-- A switched-out context restored on a partition with its keys on the partition's dies, its halt line held until its release
(R115, R116, R352); none where its MSQ region or its programs do not fit. -/
def State.switchIn (s : State) (x : Ctx) (p : BitVec 6) (mask : BitVec 64) : Option State :=
  let tiles := tilesOf mask
  (s.allotAll x.id x.msq x.msqWords mask).bind fun s => (s.restoreSeq tiles x.seq x.id).map fun s =>
    let s := s.keysOn x mask
    let s := tiles.foldl (fun s n => s.setCore n (x.tile p tiles.length n (rankIn tiles n))) s
    let s := x.rounds.foldl (fun s r => s.onDie (paDie r.pa) fun d => { d with
      rounds := d.rounds ++ [{ r with got := r.got.map fun y => { y with tile := tiles.getD y.tile 0 } }] }) s
    let s := s.onCtx x.id fun y => { y with
      state := .halted, part := p, mask := mask, trav := none, rounds := [], ckpts := []
      seq := { slots := [], wait := [], xfers := [], signals := [] } }
    { s with
      parts := s.parts ++ [(p, { mask := mask, ctx := x.id, halt := true, haltPre := true, swp := x.swp, shi := x.shi, sht := x.sht
                                 far := x.far, trav := x.trav.getD default })]
      rwins := s.rwins.map fun w =>
        if w.ctx = x.id then { w with part := p, pset := mapSet (fun r => tiles[r]?) w.pset } else w }

/-- The scope of a stop record's SYNCST (R111). -/
def scopeOf (n : Nat) : Scope :=
  match n with
  | 0 => .tile
  | 1 => .cluster
  | 2 => .die
  | 3 => .partition
  | 4 => .module
  | _ => .pod

/-- A stopped tile released: at its stop address, halted, or at its barrier; what faulted is issued again; collectives that
completed away set their tags; one that was abandoned away, or differs, stops it, and is over with the record of that stop; a
cause it raised after its own stop stands (R106, R110, R115). -/
def Core.released (c : Core) (inRun : Bool) (done : List (Nat × Nat)) : Core :=
  match c.stop with
  | none => c
  | some p =>
    let c := { c with
      run := if p.done then (if inRun then .halted else .idle)
        else if p.syncw then .barrier false (scopeOf (p.syncst.toNat / 2 ^ 32 % 8))
        else .running
      pc := p.addr, stop := none, iss := State.resetIss, kept := false }
    let c := c.onEng fun e => { e with
      reqs := e.reqs.map fun r => if r.fault.isSome then { r with fault := none, kind := r.kind.setPieces [] } else r
      copies := e.copies.map fun k => { k with faulted := false } }
    let ended := c.eng.colls.filter fun k => k.steps == 1 && done.contains (c.rank.toNat, k.id)
    let c := ended.foldl (fun c k => c.collDone k) c
    let d := c.onEng fun e => { e with colls := e.colls.filter fun k => !(k.gone && k.told) }
    match d.eng.colls.find? fun k => k.gone with
    | some k =>
      (d.onEng fun e => { e with colls := e.colls.map fun y => if y.id = k.id then { y with told := true } else y }).async
        (asyncStop .tsmismatch 0 0 (.engine k.id))
    | none => d

/-- All tiles of a partition released in one cycle (R115, R300, R304). -/
def State.release (s : State) (p : BitVec 6) (x : Ctx) : State :=
  match s.part p with
  | none => s
  | some q =>
    let inRun := q.trav.state == .run
    let s := (s.tiles p).foldl (fun s n => s.onCore n fun c => c.released inRun x.collsDone) s
    (s.onPart p fun q => { q with halt := false, haltPre := false, trav := q.trav.saved }).onCtx x.id fun y =>
      { (y.setNotes []) with state := .running }

/-- CONTEXT_RELEASE: a restored context goes on (R115). -/
def execContextRelease (ctx : BitVec 16) (s : State) : Host.Outcome State Fault Refusal :=
  .next
    (match s.host.task, s.ctx ctx with
     | .resume seq i, some x => if i = ctx then ((s.release x.part x).setTask .none).answer seq stOk [] else s
     | _, _ => s)

/-! ### The end of a context (R110, R259, R291, R347, R352, R353) -/

/-- The place of a context's traverse. -/
def State.travOf (s : State) (x : Ctx) : TLoc :=
  if (s.part x.part).any fun q => q.ctx == x.id then .part x.part else .ctx x.id

/-- The neighbours of a context that ends or moves to another partition find its binding withdrawn (R291, R299). A context that moves
keeps its own binding and finds its old neighbours, which no longer mirror it, as ones not yet bound, without an error: which of
the two it finds is the model's choice (DESIGN CHOICE log 65). -/
def State.withdrawNb (s : State) (x : Ctx) : State :=
  let gone := fun (p : BitVec 6) (t : Trav) (up : Bool) => s.neighbour p t up == some (s.travOf x)
  s.onBound fun p t => { t with upGone := t.upGone || gone p t true, dnGone := t.dnGone || gone p t false }

/-- Blocks of a context freed (R259). -/
def PMem.release (m : PMem) (ctx : Nat) : PMem :=
  let mine := (m.owner.filter fun e => decide (e.2 = ctx)).map Prod.fst
  mine.foldl (fun m b =>
    { m with
      cells := wipe (4096 * b) (4096 * b + 4096) m.cells, owner := put 0 m.owner b 0, key := put 0 m.key b 0 }) m

/-- What was written under key slots whose keys are gone can be read under no slot: it counts as written under a number
past the slots (R260, R352; DESIGN CHOICE log 8). -/
def PMem.loseKeys (m : PMem) (ks : List (BitVec 8)) : PMem :=
  { m with key := m.key.map fun (e : Nat × Nat) =>
      if e.2 < 256 ∧ ks.contains (BitVec.ofNat 8 e.2) then (e.1, e.2 + 256) else e }

/-- The groups of which a context's cores have collectives that are not complete. -/
def State.openGroups (s : State) (x : Ctx) : List (BitVec 32) :=
  let cs := (s.cores.filter fun c => c.ctx == x.id && !c.steward).map (fun c => c.eng.colls) ++ x.images.map fun a => a.eng.colls
  ((cs.flatten.filter fun k => k.steps == 0 && !k.gone).map fun k => BitVec.ofNat 32 (field k.record 4 4)).dedup

/-- The collectives of a context are abandoned (R110). -/
def State.abandonAll (s : State) (x : Ctx) : State := (s.openGroups x).foldl (fun s g => s.abandon g x.id) s

/-- The members of a launch group that wait find it impossible to complete (R346). -/
def State.groupDies (s : State) (x : Ctx) : State :=
  if x.state ≠ .waiting then s
  else { s with ctxs := s.ctxs.map fun c => if c.state == .waiting && c.lgrp == x.lgrp then { c with lgdead := true } else c }

/-- A context ends: everything it holds is released (R347). -/
def State.endCtx (s : State) (x : Ctx) : State :=
  let s := s.groupDies x
  let s := (s.abandonAll x).withdrawNb x
  let s := if ((s.part x.part).map Part.ctx) = some x.id then s.vacate x.part else s
  let s := s.dropTlb x.id 0 (2 ^ 80)
  let s := s.onCtx x.id fun y => { y with
    state := .ended, final := false, keys := [], msq := [], msqWords := 0, shadow := [], images := [], trav := none, far := []
    swp := false, shi := false, sht := false, lgrp := 0, lgsz := 0, lgdead := false
    seq := { slots := [], wait := [], xfers := [], signals := [] }
    collsDone := [], ckpts := [], rounds := [] }
  { s with
    mem := (s.mem.release x.id.toNat).loseKeys x.keys
    rwins := s.rwins.filter fun w => w.ctx != x.id
    cgroups := s.cgroups.filter fun g => g.ctx != x.id
    dies := s.dies.map fun d => { d with
      mig := d.mig.filter fun y => y.ctx != x.id
      walks := d.walks.filter fun y => y.1 != x.id
      rounds := d.rounds.filter fun r => ((s.rwinAt r.pa).map RWin.ctx) != some x.id
      keys := d.keys.map fun k => if k.1 = x.id then (0, []) else k
      msq := { d.msq with regions := d.msq.regions.filter fun r => r.1 != x.id } } }

/-! ### When the last record of a partition is written (R107, R111, R120, R121, R347, R348) -/

/-- The steward's command that waited for a partition to stop goes on: pre-emption and end (R120, R347). -/
def State.stoppedTask (s : State) (p : BitVec 6) (ctx : BitVec 16) (clean : Bool) : State :=
  let s1 := if clean then s.switchOut p else s
  match s.host.task with
  | .preempt seq i =>
    if i ≠ ctx then s1 else (s1.setTask .none).answer seq (if clean then stOk else stRefused) []
  | .finish seq i =>
    if i ≠ ctx then s1
    else
      match s1.ctx ctx with
      | some x => ((s1.endCtx x).setTask .none).answer seq stOk []
      | none => s1
  | _ => s1

/-- A context all of whose tiles have their records is halted, or ended where they are FINAL; the host is told; a
pre-empted one is switched out (R120, R121, R347, R348). -/
def State.ctxHalted (s : State) (p : BitVec 6) (ctx : BitVec 16) : State :=
  match s.allStopped p, s.part p, s.ctx ctx with
  | true, some q, some x =>
    let l := s.stopsOf p
    let s := s.onCtx ctx fun x => { (s.savedBlock q x) with state := if x.final then .ended else .halted }
    let s := if x.final then (s.abandonAll x).withdrawNb x else s
    let s := match haltKind l with
      | none => s
      | some k => s.notify (eventBytes ctx p k (headStop l) (s.tstat p))
    let s := if x.final then s.notify (eventBytes ctx p 4 (headStop l) (s.tstat p)) else s
    s.stoppedTask p ctx (q.haltPre && (haltKind l).isNone && !x.final)
  | _, _, _ => s

/-- Whether a tile has stopped and what it issued is done (R108). -/
def Core.quiet (c : Core) : Bool := (c.run == .stopping || c.run == .stopped) && c.settled

/-- Whether no burst of a tile's memory sequencer transfers is under way (R108). -/
def State.seqQuiet (s : State) (n : Nat) : Bool :=
  (s.die (s.core n).die).msq.xfers.all fun x => x.owner != n || x.way == .home

/-- STOP_RECORD: once the tiles of its partition have stopped and what they issued has settled, a stopping core's record is
written (R108, R111; DEDUCED log 20). -/
def execStopRecord (core : Nat) (s : State) : Host.Outcome State Fault Refusal :=
  let c := s.core core
  .next
    (match c.run, c.stop with
     | .stopping, some p =>
       let p := s.finalStop c p
       let d := { c with run := .stopped, stop := some p, walk := .none, leave := .none }
       if c.steward then (if c.settled then s.setCore core d else s)
       else if !((s.tiles c.part).all fun n => (s.core n).quiet && s.seqQuiet n) then s
       else
         (((s.setCore core d).onDie c.die fun y => { y with leaves := y.leaves.filter fun z => z.1 != core }).tileImage
           d p).ctxHalted c.part c.ctx
     | _, _ => s)

/-! ### Checkpoints (R100, R119) -/

/-- A tile's part of its context's shadow region brought up to a state: its registers, buffer blocks and the fields of its stop
record, with no cause (R100, R119). -/
def State.putImage (s : State) (c : Core) (a : Arch) : State :=
  s.tileImage { c with toArch := a } { mkStop .none a.pc 0 with faulting := false }

/-- CKPT_COMPLETE: the captured image is in the shadow region and its tag is set; the block of a tile that has stopped meanwhile
holds its stop already (R100, R119). -/
def execCkptComplete (core : Nat) (s : State) : Host.Outcome State Fault Refusal :=
  let c := s.core core
  .next
    (match c.ckpt with
     | [] => s
     | k :: r =>
       match k.image with
       | none => s
       | some a =>
         (if c.run = .stopped then s else s.putImage c a).onCore core fun c =>
           { c.setTag k.tag with ckpt := r, kept := c.run != .stopped })

/-- TRICKLE_CHECKPOINT: while a context runs, a tile's changes stream into its region; not into a block that a completed
`ckpt` holds, nor while one is incomplete (R119). -/
def execTrickleCheckpoint (core : Nat) (s : State) : Host.Outcome State Fault Refusal :=
  let c := s.core core
  .next
    (if c.ctx = 0 ∨ c.steward ∨ c.kept ∨ !c.ckpt.isEmpty ∨ c.run = .stopped then s else s.putImage c c.toArch)

/-! ### Uncorrectable errors (R121, R257, R258) -/

/-- The owner tag of the line or block an error concerns; memory without tags belongs to the accessing context `acc`. The planes and
the array of a tile belong to its context, a line of a memory sequencer's store to that of the region it lies in (R121, R218,
R259; DEDUCED log 26). -/
def State.eccOwner (s : State) (x : EccPlace) (acc : BitVec 16) : Nat :=
  match x with
  | .sram n sp line =>
    match bufOf sp with
    | some u => ((s.core n).buf u).tag line
    | none => 0
  | .hbm blk => if blk < 2 ^ 28 then look 0 s.mem.owner blk else acc.toNat
  | .iplane n _ | .array n _ => (s.core n).ctx.toNat
  | .seq d line =>
    (((s.die d).msq.regions.find? fun r => decide (r.2.1 ≤ 16 * line) && decide (16 * line < r.2.1 + r.2.2)).map fun r =>
      r.1.toNat).getD 0

/-- The die of an error's place. -/
def State.eccDie (s : State) (x : EccPlace) : Nat :=
  match x with
  | .sram n _ _ | .iplane n _ | .array n _ => (s.core n).die
  | .hbm blk => pageDie (4096 * blk)
  | .seq d _ => d

/-- Whether the stops of a context's tiles stand in its partition. -/
def State.resident (s : State) (x : Ctx) : Bool := (s.part x.part).any fun q => q.ctx == x.id

/-- The stops of a context's tiles in rank order (R347). -/
def State.ctxStops (s : State) (x : Ctx) : List Stop :=
  if x.state = .running ∨ x.state = .waiting then []
  else if s.resident x then s.stopsOf x.part else x.images.filterMap fun a => a.stop

/-- The traverse status of a context's partition (R303, R347). -/
def State.ctxTstat (s : State) (x : Ctx) : W64 :=
  if s.resident x then s.tstat x.part else (x.trav.map fun t => tstatOf t x.swp (x.shi && x.sht)).getD 0

/-- Every record of a context has FINAL set, in its shadow region and with its tiles (R111, R121). -/
def State.makeFinal (s : State) (x : Ctx) : State :=
  let f := fun (a : Arch) => { a with stop := a.stop.map fun p => { p with final := true } }
  let s := s.onCores fun c => if c.ctx = x.id ∧ c.run = .stopped then { c with toArch := f c.toArch } else c
  s.onCtx x.id fun y => { y with
    final := true, images := y.images.map f
    shadow := (List.range (4 * y.ncl)).foldl (fun m r =>
      let a := tileBlock r + 0x4001
      if ((y.images[r]?).bind fun i => i.stop).isSome then put 0 m a (look 0 m a ||| 0x40) else m) y.shadow }

/-- The context of an error ends: a running one halts with UECC at tile `n`, whose stop is `p`, every record FINAL, which a tile
that is about to stop for no cause of its own records too; another one is marked ended (R121, R348). -/
def State.eccEnds (s : State) (owner : Nat) (n : Nat) (p : Stop) : State :=
  match s.ctx (BitVec.ofNat 16 owner) with
  | none => s
  | some x =>
    if owner = 0 ∨ x.state = .ended then s
    else
      let s := s.makeFinal x
      match x.state with
      | .out | .halted | .waiting | .ended =>
        let s := s.onCtx x.id fun y => { y with state := .ended }
        match s.ctx x.id with
        | none => s
        | some y => (((s.groupDies x).abandonAll x).withdrawNb x).notify (eventBytes x.id x.part 4 (headStop (s.ctxStops y)) (s.ctxTstat y))
      | .running =>
        let s := s.onPart x.part fun q => { q with halt := true }
        if (s.core n).ctx ≠ x.id ∨ (s.core n).run = .stopped then s
        else if (s.core n).run = .stopping then s.onCore n fun c => { c with stop := c.stop.map fun q => q.orRaise p }
        else
          s.onCore n fun c => { c with
            run := .stopping, fault := none, iss := State.resetIss
            stop := some { p with
              addr := c.pc, done := c.run == .halted || c.run == .idle, syncw := c.atBarrier.isSome, syncst := c.syncst } }

/-- Whether a place in global memory lies in an error's block. -/
def eccHasPa (x : EccPlace) (pa : PAddr) : Bool := x == .hbm (pa / 4096)

/-- Whether bytes of a tile's buffer lie in an error's line. -/
def eccHasLine (x : EccPlace) (n : Nat) (sp : BSpace) (a k : Nat) : Bool :=
  match x with
  | .sram m s line => m == n && bufOf s == some sp && decide (a < 128 * line + 128) && decide (128 * line < a + k)
  | _ => false

/-- Whether the unit a copy of a core reads or writes next touches an error's place; the register offset of its global side. -/
def State.copyMeets (s : State) (c : Core) (k : Copy) (x : EccPlace) : Option (BitVec 3 × Nat) :=
  let i := (k.got.getD []).length
  let glob := fun (w : BitVec 3) (off j : Nat) (rd : Bool) =>
    match s.globPieces c w off k.len j (min 128 (k.len - j)) rd (!rd) with
    | .ok ps => if ps.any fun q => eccHasPa x q.pa then some (w, off) else none
    | .no _ _ => none
  match k.src, k.dst with
  | .glob w off, _ => glob w off i true
  | .buf p, .glob w off =>
    (match p with
     | .at sp a => if (bufOf sp).any fun u => eccHasLine x c.num u (a + i) 128 then some (w, off) else none
     | .cb _ => none).or (glob w off k.done false)
  | .buf (.at sp a), .buf _ => if (bufOf sp).any fun u => eccHasLine x c.num u (a + i) 128 then some (0, 0) else none
  | _, _ => none

/-- Whether the next burst of a transfer touches an error's place. -/
def State.xferMeets (s : State) (y : Xfer) (x : EccPlace) : Bool :=
  (match s.restOf y (min 1 (y.len - y.done)) with
   | .ok ps => ps.any fun pa => eccHasPa x pa
   | .error _ => false) ||
  (y.write && eccHasLine x (y.cores.headD 0) (seqSpace y.space) (128 * (y.boff + y.done)) 128)

/-- The stop of a tile one of whose accesses meets a lasting error: a remote access, a copy or a transfer of its memory sequencer
programs as an asynchronous cause that names it; else the access of its bundle (R106, R111, R121). -/
def State.eccMet (s : State) (c : Core) (x : EccPlace) : Stop :=
  match c.eng.reqs.find? fun r => r.kind.pieces.any fun q => eccHasPa x q.pa with
  | some r => asyncStop .uecc r.kind.issued.2 r.kind.issued.1 (.access r.id)
  | none =>
    match c.eng.copies.head?.bind fun k => (s.copyMeets c k x).map fun y => (k, y) with
    | some (k, y) => asyncStop .uecc y.2 y.1 (.engine k.id)
    | none =>
      match (s.die c.die).msq.xfers.find? fun y => y.owner == c.num && s.xferMeets y x with
      | some y => msqStop .uecc y.word y.prog
      | none => mkStop .uecc 0 0

/-- The accesses of a core to an error's place end in it (R108). -/
def Core.loseAccess (c : Core) (x : EccPlace) : Core :=
  c.onEng fun e => { e with reqs := e.reqs.map fun r =>
    if (r.kind.pieces.any fun q => eccHasPa x q.pa) = true then { r with fault := some .uecc } else r }

/-- Whether a place lies in a region that is not live (R261). -/
def State.eccDead (s : State) (x : EccPlace) : Bool :=
  match x with
  | .hbm blk => s.mem.isDead (4096 * blk)
  | _ => false

/-- Whether the access of a core that meets an error has a logical time: one of the executing core's coming logical cycle in the
space of the line, the fetch of its bundle, its array, or the access of a result that waits for a reply; copies and transfers of
the memory sequencer have none (R240, R257). -/
def State.timedAccess (s : State) (x : EccPlace) : Bool :=
  let c := s.me
  match x with
  | .sram m sp _ => m == c.num && ((c.flight.filterMap Flight.moves ++ c.arrayMoves ++
      ((c.ops (c.bundle 7 c.pc).1).getD []).filterMap fun o => c.reads o.instr).any fun y => y.1 == sp)
  | .hbm _ => c.eng.reqs.any fun r => r.kind.pieces.any fun q => eccHasPa x q.pa
  | .iplane m _ => m == c.num
  | .array m _ => m == c.num && !c.eng.arr.streams.isEmpty
  | .seq .. => false

/-- The stall cycle of a core one of whose accesses takes longer for its correction or its retry, charged to the lowest cause
present (R22, R121, R257). -/
def State.eccLate (s : State) (core : Nat) (x : EccPlace) : State :=
  let t := s.focus core
  if t.me.run ≠ .running ∨ t.me.fault.isSome ∨ !t.timedAccess x then s
  else
    match t.tryCycle with
    | .stall k u => t.stalled (lowerCause (some .misc) k) u
    | _ => t.stalled .misc t

/-- UECC_RETRY: an access of a core meets an error in a line or block of its own context. A single-bit error is corrected in line
and counted; a double-bit one is retried: a retry that succeeds is counted; either costs an access with a logical time a stall. A
retry that fails ends the context (R121, R257, R259, R261). -/
def execUeccRetry (core : Nat) (place : EccPlace) (fin : EccEnd) (s : State) : Host.Outcome State Fault Refusal :=
  let c := s.core core
  let late := fun (t : State) => t.eccLate core place
  .next
    (if s.eccDead place ∨ s.eccOwner place c.ctx ≠ c.ctx.toNat then s
     else
       match fin with
       | .corrected => late (s.onDie (s.eccDie place) fun d => { d with corrected := d.corrected + 1 })
       | .transient => late (s.onDie (s.eccDie place) fun d => { d with transient := d.transient + 1 })
       | .lasting => (s.onCore core fun c => c.loseAccess place).eccEnds c.ctx.toNat core (s.eccMet c place))

/-- The tile a scrubber's finding is charged to: that of an SRAM line, else the anchor of the owner's partition
(DEDUCED log 26). -/
def State.scrubTile (s : State) (x : EccPlace) (owner : Nat) : Nat :=
  match x with
  | .sram n _ _ | .iplane n _ | .array n _ => n
  | .hbm _ | .seq .. => s.anchor (((s.ctx (BitVec.ofNat 16 owner)).map Ctx.part).getD 0)

/-- SCRUB: a word read and corrected; a double-bit finding is retried once; regions that are not live are skipped
(R258, R261). -/
def execScrub (place : EccPlace) (err : EccErr) (lasting : Bool) (s : State) : Host.Outcome State Fault Refusal :=
  let o := s.eccOwner place 0
  .next
    (if s.eccDead place then s
     else
       match err with
       | .none => s
       | .single => s.onDie (s.eccDie place) fun d => { d with corrected := d.corrected + 1 }
       | .double =>
         if lasting then s.eccEnds o (s.scrubTile place o) (mkStop .uecc 0 0)
         else s.onDie (s.eccDie place) fun d => { d with transient := d.transient + 1 })

/-! ### PREEMPT, RESUME, END, STATUS (R347) -/

/-- A context that exists: not ended, or ended by an error and not yet released. -/
def State.live (s : State) (ctx : BitVec 16) : Option Ctx :=
  match s.ctx ctx with
  | some x => if x.state = .ended ∧ !x.final then none else some x
  | none => none

/-- The halt line of a context's partition driven for a pre-emption (R120). -/
def State.drive (s : State) (x : Ctx) : State := s.onPart x.part fun q => { q with halt := true, haltPre := !q.halt || q.haltPre }

/-- PREEMPT (R120, R347). -/
def execPreempt (bell : Doorbell) (ctx : BitVec 16) (s : State) : Host.Outcome State Fault Refusal :=
  let seq := bell.seq
  .next
    (s.serve bell 4 bell.len.toNat (argWith bell 16 ctx.toNat) (argBad bell 16 || bell.len != 0) fun s =>
      match s.live ctx with
      | none => s.answer seq stUnknown []
      | some x => if x.state = .running then (s.drive x).setTask (.preempt seq ctx) else s.answer seq stRefused [])

/-- The far-tile table of a context: that of its partition while it is there (R306). -/
def State.farOf (s : State) (x : Ctx) : List Far := (((s.part x.part).filter fun q => q.ctx == x.id).map fun q => q.far).getD x.far

/-- Why a RESUME on a partition is turned away, by code. That a far-tile table with an ALIAS that is a tile of the new clusters, which
R306 has the steward reject, gives RESOURCE is the model's choice (R12, R13, R306, R347; DESIGN CHOICE log 65). -/
def State.resumeBad (s : State) (x : Ctx) (p : BitVec 6) (mask : BitVec 64) : Option Nat :=
  if x.final ∨ x.state = .running ∨ x.state = .waiting then some stRefused
  else if (tilesOf mask).length ≠ 4 * x.ncl ∨ !farOk mask (s.farOf x) then some stResource
  else if (s.parts.any fun e => e.2.ctx != x.id && ((e.2.mask &&& mask != 0) || e.1 == p)) then some stResource
  else none

/-- RESUME: a halted context in place keeps its tiles; otherwise it is switched out first and restored where the record
says; the release follows (R115, R116, R347). -/
def State.resumeOn (s : State) (seq : BitVec 32) (x : Ctx) (p : BitVec 6) (mask : BitVec 64) : State :=
  let here := (s.part x.part).any fun q => q.ctx == x.id
  if here && x.part == p && (s.part p).map Part.mask == some mask then s.setTask (.resume seq x.id)
  else
    let s1 := if here then s.switchOut x.part else s
    let s1 := if x.part = p then s1 else s1.withdrawNb x
    match (s1.ctx x.id).bind fun y => s1.switchIn y p mask with
    | some t => t.setTask (.resume seq x.id)
    | none => s.answer seq stResource []

/-- RESUME (R347). -/
def execResume (bell : Doorbell) (ctx : BitVec 16) (record : List Byte) (s : State) : Host.Outcome State Fault Refusal :=
  let seq := bell.seq
  let p : BitVec 6 := BitVec.ofNat 6 (field record 0 1)
  let mask : BitVec 64 := BitVec.ofNat 64 (field record 8 8)
  .next
    (s.serve bell 5 record.length (argWith bell 16 ctx.toNat) (argBad bell 16) fun s =>
      match s.live ctx with
      | none => s.answer seq stUnknown []
      | some x =>
        if record.length ≠ 16 ∨ 64 ≤ field record 0 1 ∨ field record 1 7 ≠ 0 then s.answer seq stFormat []
        else
          match s.resumeBad x p mask with
          | some k => s.answer seq k []
          | none => s.resumeOn seq x p mask)

/-- END: a running context is pre-empted first (R347). -/
def execEndContext (bell : Doorbell) (ctx : BitVec 16) (s : State) : Host.Outcome State Fault Refusal :=
  let seq := bell.seq
  .next
    (s.serve bell 6 bell.len.toNat (argWith bell 16 ctx.toNat) (argBad bell 16 || bell.len != 0) fun s =>
      match s.live ctx with
      | none => s.answer seq stUnknown []
      | some x =>
        if x.state = .running then (s.drive x).setTask (.finish seq ctx) else (s.endCtx x).answer seq stOk [])

/-- The number of a context's state (R347). -/
def CtxState.num : CtxState → Nat
  | .running => 0
  | .halted => 1
  | .out => 2
  | .ended => 3
  | .waiting => 4

/-- The status response of a context, from +0x20 on (R347). -/
def State.statusBytes (s : State) (x : Ctx) : List Byte :=
  let h := headStop (s.ctxStops x)
  leBytes 2 x.id.toNat ++ leBytes 1 (if s.resident x then x.part.toNat else 0) ++ leBytes 1 x.state.num ++ leBytes 4 0 ++
  leBytes 8 (s.ctxTstat x).toNat ++ leBytes 1 (Cause.num h.cause) ++ leBytes 1 h.flags ++ leBytes 2 h.code.toNat ++ leBytes 12 0

/-- The stop records of a context's tiles in rank order, as its shadow region holds them (R111, R118). -/
def Ctx.records (x : Ctx) : List Byte :=
  (List.range (4 * x.ncl)).flatMap fun r => memBytes x.shadow (tileBlock r + 0x4000) 2048

/-- STATUS: the response, and the stop records of all tiles written to the host where its area has room (R347). -/
def execStatus (bell : Doorbell) (ctx : BitVec 16) (addr : W64) (len : BitVec 32) (s : State) :
    Host.Outcome State Fault Refusal :=
  let seq := bell.seq
  .next
    (s.serve { bell with addr := addr } 7 len.toNat (argWith bell 16 ctx.toNat) (argBad bell 16) fun s =>
      match s.ctx ctx with
      | none => s.answer seq stUnknown []
      | some x =>
        (s.onHost fun h => { h with
          dump := h.dump ++ if 2048 * (4 * x.ncl) ≤ len.toNat then [(addr, x.records)] else [] }).answer seq stOk
            [(0x20, s.statusBytes x)])

end Sys2Proof.Machine
end

