-- ==== Sys2Proof/Machine/Launch.lean ====
section
/-! DEFINITION. Launch records, launch groups, reloads, evictions (R66, R218, R285 to R291, R302, R306, R322, R325, R336, R345 to
R347, R352, R353, R356, R357). -/

namespace Sys2Proof.Machine

/-! ### The record (R345) -/

/-- A section of a record. -/
structure Sec where
  typ : Nat
  arg : Nat
  len : Nat
  off : Nat
  deriving DecidableEq, Repr, Inhabited

/-- Section `i` of a record. -/
def secAt (r : List Byte) (i : Nat) : Sec :=
  let o := 0x20 + 16 * i
  { typ := field r o 1, arg := field r (o + 1) 3, len := field r (o + 4) 4, off := field r (o + 8) 8 }

/-- The sections of a record. -/
def secs (r : List Byte) : List Sec := (List.range (field r 6 2)).map (secAt r)

/-- The bytes of a section. -/
def Sec.bytes (x : Sec) (r : List Byte) : List Byte := (r.drop x.off).take x.len

/-- The offset of the signature. -/
def sigOff (r : List Byte) : Nat := field r 0x10 4

/-- The header of a record (R345). -/
def headerOk (r : List Byte) : Bool :=
  decide (0x20 ≤ r.length) && field r 0 2 == 1 && decide (field r 2 1 < 64) && field r 3 1 == 0 &&
  decide (1 ≤ field r 6 2) && decide (field r 6 2 ≤ 4096) &&
  (if field r 4 2 = 0 then field r 0x14 2 == 0 else decide (2 ≤ field r 0x14 2) && decide (field r 0x14 2 ≤ 64)) &&
  field r 0x16 2 == 0 && field r 0x18 8 == 0 &&
  decide (0x20 + 16 * field r 6 2 ≤ sigOff r) && decide (sigOff r ≤ r.length)

/-- Whether bytes of a range are 0. -/
def zeroAt (r : List Byte) (off n : Nat) : Bool := field r off n == 0

/-- The space a buffer section names (R345). -/
def secSpace (arg : Nat) : Option BSpace :=
  match arg / 256 % 4 with
  | 0 => some .a
  | 1 => some .w
  | 2 => some .c
  | _ => none

/-- The words of a table of 8-byte entries. -/
def wordsOf (b : List Byte) : List W64 := (List.range (b.length / 8)).map fun i => BitVec.ofNat 64 (field b (8 * i) 8)

/-- The groups of a section, headers and entries with ALIAS 0, `k` of them; none where they do not fill it (R353). -/
def groupsOf (ctx : BitVec 16) : Nat → List Byte → Option (List CGroup)
  | 0, b => if b.isEmpty then some [] else none
  | k + 1, b =>
    let p := field b 4 2
    let es := wordsOf ((b.drop 16).take (8 * p))
    if b.length < 16 + 8 * p ∨ !zeroAt b 6 10 ∨ p = 0 ∨ 4096 < p ∨ !(es.all fun w => farBits w && w.extractLsb' 0 8 == 0) then none
    else
      (groupsOf ctx k (b.drop (16 + 8 * p))).map fun r =>
        { num := BitVec.ofNat 32 (field b 0 4), ctx := ctx, entries := es, need := [], dead := false } :: r

/-- The format of a section for a partition of `n` tiles, but for what a traverse image, a binding, keys and windows are
checked for where they are used (R345, R353). -/
def secOk (r : List Byte) (n : Nat) (x : Sec) : Bool :=
  let b := x.bytes r
  decide (x.off + x.len ≤ sigOff r) &&
  (match x.typ with
   | 1 => decide (x.arg ≤ 1) && decide (x.len ≤ 98304)
   | 2 =>
     (match secSpace x.arg with
      | none => false
      | some u => decide (8 ≤ x.len) && decide (field b 0 8 + (x.len - 8) ≤ u.size)) &&
     decide (x.arg < 2048) && (if x.arg / 1024 = 1 then x.arg % 256 == 0 else decide (x.arg % 256 < n))
   | 3 => decide (x.arg ≤ 1)
   | 4 => x.arg == 0 && decide (8 ≤ x.len) && x.len % 8 == 0 && zeroAt b 0 8
   | 5 => x.arg == 0 && x.len == 32
   | 6 => x.arg == 0 && x.len % 8 == 0 && decide (x.len ≤ 128)
   | 7 => x.arg == 0 && x.len == 192
   | 8 => x.arg == 0 && x.len == 8
   | 9 => x.len == 80 * x.arg
   | 10 => x.len == 64 * x.arg
   | 11 => (groupsOf 0 x.arg b).isSome
   | _ => false)

/-- The first section of a type, where there is one. -/
def secOf (r : List Byte) (t : Nat) : Option (List Byte) := ((secs r).find? fun x => x.typ == t).map fun x => x.bytes r

/-- The cluster mask of a record. -/
def clMask (r : List Byte) : BitVec 64 := BitVec.ofNat 64 (field r 8 8)

/-! ### Traverse images (R285 to R288) -/

/-- The legs of an image. -/
def legsOf (b : List Byte) : List LegW :=
  (List.range (field b 0 2)).map fun i =>
    { w0 := BitVec.ofNat 64 (field b (16 + 16 * i) 8), w1 := BitVec.ofNat 64 (field b (24 + 16 * i) 8) }

/-- Whether a leg sets only the fields its kind allows (R287). -/
def LegW.kindOk (l : LegW) : Bool :=
  let f := l.kind == 1
  let b := l.kind == 2
  decide (l.kind ≤ 5) && !l.w0.getLsbD 0 && (f || b || !(l.inn || l.out || l.ret || l.early)) &&
  (f || !l.push) && (b || l.kind == 3 || !l.pop)

/-- Whether a leg names only neighbours the binding has (R288, R291). -/
def LegW.bindOk (l : LegW) (t : Trav) : Bool :=
  let up := t.bound && t.upv
  let dn := t.bound && t.dnv
  (!l.inn || (if l.back then dn else up)) && (!l.out || (if l.back then up else dn))

/-- Whether entry `i` of an image breaks the rules of loop-backs (R288). -/
def loopOk (ls : List LegW) (i : Nat) (l : LegW) : Bool :=
  l.rep == 0 ||
  (decide (l.loopTo ≤ i) &&
    !((List.range ls.length).any fun j => decide (l.loopTo ≤ j) && decide (j < i) && (ls[j]?.map fun m => m.rep != 0).getD false))

/-- An image the loader accepts (R288). -/
def imageOk (t : Trav) (b : List Byte) : Bool :=
  let n := field b 0 2
  let ls := legsOf b
  decide (1 ≤ n) && decide (n ≤ 512) && zeroAt b 2 14 && decide (b.length = 16 + 16 * n) &&
  ((List.range n).all fun i =>
    match ls[i]? with
    | none => false
    | some l =>
      l.kindOk && (!l.ret || l.inn) && (!l.early || l.out) && l.bindOk t && l.entry.toNat % 4 != 3 && loopOk ls i l)

/-- The image of a record without one: a leg N at 0:0 (R346). -/
def defaultImage : List LegW := [{ w0 := 0, w1 := 0 }]

/-! ### Bindings (R291, R292) -/

/-- The binding of a record without one: no neighbours; inboxes of one slot, a stash of 32 (DEDUCED log 27). -/
def noBinding : List Byte := padTo 32 [0, 0, 32, 1, 1]

/-- A neighbour word of a binding. -/
def nbOk (v : Nat) (x : Bool) : Bool :=
  decide (v / 64 % 1024 = 0) && decide (v < 2 ^ 26) && (x || decide (v / 2 ^ 16 = 0))

/-- An area of a binding: an inbox of `n` slots at a multiple of 128; an outbox of 128 bytes. -/
def areaOk (v n : Nat) : Bool := decide (v < 2 ^ 24) && decide (v + 128 * n ≤ 4194304)
def inboxOk (v n : Nat) : Bool := v % 128 == 0 && areaOk v n

/-- A group that carries traverse messages to another module of the pod (R291). -/
def State.reaches (s : State) (acc : Nat) : Bool :=
  let x := s.group (Config.route acc)
  decide (Config.route acc < 24) && x.pers == 2 && x.state == .active

/-- A binding record that holds by itself. That UPX without UPV, DNX without DNV and bits [31:24] of an area base that are not 0 are
rejected is the model's choice: the table gives neither as a ground (R291; DESIGN CHOICE log 65). -/
def State.bindOk (s : State) (t : Trav) : Bool :=
  decide (t.flags < 16) && decide (1 ≤ t.stlim) && decide (t.stlim ≤ 32) && decide (1 ≤ t.fins) && decide (t.fins ≤ 16) &&
  decide (1 ≤ t.bins) && decide (t.bins ≤ 16) && (t.dnv || t.dnsl == 0) && (t.upv || t.upsl == 0) &&
  (t.upv || !t.upx) && (t.dnv || !t.dnx) && t.bindField 7 1 == 0 && nbOk (t.bindField 8 4) t.upx &&
  nbOk (t.bindField 12 4) t.dnx && inboxOk (t.bindField 16 4) t.fins && inboxOk (t.bindField 20 4) t.bins &&
  areaOk (t.bindField 24 4) 1 && areaOk (t.bindField 28 4) 1 &&
  (!t.upx || s.reaches (bindAcc t.bind 8)) && (!t.dnx || s.reaches (bindAcc t.bind 12))

/-- Two bindings that mirror each other: `u` above `t` (R291). -/
def mirrors (u t : Trav) (pu pt : BitVec 6) : Bool :=
  u.names false pt && t.names true pu && u.dnsl == t.fins && t.upsl == u.bins

/-- Whether a binding of partition `p` agrees with those already there, on this module and on peers (R291). -/
def State.mirrorOk (s : State) (p : BitVec 6) (t : Trav) : Bool :=
  (s.bound.all fun e =>
    e.1 == p ||
    ((!(t.names true e.1 || e.2.names false p) || mirrors e.2 t e.1 p) &&
      (!(t.names false e.1 || e.2.names true p) || mirrors t e.2 p e.1))) &&
  !(s.farBinds.any fun e => farClash p t e)

/-! ### Far tiles, windows, keys, groups (R306, R345, R352, R353) -/

/-- Windows of a record: base, limit and key as their registers hold them (R52, R345; DEDUCED log 27). -/
def windowsOf (b : List Byte) : Vector Window 8 :=
  Vector.ofFn fun i : Fin 8 =>
    { base := BitVec.ofNat 80 (field b (24 * i.val) 8 * 65536), limit := BitVec.ofNat 56 (field b (24 * i.val + 8) 8)
      key := BitVec.ofNat 8 (field b (24 * i.val + 16) 8) }

/-- A key entry loaded into its slot on every die of a mask; none for one that does not unwrap, names slot 0 or a slot that
another context holds on any die (R260, R352). -/
def State.loadKey (s : State) (id : BitVec 16) (mask : BitVec 64) (e : List Byte) : Option State :=
  let k := field e 0 1
  let held := s.dies.any fun d => match d.keys[k]? with
    | some x => x.1 != 0 && x.1 != id
    | none => false
  if k = 0 ∨ !zeroAt e 1 7 ∨ held then none
  else
    (Config.unwrap kwrap ((e.drop 8).take 72)).map fun key =>
      (diesOf mask).foldl (fun s d => s.onDie d fun x => { x with keys := x.keys.setIfInBounds k (id, key) }) s

/-- Entries of a size cut from bytes. -/
def entries (n k : Nat) (b : List Byte) : List (List Byte) := (List.range k).map fun i => (b.drop (n * i)).take n

/-- All keys of a section loaded. -/
def State.loadKeys (s : State) (id : BitVec 16) (mask : BitVec 64) (b : List Byte) : Option State :=
  (entries 80 (b.length / 80) b).foldl (fun o e => o.bind fun s => s.loadKey id mask e) (some s)

/-- A page of a context's memory for reads and writes: its frame. -/
def State.frameOf (s : State) (x : Ctx) (va : Nat) : Option PAddr :=
  (s.mem.walk va true true 5 0 x.root).map fun e => leafPa e.1 e.2 va

/-- The physical base of a range in contiguous HBM4 pages (R353). -/
def State.solid (s : State) (x : Ctx) (va pages : Nat) : Option PAddr :=
  match s.frameOf x va with
  | none => none
  | some b =>
    if b % 65536 = 0 ∧ (List.range pages).all (fun i =>
        (s.frameOf x (va + 65536 * i)) == some (b + 65536 * i) && inHbm (b + 65536 * i)) then some b
    else none

/-- The virtual address of a global place of a context. -/
def Ctx.va (x : Ctx) (v n : Nat) : Option Nat :=
  match globPlace (BitVec.ofNat 64 v) with
  | none => none
  | some g => if g.1 then none else windowVa (x.win[g.2.1.toNat]) g.2.2 n

/-- A reduction window of a record; none where its range is not backed as R353 asks. -/
def State.windowOf (s : State) (x : Ctx) (p : BitVec 6) (d : List Byte) : Option RWin :=
  let n := field d 8 4
  match x.va (field d 0 8) (65536 * n), x.va (field d 16 8) 8 with
  | some va, some fv =>
    match s.solid x va n, s.frameOf x fv with
    | some b, some f =>
      some { base := b, size := n, count := field d 12 2, part := p, ctx := x.id, flagw := f
             pset := BitVec.ofNat 256 (field d 24 32) }
    | _, _ => none
  | _, _ => none

/-- A descriptor whose fields are in range (R322, R353). -/
def rwinOk (d : List Byte) : Bool :=
  decide (1 ≤ field d 8 4) && decide (field d 8 4 ≤ 16384) && decide (1 ≤ field d 12 2) && zeroAt d 14 2 && zeroAt d 56 8

/-! ### LAUNCH (R346) -/

/-- A new identifier: the lowest that no context has had (R259: not 0; R328: not the host's; DESIGN CHOICE log 28). -/
def State.newId (s : State) : Option (BitVec 16) :=
  ((List.range 65535).find? fun n => n != 0 && !(s.ctxs.any fun c => c.id.toNat == n)).map (BitVec.ofNat 16)

/-- The context a record asks for. Of more than one MSQ image section the first counts: the spec is silent (DESIGN CHOICE log 55).
-/
def newCtx (r : List Byte) (id : BitVec 16) : Ctx :=
  let b := (secOf r 4).getD []
  { id := id, part := BitVec.ofNat 6 (field r 2 1), ncl := (tilesOf (clMask r)).length / 4, mask := clMask r
    state := if field r 4 2 = 0 then .running else .waiting
    root := field ((secOf r 8).getD []) 0 8, win := windowsOf ((secOf r 7).getD [])
    keys := (((secs r).filter fun x => x.typ == 9).flatMap fun x => entries 80 (x.len / 80) (x.bytes r)).map fun e =>
      BitVec.ofNat 8 (field e 0 1)
    msq := memWrite [] 0 (b.drop 8), msqWords := (b.length - 8) / 8, lgrp := BitVec.ofNat 16 (field r 4 2)
    lgsz := field r 0x14 2, shadow := [], images := [], trav := none
    far := wordsOf ((secOf r 6).getD []), swp := false, shi := false
    sht := false, seq := { slots := [], wait := [], xfers := [], signals := [] }, collsDone := [], ckpts := [], rounds := []
    final := false, lgdead := false }

/-- Whether a record has a section of a type for a plane. -/
def hasPlane (r : List Byte) (t p : Nat) : Bool := (secs r).any fun x => x.typ == t && x.arg == p

/-- The plane that becomes active at launch: plane 0, unless the record fills only plane 1 (R346; DEDUCED log 27). -/
def activePlane (r : List Byte) : Bool :=
  let t := if hasPlane r 3 0 || hasPlane r 3 1 then 3 else 1
  hasPlane r t 1 && !hasPlane r t 0

/-- The traverse of a record's binding, before its images (R291, R346). -/
def boundTrav (r : List Byte) : Trav :=
  match secOf r 5 with
  | some b => newTrav true b
  | none => newTrav false noBinding

/-- Whether the loader accepts every traverse image of a record; a rejected one ends the launch with FORMAT (R288, R346;
DEDUCED log 27). -/
def imagesOk (r : List Byte) : Bool := ((secs r).filter fun x => x.typ == 3).all fun x => imageOk (boundTrav r) (x.bytes r)

/-- The traverse a record gives partition `p`: its binding, the neighbours on other modules that are bound already, and its images
(R288, R291, R346). -/
def State.launchTrav (s : State) (r : List Byte) (p : BitVec 6) : Trav :=
  let act := activePlane r
  let t := { s.farBinds.foldl (fun t e => t.meet p e) (boundTrav r) with plane := act }
  let t := if hasPlane r 3 0 || hasPlane r 3 1 then t
    else if act then { t with img1 := defaultImage } else { t with img0 := defaultImage }
  ((secs r).filter fun x => x.typ == 3).foldl (fun u x =>
    if x.arg = 0 then { u with img0 := legsOf (x.bytes r) } else { u with img1 := legsOf (x.bytes r) }) t

/-- A buffer section placed in a core's buffers under its context (R66, R345). -/
def Core.loadBuf (c : Core) (r : List Byte) (x : Sec) : Core :=
  match secSpace x.arg with
  | none => c
  | some u => let b := x.bytes r; c.writeBuf u (place (field b 0 8) (b.drop 8))

/-- A tile as a launch leaves it (R18, R51, R66, R302, R346). Of two buffer sections of one kind, both ALL or both of one rank, that
cover one byte the later in the record counts: the spec gives no order among them (DESIGN CHOICE log 55). Of two instruction
sections for one plane the later is laid over the earlier, and of two traverse images for one plane the later counts (State.launchTrav):
the spec speaks of one (R66, R345; DESIGN CHOICE log 65). The steward gives the tile's buffers to the context, with no byte of their
former owners (R259). -/
def launchTile (r : List Byte) (x : Ctx) (t : Trav) (count n k : Nat) : Core :=
  let plane := fun (p : Nat) =>
    ((secs r).filter fun y => y.typ == 1 && y.arg == p).foldl (fun m y => memWrite m 0 (y.bytes r)) ([] : Mem)
  let c := State.resetCore n
  let c : Core := { c with
    store := { a := Buf.given x.id.toNat, w := Buf.given x.id.toNat, c := Buf.given x.id.toNat, ip0 := plane 0, ip1 := plane 1
               plane := t.plane }
    regs := { c.regs with win := x.win }
    spec := { c.spec with stage := BitVec.ofNat 8 (t.bindField 0 1) }
    ctx := x.id, part := x.part, rank := BitVec.ofNat 8 k, ncl := BitVec.ofNat 6 (count / 4 - 1) }
  let all := (secs r).filter fun y => y.typ == 2 && y.arg / 1024 == 1
  let own := (secs r).filter fun y => y.typ == 2 && y.arg / 1024 == 0 && y.arg % 256 == k
  (all ++ own).foldl (fun c y => c.loadBuf r y) c

/-- Whether the module can hold the clusters of a record (R12, R346). -/
def State.clustersFree (s : State) (r : List Byte) : Bool :=
  let p : BitVec 6 := BitVec.ofNat 6 (field r 2 1)
  let mask := clMask r
  mask != 0 && !(s.parts.any fun e => e.1 == p || e.2.mask &&& mask != 0) &&
  s.ctxs.all fun c => c.state != .out || c.part != p || c.ncl == (tilesOf mask).length / 4

/-- The format of a whole record for LAUNCH (R345, R346, R306). -/
def launchOk (r : List Byte) : Bool :=
  headerOk r && ((secs r).all fun x => secOk r (tilesOf (clMask r)).length x) &&
  farOk (clMask r) (wordsOf ((secOf r 6).getD [])) &&
  (secs r).all fun x => x.typ != 10 || (entries 64 x.arg (x.bytes r)).all rwinOk

/-- Whether a record's launch group size agrees with that of the members that wait (R346 step 6). -/
def State.groupSizeOk (s : State) (r : List Byte) : Bool :=
  s.ctxs.all fun c => !(c.state == .waiting && c.lgrp.toNat == field r 4 2) || c.lgsz == field r 0x14 2

/-- A signature that verifies under an enrolled launch key (R345). -/
def recSigned (r : List Byte) : Bool := Config.verify 1 (Config.shake256 (r.take (sigOff r)) 64) (r.drop (sigOff r))

/-- A collective group as installed: the personality of each rank's group is the one its traffic needs (R325; DEDUCED log 23). -/
def State.carriersOf (s : State) (g : CGroup) : CGroup :=
  { g with need := g.entries.map fun w => (s.group (w.toNat / 2 ^ 43 % 32)).pers }

/-- Reduction windows and collective groups of a record installed; none for RESOURCE (R353). -/
def State.installAll (s : State) (r : List Byte) (x : Ctx) : Option State :=
  let ds := ((secs r).filter fun y => y.typ == 10).flatMap fun y => entries 64 y.arg (y.bytes r)
  let ws := ds.map fun d => s.windowOf x x.part d
  let gs := ((secs r).filter fun y => y.typ == 11).map fun y => groupsOf x.id y.arg (y.bytes r)
  let nums := (gs.flatMap fun g => g.getD []).map CGroup.num
  if ws.any (fun w => w.isNone) ∨ 256 < s.rwins.length + ws.length ∨ gs.any (fun g => g.isNone) ∨ !nums.Nodup ∨
      s.cgroups.any (fun g => nums.contains g.num) then none
  else
    some { s with
      rwins := s.rwins ++ ws.filterMap id, cgroups := s.cgroups ++ (gs.flatMap fun g => g.getD []).map s.carriersOf }

/-- Steps 4 and 5 of LAUNCH: the context created with all its sections, or the code of what fails (R288, R346). -/
def State.create (s : State) (r : List Byte) (id : BitVec 16) : Except Nat State :=
  let x := newCtx r id
  let mask := clMask r
  let tiles := tilesOf mask
  let t := s.launchTrav r x.part
  match s.allotAll id x.msq x.msqWords mask with
  | none => .error stResource
  | some s1 =>
    match (((secs r).filter fun y => y.typ == 9).foldl (fun o y => o.bind fun s => s.loadKeys id mask (y.bytes r)) (some s1)) with
    | none => .error stFormat
    | some s2 =>
      if t.bound && !(s.bindOk t && s.mirrorOk x.part t) then .error stBinding
      else if !imagesOk r then .error stFormat
      else
        match s2.installAll r x with
        | none => .error stResource
        | some s3 =>
          let other := if t.plane then 0 else 1
          let s4 := tiles.foldl (fun s n => s.setCore n (launchTile r x t tiles.length n (rankIn tiles n))) s3
          let images := tiles.map fun n => (s4.core n).toArch
          .ok { s4 with
            parts := s4.parts ++ [(x.part, { mask := mask, ctx := id, halt := false, haltPre := false, swp := false
                                             shi := hasPlane r 1 other, sht := hasPlane r 3 other, far := x.far, trav := t })]
            ctxs := s4.ctxs ++ [{ x with images := images }] }

/-- LAUNCH: format, signature, clusters, the context and its sections, its first leg, the answer (R346). -/
def execLaunch (bell : Doorbell) (record : List Byte) (s : State) : Host.Outcome State Fault Refusal :=
  let seq := bell.seq
  .next
    (s.serve bell 1 record.length bell.arg.toNat (argBad bell 0) fun s =>
      if !launchOk record then s.answer seq stFormat []
      else if !recSigned record then s.answer seq stSignature []
      else
        match s.clustersFree record, s.newId with
        | true, some id =>
          match s.create record id with
          | .error k => s.answer seq k []
          | .ok t =>
            if field record 4 2 ≠ 0 ∧ !s.groupSizeOk record then s.answer seq stFormat []
            else
              let p : BitVec 6 := BitVec.ofNat 6 (field record 2 1)
              let t := t.onHost fun h => { h with ldig := Config.shake256 record 64 }
              let t := if field record 4 2 = 0 then t.evalLeg p else t
              t.answer seq stOk [(0x20, leBytes 2 id.toNat)]
        | _, _ => s.answer seq stResource [])

/-- LAUNCH_GROUP_RELEASE: once LGSZ members of a group wait and none of it has ended, the first legs of the first LGSZ become current
in one cycle (R346). -/
def execLaunchGroupRelease (lgrp : BitVec 16) (s : State) : Host.Outcome State Fault Refusal :=
  let l := s.ctxs.filter fun c => c.state == .waiting && c.lgrp == lgrp && lgrp != 0
  .next
    (if l.isEmpty ∨ l.any (fun c => c.lgdead) ∨ l.length < (l.head?.map Ctx.lgsz).getD 0 then s
     else (l.take ((l.head?.map Ctx.lgsz).getD 0)).foldl (fun s c => (s.onCtx c.id fun y => { y with state := .running }).evalLeg c.part) s)

/-! ### RELOAD (R99, R218, R302, R347) -/

/-- The sections a reload may have, for the shadow planes of a partition (R285, R347; DEDUCED log 27). -/
def reloadSecs (r : List Byte) (q : Part) (n : Nat) : Bool :=
  (secs r).all fun x =>
    secOk r n x &&
    (x.typ == 4 || ((x.typ == 1 || x.typ == 3) && (x.arg == 1) != q.trav.plane))

/-- The shadow planes written from a record; the loader then reports those it has written complete, or rejects a traverse image,
whose plane it marks incomplete (R288, R302). -/
def State.fillShadow (s : State) (p : BitVec 6) (r : List Byte) : State × Bool :=
  match s.part p with
  | none => (s, true)
  | some q =>
    let imgs := ((secs r).filter fun x => x.typ == 3).map fun x => x.bytes r
    let ins := (secs r).any fun x => x.typ == 1
    let ok := imgs.all (imageOk q.trav)
    let one := fun (c : Core) =>
      ((secs r).filter fun x => x.typ == 1).foldl (fun (c : Core) x =>
        let m := memWrite [] 0 (x.bytes r)
        { c with store := if c.store.plane then { c.store with ip0 := m } else { c.store with ip1 := m } }) c
    let s := (s.tiles p).foldl (fun s n => s.onCore n one) s
    let s := s.onPart p fun q =>
      if !ok then { q with shi := q.shi || ins, sht := false, trav := q.trav.fail 4 }
      else
        { q with
          shi := q.shi || ins
          sht := q.sht || !imgs.isEmpty
          trav := imgs.foldl (fun (t : Trav) b =>
            if t.plane then { t with img0 := legsOf b } else { t with img1 := legsOf b }) q.trav }
    (s, ok)

/-- Whether a program of a context runs or waits on a sequencer. -/
def State.seqBusy (s : State) (ctx : BitVec 16) : Bool :=
  s.dies.any fun d =>
    (d.msq.slots.toList.any fun p => p.busy && p.ctx == ctx) || d.msq.wait.any fun w => (s.core w.1).ctx == ctx

/-- The sequencer image of a reload placed; none where a program runs or a region does not fit (R218, R347). -/
def State.reloadSeq (s : State) (x : Ctx) (mask : BitVec 64) (r : List Byte) : Option State :=
  match secOf r 4 with
  | none => some s
  | some b =>
    if s.seqBusy x.id then none
    else
      let img := memWrite [] 0 (b.drop 8)
      let words := (b.length - 8) / 8
      (s.allotAll x.id img words mask).map fun s => s.onCtx x.id fun y => { y with msq := img, msqWords := words }

/-- RELOAD, of a context that runs or is halted; another one is UNKNOWN (R347; DEDUCED log 27). -/
def execReload (bell : Doorbell) (arg : BitVec 32) (record : List Byte) (s : State) : Host.Outcome State Fault Refusal :=
  let seq := bell.seq
  .next
    (s.serve bell 8 record.length arg.toNat false fun s =>
      match s.live (arg.setWidth 16) with
      | none => s.answer seq stUnknown []
      | some x =>
        match s.part x.part with
        | none => s.answer seq stUnknown []
        | some q =>
          if q.ctx ≠ x.id ∨ (x.state ≠ .running ∧ x.state ≠ .halted) then s.answer seq stUnknown []
          else if arg.extractLsb' 17 15 != 0 ∨ !headerOk record ∨ field record 2 1 ≠ x.part.toNat ∨
              !reloadSecs record q (s.tiles x.part).length then s.answer seq stFormat []
          else if !recSigned record then s.answer seq stSignature []
          else
            match s.reloadSeq x q.mask record with
            | none => s.answer seq stResource []
            | some t =>
              let u := t.fillShadow x.part record
              let v := if arg.getLsbD 16 ∧ u.2 then u.1.onPart x.part fun q => { q with swp := true } else u.1
              v.answer seq (if u.2 then stOk else stFormat) [])

/-! ### EVICT (R356, R357) -/

/-- Whether at least one UALink group of native lanes reaches a neighbour (R356). -/
def State.evictable (s : State) (acc : BitVec 10) : Bool :=
  (List.range 24).any fun g =>
    let x := s.group g
    x.pers == 2 && x.role == 1 && x.state == .active && Config.links acc.toNat g

/-- Every running context driven to a pre-emption, also one that has begun to run since the eviction began (R356 step 1). -/
def State.evictAll (s : State) : State :=
  (s.ctxs.filter fun c => c.state == .running).foldl (fun s c => s.drive c) s

/-- The end of step 1: contexts that are halted or wait are switched out as well (R356). -/
def State.allOut (s : State) : State :=
  (s.parts.filter fun e => e.2.ctx != 0).foldl (fun s e =>
    if (s.ctx e.2.ctx).any fun c => c.state == .ended then s.vacate e.1 else s.switchOut e.1) s

/-- What the blocks of a context hold: numbers, bytes as they stand in HBM4, key slots (R259, R260). -/
def State.sentOf (s : State) (x : Ctx) : Sent :=
  let mine := fun (b : Nat) => look 0 s.mem.owner b == x.id.toNat
  { ctx := x.id, ended := x.state == .ended, shadow := x.shadow
    cells := s.mem.cells.filter fun e => mine (e.1 / 4096), key := s.mem.key.filter fun e => mine e.1 }

/-- Step 2: the shadow region and the blocks of every context are sent to the neighbour, still encrypted; one that a lasting error
has ended is marked ended there (R356, R357). -/
def State.sendAll (s : State) : State :=
  s.onHost fun h => { h with sent := h.sent ++ (s.ctxs.filter fun c => c.state != .ended || c.final).map s.sentOf }

/-- A switch to NONE begun at every group that can begin one: ACTIVE or FAILED; one that is on its way already gets no second GO (R334,
R356). -/
def State.allToNone (s : State) : State :=
  (List.range 24).foldl (fun s g =>
    if (s.group g).state = .active ∨ (s.group g).state = .failed then s.pgGo g 192 else s) s

/-- What has been sent away is gone from the module: contexts, windows, groups; far tiles and bindings are withdrawn, every group
goes to NONE, reservations are cleared (R356 step 3). -/
def State.sentAway (s : State) : State :=
  let t : State := { s with
    ctxs := [], parts := [], rwins := [], cgroups := [], cruns := [], farBinds := [], farGone := []
    dies := s.dies.map fun (d : Die) => ({ d with rounds := [], mig := [], tlb := [] } : Die)
    ring := { s.ring with rsvm := Vector.replicate 128 0 } }
  t.allToNone

/-- Step 4 of an eviction: no cell in the ring, every group OFF; the groups that came up meanwhile go to NONE too. -/
def State.quietModule (s : State) : Bool := s.ring.slots.isEmpty && s.groups.all fun g => g.state == .off

/-- EVICT: refused, or begun; then, while it lasts, its next step (R356, R357). `accepted`: the neighbour accepts, and the
sending succeeds. -/
def execEvict (bell : Doorbell) (acc : BitVec 10) (accepted : Bool) (s : State) : Host.Outcome State Fault Refusal :=
  let seq := bell.seq
  let serve := s.serve bell 3 bell.len.toNat (argWith bell 10 acc.toNat) (argBad bell 10)
  .next
    (match s.host.task with
     | .evict q st =>
       if q ≠ seq then serve fun s => s
       else if st = 1 then
         (if s.ctxs.any fun c => c.state == .running then s.evictAll else s.allOut.setTask (.evict q 2))
       else if st = 2 then
         (if accepted then s.sendAll.sentAway.setTask (.evict q 3)
          else ((s.onHost fun h => { h with fw := .running }).setTask .none).answer seq stRefused [])
       else if s.quietModule then
         ((s.onHost fun h => { h with fw := .unlatched, ulperm := true }).setTask .none).answer seq stOk []
       else s.allToNone
     | _ =>
       serve fun s =>
         if !s.evictable acc ∨ !accepted then s.answer seq stRefused []
         else ((s.onHost fun h => { h with fw := .evicting }).setTask (.evict seq 1)).evictAll)

end Sys2Proof.Machine
end

