-- ==== Sys2Proof/Machine/Dispatch.lean ====
section
/-! DEFINITION. The meaning of every instruction: one arm for each constructor. -/

namespace Sys2Proof.Machine

open Sys2Proof

/-- What instruction `i` does in state `s`. -/
def exec (i : Instr) (s : State) : Host.Outcome State Fault Refusal :=
  match i with
  | .add d a b w sp => Sys2Proof.Machine.execAdd d a b w sp s
  | .sub d a b w sp => Sys2Proof.Machine.execSub d a b w sp s
  | .mul d a b w sp => Sys2Proof.Machine.execMul d a b w sp s
  | .mulh d a b w sp => Sys2Proof.Machine.execMulh d a b w sp s
  | .mulhn d a b w sp => Sys2Proof.Machine.execMulhn d a b w sp s
  | .div d a b w sp => Sys2Proof.Machine.execDiv d a b w sp s
  | .divn d a b w sp => Sys2Proof.Machine.execDivn d a b w sp s
  | .rem d a b w sp => Sys2Proof.Machine.execRem d a b w sp s
  | .remn d a b w sp => Sys2Proof.Machine.execRemn d a b w sp s
  | .and d a b w sp => Sys2Proof.Machine.execAnd d a b w sp s
  | .or d a b w sp => Sys2Proof.Machine.execOr d a b w sp s
  | .xor d a b w sp => Sys2Proof.Machine.execXor d a b w sp s
  | .andn d a b w sp => Sys2Proof.Machine.execAndn d a b w sp s
  | .orn d a b w sp => Sys2Proof.Machine.execOrn d a b w sp s
  | .shl d a b w sp => Sys2Proof.Machine.execShl d a b w sp s
  | .shr d a b w sp => Sys2Proof.Machine.execShr d a b w sp s
  | .sar d a b w sp => Sys2Proof.Machine.execSar d a b w sp s
  | .rol d a b w sp => Sys2Proof.Machine.execRol d a b w sp s
  | .ror d a b w sp => Sys2Proof.Machine.execRor d a b w sp s
  | .min d a b w sp => Sys2Proof.Machine.execMin d a b w sp s
  | .max d a b w sp => Sys2Proof.Machine.execMax d a b w sp s
  | .minn d a b w sp => Sys2Proof.Machine.execMinn d a b w sp s
  | .maxn d a b w sp => Sys2Proof.Machine.execMaxn d a b w sp s
  | .clz d a w sp => Sys2Proof.Machine.execClz d a w sp s
  | .ctz d a w sp => Sys2Proof.Machine.execCtz d a w sp s
  | .popc d a w sp => Sys2Proof.Machine.execPopc d a w sp s
  | .bfx d a b w sp => Sys2Proof.Machine.execBfx d a b w sp s
  | .bfxn d a b w sp => Sys2Proof.Machine.execBfxn d a b w sp s
  | .bfi d a b w sp => Sys2Proof.Machine.execBfi d a b w sp s
  | .csel d a b g => Sys2Proof.Machine.execCsel d a b g s
  | .addi sp d a imm => Sys2Proof.Machine.execAddi sp d a imm s
  | .andi sp d a imm => Sys2Proof.Machine.execAndi sp d a imm s
  | .ori sp d a imm => Sys2Proof.Machine.execOri sp d a imm s
  | .xori sp d a imm => Sys2Proof.Machine.execXori sp d a imm s
  | .shli sp d a n => Sys2Proof.Machine.execShli sp d a n s
  | .shri sp d a n => Sys2Proof.Machine.execShri sp d a n s
  | .sari sp d a n => Sys2Proof.Machine.execSari sp d a n s
  | .muli sp d a imm => Sys2Proof.Machine.execMuli sp d a imm s
  | .lui d imm => Sys2Proof.Machine.execLui d imm s
  | .aup d imm => Sys2Proof.Machine.execAup d imm s
  | .cmp g a b cond w => Sys2Proof.Machine.execCmp g a b cond w s
  | .cmpi g imm cond a => Sys2Proof.Machine.execCmpi g imm cond a s
  | .tst g a b z w => Sys2Proof.Machine.execTst g a b z w s
  | .gand g ga gb => Sys2Proof.Machine.execGand g ga gb s
  | .gor g ga gb => Sys2Proof.Machine.execGor g ga gb s
  | .gxor g ga gb => Sys2Proof.Machine.execGxor g ga gb s
  | .gnot g ga => Sys2Proof.Machine.execGnot g ga s
  | .ptst g a => Sys2Proof.Machine.execPtst g a s
  | .prep g tgt => Sys2Proof.Machine.execPrep g tgt s
  | .prepr g a => Sys2Proof.Machine.execPrepr g a s
  | .br g => Sys2Proof.Machine.execBr g s
  | .brA g => Sys2Proof.Machine.execBrA g s
  | .brf g => Sys2Proof.Machine.execBrf g s
  | .brl g => Sys2Proof.Machine.execBrl g s
  | .loop a gr epk esl => Sys2Proof.Machine.execLoop a gr epk esl s
  | .loopi cnt gr epk esl => Sys2Proof.Machine.execLoopi cnt gr epk esl s
  | .lbrk g n => Sys2Proof.Machine.execLbrk g n s
  | .sync scope => Sys2Proof.Machine.execSync scope s
  | .frame => Sys2Proof.Machine.execFrame s
  | .waitt a b => Sys2Proof.Machine.execWaitt a b s
  | .nop => Sys2Proof.Machine.execNop s
  | .halt => Sys2Proof.Machine.execHalt s
  | .vadd d a b ty sp md => Sys2Proof.Machine.execVadd d a b ty sp md s
  | .vsub d a b ty sp md => Sys2Proof.Machine.execVsub d a b ty sp md s
  | .vmul d a b ty sp md => Sys2Proof.Machine.execVmul d a b ty sp md s
  | .vmulh d a b ty sp => Sys2Proof.Machine.execVmulh d a b ty sp s
  | .vfma d a b ty sp md => Sys2Proof.Machine.execVfma d a b ty sp md s
  | .vfms d a b ty sp md => Sys2Proof.Machine.execVfms d a b ty sp md s
  | .vfnma d a b ty sp md => Sys2Proof.Machine.execVfnma d a b ty sp md s
  | .vmin d a b ty sp => Sys2Proof.Machine.execVmin d a b ty sp s
  | .vmax d a b ty sp => Sys2Proof.Machine.execVmax d a b ty sp s
  | .vabs d a ty sp md => Sys2Proof.Machine.execVabs d a ty sp md s
  | .vneg d a ty sp md => Sys2Proof.Machine.execVneg d a ty sp md s
  | .vand d a b sp => Sys2Proof.Machine.execVand d a b sp s
  | .vor d a b sp => Sys2Proof.Machine.execVor d a b sp s
  | .vxor d a b sp => Sys2Proof.Machine.execVxor d a b sp s
  | .vandn d a b sp => Sys2Proof.Machine.execVandn d a b sp s
  | .vshl d a b ty sp md => Sys2Proof.Machine.execVshl d a b ty sp md s
  | .vshr d a b ty sp md => Sys2Proof.Machine.execVshr d a b ty sp md s
  | .vsar d a b ty sp md => Sys2Proof.Machine.execVsar d a b ty sp md s
  | .vcmp d a b ty sp cond => Sys2Proof.Machine.execVcmp d a b ty sp cond s
  | .vbc d a b ty sp md => Sys2Proof.Machine.execVbc d a b ty sp md s
  | .vxt d a b ty sp md => Sys2Proof.Machine.execVxt d a b ty sp md s
  | .vlid d ty sp => Sys2Proof.Machine.execVlid d ty sp s
  | .vrot d a b ty sp md => Sys2Proof.Machine.execVrot d a b ty sp md s
  | .vperm d a b ty sp => Sys2Proof.Machine.execVperm d a b ty sp s
  | .vrsum d a ty sp md => Sys2Proof.Machine.execVrsum d a ty sp md s
  | .vrmax d a ty sp => Sys2Proof.Machine.execVrmax d a ty sp s
  | .vrmin d a ty sp => Sys2Proof.Machine.execVrmin d a ty sp s
  | .vrcp d a ty sp => Sys2Proof.Machine.execVrcp d a ty sp s
  | .vrsq d a ty sp => Sys2Proof.Machine.execVrsq d a ty sp s
  | .vex2 d a ty sp => Sys2Proof.Machine.execVex2 d a ty sp s
  | .vlg2 d a ty sp => Sys2Proof.Machine.execVlg2 d a ty sp s
  | .vdot4 d a b ty sp md => Sys2Proof.Machine.execVdot4 d a b ty sp md s
  | .vpopc d a ty sp => Sys2Proof.Machine.execVpopc d a ty sp s
  | .vclz d a ty sp => Sys2Proof.Machine.execVclz d a ty sp s
  | .vtacc d a b ty sp => Sys2Proof.Machine.execVtacc d a b ty sp s
  | .vsel d a b vc => Sys2Proof.Machine.execVsel d a b vc s
  | .vselB d a b vc => Sys2Proof.Machine.execVselB d a b vc s
  | .vcvt d a src cf sp md => Sys2Proof.Machine.execVcvt d a src cf sp md s
  | .vbq d a b fmt sp md => Sys2Proof.Machine.execVbq d a b fmt sp md s
  | .vbdq d a fmt sp md => Sys2Proof.Machine.execVbdq d a fmt sp md s
  | .vbscl d a b fmt sp md => Sys2Proof.Machine.execVbscl d a b fmt sp md s
  | .vtunp d a n sp => Sys2Proof.Machine.execVtunp d a n sp s
  | .vpak d a b wc sp => Sys2Proof.Machine.execVpak d a b wc sp s
  | .vupk d a h wc sp md => Sys2Proof.Machine.execVupk d a h wc sp md s
  | .vrng d a b sp md => Sys2Proof.Machine.execVrng d a b sp md s
  | .vptst d a => Sys2Proof.Machine.execVptst d a s
  | .ld space r b size off => Sys2Proof.Machine.execLd space r b size off s
  | .st space r b size off => Sys2Proof.Machine.execSt space r b size off s
  | .vld space r b size off => Sys2Proof.Machine.execVld space r b size off s
  | .vst space r b size off => Sys2Proof.Machine.execVst space r b size off s
  | .vgat space r b size vi sp => Sys2Proof.Machine.execVgat space r b size vi sp s
  | .vsct space r b size vi => Sys2Proof.Machine.execVsct space r b size vi s
  | .vldb space r b size off => Sys2Proof.Machine.execVldb space r b size off s
  | .cbdef a b c inC n => Sys2Proof.Machine.execCbdef a b c inC n s
  | .cbadvP a n => Sys2Proof.Machine.execCbadvP a n s
  | .cbadvC a n => Sys2Proof.Machine.execCbadvC a n s
  | .cbadvPW a n => Sys2Proof.Machine.execCbadvPW a n s
  | .cbadvCW a n => Sys2Proof.Machine.execCbadvCW a n s
  | .cp a b c t => Sys2Proof.Machine.execCp a b c t s
  | .cpg a b c t => Sys2Proof.Machine.execCpg a b c t s
  | .cpm a b c t => Sys2Proof.Machine.execCpm a b c t s
  | .mlds a b c => Sys2Proof.Machine.execMlds a b c s
  | .mswap => Sys2Proof.Machine.execMswap s
  | .mmul a b c cbf n => Sys2Proof.Machine.execMmul a b c cbf n s
  | .mmulc a b c cbf n => Sys2Proof.Machine.execMmulc a b c cbf n s
  | .mclr a b => Sys2Proof.Machine.execMclr a b s
  | .snd a b c => Sys2Proof.Machine.execSnd a b c s
  | .rcv a b sig => Sys2Proof.Machine.execRcv a b sig s
  | .msq a => Sys2Proof.Machine.execMsq a s
  | .ldg d a sp win cls => Sys2Proof.Machine.execLdg d a sp win cls s
  | .stg d a size win => Sys2Proof.Machine.execStg d a size win s
  | .vldg d a sp win cls => Sys2Proof.Machine.execVldg d a sp win cls s
  | .vstg d a win => Sys2Proof.Machine.execVstg d a win s
  | .amo d a w4 win scope op => Sys2Proof.Machine.execAmo d a w4 win scope op s
  | .red d a w4 win scope op => Sys2Proof.Machine.execRed d a w4 win scope op s
  | .lqpop d => Sys2Proof.Machine.execLqpop d s
  | .tagw t => Sys2Proof.Machine.execTagw t s
  | .tagwa a => Sys2Proof.Machine.execTagwa a s
  | .tagff t => Sys2Proof.Machine.execTagff t s
  | .tagclr t => Sys2Proof.Machine.execTagclr t s
  | .fenceAcq scope => Sys2Proof.Machine.execFenceAcq scope s
  | .fenceRel scope => Sys2Proof.Machine.execFenceRel scope s
  | .fenceSc scope => Sys2Proof.Machine.execFenceSc scope s
  | .drain scope => Sys2Proof.Machine.execDrain scope s
  | .trig => Sys2Proof.Machine.execTrig s
  | .coll a => Sys2Proof.Machine.execColl a s
  | .rdsr d n => Sys2Proof.Machine.execRdsr d n s
  | .wrsr a n => Sys2Proof.Machine.execWrsr a n s
  | .trap k => Sys2Proof.Machine.execTrap k s
  | .tret => Sys2Proof.Machine.execTret s
  | .stop k => Sys2Proof.Machine.execStop k s
  | .swap => Sys2Proof.Machine.execSwap s
  | .swapSteward a => Sys2Proof.Machine.execSwapSteward a s
  | .ckpt t => Sys2Proof.Machine.execCkpt t s
  | .lsv b off => Sys2Proof.Machine.execLsv b off s
  | .lrs b off => Sys2Proof.Machine.execLrs b off s
  | .stampAt sig => Sys2Proof.Machine.execStampAt sig s
  | .stampHold sig => Sys2Proof.Machine.execStampHold sig s
  | .xt e => Sys2Proof.Machine.execXt e s
  | .xrd areg space layout tag len boff sel => Sys2Proof.Machine.execXrd areg space layout tag len boff sel s
  | .xwr areg space tag len boff sel => Sys2Proof.Machine.execXwr areg space tag len boff sel s
  | .xset kind idx value => Sys2Proof.Machine.execXset kind idx value s
  | .xlp count back areg sreg level => Sys2Proof.Machine.execXlp count back areg sreg level s
  | .xwt tile tag => Sys2Proof.Machine.execXwt tile tag s
  | .xsg tile tag => Sys2Proof.Machine.execXsg tile tag s
  | .xend => Sys2Proof.Machine.execXend s
  | .hold => Sys2Proof.Machine.execHold s
  | .resultPerforms => Sys2Proof.Machine.execResultPerforms s
  | .variableLatencyReply core id => Sys2Proof.Machine.execVariableLatencyReply core id s
  | .elasticStall cause => Sys2Proof.Machine.execElasticStall cause s
  | .haltLine core => Sys2Proof.Machine.execHaltLine core s
  | .stopRecord core => Sys2Proof.Machine.execStopRecord core s
  | .syncPost core => Sys2Proof.Machine.execSyncPost core s
  | .barrierRelease core => Sys2Proof.Machine.execBarrierRelease core s
  | .legEvaluation part => Sys2Proof.Machine.execLegEvaluation part s
  | .run part => Sys2Proof.Machine.execRun part s
  | .done part => Sys2Proof.Machine.execDone part s
  | .traverseMessage part fwd far => Sys2Proof.Machine.execTraverseMessage part fwd far s
  | .slotReturn part down far => Sys2Proof.Machine.execSlotReturn part down far s
  | .triggerPost core => Sys2Proof.Machine.execTriggerPost core s
  | .planeFlip part => Sys2Proof.Machine.execPlaneFlip part s
  | .copyComplete core => Sys2Proof.Machine.execCopyComplete core s
  | .streamFire core => Sys2Proof.Machine.execStreamFire core s
  | .planeReady core => Sys2Proof.Machine.execPlaneReady core s
  | .axUpdate core => Sys2Proof.Machine.execAxUpdate core s
  | .msqTransferComplete die id => Sys2Proof.Machine.execMsqTransferComplete die id s
  | .collComplete core id => Sys2Proof.Machine.execCollComplete core id s
  | .ckptComplete core => Sys2Proof.Machine.execCkptComplete core s
  | .messageArrival m => Sys2Proof.Machine.execMessageArrival m s
  | .atomicOperation core id => Sys2Proof.Machine.execAtomicOperation core id s
  | .reductionContribution core id => Sys2Proof.Machine.execReductionContribution core id s
  | .pageWalk core => Sys2Proof.Machine.execPageWalk core s
  | .invalidation ctx va size => Sys2Proof.Machine.execInvalidation ctx va size s
  | .migration ctx va frame => Sys2Proof.Machine.execMigration ctx va frame s
  | .migrationRelease ctx va => Sys2Proof.Machine.execMigrationRelease ctx va s
  | .channelLending die channel => Sys2Proof.Machine.execChannelLending die channel s
  | .reclaim die channel => Sys2Proof.Machine.execReclaim die channel s
  | .scrub place err lasting => Sys2Proof.Machine.execScrub place err lasting s
  | .ueccRetry core place fin => Sys2Proof.Machine.execUeccRetry core place fin s
  | .refreshElision region => Sys2Proof.Machine.execRefreshElision region s
  | .cellInsert ringW strand station => Sys2Proof.Machine.execCellInsert ringW strand station s
  | .cellDelivery ringW strand station bad => Sys2Proof.Machine.execCellDelivery ringW strand station bad s
  | .cellReturn ringW strand station => Sys2Proof.Machine.execCellReturn ringW strand station s
  | .rsvmWrite idx value => Sys2Proof.Machine.execRsvmWrite idx value s
  | .tstatErrClear part => Sys2Proof.Machine.execTstatErrClear part s
  | .pgctlGo group value => Sys2Proof.Machine.execPgctlGo group value s
  | .pgctlClear group => Sys2Proof.Machine.execPgctlClear group s
  | .quiesced group => Sys2Proof.Machine.execQuiesced group s
  | .drainTimeout group => Sys2Proof.Machine.execDrainTimeout group s
  | .retraining group ok rate => Sys2Proof.Machine.execRetraining group ok rate s
  | .keyRotation group dir key => Sys2Proof.Machine.execKeyRotation group dir key s
  | .oldKeyRelease group dir => Sys2Proof.Machine.execOldKeyRelease group dir s
  | .ptpSync offset rate => Sys2Proof.Machine.execPtpSync offset rate s
  | .syncLoss => Sys2Proof.Machine.execSyncLoss s
  | .ptcStep sec ns => Sys2Proof.Machine.execPtcStep sec ns s
  | .leaveGrant die => Sys2Proof.Machine.execLeaveGrant die s
  | .thermalLimit die budget => Sys2Proof.Machine.execThermalLimit die budget s
  | .boot slots minVersion => Sys2Proof.Machine.execBoot slots minVersion s
  | .launch seq record => Sys2Proof.Machine.execLaunch seq record s
  | .launchGroupRelease lgrp => Sys2Proof.Machine.execLaunchGroupRelease lgrp s
  | .attest seq request => Sys2Proof.Machine.execAttest seq request s
  | .evict seq acc accepted => Sys2Proof.Machine.execEvict seq acc accepted s
  | .preempt seq ctx => Sys2Proof.Machine.execPreempt seq ctx s
  | .resume seq ctx record => Sys2Proof.Machine.execResume seq ctx record s
  | .contextRelease ctx => Sys2Proof.Machine.execContextRelease ctx s
  | .endContext seq ctx => Sys2Proof.Machine.execEndContext seq ctx s
  | .status seq ctx addr len => Sys2Proof.Machine.execStatus seq ctx addr len s
  | .reload seq arg record => Sys2Proof.Machine.execReload seq arg record s
  | .eventPost => Sys2Proof.Machine.execEventPost s
  | .mainRailsOff => Sys2Proof.Machine.execMainRailsOff s
  | .inboundRequest group req => Sys2Proof.Machine.execInboundRequest group req s
  | .trickleCheckpoint core => Sys2Proof.Machine.execTrickleCheckpoint core s
  | .auxiliaryRail on => Sys2Proof.Machine.execAuxiliaryRail on s
  | .collectiveAbandoned group => Sys2Proof.Machine.execCollectiveAbandoned group s

end Sys2Proof.Machine
end

