-- ==== Sys2Proof/Machine/Turns.lean ====
section
/-! DEFINITION. The turns that are no tile cycle: a program slot of a memory sequencer, the wall clock; and how a word is
placed where the next step fetches it. -/

namespace Sys2Proof.Machine

/-! ### The turn of a program slot (R48, R218, R220) -/

/-- Slot `k` of die `d` takes its next word, or a program that waits. -/
def State.seqTurn (s : State) (d k : Nat) : Host.Outcome State Fault Refusal :=
  let s := { s with turnAt := (d, k) }
  let p := s.slotNow
  if 8 ≤ k then .next s
  else if !p.busy then .next (s.seqStart d k)
  else if !s.seqRuns p then .next s
  else
    let m := (s.die d).msq
    let r := m.region p.ctx
    if r.2 ≤ p.pc then .next (s.seqFault .illop)
    else
      match decodeMsq (m.word (r.1 + p.pc)) with
      | .error _ => .next (s.seqFault .illop)
      | .ok i => exec i s

/-! ### Other turns -/

/-- The steps of the part that are no words (95_what_each_step_holds.md). -/
def isEvent : Instr → Bool
  | .add .. | .sub .. | .mul .. | .mulh .. | .mulhn .. | .div .. | .divn .. | .rem .. | .remn .. | .and .. | .or ..
  | .xor .. | .andn .. | .orn .. | .shl .. | .shr .. | .sar .. | .rol .. | .ror .. | .min .. | .max .. | .minn ..
  | .maxn .. | .clz .. | .ctz .. | .popc .. | .bfx .. | .bfxn .. | .bfi .. | .csel .. | .addi .. | .andi .. | .ori ..
  | .xori .. | .shli .. | .shri .. | .sari .. | .muli .. | .lui .. | .aup .. | .cmp .. | .cmpi .. | .tst ..
  | .gand .. | .gor .. | .gxor .. | .gnot .. | .ptst .. | .prep .. | .prepr .. | .br .. | .brA .. | .brf .. | .brl ..
  | .loop .. | .loopi .. | .lbrk .. | .sync .. | .frame | .waitt .. | .nop | .halt | .vadd .. | .vsub .. | .vmul ..
  | .vmulh .. | .vfma .. | .vfms .. | .vfnma .. | .vmin .. | .vmax .. | .vabs .. | .vneg .. | .vand .. | .vor ..
  | .vxor .. | .vandn .. | .vshl .. | .vshr .. | .vsar .. | .vcmp .. | .vbc .. | .vxt .. | .vlid .. | .vrot ..
  | .vperm .. | .vrsum .. | .vrmax .. | .vrmin .. | .vrcp .. | .vrsq .. | .vex2 .. | .vlg2 .. | .vdot4 .. | .vpopc ..
  | .vclz .. | .vtacc .. | .vsel .. | .vselB .. | .vcvt .. | .vbq .. | .vbdq .. | .vbscl .. | .vtunp .. | .vpak ..
  | .vupk .. | .vrng .. | .vptst .. | .ld .. | .st .. | .vld .. | .vst .. | .vgat .. | .vsct .. | .vldb ..
  | .cbdef .. | .cbadvP .. | .cbadvC .. | .cbadvPW .. | .cbadvCW .. | .cp .. | .cpg .. | .cpm .. | .mlds .. | .mswap
  | .mmul .. | .mmulc .. | .mclr .. | .snd .. | .rcv .. | .msq .. | .ldg .. | .stg .. | .vldg .. | .vstg .. | .amo ..
  | .red .. | .lqpop .. | .tagw .. | .tagwa .. | .tagff .. | .tagclr .. | .fenceAcq .. | .fenceRel .. | .fenceSc ..
  | .drain .. | .trig | .coll .. | .rdsr .. | .wrsr .. | .trap .. | .tret | .stop .. | .swap | .swapSteward ..
  | .ckpt .. | .lsv .. | .lrs .. | .stampAt .. | .stampHold .. | .xt .. | .xrd .. | .xwr .. | .xset .. | .xlp ..
  | .xwt .. | .xsg .. | .xend => false
  | _ => true

/-- A tile cycle of the wall clock: the clocks of the dies and the port groups move on, and traverses send what their groups carry;
without main rails nothing does (R299, R333, R335, R340, R357). -/
def State.wallTurn (s : State) : State :=
  if s.host.rails then { (s.sendOut.portCycle.onPtc Ptc.advance) with wall := s.wall + 1, ring := s.ring.tick s.wall } else s

/-! ### The word a fetch meets -/

/-- The active plane of a core with a word at an address. -/
def Core.putWord (c : Core) (a : IAddr) (w : Word) : Core :=
  let f := fun (m : Mem) => memWrite m (12 * pkt a + 4 * (a.toNat % 4)) (leBytes 4 w.toNat)
  { c with store :=
      if c.store.plane then { c.store with ip1 := f c.store.ip1 } else { c.store with ip0 := f c.store.ip0 } }

/-- A core whose next cycle fetches a word: the executing tile, or the steward of die 0 where only a steward decodes it;
its turn comes next. -/
def State.placeWord (s : State) (w : Word) : State :=
  let n := if (okOf (Sys2Proof.decode false w)).isNone && (okOf (Sys2Proof.decode true w)).isSome then 256 else s.me.num
  let t := s.focus n
  { t.onMe fun c => { c.putWord c.pc w with run := .running } with agenda := [.core n] }

/-- A program slot whose next turn fetches a word: slot 0 of die 0, its program the word at the start of a region. -/
def State.placeSeqWord (s : State) (w : W64) : State :=
  { s.onMsq 0 fun m =>
      { (m.onSlot 0 fun p => { p with busy := true, pc := 0, first := 0 }) with
        prog := memWrite m.prog 0 (leBytes 8 w.toNat)
        regions := ((m.slot 0).ctx, 0, 1) :: m.regions.filter fun r => r.1 != (m.slot 0).ctx } with
    agenda := [.msq 0 0] }

end Sys2Proof.Machine
end

