-- ==== Sys2Proof/Machine/Step.lean ====
section
/-! DEFINITION. One step of the module: the turn that comes next. -/

namespace Sys2Proof.Machine

/-- A turn taken (DESIGN CHOICE log 4). -/
def turn (t : Turn) (s : State) : Host.Outcome State Fault Refusal :=
  match t with
  | .core n => s.coreTurn n
  | .msq d k => s.seqTurn d.toNat k
  | .burst d id => .next (s.moveBurst d.toNat id)
  | .perform n id => .next (s.performStore n id)
  | .kNet n id => .next (s.kArrive n id)
  | .copyRead n => .next (s.copyRead n)
  | .copyUnit n => .next (s.copyUnit n)
  | .take n => .next (s.takeDelivery n)
  | .inbound tid => .next (s.inTurn tid)
  | .coll num => .next (s.collTurn num)
  | .wall => .next s.wallTurn
  | .evt i => if isEvent i then exec i s else .next s

/-- One step: the head of the agenda, or, where it is empty, a turn that is left open (DESIGN CHOICE log 4). -/
def step (s : State) : Host.Outcome State Fault Refusal :=
  match s.agenda with
  | t :: r => turn t { s with agenda := r, turns := s.turns + 1 }
  | [] => turn (Config.freeTurn s.turns) { s with turns := s.turns + 1 }

/-- A state whose next step runs the instruction of `nbits` bits. -/
def State.withFetchWord (s : State) (nbits w : Nat) : State :=
  if nbits ≤ 32 then s.placeWord (BitVec.ofNat 32 w) else s.placeSeqWord (BitVec.ofNat 64 w)

end Sys2Proof.Machine
end

