-- ==== Sys2Proof/Laws/Exec.lean ====
section
/-! SUPPORT. What `exec` calls for each instruction, and what `issue` and the shared operations of a word answer: the lemmas
that proofs about meanings cite instead of unfolding `exec`. -/

namespace Sys2Proof.Machine

open Sys2Proof

/-- A word that is legal here and touches no late result has its own effect. -/
theorem issue_ready {i : Instr} {s k : State} (hl : legal i s.me = true) (hh : hazard i s.me = false) :
    issue i s k = .next k := by simp [issue, hl, hh]

/-- A word that is not legal here raises ILLOP. -/
theorem issue_illegal {i : Instr} {s k : State} (hl : legal i s.me = false) : issue i s k = .next (s.raise .illop) := by
  simp [issue, hl]

/-- A word that touches a late result stalls. -/
theorem issue_hazard {i : Instr} {s k : State} (hl : legal i s.me = true) (hh : hazard i s.me = true) :
    issue i s k = .next (s.stall .land) := by simp [issue, hl, hh]

/-- Whatever a word meets, it answers a next state. -/
theorem issue_next (i : Instr) (s k : State) : ∃ t, issue i s k = .next t := ⟨_, rfl⟩

/-- Sources none of which is poisoned. -/
theorem unpoisoned_clear {s : State} {l : List SReg} {k : State} (h : firstPoison l = none) : s.unpoisoned l k = k := by
  simp [State.unpoisoned, h]

/-- The first poisoned source fires. -/
theorem unpoisoned_fires {s : State} {l : List SReg} {k : State} {r : SReg} (h : firstPoison l = some r) :
    s.unpoisoned l k = s.poison r.val := by simp [State.unpoisoned, h]

/-- A scalar result from clear sources. -/
theorem scalar_clear {s : State} {l : Nat} {sp : Bool} {ps : List SReg} {d : Reg} {v : W64} (h : firstPoison ps = none) :
    s.scalar l sp ps d v = s.done fun c => c.push l (.sreg d v false 0) := by simp [State.scalar, h]

/-- A scalar result under `.s` from a poisoned source. -/
theorem scalar_passes {s : State} {l : Nat} {ps : List SReg} {d : Reg} {v : W64} {p : SReg} (h : firstPoison ps = some p) :
    s.scalar l true ps d v = s.done fun c => c.push l (.sreg d p.val true 0) := by simp [State.scalar, h]

/-- A scalar operation without `.s` fires on a poisoned source. -/
theorem scalar_fires {s : State} {l : Nat} {ps : List SReg} {d : Reg} {v : W64} {p : SReg} (h : firstPoison ps = some p) :
    s.scalar l false ps d v = s.poison p.val := by simp [State.scalar, h]

@[simp] theorem exec_add (d : Reg) (a : Reg) (b : Reg) (w : Bool) (sp : Bool) (s : State) :
    exec (.add d a b w sp) s = execAdd d a b w sp s := rfl
@[simp] theorem exec_sub (d : Reg) (a : Reg) (b : Reg) (w : Bool) (sp : Bool) (s : State) :
    exec (.sub d a b w sp) s = execSub d a b w sp s := rfl
@[simp] theorem exec_mul (d : Reg) (a : Reg) (b : Reg) (w : Bool) (sp : Bool) (s : State) :
    exec (.mul d a b w sp) s = execMul d a b w sp s := rfl
@[simp] theorem exec_mulh (d : Reg) (a : Reg) (b : Reg) (w : Bool) (sp : Bool) (s : State) :
    exec (.mulh d a b w sp) s = execMulh d a b w sp s := rfl
@[simp] theorem exec_mulhn (d : Reg) (a : Reg) (b : Reg) (w : Bool) (sp : Bool) (s : State) :
    exec (.mulhn d a b w sp) s = execMulhn d a b w sp s := rfl
@[simp] theorem exec_div (d : Reg) (a : Reg) (b : Reg) (w : Bool) (sp : Bool) (s : State) :
    exec (.div d a b w sp) s = execDiv d a b w sp s := rfl
@[simp] theorem exec_divn (d : Reg) (a : Reg) (b : Reg) (w : Bool) (sp : Bool) (s : State) :
    exec (.divn d a b w sp) s = execDivn d a b w sp s := rfl
@[simp] theorem exec_rem (d : Reg) (a : Reg) (b : Reg) (w : Bool) (sp : Bool) (s : State) :
    exec (.rem d a b w sp) s = execRem d a b w sp s := rfl
@[simp] theorem exec_remn (d : Reg) (a : Reg) (b : Reg) (w : Bool) (sp : Bool) (s : State) :
    exec (.remn d a b w sp) s = execRemn d a b w sp s := rfl
@[simp] theorem exec_and (d : Reg) (a : Reg) (b : Reg) (w : Bool) (sp : Bool) (s : State) :
    exec (.and d a b w sp) s = execAnd d a b w sp s := rfl
@[simp] theorem exec_or (d : Reg) (a : Reg) (b : Reg) (w : Bool) (sp : Bool) (s : State) :
    exec (.or d a b w sp) s = execOr d a b w sp s := rfl
@[simp] theorem exec_xor (d : Reg) (a : Reg) (b : Reg) (w : Bool) (sp : Bool) (s : State) :
    exec (.xor d a b w sp) s = execXor d a b w sp s := rfl
@[simp] theorem exec_andn (d : Reg) (a : Reg) (b : Reg) (w : Bool) (sp : Bool) (s : State) :
    exec (.andn d a b w sp) s = execAndn d a b w sp s := rfl
@[simp] theorem exec_orn (d : Reg) (a : Reg) (b : Reg) (w : Bool) (sp : Bool) (s : State) :
    exec (.orn d a b w sp) s = execOrn d a b w sp s := rfl
@[simp] theorem exec_shl (d : Reg) (a : Reg) (b : Reg) (w : Bool) (sp : Bool) (s : State) :
    exec (.shl d a b w sp) s = execShl d a b w sp s := rfl
@[simp] theorem exec_shr (d : Reg) (a : Reg) (b : Reg) (w : Bool) (sp : Bool) (s : State) :
    exec (.shr d a b w sp) s = execShr d a b w sp s := rfl
@[simp] theorem exec_sar (d : Reg) (a : Reg) (b : Reg) (w : Bool) (sp : Bool) (s : State) :
    exec (.sar d a b w sp) s = execSar d a b w sp s := rfl
@[simp] theorem exec_rol (d : Reg) (a : Reg) (b : Reg) (w : Bool) (sp : Bool) (s : State) :
    exec (.rol d a b w sp) s = execRol d a b w sp s := rfl
@[simp] theorem exec_ror (d : Reg) (a : Reg) (b : Reg) (w : Bool) (sp : Bool) (s : State) :
    exec (.ror d a b w sp) s = execRor d a b w sp s := rfl
@[simp] theorem exec_min (d : Reg) (a : Reg) (b : Reg) (w : Bool) (sp : Bool) (s : State) :
    exec (.min d a b w sp) s = execMin d a b w sp s := rfl
@[simp] theorem exec_max (d : Reg) (a : Reg) (b : Reg) (w : Bool) (sp : Bool) (s : State) :
    exec (.max d a b w sp) s = execMax d a b w sp s := rfl
@[simp] theorem exec_minn (d : Reg) (a : Reg) (b : Reg) (w : Bool) (sp : Bool) (s : State) :
    exec (.minn d a b w sp) s = execMinn d a b w sp s := rfl
@[simp] theorem exec_maxn (d : Reg) (a : Reg) (b : Reg) (w : Bool) (sp : Bool) (s : State) :
    exec (.maxn d a b w sp) s = execMaxn d a b w sp s := rfl
@[simp] theorem exec_clz (d : Reg) (a : Reg) (w : Bool) (sp : Bool) (s : State) :
    exec (.clz d a w sp) s = execClz d a w sp s := rfl
@[simp] theorem exec_ctz (d : Reg) (a : Reg) (w : Bool) (sp : Bool) (s : State) :
    exec (.ctz d a w sp) s = execCtz d a w sp s := rfl
@[simp] theorem exec_popc (d : Reg) (a : Reg) (w : Bool) (sp : Bool) (s : State) :
    exec (.popc d a w sp) s = execPopc d a w sp s := rfl
@[simp] theorem exec_bfx (d : Reg) (a : Reg) (b : Reg) (w : Bool) (sp : Bool) (s : State) :
    exec (.bfx d a b w sp) s = execBfx d a b w sp s := rfl
@[simp] theorem exec_bfxn (d : Reg) (a : Reg) (b : Reg) (w : Bool) (sp : Bool) (s : State) :
    exec (.bfxn d a b w sp) s = execBfxn d a b w sp s := rfl
@[simp] theorem exec_bfi (d : Reg) (a : Reg) (b : Reg) (w : Bool) (sp : Bool) (s : State) :
    exec (.bfi d a b w sp) s = execBfi d a b w sp s := rfl
@[simp] theorem exec_csel (d : Reg) (a : Reg) (b : Reg) (g : GIdx) (s : State) :
    exec (.csel d a b g) s = execCsel d a b g s := rfl
@[simp] theorem exec_addi (sp : Bool) (d : Reg) (a : Reg) (imm : BitVec 12) (s : State) :
    exec (.addi sp d a imm) s = execAddi sp d a imm s := rfl
@[simp] theorem exec_andi (sp : Bool) (d : Reg) (a : Reg) (imm : BitVec 12) (s : State) :
    exec (.andi sp d a imm) s = execAndi sp d a imm s := rfl
@[simp] theorem exec_ori (sp : Bool) (d : Reg) (a : Reg) (imm : BitVec 12) (s : State) :
    exec (.ori sp d a imm) s = execOri sp d a imm s := rfl
@[simp] theorem exec_xori (sp : Bool) (d : Reg) (a : Reg) (imm : BitVec 12) (s : State) :
    exec (.xori sp d a imm) s = execXori sp d a imm s := rfl
@[simp] theorem exec_shli (sp : Bool) (d : Reg) (a : Reg) (n : BitVec 6) (s : State) :
    exec (.shli sp d a n) s = execShli sp d a n s := rfl
@[simp] theorem exec_shri (sp : Bool) (d : Reg) (a : Reg) (n : BitVec 6) (s : State) :
    exec (.shri sp d a n) s = execShri sp d a n s := rfl
@[simp] theorem exec_sari (sp : Bool) (d : Reg) (a : Reg) (n : BitVec 6) (s : State) :
    exec (.sari sp d a n) s = execSari sp d a n s := rfl
@[simp] theorem exec_muli (sp : Bool) (d : Reg) (a : Reg) (imm : BitVec 12) (s : State) :
    exec (.muli sp d a imm) s = execMuli sp d a imm s := rfl
@[simp] theorem exec_lui (d : Reg) (imm : BitVec 20) (s : State) :
    exec (.lui d imm) s = execLui d imm s := rfl
@[simp] theorem exec_aup (d : Reg) (imm : BitVec 20) (s : State) :
    exec (.aup d imm) s = execAup d imm s := rfl
@[simp] theorem exec_cmp (g : GIdx) (a : Reg) (b : Reg) (cond : Cond) (w : Bool) (s : State) :
    exec (.cmp g a b cond w) s = execCmp g a b cond w s := rfl
@[simp] theorem exec_cmpi (g : GIdx) (imm : BitVec 9) (cond : Cond) (a : Reg) (s : State) :
    exec (.cmpi g imm cond a) s = execCmpi g imm cond a s := rfl
@[simp] theorem exec_tst (g : GIdx) (a : Reg) (b : Reg) (z : Bool) (w : Bool) (s : State) :
    exec (.tst g a b z w) s = execTst g a b z w s := rfl
@[simp] theorem exec_gand (g : GIdx) (ga : GIdx) (gb : GIdx) (s : State) :
    exec (.gand g ga gb) s = execGand g ga gb s := rfl
@[simp] theorem exec_gor (g : GIdx) (ga : GIdx) (gb : GIdx) (s : State) :
    exec (.gor g ga gb) s = execGor g ga gb s := rfl
@[simp] theorem exec_gxor (g : GIdx) (ga : GIdx) (gb : GIdx) (s : State) :
    exec (.gxor g ga gb) s = execGxor g ga gb s := rfl
@[simp] theorem exec_gnot (g : GIdx) (ga : GIdx) (s : State) :
    exec (.gnot g ga) s = execGnot g ga s := rfl
@[simp] theorem exec_ptst (g : GIdx) (a : Reg) (s : State) :
    exec (.ptst g a) s = execPtst g a s := rfl
@[simp] theorem exec_prep (g : GIdx) (tgt : BitVec 15) (s : State) :
    exec (.prep g tgt) s = execPrep g tgt s := rfl
@[simp] theorem exec_prepr (g : GIdx) (a : Reg) (s : State) :
    exec (.prepr g a) s = execPrepr g a s := rfl
@[simp] theorem exec_br (g : GIdx) (s : State) :
    exec (.br g) s = execBr g s := rfl
@[simp] theorem exec_brA (g : GIdx) (s : State) :
    exec (.brA g) s = execBrA g s := rfl
@[simp] theorem exec_brf (g : GIdx) (s : State) :
    exec (.brf g) s = execBrf g s := rfl
@[simp] theorem exec_brl (g : GIdx) (s : State) :
    exec (.brl g) s = execBrl g s := rfl
@[simp] theorem exec_loop (a : Reg) (gr : Bool) (epk : BitVec 8) (esl : BitVec 2) (s : State) :
    exec (.loop a gr epk esl) s = execLoop a gr epk esl s := rfl
@[simp] theorem exec_loopi (cnt : BitVec 7) (gr : Bool) (epk : BitVec 8) (esl : BitVec 2) (s : State) :
    exec (.loopi cnt gr epk esl) s = execLoopi cnt gr epk esl s := rfl
@[simp] theorem exec_lbrk (g : GIdx) (n : BitVec 3) (s : State) :
    exec (.lbrk g n) s = execLbrk g n s := rfl
@[simp] theorem exec_sync (scope : Scope) (s : State) :
    exec (.sync scope) s = execSync scope s := rfl
@[simp] theorem exec_frame (s : State) :
    exec .frame s = execFrame s := rfl
@[simp] theorem exec_waitt (a : Reg) (b : Reg) (s : State) :
    exec (.waitt a b) s = execWaitt a b s := rfl
@[simp] theorem exec_nop (s : State) :
    exec .nop s = execNop s := rfl
@[simp] theorem exec_halt (s : State) :
    exec .halt s = execHalt s := rfl
@[simp] theorem exec_vadd (d : Reg) (a : Reg) (b : Reg) (ty : VTy) (sp : Bool) (md : BitVec 2) (s : State) :
    exec (.vadd d a b ty sp md) s = execVadd d a b ty sp md s := rfl
@[simp] theorem exec_vsub (d : Reg) (a : Reg) (b : Reg) (ty : VTy) (sp : Bool) (md : BitVec 2) (s : State) :
    exec (.vsub d a b ty sp md) s = execVsub d a b ty sp md s := rfl
@[simp] theorem exec_vmul (d : Reg) (a : Reg) (b : Reg) (ty : VTy) (sp : Bool) (md : BitVec 2) (s : State) :
    exec (.vmul d a b ty sp md) s = execVmul d a b ty sp md s := rfl
@[simp] theorem exec_vmulh (d : Reg) (a : Reg) (b : Reg) (ty : VTy) (sp : Bool) (s : State) :
    exec (.vmulh d a b ty sp) s = execVmulh d a b ty sp s := rfl
@[simp] theorem exec_vfma (d : Reg) (a : Reg) (b : Reg) (ty : VTy) (sp : Bool) (md : BitVec 2) (s : State) :
    exec (.vfma d a b ty sp md) s = execVfma d a b ty sp md s := rfl
@[simp] theorem exec_vfms (d : Reg) (a : Reg) (b : Reg) (ty : VTy) (sp : Bool) (md : BitVec 2) (s : State) :
    exec (.vfms d a b ty sp md) s = execVfms d a b ty sp md s := rfl
@[simp] theorem exec_vfnma (d : Reg) (a : Reg) (b : Reg) (ty : VTy) (sp : Bool) (md : BitVec 2) (s : State) :
    exec (.vfnma d a b ty sp md) s = execVfnma d a b ty sp md s := rfl
@[simp] theorem exec_vmin (d : Reg) (a : Reg) (b : Reg) (ty : VTy) (sp : Bool) (s : State) :
    exec (.vmin d a b ty sp) s = execVmin d a b ty sp s := rfl
@[simp] theorem exec_vmax (d : Reg) (a : Reg) (b : Reg) (ty : VTy) (sp : Bool) (s : State) :
    exec (.vmax d a b ty sp) s = execVmax d a b ty sp s := rfl
@[simp] theorem exec_vabs (d : Reg) (a : Reg) (ty : VTy) (sp : Bool) (md : BitVec 2) (s : State) :
    exec (.vabs d a ty sp md) s = execVabs d a ty sp md s := rfl
@[simp] theorem exec_vneg (d : Reg) (a : Reg) (ty : VTy) (sp : Bool) (md : BitVec 2) (s : State) :
    exec (.vneg d a ty sp md) s = execVneg d a ty sp md s := rfl
@[simp] theorem exec_vand (d : Reg) (a : Reg) (b : Reg) (sp : Bool) (s : State) :
    exec (.vand d a b sp) s = execVand d a b sp s := rfl
@[simp] theorem exec_vor (d : Reg) (a : Reg) (b : Reg) (sp : Bool) (s : State) :
    exec (.vor d a b sp) s = execVor d a b sp s := rfl
@[simp] theorem exec_vxor (d : Reg) (a : Reg) (b : Reg) (sp : Bool) (s : State) :
    exec (.vxor d a b sp) s = execVxor d a b sp s := rfl
@[simp] theorem exec_vandn (d : Reg) (a : Reg) (b : Reg) (sp : Bool) (s : State) :
    exec (.vandn d a b sp) s = execVandn d a b sp s := rfl
@[simp] theorem exec_vshl (d : Reg) (a : Reg) (b : Reg) (ty : VTy) (sp : Bool) (md : Bool) (s : State) :
    exec (.vshl d a b ty sp md) s = execVshl d a b ty sp md s := rfl
@[simp] theorem exec_vshr (d : Reg) (a : Reg) (b : Reg) (ty : VTy) (sp : Bool) (md : Bool) (s : State) :
    exec (.vshr d a b ty sp md) s = execVshr d a b ty sp md s := rfl
@[simp] theorem exec_vsar (d : Reg) (a : Reg) (b : Reg) (ty : VTy) (sp : Bool) (md : Bool) (s : State) :
    exec (.vsar d a b ty sp md) s = execVsar d a b ty sp md s := rfl
@[simp] theorem exec_vcmp (d : Reg) (a : Reg) (b : Reg) (ty : VTy) (sp : Bool) (cond : VCond) (s : State) :
    exec (.vcmp d a b ty sp cond) s = execVcmp d a b ty sp cond s := rfl
@[simp] theorem exec_vbc (d : Reg) (a : Reg) (b : Reg) (ty : VTy) (sp : Bool) (md : Bool) (s : State) :
    exec (.vbc d a b ty sp md) s = execVbc d a b ty sp md s := rfl
@[simp] theorem exec_vxt (d : Reg) (a : Reg) (b : Reg) (ty : VTy) (sp : Bool) (md : Bool) (s : State) :
    exec (.vxt d a b ty sp md) s = execVxt d a b ty sp md s := rfl
@[simp] theorem exec_vlid (d : Reg) (ty : VTy) (sp : Bool) (s : State) :
    exec (.vlid d ty sp) s = execVlid d ty sp s := rfl
@[simp] theorem exec_vrot (d : Reg) (a : Reg) (b : Reg) (ty : VTy) (sp : Bool) (md : Bool) (s : State) :
    exec (.vrot d a b ty sp md) s = execVrot d a b ty sp md s := rfl
@[simp] theorem exec_vperm (d : Reg) (a : Reg) (b : Reg) (ty : VTy) (sp : Bool) (s : State) :
    exec (.vperm d a b ty sp) s = execVperm d a b ty sp s := rfl
@[simp] theorem exec_vrsum (d : Reg) (a : Reg) (ty : VTy) (sp : Bool) (md : BitVec 2) (s : State) :
    exec (.vrsum d a ty sp md) s = execVrsum d a ty sp md s := rfl
@[simp] theorem exec_vrmax (d : Reg) (a : Reg) (ty : VTy) (sp : Bool) (s : State) :
    exec (.vrmax d a ty sp) s = execVrmax d a ty sp s := rfl
@[simp] theorem exec_vrmin (d : Reg) (a : Reg) (ty : VTy) (sp : Bool) (s : State) :
    exec (.vrmin d a ty sp) s = execVrmin d a ty sp s := rfl
@[simp] theorem exec_vrcp (d : Reg) (a : Reg) (ty : VTy) (sp : Bool) (s : State) :
    exec (.vrcp d a ty sp) s = execVrcp d a ty sp s := rfl
@[simp] theorem exec_vrsq (d : Reg) (a : Reg) (ty : VTy) (sp : Bool) (s : State) :
    exec (.vrsq d a ty sp) s = execVrsq d a ty sp s := rfl
@[simp] theorem exec_vex2 (d : Reg) (a : Reg) (ty : VTy) (sp : Bool) (s : State) :
    exec (.vex2 d a ty sp) s = execVex2 d a ty sp s := rfl
@[simp] theorem exec_vlg2 (d : Reg) (a : Reg) (ty : VTy) (sp : Bool) (s : State) :
    exec (.vlg2 d a ty sp) s = execVlg2 d a ty sp s := rfl
@[simp] theorem exec_vdot4 (d : Reg) (a : Reg) (b : Reg) (ty : VTy) (sp : Bool) (md : BitVec 2) (s : State) :
    exec (.vdot4 d a b ty sp md) s = execVdot4 d a b ty sp md s := rfl
@[simp] theorem exec_vpopc (d : Reg) (a : Reg) (ty : VTy) (sp : Bool) (s : State) :
    exec (.vpopc d a ty sp) s = execVpopc d a ty sp s := rfl
@[simp] theorem exec_vclz (d : Reg) (a : Reg) (ty : VTy) (sp : Bool) (s : State) :
    exec (.vclz d a ty sp) s = execVclz d a ty sp s := rfl
@[simp] theorem exec_vtacc (d : Reg) (a : Reg) (b : Reg) (ty : VTy) (sp : Bool) (s : State) :
    exec (.vtacc d a b ty sp) s = execVtacc d a b ty sp s := rfl
@[simp] theorem exec_vsel (d : Reg) (a : Reg) (b : Reg) (vc : Reg) (s : State) :
    exec (.vsel d a b vc) s = execVsel d a b vc s := rfl
@[simp] theorem exec_vselB (d : Reg) (a : Reg) (b : Reg) (vc : Reg) (s : State) :
    exec (.vselB d a b vc) s = execVselB d a b vc s := rfl
@[simp] theorem exec_vcvt (d : Reg) (a : Reg) (src : Reg) (cf : BitVec 5) (sp : Bool) (md : Bool) (s : State) :
    exec (.vcvt d a src cf sp md) s = execVcvt d a src cf sp md s := rfl
@[simp] theorem exec_vbq (d : Reg) (a : Reg) (b : Reg) (fmt : BitVec 5) (sp : Bool) (md : Bool) (s : State) :
    exec (.vbq d a b fmt sp md) s = execVbq d a b fmt sp md s := rfl
@[simp] theorem exec_vbdq (d : Reg) (a : Reg) (fmt : BitVec 5) (sp : Bool) (md : Bool) (s : State) :
    exec (.vbdq d a fmt sp md) s = execVbdq d a fmt sp md s := rfl
@[simp] theorem exec_vbscl (d : Reg) (a : Reg) (b : Reg) (fmt : BitVec 5) (sp : Bool) (md : Bool) (s : State) :
    exec (.vbscl d a b fmt sp md) s = execVbscl d a b fmt sp md s := rfl
@[simp] theorem exec_vtunp (d : Reg) (a : Reg) (n : BitVec 5) (sp : Bool) (s : State) :
    exec (.vtunp d a n sp) s = execVtunp d a n sp s := rfl
@[simp] theorem exec_vpak (d : Reg) (a : Reg) (b : Reg) (wc : BitVec 5) (sp : Bool) (s : State) :
    exec (.vpak d a b wc sp) s = execVpak d a b wc sp s := rfl
@[simp] theorem exec_vupk (d : Reg) (a : Reg) (h : BitVec 5) (wc : BitVec 5) (sp : Bool) (md : Bool) (s : State) :
    exec (.vupk d a h wc sp md) s = execVupk d a h wc sp md s := rfl
@[simp] theorem exec_vrng (d : Reg) (a : Reg) (b : Reg) (sp : Bool) (md : Bool) (s : State) :
    exec (.vrng d a b sp md) s = execVrng d a b sp md s := rfl
@[simp] theorem exec_vptst (d : Reg) (a : Reg) (s : State) :
    exec (.vptst d a) s = execVptst d a s := rfl
@[simp] theorem exec_ld (space : Space) (r : Reg) (b : Reg) (size : Size) (off : BitVec 10) (s : State) :
    exec (.ld space r b size off) s = execLd space r b size off s := rfl
@[simp] theorem exec_st (space : Space) (r : Reg) (b : Reg) (size : Size) (off : BitVec 10) (s : State) :
    exec (.st space r b size off) s = execSt space r b size off s := rfl
@[simp] theorem exec_vld (space : Space) (r : Reg) (b : Reg) (size : Size) (off : BitVec 10) (s : State) :
    exec (.vld space r b size off) s = execVld space r b size off s := rfl
@[simp] theorem exec_vst (space : Space) (r : Reg) (b : Reg) (size : Size) (off : BitVec 10) (s : State) :
    exec (.vst space r b size off) s = execVst space r b size off s := rfl
@[simp] theorem exec_vgat (space : Space) (r : Reg) (b : Reg) (size : Size) (vi : Reg) (sp : Bool) (s : State) :
    exec (.vgat space r b size vi sp) s = execVgat space r b size vi sp s := rfl
@[simp] theorem exec_vsct (space : Space) (r : Reg) (b : Reg) (size : Size) (vi : Reg) (s : State) :
    exec (.vsct space r b size vi) s = execVsct space r b size vi s := rfl
@[simp] theorem exec_vldb (space : Space) (r : Reg) (b : Reg) (size : Size) (off : BitVec 10) (s : State) :
    exec (.vldb space r b size off) s = execVldb space r b size off s := rfl
@[simp] theorem exec_cbdef (a : Reg) (b : Reg) (c : Reg) (inC : Bool) (n : BitVec 4) (s : State) :
    exec (.cbdef a b c inC n) s = execCbdef a b c inC n s := rfl
@[simp] theorem exec_cbadvP (a : Reg) (n : BitVec 4) (s : State) :
    exec (.cbadvP a n) s = execCbadvP a n s := rfl
@[simp] theorem exec_cbadvC (a : Reg) (n : BitVec 4) (s : State) :
    exec (.cbadvC a n) s = execCbadvC a n s := rfl
@[simp] theorem exec_cbadvPW (a : Reg) (n : BitVec 4) (s : State) :
    exec (.cbadvPW a n) s = execCbadvPW a n s := rfl
@[simp] theorem exec_cbadvCW (a : Reg) (n : BitVec 4) (s : State) :
    exec (.cbadvCW a n) s = execCbadvCW a n s := rfl
@[simp] theorem exec_cp (a : Reg) (b : Reg) (c : Reg) (t : BitVec 6) (s : State) :
    exec (.cp a b c t) s = execCp a b c t s := rfl
@[simp] theorem exec_cpg (a : Reg) (b : Reg) (c : Reg) (t : BitVec 6) (s : State) :
    exec (.cpg a b c t) s = execCpg a b c t s := rfl
@[simp] theorem exec_cpm (a : Reg) (b : Reg) (c : Reg) (t : BitVec 6) (s : State) :
    exec (.cpm a b c t) s = execCpm a b c t s := rfl
@[simp] theorem exec_mlds (a : Reg) (b : Reg) (c : Reg) (s : State) :
    exec (.mlds a b c) s = execMlds a b c s := rfl
@[simp] theorem exec_mswap (s : State) :
    exec .mswap s = execMswap s := rfl
@[simp] theorem exec_mmul (a : Reg) (b : Reg) (c : Reg) (cbf : Bool) (n : BitVec 4) (s : State) :
    exec (.mmul a b c cbf n) s = execMmul a b c cbf n s := rfl
@[simp] theorem exec_mmulc (a : Reg) (b : Reg) (c : Reg) (cbf : Bool) (n : BitVec 4) (s : State) :
    exec (.mmulc a b c cbf n) s = execMmulc a b c cbf n s := rfl
@[simp] theorem exec_mclr (a : Reg) (b : Reg) (s : State) :
    exec (.mclr a b) s = execMclr a b s := rfl
@[simp] theorem exec_snd (a : Reg) (b : Reg) (c : Reg) (s : State) :
    exec (.snd a b c) s = execSnd a b c s := rfl
@[simp] theorem exec_rcv (a : Reg) (b : Reg) (sig : BitVec 6) (s : State) :
    exec (.rcv a b sig) s = execRcv a b sig s := rfl
@[simp] theorem exec_msq (a : Reg) (s : State) :
    exec (.msq a) s = execMsq a s := rfl
@[simp] theorem exec_ldg (d : Reg) (a : Reg) (sp : Bool) (win : BitVec 3) (cls : BitVec 3) (s : State) :
    exec (.ldg d a sp win cls) s = execLdg d a sp win cls s := rfl
@[simp] theorem exec_stg (d : Reg) (a : Reg) (size : Size) (win : BitVec 3) (s : State) :
    exec (.stg d a size win) s = execStg d a size win s := rfl
@[simp] theorem exec_vldg (d : Reg) (a : Reg) (sp : Bool) (win : BitVec 3) (cls : BitVec 3) (s : State) :
    exec (.vldg d a sp win cls) s = execVldg d a sp win cls s := rfl
@[simp] theorem exec_vstg (d : Reg) (a : Reg) (win : BitVec 3) (s : State) :
    exec (.vstg d a win) s = execVstg d a win s := rfl
@[simp] theorem exec_amo (d : Reg) (a : Reg) (w4 : Bool) (win : BitVec 3) (scope : Scope) (op : AmoOp) (s : State) :
    exec (.amo d a w4 win scope op) s = execAmo d a w4 win scope op s := rfl
@[simp] theorem exec_red (d : Reg) (a : Reg) (w4 : Bool) (win : BitVec 3) (scope : Scope) (op : AmoOp) (s : State) :
    exec (.red d a w4 win scope op) s = execRed d a w4 win scope op s := rfl
@[simp] theorem exec_lqpop (d : Reg) (s : State) :
    exec (.lqpop d) s = execLqpop d s := rfl
@[simp] theorem exec_tagw (t : BitVec 6) (s : State) :
    exec (.tagw t) s = execTagw t s := rfl
@[simp] theorem exec_tagwa (a : Reg) (s : State) :
    exec (.tagwa a) s = execTagwa a s := rfl
@[simp] theorem exec_tagff (t : BitVec 6) (s : State) :
    exec (.tagff t) s = execTagff t s := rfl
@[simp] theorem exec_tagclr (t : BitVec 6) (s : State) :
    exec (.tagclr t) s = execTagclr t s := rfl
@[simp] theorem exec_fenceAcq (scope : Scope) (s : State) :
    exec (.fenceAcq scope) s = execFenceAcq scope s := rfl
@[simp] theorem exec_fenceRel (scope : Scope) (s : State) :
    exec (.fenceRel scope) s = execFenceRel scope s := rfl
@[simp] theorem exec_fenceSc (scope : Scope) (s : State) :
    exec (.fenceSc scope) s = execFenceSc scope s := rfl
@[simp] theorem exec_drain (scope : Scope) (s : State) :
    exec (.drain scope) s = execDrain scope s := rfl
@[simp] theorem exec_trig (s : State) :
    exec .trig s = execTrig s := rfl
@[simp] theorem exec_coll (a : Reg) (s : State) :
    exec (.coll a) s = execColl a s := rfl
@[simp] theorem exec_rdsr (d : Reg) (n : BitVec 16) (s : State) :
    exec (.rdsr d n) s = execRdsr d n s := rfl
@[simp] theorem exec_wrsr (a : Reg) (n : BitVec 16) (s : State) :
    exec (.wrsr a n) s = execWrsr a n s := rfl
@[simp] theorem exec_trap (k : BitVec 8) (s : State) :
    exec (.trap k) s = execTrap k s := rfl
@[simp] theorem exec_tret (s : State) :
    exec .tret s = execTret s := rfl
@[simp] theorem exec_stop (k : BitVec 16) (s : State) :
    exec (.stop k) s = execStop k s := rfl
@[simp] theorem exec_swap (s : State) :
    exec .swap s = execSwap s := rfl
@[simp] theorem exec_swapSteward (a : Reg) (s : State) :
    exec (.swapSteward a) s = execSwapSteward a s := rfl
@[simp] theorem exec_ckpt (t : BitVec 6) (s : State) :
    exec (.ckpt t) s = execCkpt t s := rfl
@[simp] theorem exec_lsv (b : Reg) (off : BitVec 16) (s : State) :
    exec (.lsv b off) s = execLsv b off s := rfl
@[simp] theorem exec_lrs (b : Reg) (off : BitVec 16) (s : State) :
    exec (.lrs b off) s = execLrs b off s := rfl
@[simp] theorem exec_stampAt (sig : BitVec 26) (s : State) :
    exec (.stampAt sig) s = execStampAt sig s := rfl
@[simp] theorem exec_stampHold (sig : BitVec 26) (s : State) :
    exec (.stampHold sig) s = execStampHold sig s := rfl
@[simp] theorem exec_xt (e : BitVec 27) (s : State) :
    exec (.xt e) s = execXt e s := rfl
@[simp] theorem exec_xrd (areg : BitVec 4) (space : BitVec 2) (layout : BitVec 2) (tag : BitVec 6) (len : BitVec 16) (boff : BitVec 15) (sel : BitVec 3) (s : State) :
    exec (.xrd areg space layout tag len boff sel) s = execXrd areg space layout tag len boff sel s := rfl
@[simp] theorem exec_xwr (areg : BitVec 4) (space : BitVec 2) (tag : BitVec 6) (len : BitVec 16) (boff : BitVec 15) (sel : BitVec 5) (s : State) :
    exec (.xwr areg space tag len boff sel) s = execXwr areg space tag len boff sel s := rfl
@[simp] theorem exec_xset (kind : BitVec 2) (idx : BitVec 4) (value : BitVec 54) (s : State) :
    exec (.xset kind idx value) s = execXset kind idx value s := rfl
@[simp] theorem exec_xlp (count : BitVec 16) (back : BitVec 12) (areg : BitVec 4) (sreg : BitVec 4) (level : BitVec 2) (s : State) :
    exec (.xlp count back areg sreg level) s = execXlp count back areg sreg level s := rfl
@[simp] theorem exec_xwt (tile : BitVec 5) (tag : BitVec 6) (s : State) :
    exec (.xwt tile tag) s = execXwt tile tag s := rfl
@[simp] theorem exec_xsg (tile : BitVec 5) (tag : BitVec 6) (s : State) :
    exec (.xsg tile tag) s = execXsg tile tag s := rfl
@[simp] theorem exec_xend (s : State) :
    exec .xend s = execXend s := rfl
@[simp] theorem exec_hold (s : State) :
    exec .hold s = execHold s := rfl
@[simp] theorem exec_resultPerforms (s : State) :
    exec .resultPerforms s = execResultPerforms s := rfl
@[simp] theorem exec_variableLatencyReply (core : Nat) (id : Nat) (s : State) :
    exec (.variableLatencyReply core id) s = execVariableLatencyReply core id s := rfl
@[simp] theorem exec_elasticStall (cause : StallCause) (s : State) :
    exec (.elasticStall cause) s = execElasticStall cause s := rfl
@[simp] theorem exec_haltLine (core : Nat) (s : State) :
    exec (.haltLine core) s = execHaltLine core s := rfl
@[simp] theorem exec_stopRecord (core : Nat) (s : State) :
    exec (.stopRecord core) s = execStopRecord core s := rfl
@[simp] theorem exec_syncPost (core : Nat) (s : State) :
    exec (.syncPost core) s = execSyncPost core s := rfl
@[simp] theorem exec_barrierRelease (core : Nat) (s : State) :
    exec (.barrierRelease core) s = execBarrierRelease core s := rfl
@[simp] theorem exec_legEvaluation (part : BitVec 6) (s : State) :
    exec (.legEvaluation part) s = execLegEvaluation part s := rfl
@[simp] theorem exec_run (part : BitVec 6) (s : State) :
    exec (.run part) s = execRun part s := rfl
@[simp] theorem exec_done (part : BitVec 6) (s : State) :
    exec (.done part) s = execDone part s := rfl
@[simp] theorem exec_traverseMessage (part : BitVec 6) (fwd : Bool) (far : Option FarItem) (s : State) :
    exec (.traverseMessage part fwd far) s = execTraverseMessage part fwd far s := rfl
@[simp] theorem exec_slotReturn (part : BitVec 6) (down : Bool) (far : Option FarItem) (s : State) :
    exec (.slotReturn part down far) s = execSlotReturn part down far s := rfl
@[simp] theorem exec_triggerPost (core : Nat) (s : State) :
    exec (.triggerPost core) s = execTriggerPost core s := rfl
@[simp] theorem exec_planeFlip (part : BitVec 6) (s : State) :
    exec (.planeFlip part) s = execPlaneFlip part s := rfl
@[simp] theorem exec_copyComplete (core : Nat) (s : State) :
    exec (.copyComplete core) s = execCopyComplete core s := rfl
@[simp] theorem exec_streamFire (core : Nat) (s : State) :
    exec (.streamFire core) s = execStreamFire core s := rfl
@[simp] theorem exec_planeReady (core : Nat) (s : State) :
    exec (.planeReady core) s = execPlaneReady core s := rfl
@[simp] theorem exec_axUpdate (core : Nat) (s : State) :
    exec (.axUpdate core) s = execAxUpdate core s := rfl
@[simp] theorem exec_msqTransferComplete (die : BitVec 3) (id : Nat) (s : State) :
    exec (.msqTransferComplete die id) s = execMsqTransferComplete die id s := rfl
@[simp] theorem exec_collComplete (core : Nat) (id : Nat) (s : State) :
    exec (.collComplete core id) s = execCollComplete core id s := rfl
@[simp] theorem exec_ckptComplete (core : Nat) (s : State) :
    exec (.ckptComplete core) s = execCkptComplete core s := rfl
@[simp] theorem exec_messageArrival (m : Arrival) (s : State) :
    exec (.messageArrival m) s = execMessageArrival m s := rfl
@[simp] theorem exec_atomicOperation (core : Nat) (id : Nat) (s : State) :
    exec (.atomicOperation core id) s = execAtomicOperation core id s := rfl
@[simp] theorem exec_reductionContribution (core : Nat) (id : Nat) (s : State) :
    exec (.reductionContribution core id) s = execReductionContribution core id s := rfl
@[simp] theorem exec_pageWalk (core : Nat) (s : State) :
    exec (.pageWalk core) s = execPageWalk core s := rfl
@[simp] theorem exec_invalidation (ctx : BitVec 16) (va : Nat) (size : Nat) (s : State) :
    exec (.invalidation ctx va size) s = execInvalidation ctx va size s := rfl
@[simp] theorem exec_migration (ctx : BitVec 16) (va : Nat) (frame : Nat) (s : State) :
    exec (.migration ctx va frame) s = execMigration ctx va frame s := rfl
@[simp] theorem exec_migrationRelease (ctx : BitVec 16) (va : Nat) (s : State) :
    exec (.migrationRelease ctx va) s = execMigrationRelease ctx va s := rfl
@[simp] theorem exec_channelLending (die : BitVec 3) (channel : BitVec 6) (s : State) :
    exec (.channelLending die channel) s = execChannelLending die channel s := rfl
@[simp] theorem exec_reclaim (die : BitVec 3) (channel : BitVec 6) (s : State) :
    exec (.reclaim die channel) s = execReclaim die channel s := rfl
@[simp] theorem exec_scrub (place : EccPlace) (err : EccErr) (lasting : Bool) (s : State) :
    exec (.scrub place err lasting) s = execScrub place err lasting s := rfl
@[simp] theorem exec_ueccRetry (core : Nat) (place : EccPlace) (fin : EccEnd) (s : State) :
    exec (.ueccRetry core place fin) s = execUeccRetry core place fin s := rfl
@[simp] theorem exec_refreshElision (region : Nat) (s : State) :
    exec (.refreshElision region) s = execRefreshElision region s := rfl
@[simp] theorem exec_cellInsert (ringW : Bool) (strand : BitVec 3) (station : BitVec 3) (s : State) :
    exec (.cellInsert ringW strand station) s = execCellInsert ringW strand station s := rfl
@[simp] theorem exec_cellDelivery (ringW : Bool) (strand : BitVec 3) (station : BitVec 3) (bad : Bool) (s : State) :
    exec (.cellDelivery ringW strand station bad) s = execCellDelivery ringW strand station bad s := rfl
@[simp] theorem exec_cellReturn (ringW : Bool) (strand : BitVec 3) (station : BitVec 3) (s : State) :
    exec (.cellReturn ringW strand station) s = execCellReturn ringW strand station s := rfl
@[simp] theorem exec_rsvmWrite (idx : BitVec 7) (value : W64) (s : State) :
    exec (.rsvmWrite idx value) s = execRsvmWrite idx value s := rfl
@[simp] theorem exec_tstatErrClear (part : BitVec 6) (s : State) :
    exec (.tstatErrClear part) s = execTstatErrClear part s := rfl
@[simp] theorem exec_pgctlGo (group : BitVec 5) (value : W64) (s : State) :
    exec (.pgctlGo group value) s = execPgctlGo group value s := rfl
@[simp] theorem exec_pgctlClear (group : BitVec 5) (s : State) :
    exec (.pgctlClear group) s = execPgctlClear group s := rfl
@[simp] theorem exec_quiesced (group : BitVec 5) (s : State) :
    exec (.quiesced group) s = execQuiesced group s := rfl
@[simp] theorem exec_drainTimeout (group : BitVec 5) (s : State) :
    exec (.drainTimeout group) s = execDrainTimeout group s := rfl
@[simp] theorem exec_retraining (group : BitVec 5) (ok : Bool) (rate : Trained) (s : State) :
    exec (.retraining group ok rate) s = execRetraining group ok rate s := rfl
@[simp] theorem exec_keyRotation (group : BitVec 5) (dir : LinkDir) (key : List Byte) (s : State) :
    exec (.keyRotation group dir key) s = execKeyRotation group dir key s := rfl
@[simp] theorem exec_oldKeyRelease (group : BitVec 5) (dir : LinkDir) (s : State) :
    exec (.oldKeyRelease group dir) s = execOldKeyRelease group dir s := rfl
@[simp] theorem exec_ptpSync (offset : PtpEvent) (rate : Int) (s : State) :
    exec (.ptpSync offset rate) s = execPtpSync offset rate s := rfl
@[simp] theorem exec_syncLoss (s : State) :
    exec .syncLoss s = execSyncLoss s := rfl
@[simp] theorem exec_ptcStep (sec : BitVec 48) (ns : BitVec 32) (s : State) :
    exec (.ptcStep sec ns) s = execPtcStep sec ns s := rfl
@[simp] theorem exec_leaveGrant (die : BitVec 3) (s : State) :
    exec (.leaveGrant die) s = execLeaveGrant die s := rfl
@[simp] theorem exec_thermalLimit (die : BitVec 3) (budget : BitVec 32) (s : State) :
    exec (.thermalLimit die budget) s = execThermalLimit die budget s := rfl
@[simp] theorem exec_boot (slots : Flash) (minVersion : Nat) (s : State) :
    exec (.boot slots minVersion) s = execBoot slots minVersion s := rfl
@[simp] theorem exec_launch (seq : Doorbell) (record : List Byte) (s : State) :
    exec (.launch seq record) s = execLaunch seq record s := rfl
@[simp] theorem exec_launchGroupRelease (lgrp : BitVec 16) (s : State) :
    exec (.launchGroupRelease lgrp) s = execLaunchGroupRelease lgrp s := rfl
@[simp] theorem exec_attest (seq : Doorbell) (request : List Byte) (s : State) :
    exec (.attest seq request) s = execAttest seq request s := rfl
@[simp] theorem exec_evict (seq : Doorbell) (acc : BitVec 10) (accepted : Bool) (s : State) :
    exec (.evict seq acc accepted) s = execEvict seq acc accepted s := rfl
@[simp] theorem exec_preempt (seq : Doorbell) (ctx : BitVec 16) (s : State) :
    exec (.preempt seq ctx) s = execPreempt seq ctx s := rfl
@[simp] theorem exec_resume (seq : Doorbell) (ctx : BitVec 16) (record : List Byte) (s : State) :
    exec (.resume seq ctx record) s = execResume seq ctx record s := rfl
@[simp] theorem exec_contextRelease (ctx : BitVec 16) (s : State) :
    exec (.contextRelease ctx) s = execContextRelease ctx s := rfl
@[simp] theorem exec_endContext (seq : Doorbell) (ctx : BitVec 16) (s : State) :
    exec (.endContext seq ctx) s = execEndContext seq ctx s := rfl
@[simp] theorem exec_status (seq : Doorbell) (ctx : BitVec 16) (addr : W64) (len : BitVec 32) (s : State) :
    exec (.status seq ctx addr len) s = execStatus seq ctx addr len s := rfl
@[simp] theorem exec_reload (seq : Doorbell) (arg : BitVec 32) (record : List Byte) (s : State) :
    exec (.reload seq arg record) s = execReload seq arg record s := rfl
@[simp] theorem exec_eventPost (s : State) :
    exec .eventPost s = execEventPost s := rfl
@[simp] theorem exec_mainRailsOff (s : State) :
    exec .mainRailsOff s = execMainRailsOff s := rfl
@[simp] theorem exec_inboundRequest (group : BitVec 5) (req : Inbound) (s : State) :
    exec (.inboundRequest group req) s = execInboundRequest group req s := rfl
@[simp] theorem exec_trickleCheckpoint (core : Nat) (s : State) :
    exec (.trickleCheckpoint core) s = execTrickleCheckpoint core s := rfl
@[simp] theorem exec_auxiliaryRail (on : Bool) (s : State) :
    exec (.auxiliaryRail on) s = execAuxiliaryRail on s := rfl
@[simp] theorem exec_collectiveAbandoned (group : BitVec 32) (s : State) :
    exec (.collectiveAbandoned group) s = execCollectiveAbandoned group s := rfl

/-- The words of bundles: neither those of the memory sequencer nor the steps that are no words. -/
def bundleWord : Instr → Bool
  | .xrd .. | .xwr .. | .xset .. | .xlp .. | .xwt .. | .xsg .. | .xend => false
  | i => !isEvent i

/-- A word of a bundle does in its bundle what it does alone. -/
theorem execWord_exec (s : State) : ∀ i : Instr, bundleWord i = true → execWord i s = exec i s
  | .add .., _ => rfl
  | .sub .., _ => rfl
  | .mul .., _ => rfl
  | .mulh .., _ => rfl
  | .mulhn .., _ => rfl
  | .div .., _ => rfl
  | .divn .., _ => rfl
  | .rem .., _ => rfl
  | .remn .., _ => rfl
  | .and .., _ => rfl
  | .or .., _ => rfl
  | .xor .., _ => rfl
  | .andn .., _ => rfl
  | .orn .., _ => rfl
  | .shl .., _ => rfl
  | .shr .., _ => rfl
  | .sar .., _ => rfl
  | .rol .., _ => rfl
  | .ror .., _ => rfl
  | .min .., _ => rfl
  | .max .., _ => rfl
  | .minn .., _ => rfl
  | .maxn .., _ => rfl
  | .clz .., _ => rfl
  | .ctz .., _ => rfl
  | .popc .., _ => rfl
  | .bfx .., _ => rfl
  | .bfxn .., _ => rfl
  | .bfi .., _ => rfl
  | .csel .., _ => rfl
  | .addi .., _ => rfl
  | .andi .., _ => rfl
  | .ori .., _ => rfl
  | .xori .., _ => rfl
  | .shli .., _ => rfl
  | .shri .., _ => rfl
  | .sari .., _ => rfl
  | .muli .., _ => rfl
  | .lui .., _ => rfl
  | .aup .., _ => rfl
  | .cmp .., _ => rfl
  | .cmpi .., _ => rfl
  | .tst .., _ => rfl
  | .gand .., _ => rfl
  | .gor .., _ => rfl
  | .gxor .., _ => rfl
  | .gnot .., _ => rfl
  | .ptst .., _ => rfl
  | .prep .., _ => rfl
  | .prepr .., _ => rfl
  | .br .., _ => rfl
  | .brA .., _ => rfl
  | .brf .., _ => rfl
  | .brl .., _ => rfl
  | .loop .., _ => rfl
  | .loopi .., _ => rfl
  | .lbrk .., _ => rfl
  | .sync .., _ => rfl
  | .frame, _ => rfl
  | .waitt .., _ => rfl
  | .nop, _ => rfl
  | .halt, _ => rfl
  | .vadd .., _ => rfl
  | .vsub .., _ => rfl
  | .vmul .., _ => rfl
  | .vmulh .., _ => rfl
  | .vfma .., _ => rfl
  | .vfms .., _ => rfl
  | .vfnma .., _ => rfl
  | .vmin .., _ => rfl
  | .vmax .., _ => rfl
  | .vabs .., _ => rfl
  | .vneg .., _ => rfl
  | .vand .., _ => rfl
  | .vor .., _ => rfl
  | .vxor .., _ => rfl
  | .vandn .., _ => rfl
  | .vshl .., _ => rfl
  | .vshr .., _ => rfl
  | .vsar .., _ => rfl
  | .vcmp .., _ => rfl
  | .vbc .., _ => rfl
  | .vxt .., _ => rfl
  | .vlid .., _ => rfl
  | .vrot .., _ => rfl
  | .vperm .., _ => rfl
  | .vrsum .., _ => rfl
  | .vrmax .., _ => rfl
  | .vrmin .., _ => rfl
  | .vrcp .., _ => rfl
  | .vrsq .., _ => rfl
  | .vex2 .., _ => rfl
  | .vlg2 .., _ => rfl
  | .vdot4 .., _ => rfl
  | .vpopc .., _ => rfl
  | .vclz .., _ => rfl
  | .vtacc .., _ => rfl
  | .vsel .., _ => rfl
  | .vselB .., _ => rfl
  | .vcvt .., _ => rfl
  | .vbq .., _ => rfl
  | .vbdq .., _ => rfl
  | .vbscl .., _ => rfl
  | .vtunp .., _ => rfl
  | .vpak .., _ => rfl
  | .vupk .., _ => rfl
  | .vrng .., _ => rfl
  | .vptst .., _ => rfl
  | .ld .., _ => rfl
  | .st .., _ => rfl
  | .vld .., _ => rfl
  | .vst .., _ => rfl
  | .vgat .., _ => rfl
  | .vsct .., _ => rfl
  | .vldb .., _ => rfl
  | .cbdef .., _ => rfl
  | .cbadvP .., _ => rfl
  | .cbadvC .., _ => rfl
  | .cbadvPW .., _ => rfl
  | .cbadvCW .., _ => rfl
  | .cp .., _ => rfl
  | .cpg .., _ => rfl
  | .cpm .., _ => rfl
  | .mlds .., _ => rfl
  | .mswap, _ => rfl
  | .mmul .., _ => rfl
  | .mmulc .., _ => rfl
  | .mclr .., _ => rfl
  | .snd .., _ => rfl
  | .rcv .., _ => rfl
  | .msq .., _ => rfl
  | .ldg .., _ => rfl
  | .stg .., _ => rfl
  | .vldg .., _ => rfl
  | .vstg .., _ => rfl
  | .amo .., _ => rfl
  | .red .., _ => rfl
  | .lqpop .., _ => rfl
  | .tagw .., _ => rfl
  | .tagwa .., _ => rfl
  | .tagff .., _ => rfl
  | .tagclr .., _ => rfl
  | .fenceAcq .., _ => rfl
  | .fenceRel .., _ => rfl
  | .fenceSc .., _ => rfl
  | .drain .., _ => rfl
  | .trig, _ => rfl
  | .coll .., _ => rfl
  | .rdsr .., _ => rfl
  | .wrsr .., _ => rfl
  | .trap .., _ => rfl
  | .tret, _ => rfl
  | .stop .., _ => rfl
  | .swap, _ => rfl
  | .swapSteward .., _ => rfl
  | .ckpt .., _ => rfl
  | .lsv .., _ => rfl
  | .lrs .., _ => rfl
  | .stampAt .., _ => rfl
  | .stampHold .., _ => rfl
  | .xt .., _ => rfl
  | .xrd .., h | .xwr .., h | .xset .., h | .xlp .., h | .xwt .., h | .xsg .., h | .xend, h
  | .hold, h | .resultPerforms, h | .variableLatencyReply .., h | .elasticStall .., h | .haltLine .., h | .stopRecord .., h
  | .syncPost .., h | .barrierRelease .., h | .legEvaluation .., h | .run .., h | .done .., h | .traverseMessage .., h
  | .slotReturn .., h | .triggerPost .., h | .planeFlip .., h | .copyComplete .., h | .streamFire .., h | .planeReady .., h
  | .axUpdate .., h | .msqTransferComplete .., h | .collComplete .., h | .ckptComplete .., h | .messageArrival .., h
  | .atomicOperation .., h | .reductionContribution .., h | .pageWalk .., h | .invalidation .., h | .migration .., h
  | .migrationRelease .., h | .channelLending .., h | .reclaim .., h | .scrub .., h | .ueccRetry .., h
  | .refreshElision .., h | .cellInsert .., h | .cellDelivery .., h | .cellReturn .., h | .rsvmWrite .., h
  | .tstatErrClear .., h | .pgctlGo .., h | .pgctlClear .., h | .quiesced .., h | .drainTimeout .., h | .retraining .., h
  | .keyRotation .., h | .oldKeyRelease .., h | .ptpSync .., h | .syncLoss, h | .ptcStep .., h | .leaveGrant .., h
  | .thermalLimit .., h | .boot .., h | .launch .., h | .launchGroupRelease .., h | .attest .., h | .evict .., h
  | .preempt .., h | .resume .., h | .contextRelease .., h | .endContext .., h | .status .., h | .reload .., h
  | .eventPost, h | .mainRailsOff, h | .inboundRequest .., h | .trickleCheckpoint .., h | .auxiliaryRail .., h
  | .collectiveAbandoned .., h => nomatch h

end Sys2Proof.Machine
end

