-- ==== Sys2Proof/Laws/PerInstr.lean ====
section
/-! SUPPORT. A word is read back as the instruction it was written from, one lemma for each constructor. -/

namespace Sys2Proof.Laws.Encoding

/-- The words of the memory sequencer (R47). -/
def ofSeq : Instr → Bool
  | .xrd .. | .xwr .. | .xset .. | .xlp .. | .xwt .. | .xsg .. | .xend => true
  | _ => false

/-- The kind of core on which a word's fields mean this instruction: `swap` has two forms (R93). -/
def onCore (i : Instr) (steward : Bool) : Bool :=
  match i with
  | .swap => !steward
  | .swapSteward _ => steward
  | _ => true

/-- The word written from an instruction with link bit `l` reads back as the instruction and the link bit. -/
def back (i : Instr) (steward l : Bool) : Prop :=
  if ofSeq i then decodeMsq (encodeMsq i) = .ok i
  else decode steward (encode i l) = .ok i ∧ link (encode i l) = l

/-- Decoding an encoded well-formed word gives it back with every operand (R33, R40 to R48). The events of the part have
no word. -/
def Statement (i : Instr) : Prop :=
  i.wf = true → Machine.isEvent i = false → ∀ steward l : Bool, onCore i steward = true → back i steward l

theorem toNat_encode {i : Instr} {l : Bool} {k : Nat} (hk : encodeNat i = k) (hb : k < 2147483648) :
    (encode i l).toNat = k + l.toNat * 2147483648 := by
  have hl := Bool.toNat_lt l
  unfold encode
  rw [BitVec.toNat_ofNat, hk]
  clear hk
  omega

theorem decode_of {i : Instr} {st : Bool} {w : Word} (hw : i.wf = true) (h : decodeFields st w.toNat = some i) :
    decode st w = .ok i := by
  unfold decode
  rw [h]
  simp only [hw, if_true]

theorem back_of {i : Instr} {st l : Bool} {k : Nat} (hw : i.wf = true) (hs : ofSeq i = false) (hk : encodeNat i = k)
    (hb : k < 2147483648)
    (hd : ∀ N, N = k + l.toNat * 2147483648 → decodeFields st N = some i ∧ bit N 31 = l) : back i st l := by
  have h := hd _ (toNat_encode (l := l) hk hb)
  unfold back
  rw [hs, if_neg Bool.false_ne_true]
  exact ⟨decode_of hw h.1, h.2⟩

theorem bv_eq {n w lo : Nat} {x : BitVec n} (h : w / 2 ^ lo % 2 ^ n = x.toNat) : bv n w lo = x :=
  BitVec.eq_of_toNat_eq (by simpa [bv] using h)

theorem bit_eq {w lo : Nat} {b : Bool} (h : w / 2 ^ lo % 2 = b.toNat) : bit w lo = b := by
  cases b <;> simp_all [bit]

theorem VTy_lt (x : VTy) : x.toNat < 8 := by cases x <;> decide
theorem VTy_of (x : VTy) : VTy.ofNat? x.toNat = some x := by cases x <;> rfl
theorem Space_lt (x : Space) : x.toNat < 4 := by cases x <;> decide
theorem Space_of (x : Space) : Space.ofNat? x.toNat = some x := by cases x <;> rfl
theorem Size_lt (x : Size) : x.toNat < 4 := by cases x <;> decide
theorem Size_of (x : Size) : Size.ofNat? x.toNat = some x := by cases x <;> rfl
theorem Scope_lt (x : Scope) : x.toNat < 6 := by cases x <;> decide
theorem Scope_of (x : Scope) : Scope.ofNat? x.toNat = some x := by cases x <;> rfl
theorem Cond_lt (x : Cond) : x.toNat < 10 := by cases x <;> decide
theorem Cond_of (x : Cond) : Cond.ofNat? x.toNat = some x := by cases x <;> rfl
theorem VCond_lt (x : VCond) : x.toNat < 4 := by cases x <;> decide
theorem VCond_of (x : VCond) : VCond.ofNat? x.toNat = some x := by cases x <;> rfl
theorem AmoOp_lt (x : AmoOp) : x.toNat < 12 := by cases x <;> decide
theorem AmoOp_of (x : AmoOp) : AmoOp.ofNat? x.toNat = some x := by cases x <;> rfl

theorem lay1 {o x1 x2 x3 x4 x5 l N : Nat} (_ : o < 64) (_ : x1 < 32) (_ : x2 < 32) (_ : x3 < 32) (_ : x4 < 2) (_ : x5 < 2) (_ : l < 2)
    (hN : N = 0 + o * 2097152 + x1 * 65536 + x2 * 2048 + x3 * 64 + x4 * 32 + x5 * 16 + l * 2147483648) :
    fld N 30 27 = 0 ∧ fld N 26 21 = o ∧ fld N 3 0 = 0 ∧ N / 2 ^ 16 % 2 ^ 5 = x1 ∧ N / 2 ^ 11 % 2 ^ 5 = x2 ∧ N / 2 ^ 6 % 2 ^ 5 = x3 ∧ N / 2 ^ 5 % 2 = x4 ∧ N / 2 ^ 4 % 2 = x5 ∧ N / 2 ^ 31 % 2 = l := by
  simp only [fld, Nat.reduceAdd, Nat.reduceSub, Nat.reducePow]
  omega

theorem lay2 {o x1 x2 x3 x4 l N : Nat} (_ : o < 64) (_ : x1 < 32) (_ : x2 < 32) (_ : x3 < 2) (_ : x4 < 2) (_ : l < 2)
    (hN : N = 0 + o * 2097152 + x1 * 65536 + x2 * 2048 + x3 * 32 + x4 * 16 + l * 2147483648) :
    fld N 30 27 = 0 ∧ fld N 26 21 = o ∧ fld N 3 0 = 0 ∧ fld N 10 6 = 0 ∧ N / 2 ^ 16 % 2 ^ 5 = x1 ∧ N / 2 ^ 11 % 2 ^ 5 = x2 ∧ N / 2 ^ 5 % 2 = x3 ∧ N / 2 ^ 4 % 2 = x4 ∧ N / 2 ^ 31 % 2 = l := by
  simp only [fld, Nat.reduceAdd, Nat.reduceSub, Nat.reducePow]
  omega

theorem lay3 {o x1 x2 x3 x4 l N : Nat} (_ : o < 64) (_ : x1 < 32) (_ : x2 < 32) (_ : x3 < 32) (_ : x4 < 16) (_ : l < 2)
    (hN : N = 0 + o * 2097152 + x1 * 65536 + x2 * 2048 + x3 * 64 + x4 * 1 + l * 2147483648) :
    fld N 30 27 = 0 ∧ fld N 26 21 = o ∧ fld N 5 4 = 0 ∧ N / 2 ^ 16 % 2 ^ 5 = x1 ∧ N / 2 ^ 11 % 2 ^ 5 = x2 ∧ N / 2 ^ 6 % 2 ^ 5 = x3 ∧ N / 2 ^ 0 % 2 ^ 4 = x4 ∧ N / 2 ^ 31 % 2 = l := by
  simp only [fld, Nat.reduceAdd, Nat.reduceSub, Nat.reducePow]
  omega

theorem lay4 {o x1 x2 x3 x4 l N : Nat} (_ : o < 16) (_ : x1 < 2) (_ : x2 < 32) (_ : x3 < 32) (_ : x4 < 4096) (_ : l < 2)
    (hN : N = 134217728 + o * 8388608 + x1 * 4194304 + x2 * 131072 + x3 * 4096 + x4 * 1 + l * 2147483648) :
    fld N 30 27 = 1 ∧ fld N 26 23 = o ∧ N / 2 ^ 22 % 2 = x1 ∧ N / 2 ^ 17 % 2 ^ 5 = x2 ∧ N / 2 ^ 12 % 2 ^ 5 = x3 ∧ N / 2 ^ 0 % 2 ^ 12 = x4 ∧ N / 2 ^ 31 % 2 = l := by
  simp only [fld, Nat.reduceAdd, Nat.reduceSub, Nat.reducePow]
  omega

theorem lay5 {o x1 x2 x3 x4 l N : Nat} (_ : o < 16) (_ : x1 < 2) (_ : x2 < 32) (_ : x3 < 32) (_ : x4 < 64) (_ : l < 2)
    (hN : N = 134217728 + o * 8388608 + x1 * 4194304 + x2 * 131072 + x3 * 4096 + x4 * 1 + l * 2147483648) :
    fld N 30 27 = 1 ∧ fld N 26 23 = o ∧ fld N 11 6 = 0 ∧ N / 2 ^ 22 % 2 = x1 ∧ N / 2 ^ 17 % 2 ^ 5 = x2 ∧ N / 2 ^ 12 % 2 ^ 5 = x3 ∧ N / 2 ^ 0 % 2 ^ 6 = x4 ∧ N / 2 ^ 31 % 2 = l := by
  simp only [fld, Nat.reduceAdd, Nat.reduceSub, Nat.reducePow]
  omega

theorem lay6 {o x1 x2 l N : Nat} (_ : o < 4) (_ : x1 < 32) (_ : x2 < 1048576) (_ : l < 2)
    (hN : N = 268435456 + o * 1048576 + x1 * 4194304 + x2 * 1 + l * 2147483648) :
    fld N 30 27 = 2 ∧ fld N 21 20 = o ∧ N / 2 ^ 22 % 2 ^ 5 = x1 ∧ N / 2 ^ 0 % 2 ^ 20 = x2 ∧ N / 2 ^ 31 % 2 = l := by
  simp only [fld, Nat.reduceAdd, Nat.reduceSub, Nat.reducePow]
  omega

theorem lay7 {o x1 x2 x3 x4 x5 l N : Nat} (_ : o < 32) (_ : x1 < 16) (_ : x2 < 32) (_ : x3 < 32) (_ : x4 < 10) (_ : x5 < 2) (_ : l < 2)
    (hN : N = 402653184 + o * 4194304 + x1 * 262144 + x2 * 8192 + x3 * 256 + x4 * 16 + x5 * 1 + l * 2147483648) :
    fld N 30 27 = 3 ∧ fld N 26 22 = o ∧ fld N 3 1 = 0 ∧ N / 2 ^ 18 % 2 ^ 4 = x1 ∧ N / 2 ^ 13 % 2 ^ 5 = x2 ∧ N / 2 ^ 8 % 2 ^ 5 = x3 ∧ fld N 7 4 = x4 ∧ N / 2 ^ 0 % 2 = x5 ∧ N / 2 ^ 31 % 2 = l := by
  simp only [fld, Nat.reduceAdd, Nat.reduceSub, Nat.reducePow]
  omega

theorem lay8 {o x1 x2 x3 x4 l N : Nat} (_ : o < 32) (_ : x1 < 16) (_ : x2 < 512) (_ : x3 < 10) (_ : x4 < 32) (_ : l < 2)
    (hN : N = 402653184 + o * 4194304 + x1 * 262144 + x2 * 512 + x3 * 32 + x4 * 1 + l * 2147483648) :
    fld N 30 27 = 3 ∧ fld N 26 22 = o ∧ N / 2 ^ 18 % 2 ^ 4 = x1 ∧ N / 2 ^ 9 % 2 ^ 9 = x2 ∧ fld N 8 5 = x3 ∧ N / 2 ^ 0 % 2 ^ 5 = x4 ∧ N / 2 ^ 31 % 2 = l := by
  simp only [fld, Nat.reduceAdd, Nat.reduceSub, Nat.reducePow]
  omega

theorem lay9 {o x1 x2 x3 x4 x5 l N : Nat} (_ : o < 32) (_ : x1 < 16) (_ : x2 < 32) (_ : x3 < 32) (_ : x4 < 2) (_ : x5 < 2) (_ : l < 2)
    (hN : N = 402653184 + o * 4194304 + x1 * 262144 + x2 * 8192 + x3 * 256 + x4 * 128 + x5 * 1 + l * 2147483648) :
    fld N 30 27 = 3 ∧ fld N 26 22 = o ∧ fld N 6 1 = 0 ∧ N / 2 ^ 18 % 2 ^ 4 = x1 ∧ N / 2 ^ 13 % 2 ^ 5 = x2 ∧ N / 2 ^ 8 % 2 ^ 5 = x3 ∧ N / 2 ^ 7 % 2 = x4 ∧ N / 2 ^ 0 % 2 = x5 ∧ N / 2 ^ 31 % 2 = l := by
  simp only [fld, Nat.reduceAdd, Nat.reduceSub, Nat.reducePow]
  omega

theorem lay10 {o x1 x2 x3 l N : Nat} (_ : o < 32) (_ : x1 < 16) (_ : x2 < 16) (_ : x3 < 16) (_ : l < 2)
    (hN : N = 402653184 + o * 4194304 + x1 * 262144 + x2 * 16384 + x3 * 1024 + l * 2147483648) :
    fld N 30 27 = 3 ∧ fld N 26 22 = o ∧ fld N 9 0 = 0 ∧ N / 2 ^ 18 % 2 ^ 4 = x1 ∧ N / 2 ^ 14 % 2 ^ 4 = x2 ∧ N / 2 ^ 10 % 2 ^ 4 = x3 ∧ N / 2 ^ 31 % 2 = l := by
  simp only [fld, Nat.reduceAdd, Nat.reduceSub, Nat.reducePow]
  omega

theorem lay11 {o x1 x2 l N : Nat} (_ : o < 32) (_ : x1 < 16) (_ : x2 < 16) (_ : l < 2)
    (hN : N = 402653184 + o * 4194304 + x1 * 262144 + x2 * 16384 + l * 2147483648) :
    fld N 30 27 = 3 ∧ fld N 26 22 = o ∧ fld N 13 0 = 0 ∧ N / 2 ^ 18 % 2 ^ 4 = x1 ∧ N / 2 ^ 14 % 2 ^ 4 = x2 ∧ N / 2 ^ 31 % 2 = l := by
  simp only [fld, Nat.reduceAdd, Nat.reduceSub, Nat.reducePow]
  omega

theorem lay12 {o x1 x2 l N : Nat} (_ : o < 32) (_ : x1 < 16) (_ : x2 < 32) (_ : l < 2)
    (hN : N = 402653184 + o * 4194304 + x1 * 262144 + x2 * 8192 + l * 2147483648) :
    fld N 30 27 = 3 ∧ fld N 26 22 = o ∧ fld N 12 0 = 0 ∧ N / 2 ^ 18 % 2 ^ 4 = x1 ∧ N / 2 ^ 13 % 2 ^ 5 = x2 ∧ N / 2 ^ 31 % 2 = l := by
  simp only [fld, Nat.reduceAdd, Nat.reduceSub, Nat.reducePow]
  omega

theorem lay13 {o x1 x2 l N : Nat} (_ : o < 32) (_ : x1 < 16) (_ : x2 < 32768) (_ : l < 2)
    (hN : N = 402653184 + o * 4194304 + x1 * 262144 + x2 * 1 + l * 2147483648) :
    fld N 30 27 = 3 ∧ fld N 26 22 = o ∧ fld N 17 15 = 0 ∧ N / 2 ^ 18 % 2 ^ 4 = x1 ∧ N / 2 ^ 0 % 2 ^ 15 = x2 ∧ N / 2 ^ 31 % 2 = l := by
  simp only [fld, Nat.reduceAdd, Nat.reduceSub, Nat.reducePow]
  omega

theorem lay14 {o x1 l N : Nat} (_ : o < 32) (_ : x1 < 16) (_ : l < 2)
    (hN : N = 402653184 + o * 4194304 + x1 * 262144 + l * 2147483648) :
    fld N 30 27 = 3 ∧ fld N 26 22 = o ∧ fld N 17 0 = 0 ∧ N / 2 ^ 18 % 2 ^ 4 = x1 ∧ N / 2 ^ 31 % 2 = l := by
  simp only [fld, Nat.reduceAdd, Nat.reduceSub, Nat.reducePow]
  omega

theorem lay15 {o x1 l N : Nat} (_ : o < 32) (_ : x1 < 16) (_ : l < 2)
    (hN : N = 402653185 + o * 4194304 + x1 * 262144 + l * 2147483648) :
    fld N 30 27 = 3 ∧ fld N 26 22 = o ∧ fld N 17 0 = 1 ∧ N / 2 ^ 18 % 2 ^ 4 = x1 ∧ N / 2 ^ 31 % 2 = l := by
  simp only [fld, Nat.reduceAdd, Nat.reduceSub, Nat.reducePow]
  omega

theorem lay16 {o x1 x2 x3 x4 l N : Nat} (_ : o < 32) (_ : x1 < 32) (_ : x2 < 2) (_ : x3 < 256) (_ : x4 < 4) (_ : l < 2)
    (hN : N = 402653184 + o * 4194304 + x1 * 8192 + x2 * 4096 + x3 * 4 + x4 * 1 + l * 2147483648) :
    fld N 30 27 = 3 ∧ fld N 26 22 = o ∧ fld N 11 10 = 0 ∧ fld N 21 18 = 0 ∧ N / 2 ^ 13 % 2 ^ 5 = x1 ∧ N / 2 ^ 12 % 2 = x2 ∧ N / 2 ^ 2 % 2 ^ 8 = x3 ∧ N / 2 ^ 0 % 2 ^ 2 = x4 ∧ N / 2 ^ 31 % 2 = l := by
  simp only [fld, Nat.reduceAdd, Nat.reduceSub, Nat.reducePow]
  omega

theorem lay17 {o x1 x2 x3 x4 l N : Nat} (_ : o < 32) (_ : x1 < 128) (_ : x2 < 2) (_ : x3 < 256) (_ : x4 < 4) (_ : l < 2)
    (hN : N = 402653184 + o * 4194304 + x1 * 2048 + x2 * 1024 + x3 * 4 + x4 * 1 + l * 2147483648) :
    fld N 30 27 = 3 ∧ fld N 26 22 = o ∧ fld N 21 18 = 0 ∧ N / 2 ^ 11 % 2 ^ 7 = x1 ∧ N / 2 ^ 10 % 2 = x2 ∧ N / 2 ^ 2 % 2 ^ 8 = x3 ∧ N / 2 ^ 0 % 2 ^ 2 = x4 ∧ N / 2 ^ 31 % 2 = l := by
  simp only [fld, Nat.reduceAdd, Nat.reduceSub, Nat.reducePow]
  omega

theorem lay18 {o x1 x2 l N : Nat} (_ : o < 32) (_ : x1 < 16) (_ : x2 < 8) (_ : l < 2)
    (hN : N = 402653184 + o * 4194304 + x1 * 262144 + x2 * 1 + l * 2147483648) :
    fld N 30 27 = 3 ∧ fld N 26 22 = o ∧ fld N 17 3 = 0 ∧ N / 2 ^ 18 % 2 ^ 4 = x1 ∧ N / 2 ^ 0 % 2 ^ 3 = x2 ∧ N / 2 ^ 31 % 2 = l := by
  simp only [fld, Nat.reduceAdd, Nat.reduceSub, Nat.reducePow]
  omega

theorem lay19 {o x1 l N : Nat} (_ : o < 32) (_ : x1 < 6) (_ : l < 2)
    (hN : N = 402653184 + o * 4194304 + x1 * 1 + l * 2147483648) :
    fld N 30 27 = 3 ∧ fld N 26 22 = o ∧ fld N 21 3 = 0 ∧ fld N 2 0 = x1 ∧ N / 2 ^ 31 % 2 = l := by
  simp only [fld, Nat.reduceAdd, Nat.reduceSub, Nat.reducePow]
  omega

theorem lay20 {o l N : Nat} (_ : o < 32) (_ : l < 2)
    (hN : N = 402653184 + o * 4194304 + l * 2147483648) :
    fld N 30 27 = 3 ∧ fld N 26 22 = o ∧ fld N 21 0 = 0 ∧ N / 2 ^ 31 % 2 = l := by
  simp only [fld, Nat.reduceAdd, Nat.reduceSub, Nat.reducePow]
  omega

theorem lay21 {o x1 x2 l N : Nat} (_ : o < 32) (_ : x1 < 32) (_ : x2 < 32) (_ : l < 2)
    (hN : N = 402653184 + o * 4194304 + x1 * 8192 + x2 * 256 + l * 2147483648) :
    fld N 30 27 = 3 ∧ fld N 26 22 = o ∧ fld N 7 0 = 0 ∧ fld N 21 18 = 0 ∧ N / 2 ^ 13 % 2 ^ 5 = x1 ∧ N / 2 ^ 8 % 2 ^ 5 = x2 ∧ N / 2 ^ 31 % 2 = l := by
  simp only [fld, Nat.reduceAdd, Nat.reduceSub, Nat.reducePow]
  omega

theorem lay22 {o x1 x2 x3 x4 x5 x6 l N : Nat} (_ : o < 64) (_ : x1 < 32) (_ : x2 < 32) (_ : x3 < 32) (_ : x4 < 8) (_ : x5 < 2) (_ : x6 < 4) (_ : l < 2)
    (hN : N = 536870912 + o * 2097152 + x1 * 65536 + x2 * 2048 + x3 * 64 + x4 * 8 + x5 * 4 + x6 * 1 + l * 2147483648) :
    fld N 30 27 = 4 ∧ fld N 26 21 = o ∧ N / 2 ^ 16 % 2 ^ 5 = x1 ∧ N / 2 ^ 11 % 2 ^ 5 = x2 ∧ N / 2 ^ 6 % 2 ^ 5 = x3 ∧ fld N 5 3 = x4 ∧ N / 2 ^ 2 % 2 = x5 ∧ N / 2 ^ 0 % 2 ^ 2 = x6 ∧ N / 2 ^ 31 % 2 = l := by
  simp only [fld, Nat.reduceAdd, Nat.reduceSub, Nat.reducePow]
  omega

theorem lay23 {o x1 x2 x3 x4 x5 l N : Nat} (_ : o < 64) (_ : x1 < 32) (_ : x2 < 32) (_ : x3 < 32) (_ : x4 < 8) (_ : x5 < 2) (_ : l < 2)
    (hN : N = 536870912 + o * 2097152 + x1 * 65536 + x2 * 2048 + x3 * 64 + x4 * 8 + x5 * 4 + l * 2147483648) :
    fld N 30 27 = 4 ∧ fld N 26 21 = o ∧ fld N 1 0 = 0 ∧ N / 2 ^ 16 % 2 ^ 5 = x1 ∧ N / 2 ^ 11 % 2 ^ 5 = x2 ∧ N / 2 ^ 6 % 2 ^ 5 = x3 ∧ fld N 5 3 = x4 ∧ N / 2 ^ 2 % 2 = x5 ∧ N / 2 ^ 31 % 2 = l := by
  simp only [fld, Nat.reduceAdd, Nat.reduceSub, Nat.reducePow]
  omega

theorem lay24 {o x1 x2 x3 x4 x5 l N : Nat} (_ : o < 64) (_ : x1 < 32) (_ : x2 < 32) (_ : x3 < 8) (_ : x4 < 2) (_ : x5 < 4) (_ : l < 2)
    (hN : N = 536870912 + o * 2097152 + x1 * 65536 + x2 * 2048 + x3 * 8 + x4 * 4 + x5 * 1 + l * 2147483648) :
    fld N 30 27 = 4 ∧ fld N 26 21 = o ∧ fld N 10 6 = 0 ∧ N / 2 ^ 16 % 2 ^ 5 = x1 ∧ N / 2 ^ 11 % 2 ^ 5 = x2 ∧ fld N 5 3 = x3 ∧ N / 2 ^ 2 % 2 = x4 ∧ N / 2 ^ 0 % 2 ^ 2 = x5 ∧ N / 2 ^ 31 % 2 = l := by
  simp only [fld, Nat.reduceAdd, Nat.reduceSub, Nat.reducePow]
  omega

theorem lay25 {o x1 x2 x3 x4 l N : Nat} (_ : o < 64) (_ : x1 < 32) (_ : x2 < 32) (_ : x3 < 32) (_ : x4 < 2) (_ : l < 2)
    (hN : N = 536870912 + o * 2097152 + x1 * 65536 + x2 * 2048 + x3 * 64 + x4 * 4 + l * 2147483648) :
    fld N 30 27 = 4 ∧ fld N 26 21 = o ∧ fld N 1 0 = 0 ∧ fld N 5 3 = 0 ∧ N / 2 ^ 16 % 2 ^ 5 = x1 ∧ N / 2 ^ 11 % 2 ^ 5 = x2 ∧ N / 2 ^ 6 % 2 ^ 5 = x3 ∧ N / 2 ^ 2 % 2 = x4 ∧ N / 2 ^ 31 % 2 = l := by
  simp only [fld, Nat.reduceAdd, Nat.reduceSub, Nat.reducePow]
  omega

theorem lay26 {o x1 x2 x3 x4 x5 x6 l N : Nat} (_ : o < 64) (_ : x1 < 32) (_ : x2 < 32) (_ : x3 < 32) (_ : x4 < 8) (_ : x5 < 2) (_ : x6 < 2) (_ : l < 2)
    (hN : N = 536870912 + o * 2097152 + x1 * 65536 + x2 * 2048 + x3 * 64 + x4 * 8 + x5 * 4 + x6 * 1 + l * 2147483648) :
    fld N 30 27 = 4 ∧ fld N 26 21 = o ∧ fld N 1 1 = 0 ∧ N / 2 ^ 16 % 2 ^ 5 = x1 ∧ N / 2 ^ 11 % 2 ^ 5 = x2 ∧ N / 2 ^ 6 % 2 ^ 5 = x3 ∧ fld N 5 3 = x4 ∧ N / 2 ^ 2 % 2 = x5 ∧ N / 2 ^ 0 % 2 = x6 ∧ N / 2 ^ 31 % 2 = l := by
  simp only [fld, Nat.reduceAdd, Nat.reduceSub, Nat.reducePow]
  omega

theorem lay27 {o x1 x2 x3 x4 x5 x6 l N : Nat} (_ : o < 64) (_ : x1 < 32) (_ : x2 < 32) (_ : x3 < 32) (_ : x4 < 8) (_ : x5 < 2) (_ : x6 < 4) (_ : l < 2)
    (hN : N = 536870912 + o * 2097152 + x1 * 65536 + x2 * 2048 + x3 * 64 + x4 * 8 + x5 * 4 + x6 * 1 + l * 2147483648) :
    fld N 30 27 = 4 ∧ fld N 26 21 = o ∧ N / 2 ^ 16 % 2 ^ 5 = x1 ∧ N / 2 ^ 11 % 2 ^ 5 = x2 ∧ N / 2 ^ 6 % 2 ^ 5 = x3 ∧ fld N 5 3 = x4 ∧ N / 2 ^ 2 % 2 = x5 ∧ fld N 1 0 = x6 ∧ N / 2 ^ 31 % 2 = l := by
  simp only [fld, Nat.reduceAdd, Nat.reduceSub, Nat.reducePow]
  omega

theorem lay28 {o x1 x2 x3 l N : Nat} (_ : o < 64) (_ : x1 < 32) (_ : x2 < 8) (_ : x3 < 2) (_ : l < 2)
    (hN : N = 536870912 + o * 2097152 + x1 * 65536 + x2 * 8 + x3 * 4 + l * 2147483648) :
    fld N 30 27 = 4 ∧ fld N 26 21 = o ∧ fld N 1 0 = 0 ∧ fld N 15 6 = 0 ∧ N / 2 ^ 16 % 2 ^ 5 = x1 ∧ fld N 5 3 = x2 ∧ N / 2 ^ 2 % 2 = x3 ∧ N / 2 ^ 31 % 2 = l := by
  simp only [fld, Nat.reduceAdd, Nat.reduceSub, Nat.reducePow]
  omega

theorem lay29 {o x1 x2 x3 x4 l N : Nat} (_ : o < 64) (_ : x1 < 32) (_ : x2 < 32) (_ : x3 < 8) (_ : x4 < 2) (_ : l < 2)
    (hN : N = 536870912 + o * 2097152 + x1 * 65536 + x2 * 2048 + x3 * 8 + x4 * 4 + l * 2147483648) :
    fld N 30 27 = 4 ∧ fld N 26 21 = o ∧ fld N 1 0 = 0 ∧ fld N 10 6 = 0 ∧ N / 2 ^ 16 % 2 ^ 5 = x1 ∧ N / 2 ^ 11 % 2 ^ 5 = x2 ∧ fld N 5 3 = x3 ∧ N / 2 ^ 2 % 2 = x4 ∧ N / 2 ^ 31 % 2 = l := by
  simp only [fld, Nat.reduceAdd, Nat.reduceSub, Nat.reducePow]
  omega

theorem lay30 {o x1 x2 x3 x4 l N : Nat} (_ : o < 32) (_ : x1 < 32) (_ : x2 < 32) (_ : x3 < 32) (_ : x4 < 32) (_ : l < 2)
    (hN : N = 671088640 + o * 4194304 + x1 * 131072 + x2 * 4096 + x3 * 128 + x4 * 4 + l * 2147483648) :
    fld N 30 27 = 5 ∧ fld N 26 22 = o ∧ fld N 1 0 = 0 ∧ N / 2 ^ 17 % 2 ^ 5 = x1 ∧ N / 2 ^ 12 % 2 ^ 5 = x2 ∧ N / 2 ^ 7 % 2 ^ 5 = x3 ∧ N / 2 ^ 2 % 2 ^ 5 = x4 ∧ N / 2 ^ 31 % 2 = l := by
  simp only [fld, Nat.reduceAdd, Nat.reduceSub, Nat.reducePow]
  omega

theorem lay31 {o x1 x2 x3 x4 l N : Nat} (_ : o < 32) (_ : x1 < 32) (_ : x2 < 32) (_ : x3 < 32) (_ : x4 < 32) (_ : l < 2)
    (hN : N = 671088641 + o * 4194304 + x1 * 131072 + x2 * 4096 + x3 * 128 + x4 * 4 + l * 2147483648) :
    fld N 30 27 = 5 ∧ fld N 26 22 = o ∧ fld N 1 0 = 1 ∧ N / 2 ^ 17 % 2 ^ 5 = x1 ∧ N / 2 ^ 12 % 2 ^ 5 = x2 ∧ N / 2 ^ 7 % 2 ^ 5 = x3 ∧ N / 2 ^ 2 % 2 ^ 5 = x4 ∧ N / 2 ^ 31 % 2 = l := by
  simp only [fld, Nat.reduceAdd, Nat.reduceSub, Nat.reducePow]
  omega

theorem lay32 {o x1 x2 x3 x4 x5 x6 l N : Nat} (_ : o < 32) (_ : x1 < 32) (_ : x2 < 32) (_ : x3 < 32) (_ : x4 < 32) (_ : x5 < 2) (_ : x6 < 2) (_ : l < 2)
    (hN : N = 671088640 + o * 4194304 + x1 * 131072 + x2 * 4096 + x3 * 128 + x4 * 4 + x5 * 2 + x6 * 1 + l * 2147483648) :
    fld N 30 27 = 5 ∧ fld N 26 22 = o ∧ N / 2 ^ 17 % 2 ^ 5 = x1 ∧ N / 2 ^ 12 % 2 ^ 5 = x2 ∧ N / 2 ^ 7 % 2 ^ 5 = x3 ∧ N / 2 ^ 2 % 2 ^ 5 = x4 ∧ N / 2 ^ 1 % 2 = x5 ∧ N / 2 ^ 0 % 2 = x6 ∧ N / 2 ^ 31 % 2 = l := by
  simp only [fld, Nat.reduceAdd, Nat.reduceSub, Nat.reducePow]
  omega

theorem lay33 {o x1 x2 x3 x4 x5 l N : Nat} (_ : o < 32) (_ : x1 < 32) (_ : x2 < 32) (_ : x3 < 32) (_ : x4 < 2) (_ : x5 < 2) (_ : l < 2)
    (hN : N = 671088640 + o * 4194304 + x1 * 131072 + x2 * 4096 + x3 * 4 + x4 * 2 + x5 * 1 + l * 2147483648) :
    fld N 30 27 = 5 ∧ fld N 26 22 = o ∧ fld N 11 7 = 0 ∧ N / 2 ^ 17 % 2 ^ 5 = x1 ∧ N / 2 ^ 12 % 2 ^ 5 = x2 ∧ N / 2 ^ 2 % 2 ^ 5 = x3 ∧ N / 2 ^ 1 % 2 = x4 ∧ N / 2 ^ 0 % 2 = x5 ∧ N / 2 ^ 31 % 2 = l := by
  simp only [fld, Nat.reduceAdd, Nat.reduceSub, Nat.reducePow]
  omega

theorem lay34 {o x1 x2 x3 x4 l N : Nat} (_ : o < 32) (_ : x1 < 32) (_ : x2 < 32) (_ : x3 < 32) (_ : x4 < 2) (_ : l < 2)
    (hN : N = 671088640 + o * 4194304 + x1 * 131072 + x2 * 4096 + x3 * 4 + x4 * 2 + l * 2147483648) :
    fld N 30 27 = 5 ∧ fld N 26 22 = o ∧ fld N 0 0 = 0 ∧ fld N 11 7 = 0 ∧ N / 2 ^ 17 % 2 ^ 5 = x1 ∧ N / 2 ^ 12 % 2 ^ 5 = x2 ∧ N / 2 ^ 2 % 2 ^ 5 = x3 ∧ N / 2 ^ 1 % 2 = x4 ∧ N / 2 ^ 31 % 2 = l := by
  simp only [fld, Nat.reduceAdd, Nat.reduceSub, Nat.reducePow]
  omega

theorem lay35 {o x1 x2 x3 x4 x5 l N : Nat} (_ : o < 32) (_ : x1 < 32) (_ : x2 < 32) (_ : x3 < 32) (_ : x4 < 32) (_ : x5 < 2) (_ : l < 2)
    (hN : N = 671088640 + o * 4194304 + x1 * 131072 + x2 * 4096 + x3 * 128 + x4 * 4 + x5 * 2 + l * 2147483648) :
    fld N 30 27 = 5 ∧ fld N 26 22 = o ∧ fld N 0 0 = 0 ∧ N / 2 ^ 17 % 2 ^ 5 = x1 ∧ N / 2 ^ 12 % 2 ^ 5 = x2 ∧ N / 2 ^ 7 % 2 ^ 5 = x3 ∧ N / 2 ^ 2 % 2 ^ 5 = x4 ∧ N / 2 ^ 1 % 2 = x5 ∧ N / 2 ^ 31 % 2 = l := by
  simp only [fld, Nat.reduceAdd, Nat.reduceSub, Nat.reducePow]
  omega

theorem lay36 {o x1 x2 x3 x4 x5 l N : Nat} (_ : o < 32) (_ : x1 < 32) (_ : x2 < 32) (_ : x3 < 32) (_ : x4 < 2) (_ : x5 < 2) (_ : l < 2)
    (hN : N = 671088640 + o * 4194304 + x1 * 131072 + x2 * 4096 + x3 * 128 + x4 * 2 + x5 * 1 + l * 2147483648) :
    fld N 30 27 = 5 ∧ fld N 26 22 = o ∧ fld N 6 2 = 0 ∧ N / 2 ^ 17 % 2 ^ 5 = x1 ∧ N / 2 ^ 12 % 2 ^ 5 = x2 ∧ N / 2 ^ 7 % 2 ^ 5 = x3 ∧ N / 2 ^ 1 % 2 = x4 ∧ N / 2 ^ 0 % 2 = x5 ∧ N / 2 ^ 31 % 2 = l := by
  simp only [fld, Nat.reduceAdd, Nat.reduceSub, Nat.reducePow]
  omega

theorem lay37 {o x1 x2 l N : Nat} (_ : o < 32) (_ : x1 < 32) (_ : x2 < 32) (_ : l < 2)
    (hN : N = 671088640 + o * 4194304 + x1 * 131072 + x2 * 4096 + l * 2147483648) :
    fld N 30 27 = 5 ∧ fld N 26 22 = o ∧ fld N 11 0 = 0 ∧ N / 2 ^ 17 % 2 ^ 5 = x1 ∧ N / 2 ^ 12 % 2 ^ 5 = x2 ∧ N / 2 ^ 31 % 2 = l := by
  simp only [fld, Nat.reduceAdd, Nat.reduceSub, Nat.reducePow]
  omega

theorem lay38 {o x1 x2 x3 x4 x5 l N : Nat} (_ : o < 8) (_ : x1 < 4) (_ : x2 < 32) (_ : x3 < 32) (_ : x4 < 4) (_ : x5 < 1024) (_ : l < 2)
    (hN : N = 805306368 + o * 16777216 + x1 * 4194304 + x2 * 131072 + x3 * 4096 + x4 * 1024 + x5 * 1 + l * 2147483648) :
    fld N 30 27 = 6 ∧ fld N 26 24 = o ∧ fld N 23 22 = x1 ∧ N / 2 ^ 17 % 2 ^ 5 = x2 ∧ N / 2 ^ 12 % 2 ^ 5 = x3 ∧ fld N 11 10 = x4 ∧ N / 2 ^ 0 % 2 ^ 10 = x5 ∧ N / 2 ^ 31 % 2 = l := by
  simp only [fld, Nat.reduceAdd, Nat.reduceSub, Nat.reducePow]
  omega

theorem lay39 {o x1 x2 x3 x4 x5 x6 l N : Nat} (_ : o < 8) (_ : x1 < 4) (_ : x2 < 32) (_ : x3 < 32) (_ : x4 < 4) (_ : x5 < 32) (_ : x6 < 2) (_ : l < 2)
    (hN : N = 805306368 + o * 16777216 + x1 * 4194304 + x2 * 131072 + x3 * 4096 + x4 * 1024 + x5 * 32 + x6 * 1 + l * 2147483648) :
    fld N 30 27 = 6 ∧ fld N 26 24 = o ∧ fld N 4 1 = 0 ∧ fld N 23 22 = x1 ∧ N / 2 ^ 17 % 2 ^ 5 = x2 ∧ N / 2 ^ 12 % 2 ^ 5 = x3 ∧ fld N 11 10 = x4 ∧ N / 2 ^ 5 % 2 ^ 5 = x5 ∧ N / 2 ^ 0 % 2 = x6 ∧ N / 2 ^ 31 % 2 = l := by
  simp only [fld, Nat.reduceAdd, Nat.reduceSub, Nat.reducePow]
  omega

theorem lay40 {o x1 x2 x3 x4 x5 l N : Nat} (_ : o < 8) (_ : x1 < 4) (_ : x2 < 32) (_ : x3 < 32) (_ : x4 < 4) (_ : x5 < 32) (_ : l < 2)
    (hN : N = 805306368 + o * 16777216 + x1 * 4194304 + x2 * 131072 + x3 * 4096 + x4 * 1024 + x5 * 32 + l * 2147483648) :
    fld N 30 27 = 6 ∧ fld N 26 24 = o ∧ fld N 4 0 = 0 ∧ fld N 23 22 = x1 ∧ N / 2 ^ 17 % 2 ^ 5 = x2 ∧ N / 2 ^ 12 % 2 ^ 5 = x3 ∧ fld N 11 10 = x4 ∧ N / 2 ^ 5 % 2 ^ 5 = x5 ∧ N / 2 ^ 31 % 2 = l := by
  simp only [fld, Nat.reduceAdd, Nat.reduceSub, Nat.reducePow]
  omega

theorem lay41 {o x1 x2 x3 x4 x5 l N : Nat} (_ : o < 64) (_ : x1 < 32) (_ : x2 < 32) (_ : x3 < 32) (_ : x4 < 2) (_ : x5 < 16) (_ : l < 2)
    (hN : N = 939524096 + o * 2097152 + x1 * 65536 + x2 * 2048 + x3 * 64 + x4 * 16 + x5 * 1 + l * 2147483648) :
    fld N 30 27 = 7 ∧ fld N 26 21 = o ∧ fld N 5 5 = 0 ∧ N / 2 ^ 16 % 2 ^ 5 = x1 ∧ N / 2 ^ 11 % 2 ^ 5 = x2 ∧ N / 2 ^ 6 % 2 ^ 5 = x3 ∧ N / 2 ^ 4 % 2 = x4 ∧ N / 2 ^ 0 % 2 ^ 4 = x5 ∧ N / 2 ^ 31 % 2 = l := by
  simp only [fld, Nat.reduceAdd, Nat.reduceSub, Nat.reducePow]
  omega

theorem lay42 {o x1 x2 l N : Nat} (_ : o < 64) (_ : x1 < 32) (_ : x2 < 16) (_ : l < 2)
    (hN : N = 939524096 + o * 2097152 + x1 * 65536 + x2 * 1 + l * 2147483648) :
    fld N 30 27 = 7 ∧ fld N 26 21 = o ∧ fld N 15 4 = 0 ∧ N / 2 ^ 16 % 2 ^ 5 = x1 ∧ N / 2 ^ 0 % 2 ^ 4 = x2 ∧ N / 2 ^ 31 % 2 = l := by
  simp only [fld, Nat.reduceAdd, Nat.reduceSub, Nat.reducePow]
  omega

theorem lay43 {o x1 x2 l N : Nat} (_ : o < 64) (_ : x1 < 32) (_ : x2 < 16) (_ : l < 2)
    (hN : N = 939524112 + o * 2097152 + x1 * 65536 + x2 * 1 + l * 2147483648) :
    fld N 30 27 = 7 ∧ fld N 26 21 = o ∧ fld N 15 4 = 1 ∧ N / 2 ^ 16 % 2 ^ 5 = x1 ∧ N / 2 ^ 0 % 2 ^ 4 = x2 ∧ N / 2 ^ 31 % 2 = l := by
  simp only [fld, Nat.reduceAdd, Nat.reduceSub, Nat.reducePow]
  omega

theorem lay44 {o x1 x2 l N : Nat} (_ : o < 64) (_ : x1 < 32) (_ : x2 < 16) (_ : l < 2)
    (hN : N = 939524128 + o * 2097152 + x1 * 65536 + x2 * 1 + l * 2147483648) :
    fld N 30 27 = 7 ∧ fld N 26 21 = o ∧ fld N 15 4 = 2 ∧ N / 2 ^ 16 % 2 ^ 5 = x1 ∧ N / 2 ^ 0 % 2 ^ 4 = x2 ∧ N / 2 ^ 31 % 2 = l := by
  simp only [fld, Nat.reduceAdd, Nat.reduceSub, Nat.reducePow]
  omega

theorem lay45 {o x1 x2 l N : Nat} (_ : o < 64) (_ : x1 < 32) (_ : x2 < 16) (_ : l < 2)
    (hN : N = 939524144 + o * 2097152 + x1 * 65536 + x2 * 1 + l * 2147483648) :
    fld N 30 27 = 7 ∧ fld N 26 21 = o ∧ fld N 15 4 = 3 ∧ N / 2 ^ 16 % 2 ^ 5 = x1 ∧ N / 2 ^ 0 % 2 ^ 4 = x2 ∧ N / 2 ^ 31 % 2 = l := by
  simp only [fld, Nat.reduceAdd, Nat.reduceSub, Nat.reducePow]
  omega

theorem lay46 {o x1 x2 x3 x4 l N : Nat} (_ : o < 64) (_ : x1 < 32) (_ : x2 < 32) (_ : x3 < 32) (_ : x4 < 64) (_ : l < 2)
    (hN : N = 939524096 + o * 2097152 + x1 * 65536 + x2 * 2048 + x3 * 64 + x4 * 1 + l * 2147483648) :
    fld N 30 27 = 7 ∧ fld N 26 21 = o ∧ N / 2 ^ 16 % 2 ^ 5 = x1 ∧ N / 2 ^ 11 % 2 ^ 5 = x2 ∧ N / 2 ^ 6 % 2 ^ 5 = x3 ∧ N / 2 ^ 0 % 2 ^ 6 = x4 ∧ N / 2 ^ 31 % 2 = l := by
  simp only [fld, Nat.reduceAdd, Nat.reduceSub, Nat.reducePow]
  omega

theorem lay47 {o x1 x2 x3 l N : Nat} (_ : o < 64) (_ : x1 < 32) (_ : x2 < 32) (_ : x3 < 32) (_ : l < 2)
    (hN : N = 939524096 + o * 2097152 + x1 * 65536 + x2 * 2048 + x3 * 64 + l * 2147483648) :
    fld N 30 27 = 7 ∧ fld N 26 21 = o ∧ fld N 5 0 = 0 ∧ N / 2 ^ 16 % 2 ^ 5 = x1 ∧ N / 2 ^ 11 % 2 ^ 5 = x2 ∧ N / 2 ^ 6 % 2 ^ 5 = x3 ∧ N / 2 ^ 31 % 2 = l := by
  simp only [fld, Nat.reduceAdd, Nat.reduceSub, Nat.reducePow]
  omega

theorem lay48 {o l N : Nat} (_ : o < 64) (_ : l < 2)
    (hN : N = 939524096 + o * 2097152 + l * 2147483648) :
    fld N 30 27 = 7 ∧ fld N 26 21 = o ∧ fld N 20 0 = 0 ∧ N / 2 ^ 31 % 2 = l := by
  simp only [fld, Nat.reduceAdd, Nat.reduceSub, Nat.reducePow]
  omega

theorem lay49 {o x1 x2 x3 x4 x5 l N : Nat} (_ : o < 64) (_ : x1 < 32) (_ : x2 < 32) (_ : x3 < 32) (_ : x4 < 2) (_ : x5 < 16) (_ : l < 2)
    (hN : N = 939524096 + o * 2097152 + x1 * 65536 + x2 * 2048 + x3 * 64 + x4 * 32 + x5 * 1 + l * 2147483648) :
    fld N 30 27 = 7 ∧ fld N 26 21 = o ∧ fld N 4 4 = 0 ∧ N / 2 ^ 16 % 2 ^ 5 = x1 ∧ N / 2 ^ 11 % 2 ^ 5 = x2 ∧ N / 2 ^ 6 % 2 ^ 5 = x3 ∧ N / 2 ^ 5 % 2 = x4 ∧ N / 2 ^ 0 % 2 ^ 4 = x5 ∧ N / 2 ^ 31 % 2 = l := by
  simp only [fld, Nat.reduceAdd, Nat.reduceSub, Nat.reducePow]
  omega

theorem lay50 {o x1 x2 l N : Nat} (_ : o < 64) (_ : x1 < 32) (_ : x2 < 32) (_ : l < 2)
    (hN : N = 939524096 + o * 2097152 + x1 * 65536 + x2 * 2048 + l * 2147483648) :
    fld N 30 27 = 7 ∧ fld N 26 21 = o ∧ fld N 10 0 = 0 ∧ N / 2 ^ 16 % 2 ^ 5 = x1 ∧ N / 2 ^ 11 % 2 ^ 5 = x2 ∧ N / 2 ^ 31 % 2 = l := by
  simp only [fld, Nat.reduceAdd, Nat.reduceSub, Nat.reducePow]
  omega

theorem lay51 {o x1 x2 x3 l N : Nat} (_ : o < 64) (_ : x1 < 32) (_ : x2 < 32) (_ : x3 < 64) (_ : l < 2)
    (hN : N = 939524096 + o * 2097152 + x1 * 65536 + x2 * 2048 + x3 * 1 + l * 2147483648) :
    fld N 30 27 = 7 ∧ fld N 26 21 = o ∧ fld N 10 6 = 0 ∧ N / 2 ^ 16 % 2 ^ 5 = x1 ∧ N / 2 ^ 11 % 2 ^ 5 = x2 ∧ N / 2 ^ 0 % 2 ^ 6 = x3 ∧ N / 2 ^ 31 % 2 = l := by
  simp only [fld, Nat.reduceAdd, Nat.reduceSub, Nat.reducePow]
  omega

theorem lay52 {o x1 l N : Nat} (_ : o < 64) (_ : x1 < 32) (_ : l < 2)
    (hN : N = 939524096 + o * 2097152 + x1 * 65536 + l * 2147483648) :
    fld N 30 27 = 7 ∧ fld N 26 21 = o ∧ fld N 15 0 = 0 ∧ N / 2 ^ 16 % 2 ^ 5 = x1 ∧ N / 2 ^ 31 % 2 = l := by
  simp only [fld, Nat.reduceAdd, Nat.reduceSub, Nat.reducePow]
  omega

theorem lay53 {o x1 x2 x3 x4 x5 l N : Nat} (_ : o < 32) (_ : x1 < 32) (_ : x2 < 32) (_ : x3 < 2) (_ : x4 < 8) (_ : x5 < 8) (_ : l < 2)
    (hN : N = 1073741824 + o * 4194304 + x1 * 131072 + x2 * 4096 + x3 * 2048 + x4 * 128 + x5 * 1 + l * 2147483648) :
    fld N 30 27 = 8 ∧ fld N 26 22 = o ∧ fld N 6 3 = 0 ∧ fld N 10 10 = 0 ∧ N / 2 ^ 17 % 2 ^ 5 = x1 ∧ N / 2 ^ 12 % 2 ^ 5 = x2 ∧ N / 2 ^ 11 % 2 = x3 ∧ N / 2 ^ 7 % 2 ^ 3 = x4 ∧ N / 2 ^ 0 % 2 ^ 3 = x5 ∧ N / 2 ^ 31 % 2 = l := by
  simp only [fld, Nat.reduceAdd, Nat.reduceSub, Nat.reducePow]
  omega

theorem lay54 {o x1 x2 x3 x4 l N : Nat} (_ : o < 32) (_ : x1 < 32) (_ : x2 < 32) (_ : x3 < 4) (_ : x4 < 8) (_ : l < 2)
    (hN : N = 1073741824 + o * 4194304 + x1 * 131072 + x2 * 4096 + x3 * 1024 + x4 * 128 + l * 2147483648) :
    fld N 30 27 = 8 ∧ fld N 26 22 = o ∧ fld N 6 0 = 0 ∧ N / 2 ^ 17 % 2 ^ 5 = x1 ∧ N / 2 ^ 12 % 2 ^ 5 = x2 ∧ fld N 11 10 = x3 ∧ N / 2 ^ 7 % 2 ^ 3 = x4 ∧ N / 2 ^ 31 % 2 = l := by
  simp only [fld, Nat.reduceAdd, Nat.reduceSub, Nat.reducePow]
  omega

theorem lay55 {o x1 x2 x3 l N : Nat} (_ : o < 32) (_ : x1 < 32) (_ : x2 < 32) (_ : x3 < 8) (_ : l < 2)
    (hN : N = 1073741824 + o * 4194304 + x1 * 131072 + x2 * 4096 + x3 * 128 + l * 2147483648) :
    fld N 30 27 = 8 ∧ fld N 26 22 = o ∧ fld N 6 0 = 0 ∧ fld N 11 10 = 0 ∧ N / 2 ^ 17 % 2 ^ 5 = x1 ∧ N / 2 ^ 12 % 2 ^ 5 = x2 ∧ N / 2 ^ 7 % 2 ^ 3 = x3 ∧ N / 2 ^ 31 % 2 = l := by
  simp only [fld, Nat.reduceAdd, Nat.reduceSub, Nat.reducePow]
  omega

theorem lay56 {o x1 x2 x3 x4 x5 x6 l N : Nat} (_ : o < 32) (_ : x1 < 32) (_ : x2 < 32) (_ : x3 < 2) (_ : x4 < 8) (_ : x5 < 6) (_ : x6 < 12) (_ : l < 2)
    (hN : N = 1073741824 + o * 4194304 + x1 * 131072 + x2 * 4096 + x3 * 1024 + x4 * 128 + x5 * 16 + x6 * 1 + l * 2147483648) :
    fld N 30 27 = 8 ∧ fld N 26 22 = o ∧ fld N 11 11 = 0 ∧ N / 2 ^ 17 % 2 ^ 5 = x1 ∧ N / 2 ^ 12 % 2 ^ 5 = x2 ∧ N / 2 ^ 10 % 2 = x3 ∧ N / 2 ^ 7 % 2 ^ 3 = x4 ∧ fld N 6 4 = x5 ∧ fld N 3 0 = x6 ∧ N / 2 ^ 31 % 2 = l := by
  simp only [fld, Nat.reduceAdd, Nat.reduceSub, Nat.reducePow]
  omega

theorem lay57 {o x1 l N : Nat} (_ : o < 32) (_ : x1 < 32) (_ : l < 2)
    (hN : N = 1073741824 + o * 4194304 + x1 * 131072 + l * 2147483648) :
    fld N 30 27 = 8 ∧ fld N 26 22 = o ∧ fld N 16 0 = 0 ∧ N / 2 ^ 17 % 2 ^ 5 = x1 ∧ N / 2 ^ 31 % 2 = l := by
  simp only [fld, Nat.reduceAdd, Nat.reduceSub, Nat.reducePow]
  omega

theorem lay58 {o x1 l N : Nat} (_ : o < 32) (_ : x1 < 64) (_ : l < 2)
    (hN : N = 1073741824 + o * 4194304 + x1 * 128 + l * 2147483648) :
    fld N 30 27 = 8 ∧ fld N 26 22 = o ∧ fld N 6 0 = 0 ∧ fld N 21 13 = 0 ∧ N / 2 ^ 7 % 2 ^ 6 = x1 ∧ N / 2 ^ 31 % 2 = l := by
  simp only [fld, Nat.reduceAdd, Nat.reduceSub, Nat.reducePow]
  omega

theorem lay59 {o x1 l N : Nat} (_ : o < 32) (_ : x1 < 32) (_ : l < 2)
    (hN : N = 1073741824 + o * 4194304 + x1 * 4096 + l * 2147483648) :
    fld N 30 27 = 8 ∧ fld N 26 22 = o ∧ fld N 11 0 = 0 ∧ fld N 21 17 = 0 ∧ N / 2 ^ 12 % 2 ^ 5 = x1 ∧ N / 2 ^ 31 % 2 = l := by
  simp only [fld, Nat.reduceAdd, Nat.reduceSub, Nat.reducePow]
  omega

theorem lay60 {o x1 l N : Nat} (_ : o < 32) (_ : x1 < 6) (_ : l < 2)
    (hN : N = 1073741824 + o * 4194304 + x1 * 16 + l * 2147483648) :
    fld N 30 27 = 8 ∧ fld N 26 22 = o ∧ fld N 3 0 = 0 ∧ fld N 21 7 = 0 ∧ fld N 6 4 = x1 ∧ N / 2 ^ 31 % 2 = l := by
  simp only [fld, Nat.reduceAdd, Nat.reduceSub, Nat.reducePow]
  omega

theorem lay61 {o x1 l N : Nat} (_ : o < 32) (_ : x1 < 6) (_ : l < 2)
    (hN : N = 1073741825 + o * 4194304 + x1 * 16 + l * 2147483648) :
    fld N 30 27 = 8 ∧ fld N 26 22 = o ∧ fld N 3 0 = 1 ∧ fld N 21 7 = 0 ∧ fld N 6 4 = x1 ∧ N / 2 ^ 31 % 2 = l := by
  simp only [fld, Nat.reduceAdd, Nat.reduceSub, Nat.reducePow]
  omega

theorem lay62 {o x1 l N : Nat} (_ : o < 32) (_ : x1 < 6) (_ : l < 2)
    (hN : N = 1073741826 + o * 4194304 + x1 * 16 + l * 2147483648) :
    fld N 30 27 = 8 ∧ fld N 26 22 = o ∧ fld N 3 0 = 2 ∧ fld N 21 7 = 0 ∧ fld N 6 4 = x1 ∧ N / 2 ^ 31 % 2 = l := by
  simp only [fld, Nat.reduceAdd, Nat.reduceSub, Nat.reducePow]
  omega

theorem lay63 {o l N : Nat} (_ : o < 32) (_ : l < 2)
    (hN : N = 1073741824 + o * 4194304 + l * 2147483648) :
    fld N 30 27 = 8 ∧ fld N 26 22 = o ∧ fld N 21 0 = 0 ∧ N / 2 ^ 31 % 2 = l := by
  simp only [fld, Nat.reduceAdd, Nat.reduceSub, Nat.reducePow]
  omega

theorem lay64 {o x1 x2 l N : Nat} (_ : o < 64) (_ : x1 < 32) (_ : x2 < 65536) (_ : l < 2)
    (hN : N = 1207959552 + o * 2097152 + x1 * 65536 + x2 * 1 + l * 2147483648) :
    fld N 30 27 = 9 ∧ fld N 26 21 = o ∧ N / 2 ^ 16 % 2 ^ 5 = x1 ∧ N / 2 ^ 0 % 2 ^ 16 = x2 ∧ N / 2 ^ 31 % 2 = l := by
  simp only [fld, Nat.reduceAdd, Nat.reduceSub, Nat.reducePow]
  omega

theorem lay65 {o x1 l N : Nat} (_ : o < 64) (_ : x1 < 256) (_ : l < 2)
    (hN : N = 1207959552 + o * 2097152 + x1 * 1 + l * 2147483648) :
    fld N 30 27 = 9 ∧ fld N 26 21 = o ∧ fld N 20 8 = 0 ∧ N / 2 ^ 0 % 2 ^ 8 = x1 ∧ N / 2 ^ 31 % 2 = l := by
  simp only [fld, Nat.reduceAdd, Nat.reduceSub, Nat.reducePow]
  omega

theorem lay66 {o l N : Nat} (_ : o < 64) (_ : l < 2)
    (hN : N = 1207959552 + o * 2097152 + l * 2147483648) :
    fld N 30 27 = 9 ∧ fld N 26 21 = o ∧ fld N 20 0 = 0 ∧ N / 2 ^ 31 % 2 = l := by
  simp only [fld, Nat.reduceAdd, Nat.reduceSub, Nat.reducePow]
  omega

theorem lay67 {o x1 l N : Nat} (_ : o < 64) (_ : x1 < 65536) (_ : l < 2)
    (hN : N = 1207959552 + o * 2097152 + x1 * 1 + l * 2147483648) :
    fld N 30 27 = 9 ∧ fld N 26 21 = o ∧ fld N 20 16 = 0 ∧ N / 2 ^ 0 % 2 ^ 16 = x1 ∧ N / 2 ^ 31 % 2 = l := by
  simp only [fld, Nat.reduceAdd, Nat.reduceSub, Nat.reducePow]
  omega

theorem lay68 {o x1 l N : Nat} (_ : o < 64) (_ : x1 < 32) (_ : l < 2)
    (hN : N = 1207959552 + o * 2097152 + x1 * 65536 + l * 2147483648) :
    fld N 30 27 = 9 ∧ fld N 26 21 = o ∧ fld N 15 0 = 0 ∧ N / 2 ^ 16 % 2 ^ 5 = x1 ∧ N / 2 ^ 31 % 2 = l := by
  simp only [fld, Nat.reduceAdd, Nat.reduceSub, Nat.reducePow]
  omega

theorem lay69 {o x1 l N : Nat} (_ : o < 64) (_ : x1 < 64) (_ : l < 2)
    (hN : N = 1207959552 + o * 2097152 + x1 * 1 + l * 2147483648) :
    fld N 30 27 = 9 ∧ fld N 26 21 = o ∧ fld N 20 6 = 0 ∧ N / 2 ^ 0 % 2 ^ 6 = x1 ∧ N / 2 ^ 31 % 2 = l := by
  simp only [fld, Nat.reduceAdd, Nat.reduceSub, Nat.reducePow]
  omega

theorem lay70 {o x1 l N : Nat} (_ : o < 2) (_ : x1 < 67108864) (_ : l < 2)
    (hN : N = 1342177280 + o * 67108864 + x1 * 1 + l * 2147483648) :
    fld N 30 27 = 10 ∧ fld N 26 26 = o ∧ N / 2 ^ 0 % 2 ^ 26 = x1 ∧ N / 2 ^ 31 % 2 = l := by
  simp only [fld, Nat.reduceAdd, Nat.reduceSub, Nat.reducePow]
  omega

theorem lay71 {x1 l N : Nat} (_ : x1 < 134217728) (_ : l < 2)
    (hN : N = 1476395008 + x1 * 1 + l * 2147483648) :
    fld N 30 27 = 11 ∧ N / 2 ^ 0 % 2 ^ 27 = x1 ∧ N / 2 ^ 31 % 2 = l := by
  simp only [fld, Nat.reduceAdd, Nat.reduceSub, Nat.reducePow]
  omega

theorem add (d : Reg) (a : Reg) (b : Reg) (w : Bool) (sp : Bool) : Statement (.add d a b w sp) := by
  intro hw _ st l hst
  have b_d := d.isLt
  have b_a := a.isLt
  have b_b := b.isLt
  have b_w := Bool.toNat_lt w
  have b_sp := Bool.toNat_lt sp
  have b_l := Bool.toNat_lt l
  refine back_of (k := 0 + d.toNat * 65536 + a.toNat * 2048 + b.toNat * 64 + w.toNat * 32 + sp.toNat * 16) hw rfl rfl (by omega) fun N hN => ?_
  obtain ⟨f1, f2, f3, f4, f5, f6, f7, f8, fl⟩ := lay1 (N := N) (o := 0) (by decide) b_d b_a b_b b_w b_sp b_l (by omega)
  clear hw
  exact ⟨by simp [decodeFields, decodeSR, f1, f2, f3, bv_eq f4, bv_eq f5, bv_eq f6, bit_eq f7, bit_eq f8], bit_eq fl⟩

theorem sub (d : Reg) (a : Reg) (b : Reg) (w : Bool) (sp : Bool) : Statement (.sub d a b w sp) := by
  intro hw _ st l hst
  have b_d := d.isLt
  have b_a := a.isLt
  have b_b := b.isLt
  have b_w := Bool.toNat_lt w
  have b_sp := Bool.toNat_lt sp
  have b_l := Bool.toNat_lt l
  refine back_of (k := 2097152 + d.toNat * 65536 + a.toNat * 2048 + b.toNat * 64 + w.toNat * 32 + sp.toNat * 16) hw rfl rfl (by omega) fun N hN => ?_
  obtain ⟨f1, f2, f3, f4, f5, f6, f7, f8, fl⟩ := lay1 (N := N) (o := 1) (by decide) b_d b_a b_b b_w b_sp b_l (by omega)
  clear hw
  exact ⟨by simp [decodeFields, decodeSR, f1, f2, f3, bv_eq f4, bv_eq f5, bv_eq f6, bit_eq f7, bit_eq f8], bit_eq fl⟩

theorem mul (d : Reg) (a : Reg) (b : Reg) (w : Bool) (sp : Bool) : Statement (.mul d a b w sp) := by
  intro hw _ st l hst
  have b_d := d.isLt
  have b_a := a.isLt
  have b_b := b.isLt
  have b_w := Bool.toNat_lt w
  have b_sp := Bool.toNat_lt sp
  have b_l := Bool.toNat_lt l
  refine back_of (k := 4194304 + d.toNat * 65536 + a.toNat * 2048 + b.toNat * 64 + w.toNat * 32 + sp.toNat * 16) hw rfl rfl (by omega) fun N hN => ?_
  obtain ⟨f1, f2, f3, f4, f5, f6, f7, f8, fl⟩ := lay1 (N := N) (o := 2) (by decide) b_d b_a b_b b_w b_sp b_l (by omega)
  clear hw
  exact ⟨by simp [decodeFields, decodeSR, f1, f2, f3, bv_eq f4, bv_eq f5, bv_eq f6, bit_eq f7, bit_eq f8], bit_eq fl⟩

theorem mulh (d : Reg) (a : Reg) (b : Reg) (w : Bool) (sp : Bool) : Statement (.mulh d a b w sp) := by
  intro hw _ st l hst
  have b_d := d.isLt
  have b_a := a.isLt
  have b_b := b.isLt
  have b_w := Bool.toNat_lt w
  have b_sp := Bool.toNat_lt sp
  have b_l := Bool.toNat_lt l
  refine back_of (k := 6291456 + d.toNat * 65536 + a.toNat * 2048 + b.toNat * 64 + w.toNat * 32 + sp.toNat * 16) hw rfl rfl (by omega) fun N hN => ?_
  obtain ⟨f1, f2, f3, f4, f5, f6, f7, f8, fl⟩ := lay1 (N := N) (o := 3) (by decide) b_d b_a b_b b_w b_sp b_l (by omega)
  clear hw
  exact ⟨by simp [decodeFields, decodeSR, f1, f2, f3, bv_eq f4, bv_eq f5, bv_eq f6, bit_eq f7, bit_eq f8], bit_eq fl⟩

theorem mulhn (d : Reg) (a : Reg) (b : Reg) (w : Bool) (sp : Bool) : Statement (.mulhn d a b w sp) := by
  intro hw _ st l hst
  have b_d := d.isLt
  have b_a := a.isLt
  have b_b := b.isLt
  have b_w := Bool.toNat_lt w
  have b_sp := Bool.toNat_lt sp
  have b_l := Bool.toNat_lt l
  refine back_of (k := 8388608 + d.toNat * 65536 + a.toNat * 2048 + b.toNat * 64 + w.toNat * 32 + sp.toNat * 16) hw rfl rfl (by omega) fun N hN => ?_
  obtain ⟨f1, f2, f3, f4, f5, f6, f7, f8, fl⟩ := lay1 (N := N) (o := 4) (by decide) b_d b_a b_b b_w b_sp b_l (by omega)
  clear hw
  exact ⟨by simp [decodeFields, decodeSR, f1, f2, f3, bv_eq f4, bv_eq f5, bv_eq f6, bit_eq f7, bit_eq f8], bit_eq fl⟩

theorem div (d : Reg) (a : Reg) (b : Reg) (w : Bool) (sp : Bool) : Statement (.div d a b w sp) := by
  intro hw _ st l hst
  have b_d := d.isLt
  have b_a := a.isLt
  have b_b := b.isLt
  have b_w := Bool.toNat_lt w
  have b_sp := Bool.toNat_lt sp
  have b_l := Bool.toNat_lt l
  refine back_of (k := 10485760 + d.toNat * 65536 + a.toNat * 2048 + b.toNat * 64 + w.toNat * 32 + sp.toNat * 16) hw rfl rfl (by omega) fun N hN => ?_
  obtain ⟨f1, f2, f3, f4, f5, f6, f7, f8, fl⟩ := lay1 (N := N) (o := 5) (by decide) b_d b_a b_b b_w b_sp b_l (by omega)
  clear hw
  exact ⟨by simp [decodeFields, decodeSR, f1, f2, f3, bv_eq f4, bv_eq f5, bv_eq f6, bit_eq f7, bit_eq f8], bit_eq fl⟩

theorem divn (d : Reg) (a : Reg) (b : Reg) (w : Bool) (sp : Bool) : Statement (.divn d a b w sp) := by
  intro hw _ st l hst
  have b_d := d.isLt
  have b_a := a.isLt
  have b_b := b.isLt
  have b_w := Bool.toNat_lt w
  have b_sp := Bool.toNat_lt sp
  have b_l := Bool.toNat_lt l
  refine back_of (k := 12582912 + d.toNat * 65536 + a.toNat * 2048 + b.toNat * 64 + w.toNat * 32 + sp.toNat * 16) hw rfl rfl (by omega) fun N hN => ?_
  obtain ⟨f1, f2, f3, f4, f5, f6, f7, f8, fl⟩ := lay1 (N := N) (o := 6) (by decide) b_d b_a b_b b_w b_sp b_l (by omega)
  clear hw
  exact ⟨by simp [decodeFields, decodeSR, f1, f2, f3, bv_eq f4, bv_eq f5, bv_eq f6, bit_eq f7, bit_eq f8], bit_eq fl⟩

theorem rem (d : Reg) (a : Reg) (b : Reg) (w : Bool) (sp : Bool) : Statement (.rem d a b w sp) := by
  intro hw _ st l hst
  have b_d := d.isLt
  have b_a := a.isLt
  have b_b := b.isLt
  have b_w := Bool.toNat_lt w
  have b_sp := Bool.toNat_lt sp
  have b_l := Bool.toNat_lt l
  refine back_of (k := 14680064 + d.toNat * 65536 + a.toNat * 2048 + b.toNat * 64 + w.toNat * 32 + sp.toNat * 16) hw rfl rfl (by omega) fun N hN => ?_
  obtain ⟨f1, f2, f3, f4, f5, f6, f7, f8, fl⟩ := lay1 (N := N) (o := 7) (by decide) b_d b_a b_b b_w b_sp b_l (by omega)
  clear hw
  exact ⟨by simp [decodeFields, decodeSR, f1, f2, f3, bv_eq f4, bv_eq f5, bv_eq f6, bit_eq f7, bit_eq f8], bit_eq fl⟩

theorem remn (d : Reg) (a : Reg) (b : Reg) (w : Bool) (sp : Bool) : Statement (.remn d a b w sp) := by
  intro hw _ st l hst
  have b_d := d.isLt
  have b_a := a.isLt
  have b_b := b.isLt
  have b_w := Bool.toNat_lt w
  have b_sp := Bool.toNat_lt sp
  have b_l := Bool.toNat_lt l
  refine back_of (k := 16777216 + d.toNat * 65536 + a.toNat * 2048 + b.toNat * 64 + w.toNat * 32 + sp.toNat * 16) hw rfl rfl (by omega) fun N hN => ?_
  obtain ⟨f1, f2, f3, f4, f5, f6, f7, f8, fl⟩ := lay1 (N := N) (o := 8) (by decide) b_d b_a b_b b_w b_sp b_l (by omega)
  clear hw
  exact ⟨by simp [decodeFields, decodeSR, f1, f2, f3, bv_eq f4, bv_eq f5, bv_eq f6, bit_eq f7, bit_eq f8], bit_eq fl⟩

theorem and (d : Reg) (a : Reg) (b : Reg) (w : Bool) (sp : Bool) : Statement (.and d a b w sp) := by
  intro hw _ st l hst
  have b_d := d.isLt
  have b_a := a.isLt
  have b_b := b.isLt
  have b_w := Bool.toNat_lt w
  have b_sp := Bool.toNat_lt sp
  have b_l := Bool.toNat_lt l
  refine back_of (k := 18874368 + d.toNat * 65536 + a.toNat * 2048 + b.toNat * 64 + w.toNat * 32 + sp.toNat * 16) hw rfl rfl (by omega) fun N hN => ?_
  obtain ⟨f1, f2, f3, f4, f5, f6, f7, f8, fl⟩ := lay1 (N := N) (o := 9) (by decide) b_d b_a b_b b_w b_sp b_l (by omega)
  clear hw
  exact ⟨by simp [decodeFields, decodeSR, f1, f2, f3, bv_eq f4, bv_eq f5, bv_eq f6, bit_eq f7, bit_eq f8], bit_eq fl⟩

theorem or (d : Reg) (a : Reg) (b : Reg) (w : Bool) (sp : Bool) : Statement (.or d a b w sp) := by
  intro hw _ st l hst
  have b_d := d.isLt
  have b_a := a.isLt
  have b_b := b.isLt
  have b_w := Bool.toNat_lt w
  have b_sp := Bool.toNat_lt sp
  have b_l := Bool.toNat_lt l
  refine back_of (k := 20971520 + d.toNat * 65536 + a.toNat * 2048 + b.toNat * 64 + w.toNat * 32 + sp.toNat * 16) hw rfl rfl (by omega) fun N hN => ?_
  obtain ⟨f1, f2, f3, f4, f5, f6, f7, f8, fl⟩ := lay1 (N := N) (o := 10) (by decide) b_d b_a b_b b_w b_sp b_l (by omega)
  clear hw
  exact ⟨by simp [decodeFields, decodeSR, f1, f2, f3, bv_eq f4, bv_eq f5, bv_eq f6, bit_eq f7, bit_eq f8], bit_eq fl⟩

theorem xor (d : Reg) (a : Reg) (b : Reg) (w : Bool) (sp : Bool) : Statement (.xor d a b w sp) := by
  intro hw _ st l hst
  have b_d := d.isLt
  have b_a := a.isLt
  have b_b := b.isLt
  have b_w := Bool.toNat_lt w
  have b_sp := Bool.toNat_lt sp
  have b_l := Bool.toNat_lt l
  refine back_of (k := 23068672 + d.toNat * 65536 + a.toNat * 2048 + b.toNat * 64 + w.toNat * 32 + sp.toNat * 16) hw rfl rfl (by omega) fun N hN => ?_
  obtain ⟨f1, f2, f3, f4, f5, f6, f7, f8, fl⟩ := lay1 (N := N) (o := 11) (by decide) b_d b_a b_b b_w b_sp b_l (by omega)
  clear hw
  exact ⟨by simp [decodeFields, decodeSR, f1, f2, f3, bv_eq f4, bv_eq f5, bv_eq f6, bit_eq f7, bit_eq f8], bit_eq fl⟩

theorem andn (d : Reg) (a : Reg) (b : Reg) (w : Bool) (sp : Bool) : Statement (.andn d a b w sp) := by
  intro hw _ st l hst
  have b_d := d.isLt
  have b_a := a.isLt
  have b_b := b.isLt
  have b_w := Bool.toNat_lt w
  have b_sp := Bool.toNat_lt sp
  have b_l := Bool.toNat_lt l
  refine back_of (k := 25165824 + d.toNat * 65536 + a.toNat * 2048 + b.toNat * 64 + w.toNat * 32 + sp.toNat * 16) hw rfl rfl (by omega) fun N hN => ?_
  obtain ⟨f1, f2, f3, f4, f5, f6, f7, f8, fl⟩ := lay1 (N := N) (o := 12) (by decide) b_d b_a b_b b_w b_sp b_l (by omega)
  clear hw
  exact ⟨by simp [decodeFields, decodeSR, f1, f2, f3, bv_eq f4, bv_eq f5, bv_eq f6, bit_eq f7, bit_eq f8], bit_eq fl⟩

theorem orn (d : Reg) (a : Reg) (b : Reg) (w : Bool) (sp : Bool) : Statement (.orn d a b w sp) := by
  intro hw _ st l hst
  have b_d := d.isLt
  have b_a := a.isLt
  have b_b := b.isLt
  have b_w := Bool.toNat_lt w
  have b_sp := Bool.toNat_lt sp
  have b_l := Bool.toNat_lt l
  refine back_of (k := 27262976 + d.toNat * 65536 + a.toNat * 2048 + b.toNat * 64 + w.toNat * 32 + sp.toNat * 16) hw rfl rfl (by omega) fun N hN => ?_
  obtain ⟨f1, f2, f3, f4, f5, f6, f7, f8, fl⟩ := lay1 (N := N) (o := 13) (by decide) b_d b_a b_b b_w b_sp b_l (by omega)
  clear hw
  exact ⟨by simp [decodeFields, decodeSR, f1, f2, f3, bv_eq f4, bv_eq f5, bv_eq f6, bit_eq f7, bit_eq f8], bit_eq fl⟩

theorem shl (d : Reg) (a : Reg) (b : Reg) (w : Bool) (sp : Bool) : Statement (.shl d a b w sp) := by
  intro hw _ st l hst
  have b_d := d.isLt
  have b_a := a.isLt
  have b_b := b.isLt
  have b_w := Bool.toNat_lt w
  have b_sp := Bool.toNat_lt sp
  have b_l := Bool.toNat_lt l
  refine back_of (k := 29360128 + d.toNat * 65536 + a.toNat * 2048 + b.toNat * 64 + w.toNat * 32 + sp.toNat * 16) hw rfl rfl (by omega) fun N hN => ?_
  obtain ⟨f1, f2, f3, f4, f5, f6, f7, f8, fl⟩ := lay1 (N := N) (o := 14) (by decide) b_d b_a b_b b_w b_sp b_l (by omega)
  clear hw
  exact ⟨by simp [decodeFields, decodeSR, f1, f2, f3, bv_eq f4, bv_eq f5, bv_eq f6, bit_eq f7, bit_eq f8], bit_eq fl⟩

theorem shr (d : Reg) (a : Reg) (b : Reg) (w : Bool) (sp : Bool) : Statement (.shr d a b w sp) := by
  intro hw _ st l hst
  have b_d := d.isLt
  have b_a := a.isLt
  have b_b := b.isLt
  have b_w := Bool.toNat_lt w
  have b_sp := Bool.toNat_lt sp
  have b_l := Bool.toNat_lt l
  refine back_of (k := 31457280 + d.toNat * 65536 + a.toNat * 2048 + b.toNat * 64 + w.toNat * 32 + sp.toNat * 16) hw rfl rfl (by omega) fun N hN => ?_
  obtain ⟨f1, f2, f3, f4, f5, f6, f7, f8, fl⟩ := lay1 (N := N) (o := 15) (by decide) b_d b_a b_b b_w b_sp b_l (by omega)
  clear hw
  exact ⟨by simp [decodeFields, decodeSR, f1, f2, f3, bv_eq f4, bv_eq f5, bv_eq f6, bit_eq f7, bit_eq f8], bit_eq fl⟩

theorem sar (d : Reg) (a : Reg) (b : Reg) (w : Bool) (sp : Bool) : Statement (.sar d a b w sp) := by
  intro hw _ st l hst
  have b_d := d.isLt
  have b_a := a.isLt
  have b_b := b.isLt
  have b_w := Bool.toNat_lt w
  have b_sp := Bool.toNat_lt sp
  have b_l := Bool.toNat_lt l
  refine back_of (k := 33554432 + d.toNat * 65536 + a.toNat * 2048 + b.toNat * 64 + w.toNat * 32 + sp.toNat * 16) hw rfl rfl (by omega) fun N hN => ?_
  obtain ⟨f1, f2, f3, f4, f5, f6, f7, f8, fl⟩ := lay1 (N := N) (o := 16) (by decide) b_d b_a b_b b_w b_sp b_l (by omega)
  clear hw
  exact ⟨by simp [decodeFields, decodeSR, f1, f2, f3, bv_eq f4, bv_eq f5, bv_eq f6, bit_eq f7, bit_eq f8], bit_eq fl⟩

theorem rol (d : Reg) (a : Reg) (b : Reg) (w : Bool) (sp : Bool) : Statement (.rol d a b w sp) := by
  intro hw _ st l hst
  have b_d := d.isLt
  have b_a := a.isLt
  have b_b := b.isLt
  have b_w := Bool.toNat_lt w
  have b_sp := Bool.toNat_lt sp
  have b_l := Bool.toNat_lt l
  refine back_of (k := 35651584 + d.toNat * 65536 + a.toNat * 2048 + b.toNat * 64 + w.toNat * 32 + sp.toNat * 16) hw rfl rfl (by omega) fun N hN => ?_
  obtain ⟨f1, f2, f3, f4, f5, f6, f7, f8, fl⟩ := lay1 (N := N) (o := 17) (by decide) b_d b_a b_b b_w b_sp b_l (by omega)
  clear hw
  exact ⟨by simp [decodeFields, decodeSR, f1, f2, f3, bv_eq f4, bv_eq f5, bv_eq f6, bit_eq f7, bit_eq f8], bit_eq fl⟩

theorem ror (d : Reg) (a : Reg) (b : Reg) (w : Bool) (sp : Bool) : Statement (.ror d a b w sp) := by
  intro hw _ st l hst
  have b_d := d.isLt
  have b_a := a.isLt
  have b_b := b.isLt
  have b_w := Bool.toNat_lt w
  have b_sp := Bool.toNat_lt sp
  have b_l := Bool.toNat_lt l
  refine back_of (k := 37748736 + d.toNat * 65536 + a.toNat * 2048 + b.toNat * 64 + w.toNat * 32 + sp.toNat * 16) hw rfl rfl (by omega) fun N hN => ?_
  obtain ⟨f1, f2, f3, f4, f5, f6, f7, f8, fl⟩ := lay1 (N := N) (o := 18) (by decide) b_d b_a b_b b_w b_sp b_l (by omega)
  clear hw
  exact ⟨by simp [decodeFields, decodeSR, f1, f2, f3, bv_eq f4, bv_eq f5, bv_eq f6, bit_eq f7, bit_eq f8], bit_eq fl⟩

theorem min (d : Reg) (a : Reg) (b : Reg) (w : Bool) (sp : Bool) : Statement (.min d a b w sp) := by
  intro hw _ st l hst
  have b_d := d.isLt
  have b_a := a.isLt
  have b_b := b.isLt
  have b_w := Bool.toNat_lt w
  have b_sp := Bool.toNat_lt sp
  have b_l := Bool.toNat_lt l
  refine back_of (k := 39845888 + d.toNat * 65536 + a.toNat * 2048 + b.toNat * 64 + w.toNat * 32 + sp.toNat * 16) hw rfl rfl (by omega) fun N hN => ?_
  obtain ⟨f1, f2, f3, f4, f5, f6, f7, f8, fl⟩ := lay1 (N := N) (o := 19) (by decide) b_d b_a b_b b_w b_sp b_l (by omega)
  clear hw
  exact ⟨by simp [decodeFields, decodeSR, f1, f2, f3, bv_eq f4, bv_eq f5, bv_eq f6, bit_eq f7, bit_eq f8], bit_eq fl⟩

theorem max (d : Reg) (a : Reg) (b : Reg) (w : Bool) (sp : Bool) : Statement (.max d a b w sp) := by
  intro hw _ st l hst
  have b_d := d.isLt
  have b_a := a.isLt
  have b_b := b.isLt
  have b_w := Bool.toNat_lt w
  have b_sp := Bool.toNat_lt sp
  have b_l := Bool.toNat_lt l
  refine back_of (k := 41943040 + d.toNat * 65536 + a.toNat * 2048 + b.toNat * 64 + w.toNat * 32 + sp.toNat * 16) hw rfl rfl (by omega) fun N hN => ?_
  obtain ⟨f1, f2, f3, f4, f5, f6, f7, f8, fl⟩ := lay1 (N := N) (o := 20) (by decide) b_d b_a b_b b_w b_sp b_l (by omega)
  clear hw
  exact ⟨by simp [decodeFields, decodeSR, f1, f2, f3, bv_eq f4, bv_eq f5, bv_eq f6, bit_eq f7, bit_eq f8], bit_eq fl⟩

theorem minn (d : Reg) (a : Reg) (b : Reg) (w : Bool) (sp : Bool) : Statement (.minn d a b w sp) := by
  intro hw _ st l hst
  have b_d := d.isLt
  have b_a := a.isLt
  have b_b := b.isLt
  have b_w := Bool.toNat_lt w
  have b_sp := Bool.toNat_lt sp
  have b_l := Bool.toNat_lt l
  refine back_of (k := 44040192 + d.toNat * 65536 + a.toNat * 2048 + b.toNat * 64 + w.toNat * 32 + sp.toNat * 16) hw rfl rfl (by omega) fun N hN => ?_
  obtain ⟨f1, f2, f3, f4, f5, f6, f7, f8, fl⟩ := lay1 (N := N) (o := 21) (by decide) b_d b_a b_b b_w b_sp b_l (by omega)
  clear hw
  exact ⟨by simp [decodeFields, decodeSR, f1, f2, f3, bv_eq f4, bv_eq f5, bv_eq f6, bit_eq f7, bit_eq f8], bit_eq fl⟩

theorem maxn (d : Reg) (a : Reg) (b : Reg) (w : Bool) (sp : Bool) : Statement (.maxn d a b w sp) := by
  intro hw _ st l hst
  have b_d := d.isLt
  have b_a := a.isLt
  have b_b := b.isLt
  have b_w := Bool.toNat_lt w
  have b_sp := Bool.toNat_lt sp
  have b_l := Bool.toNat_lt l
  refine back_of (k := 46137344 + d.toNat * 65536 + a.toNat * 2048 + b.toNat * 64 + w.toNat * 32 + sp.toNat * 16) hw rfl rfl (by omega) fun N hN => ?_
  obtain ⟨f1, f2, f3, f4, f5, f6, f7, f8, fl⟩ := lay1 (N := N) (o := 22) (by decide) b_d b_a b_b b_w b_sp b_l (by omega)
  clear hw
  exact ⟨by simp [decodeFields, decodeSR, f1, f2, f3, bv_eq f4, bv_eq f5, bv_eq f6, bit_eq f7, bit_eq f8], bit_eq fl⟩

theorem clz (d : Reg) (a : Reg) (w : Bool) (sp : Bool) : Statement (.clz d a w sp) := by
  intro hw _ st l hst
  have b_d := d.isLt
  have b_a := a.isLt
  have b_w := Bool.toNat_lt w
  have b_sp := Bool.toNat_lt sp
  have b_l := Bool.toNat_lt l
  refine back_of (k := 48234496 + d.toNat * 65536 + a.toNat * 2048 + w.toNat * 32 + sp.toNat * 16) hw rfl rfl (by omega) fun N hN => ?_
  obtain ⟨f1, f2, f3, f4, f5, f6, f7, f8, fl⟩ := lay2 (N := N) (o := 23) (by decide) b_d b_a b_w b_sp b_l (by omega)
  clear hw
  exact ⟨by simp [decodeFields, decodeSR, f1, f2, f3, f4, bv_eq f5, bv_eq f6, bit_eq f7, bit_eq f8], bit_eq fl⟩

theorem ctz (d : Reg) (a : Reg) (w : Bool) (sp : Bool) : Statement (.ctz d a w sp) := by
  intro hw _ st l hst
  have b_d := d.isLt
  have b_a := a.isLt
  have b_w := Bool.toNat_lt w
  have b_sp := Bool.toNat_lt sp
  have b_l := Bool.toNat_lt l
  refine back_of (k := 50331648 + d.toNat * 65536 + a.toNat * 2048 + w.toNat * 32 + sp.toNat * 16) hw rfl rfl (by omega) fun N hN => ?_
  obtain ⟨f1, f2, f3, f4, f5, f6, f7, f8, fl⟩ := lay2 (N := N) (o := 24) (by decide) b_d b_a b_w b_sp b_l (by omega)
  clear hw
  exact ⟨by simp [decodeFields, decodeSR, f1, f2, f3, f4, bv_eq f5, bv_eq f6, bit_eq f7, bit_eq f8], bit_eq fl⟩

theorem popc (d : Reg) (a : Reg) (w : Bool) (sp : Bool) : Statement (.popc d a w sp) := by
  intro hw _ st l hst
  have b_d := d.isLt
  have b_a := a.isLt
  have b_w := Bool.toNat_lt w
  have b_sp := Bool.toNat_lt sp
  have b_l := Bool.toNat_lt l
  refine back_of (k := 52428800 + d.toNat * 65536 + a.toNat * 2048 + w.toNat * 32 + sp.toNat * 16) hw rfl rfl (by omega) fun N hN => ?_
  obtain ⟨f1, f2, f3, f4, f5, f6, f7, f8, fl⟩ := lay2 (N := N) (o := 25) (by decide) b_d b_a b_w b_sp b_l (by omega)
  clear hw
  exact ⟨by simp [decodeFields, decodeSR, f1, f2, f3, f4, bv_eq f5, bv_eq f6, bit_eq f7, bit_eq f8], bit_eq fl⟩

theorem bfx (d : Reg) (a : Reg) (b : Reg) (w : Bool) (sp : Bool) : Statement (.bfx d a b w sp) := by
  intro hw _ st l hst
  have b_d := d.isLt
  have b_a := a.isLt
  have b_b := b.isLt
  have b_w := Bool.toNat_lt w
  have b_sp := Bool.toNat_lt sp
  have b_l := Bool.toNat_lt l
  refine back_of (k := 54525952 + d.toNat * 65536 + a.toNat * 2048 + b.toNat * 64 + w.toNat * 32 + sp.toNat * 16) hw rfl rfl (by omega) fun N hN => ?_
  obtain ⟨f1, f2, f3, f4, f5, f6, f7, f8, fl⟩ := lay1 (N := N) (o := 26) (by decide) b_d b_a b_b b_w b_sp b_l (by omega)
  clear hw
  exact ⟨by simp [decodeFields, decodeSR, f1, f2, f3, bv_eq f4, bv_eq f5, bv_eq f6, bit_eq f7, bit_eq f8], bit_eq fl⟩

theorem bfxn (d : Reg) (a : Reg) (b : Reg) (w : Bool) (sp : Bool) : Statement (.bfxn d a b w sp) := by
  intro hw _ st l hst
  have b_d := d.isLt
  have b_a := a.isLt
  have b_b := b.isLt
  have b_w := Bool.toNat_lt w
  have b_sp := Bool.toNat_lt sp
  have b_l := Bool.toNat_lt l
  refine back_of (k := 56623104 + d.toNat * 65536 + a.toNat * 2048 + b.toNat * 64 + w.toNat * 32 + sp.toNat * 16) hw rfl rfl (by omega) fun N hN => ?_
  obtain ⟨f1, f2, f3, f4, f5, f6, f7, f8, fl⟩ := lay1 (N := N) (o := 27) (by decide) b_d b_a b_b b_w b_sp b_l (by omega)
  clear hw
  exact ⟨by simp [decodeFields, decodeSR, f1, f2, f3, bv_eq f4, bv_eq f5, bv_eq f6, bit_eq f7, bit_eq f8], bit_eq fl⟩

theorem bfi (d : Reg) (a : Reg) (b : Reg) (w : Bool) (sp : Bool) : Statement (.bfi d a b w sp) := by
  intro hw _ st l hst
  have b_d := d.isLt
  have b_a := a.isLt
  have b_b := b.isLt
  have b_w := Bool.toNat_lt w
  have b_sp := Bool.toNat_lt sp
  have b_l := Bool.toNat_lt l
  refine back_of (k := 58720256 + d.toNat * 65536 + a.toNat * 2048 + b.toNat * 64 + w.toNat * 32 + sp.toNat * 16) hw rfl rfl (by omega) fun N hN => ?_
  obtain ⟨f1, f2, f3, f4, f5, f6, f7, f8, fl⟩ := lay1 (N := N) (o := 28) (by decide) b_d b_a b_b b_w b_sp b_l (by omega)
  clear hw
  exact ⟨by simp [decodeFields, decodeSR, f1, f2, f3, bv_eq f4, bv_eq f5, bv_eq f6, bit_eq f7, bit_eq f8], bit_eq fl⟩

theorem csel (d : Reg) (a : Reg) (b : Reg) (g : GIdx) : Statement (.csel d a b g) := by
  intro hw _ st l hst
  have b_d := d.isLt
  have b_a := a.isLt
  have b_b := b.isLt
  have b_g := g.isLt
  have b_l := Bool.toNat_lt l
  refine back_of (k := 60817408 + d.toNat * 65536 + a.toNat * 2048 + b.toNat * 64 + g.toNat) hw rfl rfl (by omega) fun N hN => ?_
  obtain ⟨f1, f2, f3, f4, f5, f6, f7, fl⟩ := lay3 (N := N) (o := 29) (by decide) b_d b_a b_b b_g b_l (by omega)
  clear hw
  exact ⟨by simp [decodeFields, decodeSR, f1, f2, f3, bv_eq f4, bv_eq f5, bv_eq f6, bv_eq f7], bit_eq fl⟩

theorem addi (sp : Bool) (d : Reg) (a : Reg) (imm : BitVec 12) : Statement (.addi sp d a imm) := by
  intro hw _ st l hst
  have b_sp := Bool.toNat_lt sp
  have b_d := d.isLt
  have b_a := a.isLt
  have b_imm := imm.isLt
  have b_l := Bool.toNat_lt l
  refine back_of (k := 134217728 + sp.toNat * 4194304 + d.toNat * 131072 + a.toNat * 4096 + imm.toNat) hw rfl rfl (by omega) fun N hN => ?_
  obtain ⟨f1, f2, f3, f4, f5, f6, fl⟩ := lay4 (N := N) (o := 0) (by decide) b_sp b_d b_a b_imm b_l (by omega)
  clear hw
  exact ⟨by simp [decodeFields, decodeSI, f1, f2, bit_eq f3, bv_eq f4, bv_eq f5, bv_eq f6], bit_eq fl⟩

theorem andi (sp : Bool) (d : Reg) (a : Reg) (imm : BitVec 12) : Statement (.andi sp d a imm) := by
  intro hw _ st l hst
  have b_sp := Bool.toNat_lt sp
  have b_d := d.isLt
  have b_a := a.isLt
  have b_imm := imm.isLt
  have b_l := Bool.toNat_lt l
  refine back_of (k := 142606336 + sp.toNat * 4194304 + d.toNat * 131072 + a.toNat * 4096 + imm.toNat) hw rfl rfl (by omega) fun N hN => ?_
  obtain ⟨f1, f2, f3, f4, f5, f6, fl⟩ := lay4 (N := N) (o := 1) (by decide) b_sp b_d b_a b_imm b_l (by omega)
  clear hw
  exact ⟨by simp [decodeFields, decodeSI, f1, f2, bit_eq f3, bv_eq f4, bv_eq f5, bv_eq f6], bit_eq fl⟩

theorem ori (sp : Bool) (d : Reg) (a : Reg) (imm : BitVec 12) : Statement (.ori sp d a imm) := by
  intro hw _ st l hst
  have b_sp := Bool.toNat_lt sp
  have b_d := d.isLt
  have b_a := a.isLt
  have b_imm := imm.isLt
  have b_l := Bool.toNat_lt l
  refine back_of (k := 150994944 + sp.toNat * 4194304 + d.toNat * 131072 + a.toNat * 4096 + imm.toNat) hw rfl rfl (by omega) fun N hN => ?_
  obtain ⟨f1, f2, f3, f4, f5, f6, fl⟩ := lay4 (N := N) (o := 2) (by decide) b_sp b_d b_a b_imm b_l (by omega)
  clear hw
  exact ⟨by simp [decodeFields, decodeSI, f1, f2, bit_eq f3, bv_eq f4, bv_eq f5, bv_eq f6], bit_eq fl⟩

theorem xori (sp : Bool) (d : Reg) (a : Reg) (imm : BitVec 12) : Statement (.xori sp d a imm) := by
  intro hw _ st l hst
  have b_sp := Bool.toNat_lt sp
  have b_d := d.isLt
  have b_a := a.isLt
  have b_imm := imm.isLt
  have b_l := Bool.toNat_lt l
  refine back_of (k := 159383552 + sp.toNat * 4194304 + d.toNat * 131072 + a.toNat * 4096 + imm.toNat) hw rfl rfl (by omega) fun N hN => ?_
  obtain ⟨f1, f2, f3, f4, f5, f6, fl⟩ := lay4 (N := N) (o := 3) (by decide) b_sp b_d b_a b_imm b_l (by omega)
  clear hw
  exact ⟨by simp [decodeFields, decodeSI, f1, f2, bit_eq f3, bv_eq f4, bv_eq f5, bv_eq f6], bit_eq fl⟩

theorem shli (sp : Bool) (d : Reg) (a : Reg) (n : BitVec 6) : Statement (.shli sp d a n) := by
  intro hw _ st l hst
  have b_sp := Bool.toNat_lt sp
  have b_d := d.isLt
  have b_a := a.isLt
  have b_n := n.isLt
  have b_l := Bool.toNat_lt l
  refine back_of (k := 167772160 + sp.toNat * 4194304 + d.toNat * 131072 + a.toNat * 4096 + n.toNat) hw rfl rfl (by omega) fun N hN => ?_
  obtain ⟨f1, f2, f3, f4, f5, f6, f7, fl⟩ := lay5 (N := N) (o := 4) (by decide) b_sp b_d b_a b_n b_l (by omega)
  clear hw
  exact ⟨by simp [decodeFields, decodeSI, f1, f2, f3, bit_eq f4, bv_eq f5, bv_eq f6, bv_eq f7], bit_eq fl⟩

theorem shri (sp : Bool) (d : Reg) (a : Reg) (n : BitVec 6) : Statement (.shri sp d a n) := by
  intro hw _ st l hst
  have b_sp := Bool.toNat_lt sp
  have b_d := d.isLt
  have b_a := a.isLt
  have b_n := n.isLt
  have b_l := Bool.toNat_lt l
  refine back_of (k := 176160768 + sp.toNat * 4194304 + d.toNat * 131072 + a.toNat * 4096 + n.toNat) hw rfl rfl (by omega) fun N hN => ?_
  obtain ⟨f1, f2, f3, f4, f5, f6, f7, fl⟩ := lay5 (N := N) (o := 5) (by decide) b_sp b_d b_a b_n b_l (by omega)
  clear hw
  exact ⟨by simp [decodeFields, decodeSI, f1, f2, f3, bit_eq f4, bv_eq f5, bv_eq f6, bv_eq f7], bit_eq fl⟩

theorem sari (sp : Bool) (d : Reg) (a : Reg) (n : BitVec 6) : Statement (.sari sp d a n) := by
  intro hw _ st l hst
  have b_sp := Bool.toNat_lt sp
  have b_d := d.isLt
  have b_a := a.isLt
  have b_n := n.isLt
  have b_l := Bool.toNat_lt l
  refine back_of (k := 184549376 + sp.toNat * 4194304 + d.toNat * 131072 + a.toNat * 4096 + n.toNat) hw rfl rfl (by omega) fun N hN => ?_
  obtain ⟨f1, f2, f3, f4, f5, f6, f7, fl⟩ := lay5 (N := N) (o := 6) (by decide) b_sp b_d b_a b_n b_l (by omega)
  clear hw
  exact ⟨by simp [decodeFields, decodeSI, f1, f2, f3, bit_eq f4, bv_eq f5, bv_eq f6, bv_eq f7], bit_eq fl⟩

theorem muli (sp : Bool) (d : Reg) (a : Reg) (imm : BitVec 12) : Statement (.muli sp d a imm) := by
  intro hw _ st l hst
  have b_sp := Bool.toNat_lt sp
  have b_d := d.isLt
  have b_a := a.isLt
  have b_imm := imm.isLt
  have b_l := Bool.toNat_lt l
  refine back_of (k := 192937984 + sp.toNat * 4194304 + d.toNat * 131072 + a.toNat * 4096 + imm.toNat) hw rfl rfl (by omega) fun N hN => ?_
  obtain ⟨f1, f2, f3, f4, f5, f6, fl⟩ := lay4 (N := N) (o := 7) (by decide) b_sp b_d b_a b_imm b_l (by omega)
  clear hw
  exact ⟨by simp [decodeFields, decodeSI, f1, f2, bit_eq f3, bv_eq f4, bv_eq f5, bv_eq f6], bit_eq fl⟩

theorem lui (d : Reg) (imm : BitVec 20) : Statement (.lui d imm) := by
  intro hw _ st l hst
  have b_d := d.isLt
  have b_imm := imm.isLt
  have b_l := Bool.toNat_lt l
  refine back_of (k := 268435456 + d.toNat * 4194304 + imm.toNat) hw rfl rfl (by omega) fun N hN => ?_
  obtain ⟨f1, f2, f3, f4, fl⟩ := lay6 (N := N) (o := 0) (by decide) b_d b_imm b_l (by omega)
  clear hw
  exact ⟨by simp [decodeFields, decodeSU, f1, f2, bv_eq f3, bv_eq f4], bit_eq fl⟩

theorem aup (d : Reg) (imm : BitVec 20) : Statement (.aup d imm) := by
  intro hw _ st l hst
  have b_d := d.isLt
  have b_imm := imm.isLt
  have b_l := Bool.toNat_lt l
  refine back_of (k := 269484032 + d.toNat * 4194304 + imm.toNat) hw rfl rfl (by omega) fun N hN => ?_
  obtain ⟨f1, f2, f3, f4, fl⟩ := lay6 (N := N) (o := 1) (by decide) b_d b_imm b_l (by omega)
  clear hw
  exact ⟨by simp [decodeFields, decodeSU, f1, f2, bv_eq f3, bv_eq f4], bit_eq fl⟩

theorem cmp (g : GIdx) (a : Reg) (b : Reg) (cond : Cond) (w : Bool) : Statement (.cmp g a b cond w) := by
  intro hw _ st l hst
  have b_g := g.isLt
  have b_a := a.isLt
  have b_b := b.isLt
  have b_cond := Cond_lt cond
  have b_w := Bool.toNat_lt w
  have b_l := Bool.toNat_lt l
  refine back_of (k := 402653184 + g.toNat * 262144 + a.toNat * 8192 + b.toNat * 256 + cond.toNat * 16 + w.toNat) hw rfl rfl (by omega) fun N hN => ?_
  obtain ⟨f1, f2, f3, f4, f5, f6, f7, f8, fl⟩ := lay7 (N := N) (o := 0) (by decide) b_g b_a b_b b_cond b_w b_l (by omega)
  clear hw
  exact ⟨by simp [decodeFields, decodeCT, f1, f2, f3, bv_eq f4, bv_eq f5, bv_eq f6, f7, Cond_of, bit_eq f8], bit_eq fl⟩

theorem cmpi (g : GIdx) (imm : BitVec 9) (cond : Cond) (a : Reg) : Statement (.cmpi g imm cond a) := by
  intro hw _ st l hst
  have b_g := g.isLt
  have b_imm := imm.isLt
  have b_cond := Cond_lt cond
  have b_a := a.isLt
  have b_l := Bool.toNat_lt l
  refine back_of (k := 406847488 + g.toNat * 262144 + imm.toNat * 512 + cond.toNat * 32 + a.toNat) hw rfl rfl (by omega) fun N hN => ?_
  obtain ⟨f1, f2, f3, f4, f5, f6, fl⟩ := lay8 (N := N) (o := 1) (by decide) b_g b_imm b_cond b_a b_l (by omega)
  clear hw
  exact ⟨by simp [decodeFields, decodeCT, f1, f2, bv_eq f3, bv_eq f4, f5, Cond_of, bv_eq f6], bit_eq fl⟩

theorem tst (g : GIdx) (a : Reg) (b : Reg) (z : Bool) (w : Bool) : Statement (.tst g a b z w) := by
  intro hw _ st l hst
  have b_g := g.isLt
  have b_a := a.isLt
  have b_b := b.isLt
  have b_z := Bool.toNat_lt z
  have b_w := Bool.toNat_lt w
  have b_l := Bool.toNat_lt l
  refine back_of (k := 411041792 + g.toNat * 262144 + a.toNat * 8192 + b.toNat * 256 + z.toNat * 128 + w.toNat) hw rfl rfl (by omega) fun N hN => ?_
  obtain ⟨f1, f2, f3, f4, f5, f6, f7, f8, fl⟩ := lay9 (N := N) (o := 2) (by decide) b_g b_a b_b b_z b_w b_l (by omega)
  clear hw
  exact ⟨by simp [decodeFields, decodeCT, f1, f2, f3, bv_eq f4, bv_eq f5, bv_eq f6, bit_eq f7, bit_eq f8], bit_eq fl⟩

theorem gand (g : GIdx) (ga : GIdx) (gb : GIdx) : Statement (.gand g ga gb) := by
  intro hw _ st l hst
  have b_g := g.isLt
  have b_ga := ga.isLt
  have b_gb := gb.isLt
  have b_l := Bool.toNat_lt l
  refine back_of (k := 415236096 + g.toNat * 262144 + ga.toNat * 16384 + gb.toNat * 1024) hw rfl rfl (by omega) fun N hN => ?_
  obtain ⟨f1, f2, f3, f4, f5, f6, fl⟩ := lay10 (N := N) (o := 3) (by decide) b_g b_ga b_gb b_l (by omega)
  clear hw
  exact ⟨by simp [decodeFields, decodeCT, f1, f2, f3, bv_eq f4, bv_eq f5, bv_eq f6], bit_eq fl⟩

theorem gor (g : GIdx) (ga : GIdx) (gb : GIdx) : Statement (.gor g ga gb) := by
  intro hw _ st l hst
  have b_g := g.isLt
  have b_ga := ga.isLt
  have b_gb := gb.isLt
  have b_l := Bool.toNat_lt l
  refine back_of (k := 419430400 + g.toNat * 262144 + ga.toNat * 16384 + gb.toNat * 1024) hw rfl rfl (by omega) fun N hN => ?_
  obtain ⟨f1, f2, f3, f4, f5, f6, fl⟩ := lay10 (N := N) (o := 4) (by decide) b_g b_ga b_gb b_l (by omega)
  clear hw
  exact ⟨by simp [decodeFields, decodeCT, f1, f2, f3, bv_eq f4, bv_eq f5, bv_eq f6], bit_eq fl⟩

theorem gxor (g : GIdx) (ga : GIdx) (gb : GIdx) : Statement (.gxor g ga gb) := by
  intro hw _ st l hst
  have b_g := g.isLt
  have b_ga := ga.isLt
  have b_gb := gb.isLt
  have b_l := Bool.toNat_lt l
  refine back_of (k := 423624704 + g.toNat * 262144 + ga.toNat * 16384 + gb.toNat * 1024) hw rfl rfl (by omega) fun N hN => ?_
  obtain ⟨f1, f2, f3, f4, f5, f6, fl⟩ := lay10 (N := N) (o := 5) (by decide) b_g b_ga b_gb b_l (by omega)
  clear hw
  exact ⟨by simp [decodeFields, decodeCT, f1, f2, f3, bv_eq f4, bv_eq f5, bv_eq f6], bit_eq fl⟩

theorem gnot (g : GIdx) (ga : GIdx) : Statement (.gnot g ga) := by
  intro hw _ st l hst
  have b_g := g.isLt
  have b_ga := ga.isLt
  have b_l := Bool.toNat_lt l
  refine back_of (k := 427819008 + g.toNat * 262144 + ga.toNat * 16384) hw rfl rfl (by omega) fun N hN => ?_
  obtain ⟨f1, f2, f3, f4, f5, fl⟩ := lay11 (N := N) (o := 6) (by decide) b_g b_ga b_l (by omega)
  clear hw
  exact ⟨by simp [decodeFields, decodeCT, f1, f2, f3, bv_eq f4, bv_eq f5], bit_eq fl⟩

theorem ptst (g : GIdx) (a : Reg) : Statement (.ptst g a) := by
  intro hw _ st l hst
  have b_g := g.isLt
  have b_a := a.isLt
  have b_l := Bool.toNat_lt l
  refine back_of (k := 432013312 + g.toNat * 262144 + a.toNat * 8192) hw rfl rfl (by omega) fun N hN => ?_
  obtain ⟨f1, f2, f3, f4, f5, fl⟩ := lay12 (N := N) (o := 7) (by decide) b_g b_a b_l (by omega)
  clear hw
  exact ⟨by simp [decodeFields, decodeCT, f1, f2, f3, bv_eq f4, bv_eq f5], bit_eq fl⟩

theorem prep (g : GIdx) (tgt : BitVec 15) : Statement (.prep g tgt) := by
  intro hw _ st l hst
  have b_g := g.isLt
  have b_tgt := tgt.isLt
  have b_l := Bool.toNat_lt l
  refine back_of (k := 436207616 + g.toNat * 262144 + tgt.toNat) hw rfl rfl (by omega) fun N hN => ?_
  obtain ⟨f1, f2, f3, f4, f5, fl⟩ := lay13 (N := N) (o := 8) (by decide) b_g b_tgt b_l (by omega)
  clear hw
  exact ⟨by simp [decodeFields, decodeCT, f1, f2, f3, bv_eq f4, bv_eq f5], bit_eq fl⟩

theorem prepr (g : GIdx) (a : Reg) : Statement (.prepr g a) := by
  intro hw _ st l hst
  have b_g := g.isLt
  have b_a := a.isLt
  have b_l := Bool.toNat_lt l
  refine back_of (k := 440401920 + g.toNat * 262144 + a.toNat * 8192) hw rfl rfl (by omega) fun N hN => ?_
  obtain ⟨f1, f2, f3, f4, f5, fl⟩ := lay12 (N := N) (o := 9) (by decide) b_g b_a b_l (by omega)
  clear hw
  exact ⟨by simp [decodeFields, decodeCT, f1, f2, f3, bv_eq f4, bv_eq f5], bit_eq fl⟩

theorem br (g : GIdx) : Statement (.br g) := by
  intro hw _ st l hst
  have b_g := g.isLt
  have b_l := Bool.toNat_lt l
  refine back_of (k := 444596224 + g.toNat * 262144) hw rfl rfl (by omega) fun N hN => ?_
  obtain ⟨f1, f2, f3, f4, fl⟩ := lay14 (N := N) (o := 10) (by decide) b_g b_l (by omega)
  clear hw
  exact ⟨by simp [decodeFields, decodeCT, f1, f2, f3, bv_eq f4], bit_eq fl⟩

theorem brA (g : GIdx) : Statement (.brA g) := by
  intro hw _ st l hst
  have b_g := g.isLt
  have b_l := Bool.toNat_lt l
  refine back_of (k := 444596225 + g.toNat * 262144) hw rfl rfl (by omega) fun N hN => ?_
  obtain ⟨f1, f2, f3, f4, fl⟩ := lay15 (N := N) (o := 10) (by decide) b_g b_l (by omega)
  clear hw
  exact ⟨by simp [decodeFields, decodeCT, f1, f2, f3, bv_eq f4], bit_eq fl⟩

theorem brf (g : GIdx) : Statement (.brf g) := by
  intro hw _ st l hst
  have b_g := g.isLt
  have b_l := Bool.toNat_lt l
  refine back_of (k := 448790528 + g.toNat * 262144) hw rfl rfl (by omega) fun N hN => ?_
  obtain ⟨f1, f2, f3, f4, fl⟩ := lay14 (N := N) (o := 11) (by decide) b_g b_l (by omega)
  clear hw
  exact ⟨by simp [decodeFields, decodeCT, f1, f2, f3, bv_eq f4], bit_eq fl⟩

theorem brl (g : GIdx) : Statement (.brl g) := by
  intro hw _ st l hst
  have b_g := g.isLt
  have b_l := Bool.toNat_lt l
  refine back_of (k := 452984832 + g.toNat * 262144) hw rfl rfl (by omega) fun N hN => ?_
  obtain ⟨f1, f2, f3, f4, fl⟩ := lay14 (N := N) (o := 12) (by decide) b_g b_l (by omega)
  clear hw
  exact ⟨by simp [decodeFields, decodeCT, f1, f2, f3, bv_eq f4], bit_eq fl⟩

theorem loop (a : Reg) (gr : Bool) (epk : BitVec 8) (esl : BitVec 2) : Statement (.loop a gr epk esl) := by
  intro hw _ st l hst
  have b_a := a.isLt
  have b_gr := Bool.toNat_lt gr
  have b_epk := epk.isLt
  have b_esl := esl.isLt
  have b_l := Bool.toNat_lt l
  refine back_of (k := 457179136 + a.toNat * 8192 + gr.toNat * 4096 + epk.toNat * 4 + esl.toNat) hw rfl rfl (by omega) fun N hN => ?_
  obtain ⟨f1, f2, f3, f4, f5, f6, f7, f8, fl⟩ := lay16 (N := N) (o := 13) (by decide) b_a b_gr b_epk b_esl b_l (by omega)
  clear hw
  exact ⟨by simp [decodeFields, decodeCT, f1, f2, f3, f4, bv_eq f5, bit_eq f6, bv_eq f7, bv_eq f8], bit_eq fl⟩

theorem loopi (cnt : BitVec 7) (gr : Bool) (epk : BitVec 8) (esl : BitVec 2) : Statement (.loopi cnt gr epk esl) := by
  intro hw _ st l hst
  have b_cnt := cnt.isLt
  have b_gr := Bool.toNat_lt gr
  have b_epk := epk.isLt
  have b_esl := esl.isLt
  have b_l := Bool.toNat_lt l
  refine back_of (k := 461373440 + cnt.toNat * 2048 + gr.toNat * 1024 + epk.toNat * 4 + esl.toNat) hw rfl rfl (by omega) fun N hN => ?_
  obtain ⟨f1, f2, f3, f4, f5, f6, f7, fl⟩ := lay17 (N := N) (o := 14) (by decide) b_cnt b_gr b_epk b_esl b_l (by omega)
  clear hw
  exact ⟨by simp [decodeFields, decodeCT, f1, f2, f3, bv_eq f4, bit_eq f5, bv_eq f6, bv_eq f7], bit_eq fl⟩

theorem lbrk (g : GIdx) (n : BitVec 3) : Statement (.lbrk g n) := by
  intro hw _ st l hst
  have b_g := g.isLt
  have b_n := n.isLt
  have b_l := Bool.toNat_lt l
  refine back_of (k := 465567744 + g.toNat * 262144 + n.toNat) hw rfl rfl (by omega) fun N hN => ?_
  obtain ⟨f1, f2, f3, f4, f5, fl⟩ := lay18 (N := N) (o := 15) (by decide) b_g b_n b_l (by omega)
  clear hw
  exact ⟨by simp [decodeFields, decodeCT, f1, f2, f3, bv_eq f4, bv_eq f5], bit_eq fl⟩

theorem sync (scope : Scope) : Statement (.sync scope) := by
  intro hw _ st l hst
  have b_scope := Scope_lt scope
  have b_l := Bool.toNat_lt l
  refine back_of (k := 469762048 + scope.toNat) hw rfl rfl (by omega) fun N hN => ?_
  obtain ⟨f1, f2, f3, f4, fl⟩ := lay19 (N := N) (o := 16) (by decide) b_scope b_l (by omega)
  clear hw
  exact ⟨by simp [decodeFields, decodeCT, f1, f2, f3, f4, Scope_of], bit_eq fl⟩

theorem frame  : Statement (.frame) := by
  intro hw _ st l hst
  have b_l := Bool.toNat_lt l
  refine back_of (k := 473956352) hw rfl rfl (by omega) fun N hN => ?_
  obtain ⟨f1, f2, f3, fl⟩ := lay20 (N := N) (o := 17) (by decide) b_l (by omega)
  clear hw
  exact ⟨by simp [decodeFields, decodeCT, f1, f2, f3], bit_eq fl⟩

theorem waitt (a : Reg) (b : Reg) : Statement (.waitt a b) := by
  intro hw _ st l hst
  have b_a := a.isLt
  have b_b := b.isLt
  have b_l := Bool.toNat_lt l
  refine back_of (k := 478150656 + a.toNat * 8192 + b.toNat * 256) hw rfl rfl (by omega) fun N hN => ?_
  obtain ⟨f1, f2, f3, f4, f5, f6, fl⟩ := lay21 (N := N) (o := 18) (by decide) b_a b_b b_l (by omega)
  clear hw
  exact ⟨by simp [decodeFields, decodeCT, f1, f2, f3, f4, bv_eq f5, bv_eq f6], bit_eq fl⟩

theorem nop  : Statement (.nop) := by
  intro hw _ st l hst
  have b_l := Bool.toNat_lt l
  refine back_of (k := 482344960) hw rfl rfl (by omega) fun N hN => ?_
  obtain ⟨f1, f2, f3, fl⟩ := lay20 (N := N) (o := 19) (by decide) b_l (by omega)
  clear hw
  exact ⟨by simp [decodeFields, decodeCT, f1, f2, f3], bit_eq fl⟩

theorem halt  : Statement (.halt) := by
  intro hw _ st l hst
  have b_l := Bool.toNat_lt l
  refine back_of (k := 486539264) hw rfl rfl (by omega) fun N hN => ?_
  obtain ⟨f1, f2, f3, fl⟩ := lay20 (N := N) (o := 20) (by decide) b_l (by omega)
  clear hw
  exact ⟨by simp [decodeFields, decodeCT, f1, f2, f3], bit_eq fl⟩

theorem vadd (d : Reg) (a : Reg) (b : Reg) (ty : VTy) (sp : Bool) (md : BitVec 2) : Statement (.vadd d a b ty sp md) := by
  intro hw _ st l hst
  have b_d := d.isLt
  have b_a := a.isLt
  have b_b := b.isLt
  have b_ty := VTy_lt ty
  have b_sp := Bool.toNat_lt sp
  have b_md := md.isLt
  have b_l := Bool.toNat_lt l
  refine back_of (k := 536870912 + d.toNat * 65536 + a.toNat * 2048 + b.toNat * 64 + ty.toNat * 8 + sp.toNat * 4 + md.toNat) hw rfl rfl (by omega) fun N hN => ?_
  obtain ⟨f1, f2, f3, f4, f5, f6, f7, f8, fl⟩ := lay22 (N := N) (o := 0) (by decide) b_d b_a b_b b_ty b_sp b_md b_l (by omega)
  clear hw
  exact ⟨by simp [decodeFields, decodeVR, f1, f2, bv_eq f3, bv_eq f4, bv_eq f5, f6, VTy_of, bit_eq f7, bv_eq f8], bit_eq fl⟩

theorem vsub (d : Reg) (a : Reg) (b : Reg) (ty : VTy) (sp : Bool) (md : BitVec 2) : Statement (.vsub d a b ty sp md) := by
  intro hw _ st l hst
  have b_d := d.isLt
  have b_a := a.isLt
  have b_b := b.isLt
  have b_ty := VTy_lt ty
  have b_sp := Bool.toNat_lt sp
  have b_md := md.isLt
  have b_l := Bool.toNat_lt l
  refine back_of (k := 538968064 + d.toNat * 65536 + a.toNat * 2048 + b.toNat * 64 + ty.toNat * 8 + sp.toNat * 4 + md.toNat) hw rfl rfl (by omega) fun N hN => ?_
  obtain ⟨f1, f2, f3, f4, f5, f6, f7, f8, fl⟩ := lay22 (N := N) (o := 1) (by decide) b_d b_a b_b b_ty b_sp b_md b_l (by omega)
  clear hw
  exact ⟨by simp [decodeFields, decodeVR, f1, f2, bv_eq f3, bv_eq f4, bv_eq f5, f6, VTy_of, bit_eq f7, bv_eq f8], bit_eq fl⟩

theorem vmul (d : Reg) (a : Reg) (b : Reg) (ty : VTy) (sp : Bool) (md : BitVec 2) : Statement (.vmul d a b ty sp md) := by
  intro hw _ st l hst
  have b_d := d.isLt
  have b_a := a.isLt
  have b_b := b.isLt
  have b_ty := VTy_lt ty
  have b_sp := Bool.toNat_lt sp
  have b_md := md.isLt
  have b_l := Bool.toNat_lt l
  refine back_of (k := 541065216 + d.toNat * 65536 + a.toNat * 2048 + b.toNat * 64 + ty.toNat * 8 + sp.toNat * 4 + md.toNat) hw rfl rfl (by omega) fun N hN => ?_
  obtain ⟨f1, f2, f3, f4, f5, f6, f7, f8, fl⟩ := lay22 (N := N) (o := 2) (by decide) b_d b_a b_b b_ty b_sp b_md b_l (by omega)
  clear hw
  exact ⟨by simp [decodeFields, decodeVR, f1, f2, bv_eq f3, bv_eq f4, bv_eq f5, f6, VTy_of, bit_eq f7, bv_eq f8], bit_eq fl⟩

theorem vmulh (d : Reg) (a : Reg) (b : Reg) (ty : VTy) (sp : Bool) : Statement (.vmulh d a b ty sp) := by
  intro hw _ st l hst
  have b_d := d.isLt
  have b_a := a.isLt
  have b_b := b.isLt
  have b_ty := VTy_lt ty
  have b_sp := Bool.toNat_lt sp
  have b_l := Bool.toNat_lt l
  refine back_of (k := 543162368 + d.toNat * 65536 + a.toNat * 2048 + b.toNat * 64 + ty.toNat * 8 + sp.toNat * 4) hw rfl rfl (by omega) fun N hN => ?_
  obtain ⟨f1, f2, f3, f4, f5, f6, f7, f8, fl⟩ := lay23 (N := N) (o := 3) (by decide) b_d b_a b_b b_ty b_sp b_l (by omega)
  clear hw
  exact ⟨by simp [decodeFields, decodeVR, f1, f2, f3, bv_eq f4, bv_eq f5, bv_eq f6, f7, VTy_of, bit_eq f8], bit_eq fl⟩

theorem vfma (d : Reg) (a : Reg) (b : Reg) (ty : VTy) (sp : Bool) (md : BitVec 2) : Statement (.vfma d a b ty sp md) := by
  intro hw _ st l hst
  have b_d := d.isLt
  have b_a := a.isLt
  have b_b := b.isLt
  have b_ty := VTy_lt ty
  have b_sp := Bool.toNat_lt sp
  have b_md := md.isLt
  have b_l := Bool.toNat_lt l
  refine back_of (k := 545259520 + d.toNat * 65536 + a.toNat * 2048 + b.toNat * 64 + ty.toNat * 8 + sp.toNat * 4 + md.toNat) hw rfl rfl (by omega) fun N hN => ?_
  obtain ⟨f1, f2, f3, f4, f5, f6, f7, f8, fl⟩ := lay22 (N := N) (o := 4) (by decide) b_d b_a b_b b_ty b_sp b_md b_l (by omega)
  clear hw
  exact ⟨by simp [decodeFields, decodeVR, f1, f2, bv_eq f3, bv_eq f4, bv_eq f5, f6, VTy_of, bit_eq f7, bv_eq f8], bit_eq fl⟩

theorem vfms (d : Reg) (a : Reg) (b : Reg) (ty : VTy) (sp : Bool) (md : BitVec 2) : Statement (.vfms d a b ty sp md) := by
  intro hw _ st l hst
  have b_d := d.isLt
  have b_a := a.isLt
  have b_b := b.isLt
  have b_ty := VTy_lt ty
  have b_sp := Bool.toNat_lt sp
  have b_md := md.isLt
  have b_l := Bool.toNat_lt l
  refine back_of (k := 547356672 + d.toNat * 65536 + a.toNat * 2048 + b.toNat * 64 + ty.toNat * 8 + sp.toNat * 4 + md.toNat) hw rfl rfl (by omega) fun N hN => ?_
  obtain ⟨f1, f2, f3, f4, f5, f6, f7, f8, fl⟩ := lay22 (N := N) (o := 5) (by decide) b_d b_a b_b b_ty b_sp b_md b_l (by omega)
  clear hw
  exact ⟨by simp [decodeFields, decodeVR, f1, f2, bv_eq f3, bv_eq f4, bv_eq f5, f6, VTy_of, bit_eq f7, bv_eq f8], bit_eq fl⟩

theorem vfnma (d : Reg) (a : Reg) (b : Reg) (ty : VTy) (sp : Bool) (md : BitVec 2) : Statement (.vfnma d a b ty sp md) := by
  intro hw _ st l hst
  have b_d := d.isLt
  have b_a := a.isLt
  have b_b := b.isLt
  have b_ty := VTy_lt ty
  have b_sp := Bool.toNat_lt sp
  have b_md := md.isLt
  have b_l := Bool.toNat_lt l
  refine back_of (k := 549453824 + d.toNat * 65536 + a.toNat * 2048 + b.toNat * 64 + ty.toNat * 8 + sp.toNat * 4 + md.toNat) hw rfl rfl (by omega) fun N hN => ?_
  obtain ⟨f1, f2, f3, f4, f5, f6, f7, f8, fl⟩ := lay22 (N := N) (o := 6) (by decide) b_d b_a b_b b_ty b_sp b_md b_l (by omega)
  clear hw
  exact ⟨by simp [decodeFields, decodeVR, f1, f2, bv_eq f3, bv_eq f4, bv_eq f5, f6, VTy_of, bit_eq f7, bv_eq f8], bit_eq fl⟩

theorem vmin (d : Reg) (a : Reg) (b : Reg) (ty : VTy) (sp : Bool) : Statement (.vmin d a b ty sp) := by
  intro hw _ st l hst
  have b_d := d.isLt
  have b_a := a.isLt
  have b_b := b.isLt
  have b_ty := VTy_lt ty
  have b_sp := Bool.toNat_lt sp
  have b_l := Bool.toNat_lt l
  refine back_of (k := 551550976 + d.toNat * 65536 + a.toNat * 2048 + b.toNat * 64 + ty.toNat * 8 + sp.toNat * 4) hw rfl rfl (by omega) fun N hN => ?_
  obtain ⟨f1, f2, f3, f4, f5, f6, f7, f8, fl⟩ := lay23 (N := N) (o := 7) (by decide) b_d b_a b_b b_ty b_sp b_l (by omega)
  clear hw
  exact ⟨by simp [decodeFields, decodeVR, f1, f2, f3, bv_eq f4, bv_eq f5, bv_eq f6, f7, VTy_of, bit_eq f8], bit_eq fl⟩

theorem vmax (d : Reg) (a : Reg) (b : Reg) (ty : VTy) (sp : Bool) : Statement (.vmax d a b ty sp) := by
  intro hw _ st l hst
  have b_d := d.isLt
  have b_a := a.isLt
  have b_b := b.isLt
  have b_ty := VTy_lt ty
  have b_sp := Bool.toNat_lt sp
  have b_l := Bool.toNat_lt l
  refine back_of (k := 553648128 + d.toNat * 65536 + a.toNat * 2048 + b.toNat * 64 + ty.toNat * 8 + sp.toNat * 4) hw rfl rfl (by omega) fun N hN => ?_
  obtain ⟨f1, f2, f3, f4, f5, f6, f7, f8, fl⟩ := lay23 (N := N) (o := 8) (by decide) b_d b_a b_b b_ty b_sp b_l (by omega)
  clear hw
  exact ⟨by simp [decodeFields, decodeVR, f1, f2, f3, bv_eq f4, bv_eq f5, bv_eq f6, f7, VTy_of, bit_eq f8], bit_eq fl⟩

theorem vabs (d : Reg) (a : Reg) (ty : VTy) (sp : Bool) (md : BitVec 2) : Statement (.vabs d a ty sp md) := by
  intro hw _ st l hst
  have b_d := d.isLt
  have b_a := a.isLt
  have b_ty := VTy_lt ty
  have b_sp := Bool.toNat_lt sp
  have b_md := md.isLt
  have b_l := Bool.toNat_lt l
  refine back_of (k := 555745280 + d.toNat * 65536 + a.toNat * 2048 + ty.toNat * 8 + sp.toNat * 4 + md.toNat) hw rfl rfl (by omega) fun N hN => ?_
  obtain ⟨f1, f2, f3, f4, f5, f6, f7, f8, fl⟩ := lay24 (N := N) (o := 9) (by decide) b_d b_a b_ty b_sp b_md b_l (by omega)
  clear hw
  exact ⟨by simp [decodeFields, decodeVR, f1, f2, f3, bv_eq f4, bv_eq f5, f6, VTy_of, bit_eq f7, bv_eq f8], bit_eq fl⟩

theorem vneg (d : Reg) (a : Reg) (ty : VTy) (sp : Bool) (md : BitVec 2) : Statement (.vneg d a ty sp md) := by
  intro hw _ st l hst
  have b_d := d.isLt
  have b_a := a.isLt
  have b_ty := VTy_lt ty
  have b_sp := Bool.toNat_lt sp
  have b_md := md.isLt
  have b_l := Bool.toNat_lt l
  refine back_of (k := 557842432 + d.toNat * 65536 + a.toNat * 2048 + ty.toNat * 8 + sp.toNat * 4 + md.toNat) hw rfl rfl (by omega) fun N hN => ?_
  obtain ⟨f1, f2, f3, f4, f5, f6, f7, f8, fl⟩ := lay24 (N := N) (o := 10) (by decide) b_d b_a b_ty b_sp b_md b_l (by omega)
  clear hw
  exact ⟨by simp [decodeFields, decodeVR, f1, f2, f3, bv_eq f4, bv_eq f5, f6, VTy_of, bit_eq f7, bv_eq f8], bit_eq fl⟩

theorem vand (d : Reg) (a : Reg) (b : Reg) (sp : Bool) : Statement (.vand d a b sp) := by
  intro hw _ st l hst
  have b_d := d.isLt
  have b_a := a.isLt
  have b_b := b.isLt
  have b_sp := Bool.toNat_lt sp
  have b_l := Bool.toNat_lt l
  refine back_of (k := 559939584 + d.toNat * 65536 + a.toNat * 2048 + b.toNat * 64 + sp.toNat * 4) hw rfl rfl (by omega) fun N hN => ?_
  obtain ⟨f1, f2, f3, f4, f5, f6, f7, f8, fl⟩ := lay25 (N := N) (o := 11) (by decide) b_d b_a b_b b_sp b_l (by omega)
  clear hw
  exact ⟨by simp [decodeFields, decodeVR, f1, f2, f3, f4, bv_eq f5, bv_eq f6, bv_eq f7, bit_eq f8], bit_eq fl⟩

theorem vor (d : Reg) (a : Reg) (b : Reg) (sp : Bool) : Statement (.vor d a b sp) := by
  intro hw _ st l hst
  have b_d := d.isLt
  have b_a := a.isLt
  have b_b := b.isLt
  have b_sp := Bool.toNat_lt sp
  have b_l := Bool.toNat_lt l
  refine back_of (k := 562036736 + d.toNat * 65536 + a.toNat * 2048 + b.toNat * 64 + sp.toNat * 4) hw rfl rfl (by omega) fun N hN => ?_
  obtain ⟨f1, f2, f3, f4, f5, f6, f7, f8, fl⟩ := lay25 (N := N) (o := 12) (by decide) b_d b_a b_b b_sp b_l (by omega)
  clear hw
  exact ⟨by simp [decodeFields, decodeVR, f1, f2, f3, f4, bv_eq f5, bv_eq f6, bv_eq f7, bit_eq f8], bit_eq fl⟩

theorem vxor (d : Reg) (a : Reg) (b : Reg) (sp : Bool) : Statement (.vxor d a b sp) := by
  intro hw _ st l hst
  have b_d := d.isLt
  have b_a := a.isLt
  have b_b := b.isLt
  have b_sp := Bool.toNat_lt sp
  have b_l := Bool.toNat_lt l
  refine back_of (k := 564133888 + d.toNat * 65536 + a.toNat * 2048 + b.toNat * 64 + sp.toNat * 4) hw rfl rfl (by omega) fun N hN => ?_
  obtain ⟨f1, f2, f3, f4, f5, f6, f7, f8, fl⟩ := lay25 (N := N) (o := 13) (by decide) b_d b_a b_b b_sp b_l (by omega)
  clear hw
  exact ⟨by simp [decodeFields, decodeVR, f1, f2, f3, f4, bv_eq f5, bv_eq f6, bv_eq f7, bit_eq f8], bit_eq fl⟩

theorem vandn (d : Reg) (a : Reg) (b : Reg) (sp : Bool) : Statement (.vandn d a b sp) := by
  intro hw _ st l hst
  have b_d := d.isLt
  have b_a := a.isLt
  have b_b := b.isLt
  have b_sp := Bool.toNat_lt sp
  have b_l := Bool.toNat_lt l
  refine back_of (k := 566231040 + d.toNat * 65536 + a.toNat * 2048 + b.toNat * 64 + sp.toNat * 4) hw rfl rfl (by omega) fun N hN => ?_
  obtain ⟨f1, f2, f3, f4, f5, f6, f7, f8, fl⟩ := lay25 (N := N) (o := 14) (by decide) b_d b_a b_b b_sp b_l (by omega)
  clear hw
  exact ⟨by simp [decodeFields, decodeVR, f1, f2, f3, f4, bv_eq f5, bv_eq f6, bv_eq f7, bit_eq f8], bit_eq fl⟩

theorem vshl (d : Reg) (a : Reg) (b : Reg) (ty : VTy) (sp : Bool) (md : Bool) : Statement (.vshl d a b ty sp md) := by
  intro hw _ st l hst
  have b_d := d.isLt
  have b_a := a.isLt
  have b_b := b.isLt
  have b_ty := VTy_lt ty
  have b_sp := Bool.toNat_lt sp
  have b_md := Bool.toNat_lt md
  have b_l := Bool.toNat_lt l
  refine back_of (k := 568328192 + d.toNat * 65536 + a.toNat * 2048 + b.toNat * 64 + ty.toNat * 8 + sp.toNat * 4 + md.toNat) hw rfl rfl (by omega) fun N hN => ?_
  obtain ⟨f1, f2, f3, f4, f5, f6, f7, f8, f9, fl⟩ := lay26 (N := N) (o := 15) (by decide) b_d b_a b_b b_ty b_sp b_md b_l (by omega)
  clear hw
  exact ⟨by simp [decodeFields, decodeVR, f1, f2, f3, bv_eq f4, bv_eq f5, bv_eq f6, f7, VTy_of, bit_eq f8, bit_eq f9], bit_eq fl⟩

theorem vshr (d : Reg) (a : Reg) (b : Reg) (ty : VTy) (sp : Bool) (md : Bool) : Statement (.vshr d a b ty sp md) := by
  intro hw _ st l hst
  have b_d := d.isLt
  have b_a := a.isLt
  have b_b := b.isLt
  have b_ty := VTy_lt ty
  have b_sp := Bool.toNat_lt sp
  have b_md := Bool.toNat_lt md
  have b_l := Bool.toNat_lt l
  refine back_of (k := 570425344 + d.toNat * 65536 + a.toNat * 2048 + b.toNat * 64 + ty.toNat * 8 + sp.toNat * 4 + md.toNat) hw rfl rfl (by omega) fun N hN => ?_
  obtain ⟨f1, f2, f3, f4, f5, f6, f7, f8, f9, fl⟩ := lay26 (N := N) (o := 16) (by decide) b_d b_a b_b b_ty b_sp b_md b_l (by omega)
  clear hw
  exact ⟨by simp [decodeFields, decodeVR, f1, f2, f3, bv_eq f4, bv_eq f5, bv_eq f6, f7, VTy_of, bit_eq f8, bit_eq f9], bit_eq fl⟩

theorem vsar (d : Reg) (a : Reg) (b : Reg) (ty : VTy) (sp : Bool) (md : Bool) : Statement (.vsar d a b ty sp md) := by
  intro hw _ st l hst
  have b_d := d.isLt
  have b_a := a.isLt
  have b_b := b.isLt
  have b_ty := VTy_lt ty
  have b_sp := Bool.toNat_lt sp
  have b_md := Bool.toNat_lt md
  have b_l := Bool.toNat_lt l
  refine back_of (k := 572522496 + d.toNat * 65536 + a.toNat * 2048 + b.toNat * 64 + ty.toNat * 8 + sp.toNat * 4 + md.toNat) hw rfl rfl (by omega) fun N hN => ?_
  obtain ⟨f1, f2, f3, f4, f5, f6, f7, f8, f9, fl⟩ := lay26 (N := N) (o := 17) (by decide) b_d b_a b_b b_ty b_sp b_md b_l (by omega)
  clear hw
  exact ⟨by simp [decodeFields, decodeVR, f1, f2, f3, bv_eq f4, bv_eq f5, bv_eq f6, f7, VTy_of, bit_eq f8, bit_eq f9], bit_eq fl⟩

theorem vcmp (d : Reg) (a : Reg) (b : Reg) (ty : VTy) (sp : Bool) (cond : VCond) : Statement (.vcmp d a b ty sp cond) := by
  intro hw _ st l hst
  have b_d := d.isLt
  have b_a := a.isLt
  have b_b := b.isLt
  have b_ty := VTy_lt ty
  have b_sp := Bool.toNat_lt sp
  have b_cond := VCond_lt cond
  have b_l := Bool.toNat_lt l
  refine back_of (k := 574619648 + d.toNat * 65536 + a.toNat * 2048 + b.toNat * 64 + ty.toNat * 8 + sp.toNat * 4 + cond.toNat) hw rfl rfl (by omega) fun N hN => ?_
  obtain ⟨f1, f2, f3, f4, f5, f6, f7, f8, fl⟩ := lay27 (N := N) (o := 18) (by decide) b_d b_a b_b b_ty b_sp b_cond b_l (by omega)
  clear hw
  exact ⟨by simp [decodeFields, decodeVR, f1, f2, bv_eq f3, bv_eq f4, bv_eq f5, f6, VTy_of, bit_eq f7, f8, VCond_of], bit_eq fl⟩

theorem vbc (d : Reg) (a : Reg) (b : Reg) (ty : VTy) (sp : Bool) (md : Bool) : Statement (.vbc d a b ty sp md) := by
  intro hw _ st l hst
  have b_d := d.isLt
  have b_a := a.isLt
  have b_b := b.isLt
  have b_ty := VTy_lt ty
  have b_sp := Bool.toNat_lt sp
  have b_md := Bool.toNat_lt md
  have b_l := Bool.toNat_lt l
  refine back_of (k := 576716800 + d.toNat * 65536 + a.toNat * 2048 + b.toNat * 64 + ty.toNat * 8 + sp.toNat * 4 + md.toNat) hw rfl rfl (by omega) fun N hN => ?_
  obtain ⟨f1, f2, f3, f4, f5, f6, f7, f8, f9, fl⟩ := lay26 (N := N) (o := 19) (by decide) b_d b_a b_b b_ty b_sp b_md b_l (by omega)
  clear hw
  exact ⟨by simp [decodeFields, decodeVR, f1, f2, f3, bv_eq f4, bv_eq f5, bv_eq f6, f7, VTy_of, bit_eq f8, bit_eq f9], bit_eq fl⟩

theorem vxt (d : Reg) (a : Reg) (b : Reg) (ty : VTy) (sp : Bool) (md : Bool) : Statement (.vxt d a b ty sp md) := by
  intro hw _ st l hst
  have b_d := d.isLt
  have b_a := a.isLt
  have b_b := b.isLt
  have b_ty := VTy_lt ty
  have b_sp := Bool.toNat_lt sp
  have b_md := Bool.toNat_lt md
  have b_l := Bool.toNat_lt l
  refine back_of (k := 578813952 + d.toNat * 65536 + a.toNat * 2048 + b.toNat * 64 + ty.toNat * 8 + sp.toNat * 4 + md.toNat) hw rfl rfl (by omega) fun N hN => ?_
  obtain ⟨f1, f2, f3, f4, f5, f6, f7, f8, f9, fl⟩ := lay26 (N := N) (o := 20) (by decide) b_d b_a b_b b_ty b_sp b_md b_l (by omega)
  clear hw
  exact ⟨by simp [decodeFields, decodeVR, f1, f2, f3, bv_eq f4, bv_eq f5, bv_eq f6, f7, VTy_of, bit_eq f8, bit_eq f9], bit_eq fl⟩

theorem vlid (d : Reg) (ty : VTy) (sp : Bool) : Statement (.vlid d ty sp) := by
  intro hw _ st l hst
  have b_d := d.isLt
  have b_ty := VTy_lt ty
  have b_sp := Bool.toNat_lt sp
  have b_l := Bool.toNat_lt l
  refine back_of (k := 580911104 + d.toNat * 65536 + ty.toNat * 8 + sp.toNat * 4) hw rfl rfl (by omega) fun N hN => ?_
  obtain ⟨f1, f2, f3, f4, f5, f6, f7, fl⟩ := lay28 (N := N) (o := 21) (by decide) b_d b_ty b_sp b_l (by omega)
  clear hw
  exact ⟨by simp [decodeFields, decodeVR, f1, f2, f3, f4, bv_eq f5, f6, VTy_of, bit_eq f7], bit_eq fl⟩

theorem vrot (d : Reg) (a : Reg) (b : Reg) (ty : VTy) (sp : Bool) (md : Bool) : Statement (.vrot d a b ty sp md) := by
  intro hw _ st l hst
  have b_d := d.isLt
  have b_a := a.isLt
  have b_b := b.isLt
  have b_ty := VTy_lt ty
  have b_sp := Bool.toNat_lt sp
  have b_md := Bool.toNat_lt md
  have b_l := Bool.toNat_lt l
  refine back_of (k := 583008256 + d.toNat * 65536 + a.toNat * 2048 + b.toNat * 64 + ty.toNat * 8 + sp.toNat * 4 + md.toNat) hw rfl rfl (by omega) fun N hN => ?_
  obtain ⟨f1, f2, f3, f4, f5, f6, f7, f8, f9, fl⟩ := lay26 (N := N) (o := 22) (by decide) b_d b_a b_b b_ty b_sp b_md b_l (by omega)
  clear hw
  exact ⟨by simp [decodeFields, decodeVR, f1, f2, f3, bv_eq f4, bv_eq f5, bv_eq f6, f7, VTy_of, bit_eq f8, bit_eq f9], bit_eq fl⟩

theorem vperm (d : Reg) (a : Reg) (b : Reg) (ty : VTy) (sp : Bool) : Statement (.vperm d a b ty sp) := by
  intro hw _ st l hst
  have b_d := d.isLt
  have b_a := a.isLt
  have b_b := b.isLt
  have b_ty := VTy_lt ty
  have b_sp := Bool.toNat_lt sp
  have b_l := Bool.toNat_lt l
  refine back_of (k := 585105408 + d.toNat * 65536 + a.toNat * 2048 + b.toNat * 64 + ty.toNat * 8 + sp.toNat * 4) hw rfl rfl (by omega) fun N hN => ?_
  obtain ⟨f1, f2, f3, f4, f5, f6, f7, f8, fl⟩ := lay23 (N := N) (o := 23) (by decide) b_d b_a b_b b_ty b_sp b_l (by omega)
  clear hw
  exact ⟨by simp [decodeFields, decodeVR, f1, f2, f3, bv_eq f4, bv_eq f5, bv_eq f6, f7, VTy_of, bit_eq f8], bit_eq fl⟩

theorem vrsum (d : Reg) (a : Reg) (ty : VTy) (sp : Bool) (md : BitVec 2) : Statement (.vrsum d a ty sp md) := by
  intro hw _ st l hst
  have b_d := d.isLt
  have b_a := a.isLt
  have b_ty := VTy_lt ty
  have b_sp := Bool.toNat_lt sp
  have b_md := md.isLt
  have b_l := Bool.toNat_lt l
  refine back_of (k := 587202560 + d.toNat * 65536 + a.toNat * 2048 + ty.toNat * 8 + sp.toNat * 4 + md.toNat) hw rfl rfl (by omega) fun N hN => ?_
  obtain ⟨f1, f2, f3, f4, f5, f6, f7, f8, fl⟩ := lay24 (N := N) (o := 24) (by decide) b_d b_a b_ty b_sp b_md b_l (by omega)
  clear hw
  exact ⟨by simp [decodeFields, decodeVR, f1, f2, f3, bv_eq f4, bv_eq f5, f6, VTy_of, bit_eq f7, bv_eq f8], bit_eq fl⟩

theorem vrmax (d : Reg) (a : Reg) (ty : VTy) (sp : Bool) : Statement (.vrmax d a ty sp) := by
  intro hw _ st l hst
  have b_d := d.isLt
  have b_a := a.isLt
  have b_ty := VTy_lt ty
  have b_sp := Bool.toNat_lt sp
  have b_l := Bool.toNat_lt l
  refine back_of (k := 589299712 + d.toNat * 65536 + a.toNat * 2048 + ty.toNat * 8 + sp.toNat * 4) hw rfl rfl (by omega) fun N hN => ?_
  obtain ⟨f1, f2, f3, f4, f5, f6, f7, f8, fl⟩ := lay29 (N := N) (o := 25) (by decide) b_d b_a b_ty b_sp b_l (by omega)
  clear hw
  exact ⟨by simp [decodeFields, decodeVR, f1, f2, f3, f4, bv_eq f5, bv_eq f6, f7, VTy_of, bit_eq f8], bit_eq fl⟩

theorem vrmin (d : Reg) (a : Reg) (ty : VTy) (sp : Bool) : Statement (.vrmin d a ty sp) := by
  intro hw _ st l hst
  have b_d := d.isLt
  have b_a := a.isLt
  have b_ty := VTy_lt ty
  have b_sp := Bool.toNat_lt sp
  have b_l := Bool.toNat_lt l
  refine back_of (k := 591396864 + d.toNat * 65536 + a.toNat * 2048 + ty.toNat * 8 + sp.toNat * 4) hw rfl rfl (by omega) fun N hN => ?_
  obtain ⟨f1, f2, f3, f4, f5, f6, f7, f8, fl⟩ := lay29 (N := N) (o := 26) (by decide) b_d b_a b_ty b_sp b_l (by omega)
  clear hw
  exact ⟨by simp [decodeFields, decodeVR, f1, f2, f3, f4, bv_eq f5, bv_eq f6, f7, VTy_of, bit_eq f8], bit_eq fl⟩

theorem vrcp (d : Reg) (a : Reg) (ty : VTy) (sp : Bool) : Statement (.vrcp d a ty sp) := by
  intro hw _ st l hst
  have b_d := d.isLt
  have b_a := a.isLt
  have b_ty := VTy_lt ty
  have b_sp := Bool.toNat_lt sp
  have b_l := Bool.toNat_lt l
  refine back_of (k := 593494016 + d.toNat * 65536 + a.toNat * 2048 + ty.toNat * 8 + sp.toNat * 4) hw rfl rfl (by omega) fun N hN => ?_
  obtain ⟨f1, f2, f3, f4, f5, f6, f7, f8, fl⟩ := lay29 (N := N) (o := 27) (by decide) b_d b_a b_ty b_sp b_l (by omega)
  clear hw
  exact ⟨by simp [decodeFields, decodeVR, f1, f2, f3, f4, bv_eq f5, bv_eq f6, f7, VTy_of, bit_eq f8], bit_eq fl⟩

theorem vrsq (d : Reg) (a : Reg) (ty : VTy) (sp : Bool) : Statement (.vrsq d a ty sp) := by
  intro hw _ st l hst
  have b_d := d.isLt
  have b_a := a.isLt
  have b_ty := VTy_lt ty
  have b_sp := Bool.toNat_lt sp
  have b_l := Bool.toNat_lt l
  refine back_of (k := 595591168 + d.toNat * 65536 + a.toNat * 2048 + ty.toNat * 8 + sp.toNat * 4) hw rfl rfl (by omega) fun N hN => ?_
  obtain ⟨f1, f2, f3, f4, f5, f6, f7, f8, fl⟩ := lay29 (N := N) (o := 28) (by decide) b_d b_a b_ty b_sp b_l (by omega)
  clear hw
  exact ⟨by simp [decodeFields, decodeVR, f1, f2, f3, f4, bv_eq f5, bv_eq f6, f7, VTy_of, bit_eq f8], bit_eq fl⟩

theorem vex2 (d : Reg) (a : Reg) (ty : VTy) (sp : Bool) : Statement (.vex2 d a ty sp) := by
  intro hw _ st l hst
  have b_d := d.isLt
  have b_a := a.isLt
  have b_ty := VTy_lt ty
  have b_sp := Bool.toNat_lt sp
  have b_l := Bool.toNat_lt l
  refine back_of (k := 597688320 + d.toNat * 65536 + a.toNat * 2048 + ty.toNat * 8 + sp.toNat * 4) hw rfl rfl (by omega) fun N hN => ?_
  obtain ⟨f1, f2, f3, f4, f5, f6, f7, f8, fl⟩ := lay29 (N := N) (o := 29) (by decide) b_d b_a b_ty b_sp b_l (by omega)
  clear hw
  exact ⟨by simp [decodeFields, decodeVR, f1, f2, f3, f4, bv_eq f5, bv_eq f6, f7, VTy_of, bit_eq f8], bit_eq fl⟩

theorem vlg2 (d : Reg) (a : Reg) (ty : VTy) (sp : Bool) : Statement (.vlg2 d a ty sp) := by
  intro hw _ st l hst
  have b_d := d.isLt
  have b_a := a.isLt
  have b_ty := VTy_lt ty
  have b_sp := Bool.toNat_lt sp
  have b_l := Bool.toNat_lt l
  refine back_of (k := 599785472 + d.toNat * 65536 + a.toNat * 2048 + ty.toNat * 8 + sp.toNat * 4) hw rfl rfl (by omega) fun N hN => ?_
  obtain ⟨f1, f2, f3, f4, f5, f6, f7, f8, fl⟩ := lay29 (N := N) (o := 30) (by decide) b_d b_a b_ty b_sp b_l (by omega)
  clear hw
  exact ⟨by simp [decodeFields, decodeVR, f1, f2, f3, f4, bv_eq f5, bv_eq f6, f7, VTy_of, bit_eq f8], bit_eq fl⟩

theorem vdot4 (d : Reg) (a : Reg) (b : Reg) (ty : VTy) (sp : Bool) (md : BitVec 2) : Statement (.vdot4 d a b ty sp md) := by
  intro hw _ st l hst
  have b_d := d.isLt
  have b_a := a.isLt
  have b_b := b.isLt
  have b_ty := VTy_lt ty
  have b_sp := Bool.toNat_lt sp
  have b_md := md.isLt
  have b_l := Bool.toNat_lt l
  refine back_of (k := 601882624 + d.toNat * 65536 + a.toNat * 2048 + b.toNat * 64 + ty.toNat * 8 + sp.toNat * 4 + md.toNat) hw rfl rfl (by omega) fun N hN => ?_
  obtain ⟨f1, f2, f3, f4, f5, f6, f7, f8, fl⟩ := lay22 (N := N) (o := 31) (by decide) b_d b_a b_b b_ty b_sp b_md b_l (by omega)
  clear hw
  exact ⟨by simp [decodeFields, decodeVR, f1, f2, bv_eq f3, bv_eq f4, bv_eq f5, f6, VTy_of, bit_eq f7, bv_eq f8], bit_eq fl⟩

theorem vpopc (d : Reg) (a : Reg) (ty : VTy) (sp : Bool) : Statement (.vpopc d a ty sp) := by
  intro hw _ st l hst
  have b_d := d.isLt
  have b_a := a.isLt
  have b_ty := VTy_lt ty
  have b_sp := Bool.toNat_lt sp
  have b_l := Bool.toNat_lt l
  refine back_of (k := 603979776 + d.toNat * 65536 + a.toNat * 2048 + ty.toNat * 8 + sp.toNat * 4) hw rfl rfl (by omega) fun N hN => ?_
  obtain ⟨f1, f2, f3, f4, f5, f6, f7, f8, fl⟩ := lay29 (N := N) (o := 32) (by decide) b_d b_a b_ty b_sp b_l (by omega)
  clear hw
  exact ⟨by simp [decodeFields, decodeVR, f1, f2, f3, f4, bv_eq f5, bv_eq f6, f7, VTy_of, bit_eq f8], bit_eq fl⟩

theorem vclz (d : Reg) (a : Reg) (ty : VTy) (sp : Bool) : Statement (.vclz d a ty sp) := by
  intro hw _ st l hst
  have b_d := d.isLt
  have b_a := a.isLt
  have b_ty := VTy_lt ty
  have b_sp := Bool.toNat_lt sp
  have b_l := Bool.toNat_lt l
  refine back_of (k := 606076928 + d.toNat * 65536 + a.toNat * 2048 + ty.toNat * 8 + sp.toNat * 4) hw rfl rfl (by omega) fun N hN => ?_
  obtain ⟨f1, f2, f3, f4, f5, f6, f7, f8, fl⟩ := lay29 (N := N) (o := 33) (by decide) b_d b_a b_ty b_sp b_l (by omega)
  clear hw
  exact ⟨by simp [decodeFields, decodeVR, f1, f2, f3, f4, bv_eq f5, bv_eq f6, f7, VTy_of, bit_eq f8], bit_eq fl⟩

theorem vtacc (d : Reg) (a : Reg) (b : Reg) (ty : VTy) (sp : Bool) : Statement (.vtacc d a b ty sp) := by
  intro hw _ st l hst
  have b_d := d.isLt
  have b_a := a.isLt
  have b_b := b.isLt
  have b_ty := VTy_lt ty
  have b_sp := Bool.toNat_lt sp
  have b_l := Bool.toNat_lt l
  refine back_of (k := 608174080 + d.toNat * 65536 + a.toNat * 2048 + b.toNat * 64 + ty.toNat * 8 + sp.toNat * 4) hw rfl rfl (by omega) fun N hN => ?_
  obtain ⟨f1, f2, f3, f4, f5, f6, f7, f8, fl⟩ := lay23 (N := N) (o := 34) (by decide) b_d b_a b_b b_ty b_sp b_l (by omega)
  clear hw
  exact ⟨by simp [decodeFields, decodeVR, f1, f2, f3, bv_eq f4, bv_eq f5, bv_eq f6, f7, VTy_of, bit_eq f8], bit_eq fl⟩

theorem vsel (d : Reg) (a : Reg) (b : Reg) (vc : Reg) : Statement (.vsel d a b vc) := by
  intro hw _ st l hst
  have b_d := d.isLt
  have b_a := a.isLt
  have b_b := b.isLt
  have b_vc := vc.isLt
  have b_l := Bool.toNat_lt l
  refine back_of (k := 671088640 + d.toNat * 131072 + a.toNat * 4096 + b.toNat * 128 + vc.toNat * 4) hw rfl rfl (by omega) fun N hN => ?_
  obtain ⟨f1, f2, f3, f4, f5, f6, f7, fl⟩ := lay30 (N := N) (o := 0) (by decide) b_d b_a b_b b_vc b_l (by omega)
  clear hw
  exact ⟨by simp [decodeFields, decodeVX, f1, f2, f3, bv_eq f4, bv_eq f5, bv_eq f6, bv_eq f7], bit_eq fl⟩

theorem vselB (d : Reg) (a : Reg) (b : Reg) (vc : Reg) : Statement (.vselB d a b vc) := by
  intro hw _ st l hst
  have b_d := d.isLt
  have b_a := a.isLt
  have b_b := b.isLt
  have b_vc := vc.isLt
  have b_l := Bool.toNat_lt l
  refine back_of (k := 671088641 + d.toNat * 131072 + a.toNat * 4096 + b.toNat * 128 + vc.toNat * 4) hw rfl rfl (by omega) fun N hN => ?_
  obtain ⟨f1, f2, f3, f4, f5, f6, f7, fl⟩ := lay31 (N := N) (o := 0) (by decide) b_d b_a b_b b_vc b_l (by omega)
  clear hw
  exact ⟨by simp [decodeFields, decodeVX, f1, f2, f3, bv_eq f4, bv_eq f5, bv_eq f6, bv_eq f7], bit_eq fl⟩

theorem vcvt (d : Reg) (a : Reg) (src : Reg) (cf : BitVec 5) (sp : Bool) (md : Bool) : Statement (.vcvt d a src cf sp md) := by
  intro hw _ st l hst
  have b_d := d.isLt
  have b_a := a.isLt
  have b_src := src.isLt
  have b_cf := cf.isLt
  have b_sp := Bool.toNat_lt sp
  have b_md := Bool.toNat_lt md
  have b_l := Bool.toNat_lt l
  refine back_of (k := 675282944 + d.toNat * 131072 + a.toNat * 4096 + src.toNat * 128 + cf.toNat * 4 + sp.toNat * 2 + md.toNat) hw rfl rfl (by omega) fun N hN => ?_
  obtain ⟨f1, f2, f3, f4, f5, f6, f7, f8, fl⟩ := lay32 (N := N) (o := 1) (by decide) b_d b_a b_src b_cf b_sp b_md b_l (by omega)
  clear hw
  exact ⟨by simp [decodeFields, decodeVX, f1, f2, bv_eq f3, bv_eq f4, bv_eq f5, bv_eq f6, bit_eq f7, bit_eq f8], bit_eq fl⟩

theorem vbq (d : Reg) (a : Reg) (b : Reg) (fmt : BitVec 5) (sp : Bool) (md : Bool) : Statement (.vbq d a b fmt sp md) := by
  intro hw _ st l hst
  have b_d := d.isLt
  have b_a := a.isLt
  have b_b := b.isLt
  have b_fmt := fmt.isLt
  have b_sp := Bool.toNat_lt sp
  have b_md := Bool.toNat_lt md
  have b_l := Bool.toNat_lt l
  refine back_of (k := 679477248 + d.toNat * 131072 + a.toNat * 4096 + b.toNat * 128 + fmt.toNat * 4 + sp.toNat * 2 + md.toNat) hw rfl rfl (by omega) fun N hN => ?_
  obtain ⟨f1, f2, f3, f4, f5, f6, f7, f8, fl⟩ := lay32 (N := N) (o := 2) (by decide) b_d b_a b_b b_fmt b_sp b_md b_l (by omega)
  clear hw
  exact ⟨by simp [decodeFields, decodeVX, f1, f2, bv_eq f3, bv_eq f4, bv_eq f5, bv_eq f6, bit_eq f7, bit_eq f8], bit_eq fl⟩

theorem vbdq (d : Reg) (a : Reg) (fmt : BitVec 5) (sp : Bool) (md : Bool) : Statement (.vbdq d a fmt sp md) := by
  intro hw _ st l hst
  have b_d := d.isLt
  have b_a := a.isLt
  have b_fmt := fmt.isLt
  have b_sp := Bool.toNat_lt sp
  have b_md := Bool.toNat_lt md
  have b_l := Bool.toNat_lt l
  refine back_of (k := 683671552 + d.toNat * 131072 + a.toNat * 4096 + fmt.toNat * 4 + sp.toNat * 2 + md.toNat) hw rfl rfl (by omega) fun N hN => ?_
  obtain ⟨f1, f2, f3, f4, f5, f6, f7, f8, fl⟩ := lay33 (N := N) (o := 3) (by decide) b_d b_a b_fmt b_sp b_md b_l (by omega)
  clear hw
  exact ⟨by simp [decodeFields, decodeVX, f1, f2, f3, bv_eq f4, bv_eq f5, bv_eq f6, bit_eq f7, bit_eq f8], bit_eq fl⟩

theorem vbscl (d : Reg) (a : Reg) (b : Reg) (fmt : BitVec 5) (sp : Bool) (md : Bool) : Statement (.vbscl d a b fmt sp md) := by
  intro hw _ st l hst
  have b_d := d.isLt
  have b_a := a.isLt
  have b_b := b.isLt
  have b_fmt := fmt.isLt
  have b_sp := Bool.toNat_lt sp
  have b_md := Bool.toNat_lt md
  have b_l := Bool.toNat_lt l
  refine back_of (k := 687865856 + d.toNat * 131072 + a.toNat * 4096 + b.toNat * 128 + fmt.toNat * 4 + sp.toNat * 2 + md.toNat) hw rfl rfl (by omega) fun N hN => ?_
  obtain ⟨f1, f2, f3, f4, f5, f6, f7, f8, fl⟩ := lay32 (N := N) (o := 4) (by decide) b_d b_a b_b b_fmt b_sp b_md b_l (by omega)
  clear hw
  exact ⟨by simp [decodeFields, decodeVX, f1, f2, bv_eq f3, bv_eq f4, bv_eq f5, bv_eq f6, bit_eq f7, bit_eq f8], bit_eq fl⟩

theorem vtunp (d : Reg) (a : Reg) (n : BitVec 5) (sp : Bool) : Statement (.vtunp d a n sp) := by
  intro hw _ st l hst
  have b_d := d.isLt
  have b_a := a.isLt
  have b_n := n.isLt
  have b_sp := Bool.toNat_lt sp
  have b_l := Bool.toNat_lt l
  refine back_of (k := 692060160 + d.toNat * 131072 + a.toNat * 4096 + n.toNat * 4 + sp.toNat * 2) hw rfl rfl (by omega) fun N hN => ?_
  obtain ⟨f1, f2, f3, f4, f5, f6, f7, f8, fl⟩ := lay34 (N := N) (o := 5) (by decide) b_d b_a b_n b_sp b_l (by omega)
  clear hw
  exact ⟨by simp [decodeFields, decodeVX, f1, f2, f3, f4, bv_eq f5, bv_eq f6, bv_eq f7, bit_eq f8], bit_eq fl⟩

theorem vpak (d : Reg) (a : Reg) (b : Reg) (wc : BitVec 5) (sp : Bool) : Statement (.vpak d a b wc sp) := by
  intro hw _ st l hst
  have b_d := d.isLt
  have b_a := a.isLt
  have b_b := b.isLt
  have b_wc := wc.isLt
  have b_sp := Bool.toNat_lt sp
  have b_l := Bool.toNat_lt l
  refine back_of (k := 696254464 + d.toNat * 131072 + a.toNat * 4096 + b.toNat * 128 + wc.toNat * 4 + sp.toNat * 2) hw rfl rfl (by omega) fun N hN => ?_
  obtain ⟨f1, f2, f3, f4, f5, f6, f7, f8, fl⟩ := lay35 (N := N) (o := 6) (by decide) b_d b_a b_b b_wc b_sp b_l (by omega)
  clear hw
  exact ⟨by simp [decodeFields, decodeVX, f1, f2, f3, bv_eq f4, bv_eq f5, bv_eq f6, bv_eq f7, bit_eq f8], bit_eq fl⟩

theorem vupk (d : Reg) (a : Reg) (h : BitVec 5) (wc : BitVec 5) (sp : Bool) (md : Bool) : Statement (.vupk d a h wc sp md) := by
  intro hw _ st l hst
  have b_d := d.isLt
  have b_a := a.isLt
  have b_h := h.isLt
  have b_wc := wc.isLt
  have b_sp := Bool.toNat_lt sp
  have b_md := Bool.toNat_lt md
  have b_l := Bool.toNat_lt l
  refine back_of (k := 700448768 + d.toNat * 131072 + a.toNat * 4096 + h.toNat * 128 + wc.toNat * 4 + sp.toNat * 2 + md.toNat) hw rfl rfl (by omega) fun N hN => ?_
  obtain ⟨f1, f2, f3, f4, f5, f6, f7, f8, fl⟩ := lay32 (N := N) (o := 7) (by decide) b_d b_a b_h b_wc b_sp b_md b_l (by omega)
  clear hw
  exact ⟨by simp [decodeFields, decodeVX, f1, f2, bv_eq f3, bv_eq f4, bv_eq f5, bv_eq f6, bit_eq f7, bit_eq f8], bit_eq fl⟩

theorem vrng (d : Reg) (a : Reg) (b : Reg) (sp : Bool) (md : Bool) : Statement (.vrng d a b sp md) := by
  intro hw _ st l hst
  have b_d := d.isLt
  have b_a := a.isLt
  have b_b := b.isLt
  have b_sp := Bool.toNat_lt sp
  have b_md := Bool.toNat_lt md
  have b_l := Bool.toNat_lt l
  refine back_of (k := 704643072 + d.toNat * 131072 + a.toNat * 4096 + b.toNat * 128 + sp.toNat * 2 + md.toNat) hw rfl rfl (by omega) fun N hN => ?_
  obtain ⟨f1, f2, f3, f4, f5, f6, f7, f8, fl⟩ := lay36 (N := N) (o := 8) (by decide) b_d b_a b_b b_sp b_md b_l (by omega)
  clear hw
  exact ⟨by simp [decodeFields, decodeVX, f1, f2, f3, bv_eq f4, bv_eq f5, bv_eq f6, bit_eq f7, bit_eq f8], bit_eq fl⟩

theorem vptst (d : Reg) (a : Reg) : Statement (.vptst d a) := by
  intro hw _ st l hst
  have b_d := d.isLt
  have b_a := a.isLt
  have b_l := Bool.toNat_lt l
  refine back_of (k := 708837376 + d.toNat * 131072 + a.toNat * 4096) hw rfl rfl (by omega) fun N hN => ?_
  obtain ⟨f1, f2, f3, f4, f5, fl⟩ := lay37 (N := N) (o := 9) (by decide) b_d b_a b_l (by omega)
  clear hw
  exact ⟨by simp [decodeFields, decodeVX, f1, f2, f3, bv_eq f4, bv_eq f5], bit_eq fl⟩

theorem ld (space : Space) (r : Reg) (b : Reg) (size : Size) (off : BitVec 10) : Statement (.ld space r b size off) := by
  intro hw _ st l hst
  have b_space := Space_lt space
  have b_r := r.isLt
  have b_b := b.isLt
  have b_size := Size_lt size
  have b_off := off.isLt
  have b_l := Bool.toNat_lt l
  refine back_of (k := 805306368 + space.toNat * 4194304 + r.toNat * 131072 + b.toNat * 4096 + size.toNat * 1024 + off.toNat) hw rfl rfl (by omega) fun N hN => ?_
  obtain ⟨f1, f2, f3, f4, f5, f6, f7, fl⟩ := lay38 (N := N) (o := 0) (by decide) b_space b_r b_b b_size b_off b_l (by omega)
  clear hw
  exact ⟨by simp [decodeFields, decodeMB, f1, f2, f3, Space_of, bv_eq f4, bv_eq f5, f6, Size_of, bv_eq f7], bit_eq fl⟩

theorem st (space : Space) (r : Reg) (b : Reg) (size : Size) (off : BitVec 10) : Statement (.st space r b size off) := by
  intro hw _ st l hst
  have b_space := Space_lt space
  have b_r := r.isLt
  have b_b := b.isLt
  have b_size := Size_lt size
  have b_off := off.isLt
  have b_l := Bool.toNat_lt l
  refine back_of (k := 822083584 + space.toNat * 4194304 + r.toNat * 131072 + b.toNat * 4096 + size.toNat * 1024 + off.toNat) hw rfl rfl (by omega) fun N hN => ?_
  obtain ⟨f1, f2, f3, f4, f5, f6, f7, fl⟩ := lay38 (N := N) (o := 1) (by decide) b_space b_r b_b b_size b_off b_l (by omega)
  clear hw
  exact ⟨by simp [decodeFields, decodeMB, f1, f2, f3, Space_of, bv_eq f4, bv_eq f5, f6, Size_of, bv_eq f7], bit_eq fl⟩

theorem vld (space : Space) (r : Reg) (b : Reg) (size : Size) (off : BitVec 10) : Statement (.vld space r b size off) := by
  intro hw _ st l hst
  have b_space := Space_lt space
  have b_r := r.isLt
  have b_b := b.isLt
  have b_size := Size_lt size
  have b_off := off.isLt
  have b_l := Bool.toNat_lt l
  refine back_of (k := 838860800 + space.toNat * 4194304 + r.toNat * 131072 + b.toNat * 4096 + size.toNat * 1024 + off.toNat) hw rfl rfl (by omega) fun N hN => ?_
  obtain ⟨f1, f2, f3, f4, f5, f6, f7, fl⟩ := lay38 (N := N) (o := 2) (by decide) b_space b_r b_b b_size b_off b_l (by omega)
  clear hw
  exact ⟨by simp [decodeFields, decodeMB, f1, f2, f3, Space_of, bv_eq f4, bv_eq f5, f6, Size_of, bv_eq f7], bit_eq fl⟩

theorem vst (space : Space) (r : Reg) (b : Reg) (size : Size) (off : BitVec 10) : Statement (.vst space r b size off) := by
  intro hw _ st l hst
  have b_space := Space_lt space
  have b_r := r.isLt
  have b_b := b.isLt
  have b_size := Size_lt size
  have b_off := off.isLt
  have b_l := Bool.toNat_lt l
  refine back_of (k := 855638016 + space.toNat * 4194304 + r.toNat * 131072 + b.toNat * 4096 + size.toNat * 1024 + off.toNat) hw rfl rfl (by omega) fun N hN => ?_
  obtain ⟨f1, f2, f3, f4, f5, f6, f7, fl⟩ := lay38 (N := N) (o := 3) (by decide) b_space b_r b_b b_size b_off b_l (by omega)
  clear hw
  exact ⟨by simp [decodeFields, decodeMB, f1, f2, f3, Space_of, bv_eq f4, bv_eq f5, f6, Size_of, bv_eq f7], bit_eq fl⟩

theorem vgat (space : Space) (r : Reg) (b : Reg) (size : Size) (vi : Reg) (sp : Bool) : Statement (.vgat space r b size vi sp) := by
  intro hw _ st l hst
  have b_space := Space_lt space
  have b_r := r.isLt
  have b_b := b.isLt
  have b_size := Size_lt size
  have b_vi := vi.isLt
  have b_sp := Bool.toNat_lt sp
  have b_l := Bool.toNat_lt l
  refine back_of (k := 872415232 + space.toNat * 4194304 + r.toNat * 131072 + b.toNat * 4096 + size.toNat * 1024 + vi.toNat * 32 + sp.toNat) hw rfl rfl (by omega) fun N hN => ?_
  obtain ⟨f1, f2, f3, f4, f5, f6, f7, f8, f9, fl⟩ := lay39 (N := N) (o := 4) (by decide) b_space b_r b_b b_size b_vi b_sp b_l (by omega)
  clear hw
  exact ⟨by simp [decodeFields, decodeMB, f1, f2, f3, f4, Space_of, bv_eq f5, bv_eq f6, f7, Size_of, bv_eq f8, bit_eq f9], bit_eq fl⟩

theorem vsct (space : Space) (r : Reg) (b : Reg) (size : Size) (vi : Reg) : Statement (.vsct space r b size vi) := by
  intro hw _ st l hst
  have b_space := Space_lt space
  have b_r := r.isLt
  have b_b := b.isLt
  have b_size := Size_lt size
  have b_vi := vi.isLt
  have b_l := Bool.toNat_lt l
  refine back_of (k := 889192448 + space.toNat * 4194304 + r.toNat * 131072 + b.toNat * 4096 + size.toNat * 1024 + vi.toNat * 32) hw rfl rfl (by omega) fun N hN => ?_
  obtain ⟨f1, f2, f3, f4, f5, f6, f7, f8, fl⟩ := lay40 (N := N) (o := 5) (by decide) b_space b_r b_b b_size b_vi b_l (by omega)
  clear hw
  exact ⟨by simp [decodeFields, decodeMB, f1, f2, f3, f4, Space_of, bv_eq f5, bv_eq f6, f7, Size_of, bv_eq f8], bit_eq fl⟩

theorem vldb (space : Space) (r : Reg) (b : Reg) (size : Size) (off : BitVec 10) : Statement (.vldb space r b size off) := by
  intro hw _ st l hst
  have b_space := Space_lt space
  have b_r := r.isLt
  have b_b := b.isLt
  have b_size := Size_lt size
  have b_off := off.isLt
  have b_l := Bool.toNat_lt l
  refine back_of (k := 905969664 + space.toNat * 4194304 + r.toNat * 131072 + b.toNat * 4096 + size.toNat * 1024 + off.toNat) hw rfl rfl (by omega) fun N hN => ?_
  obtain ⟨f1, f2, f3, f4, f5, f6, f7, fl⟩ := lay38 (N := N) (o := 6) (by decide) b_space b_r b_b b_size b_off b_l (by omega)
  clear hw
  exact ⟨by simp [decodeFields, decodeMB, f1, f2, f3, Space_of, bv_eq f4, bv_eq f5, f6, Size_of, bv_eq f7], bit_eq fl⟩

theorem cbdef (a : Reg) (b : Reg) (c : Reg) (inC : Bool) (n : BitVec 4) : Statement (.cbdef a b c inC n) := by
  intro hw _ st l hst
  have b_a := a.isLt
  have b_b := b.isLt
  have b_c := c.isLt
  have b_inC := Bool.toNat_lt inC
  have b_n := n.isLt
  have b_l := Bool.toNat_lt l
  refine back_of (k := 939524096 + a.toNat * 65536 + b.toNat * 2048 + c.toNat * 64 + inC.toNat * 16 + n.toNat) hw rfl rfl (by omega) fun N hN => ?_
  obtain ⟨f1, f2, f3, f4, f5, f6, f7, f8, fl⟩ := lay41 (N := N) (o := 0) (by decide) b_a b_b b_c b_inC b_n b_l (by omega)
  clear hw
  exact ⟨by simp [decodeFields, decodeEX, f1, f2, f3, bv_eq f4, bv_eq f5, bv_eq f6, bit_eq f7, bv_eq f8], bit_eq fl⟩

theorem cbadvP (a : Reg) (n : BitVec 4) : Statement (.cbadvP a n) := by
  intro hw _ st l hst
  have b_a := a.isLt
  have b_n := n.isLt
  have b_l := Bool.toNat_lt l
  refine back_of (k := 941621248 + a.toNat * 65536 + n.toNat) hw rfl rfl (by omega) fun N hN => ?_
  obtain ⟨f1, f2, f3, f4, f5, fl⟩ := lay42 (N := N) (o := 1) (by decide) b_a b_n b_l (by omega)
  clear hw
  exact ⟨by simp [decodeFields, decodeEX, f1, f2, f3, bv_eq f4, bv_eq f5], bit_eq fl⟩

theorem cbadvC (a : Reg) (n : BitVec 4) : Statement (.cbadvC a n) := by
  intro hw _ st l hst
  have b_a := a.isLt
  have b_n := n.isLt
  have b_l := Bool.toNat_lt l
  refine back_of (k := 941621264 + a.toNat * 65536 + n.toNat) hw rfl rfl (by omega) fun N hN => ?_
  obtain ⟨f1, f2, f3, f4, f5, fl⟩ := lay43 (N := N) (o := 1) (by decide) b_a b_n b_l (by omega)
  clear hw
  exact ⟨by simp [decodeFields, decodeEX, f1, f2, f3, bv_eq f4, bv_eq f5], bit_eq fl⟩

theorem cbadvPW (a : Reg) (n : BitVec 4) : Statement (.cbadvPW a n) := by
  intro hw _ st l hst
  have b_a := a.isLt
  have b_n := n.isLt
  have b_l := Bool.toNat_lt l
  refine back_of (k := 941621280 + a.toNat * 65536 + n.toNat) hw rfl rfl (by omega) fun N hN => ?_
  obtain ⟨f1, f2, f3, f4, f5, fl⟩ := lay44 (N := N) (o := 1) (by decide) b_a b_n b_l (by omega)
  clear hw
  exact ⟨by simp [decodeFields, decodeEX, f1, f2, f3, bv_eq f4, bv_eq f5], bit_eq fl⟩

theorem cbadvCW (a : Reg) (n : BitVec 4) : Statement (.cbadvCW a n) := by
  intro hw _ st l hst
  have b_a := a.isLt
  have b_n := n.isLt
  have b_l := Bool.toNat_lt l
  refine back_of (k := 941621296 + a.toNat * 65536 + n.toNat) hw rfl rfl (by omega) fun N hN => ?_
  obtain ⟨f1, f2, f3, f4, f5, fl⟩ := lay45 (N := N) (o := 1) (by decide) b_a b_n b_l (by omega)
  clear hw
  exact ⟨by simp [decodeFields, decodeEX, f1, f2, f3, bv_eq f4, bv_eq f5], bit_eq fl⟩

theorem cp (a : Reg) (b : Reg) (c : Reg) (t : BitVec 6) : Statement (.cp a b c t) := by
  intro hw _ st l hst
  have b_a := a.isLt
  have b_b := b.isLt
  have b_c := c.isLt
  have b_t := t.isLt
  have b_l := Bool.toNat_lt l
  refine back_of (k := 943718400 + a.toNat * 65536 + b.toNat * 2048 + c.toNat * 64 + t.toNat) hw rfl rfl (by omega) fun N hN => ?_
  obtain ⟨f1, f2, f3, f4, f5, f6, fl⟩ := lay46 (N := N) (o := 2) (by decide) b_a b_b b_c b_t b_l (by omega)
  clear hw
  exact ⟨by simp [decodeFields, decodeEX, f1, f2, bv_eq f3, bv_eq f4, bv_eq f5, bv_eq f6], bit_eq fl⟩

theorem cpg (a : Reg) (b : Reg) (c : Reg) (t : BitVec 6) : Statement (.cpg a b c t) := by
  intro hw _ st l hst
  have b_a := a.isLt
  have b_b := b.isLt
  have b_c := c.isLt
  have b_t := t.isLt
  have b_l := Bool.toNat_lt l
  refine back_of (k := 945815552 + a.toNat * 65536 + b.toNat * 2048 + c.toNat * 64 + t.toNat) hw rfl rfl (by omega) fun N hN => ?_
  obtain ⟨f1, f2, f3, f4, f5, f6, fl⟩ := lay46 (N := N) (o := 3) (by decide) b_a b_b b_c b_t b_l (by omega)
  clear hw
  exact ⟨by simp [decodeFields, decodeEX, f1, f2, bv_eq f3, bv_eq f4, bv_eq f5, bv_eq f6], bit_eq fl⟩

theorem cpm (a : Reg) (b : Reg) (c : Reg) (t : BitVec 6) : Statement (.cpm a b c t) := by
  intro hw _ st l hst
  have b_a := a.isLt
  have b_b := b.isLt
  have b_c := c.isLt
  have b_t := t.isLt
  have b_l := Bool.toNat_lt l
  refine back_of (k := 947912704 + a.toNat * 65536 + b.toNat * 2048 + c.toNat * 64 + t.toNat) hw rfl rfl (by omega) fun N hN => ?_
  obtain ⟨f1, f2, f3, f4, f5, f6, fl⟩ := lay46 (N := N) (o := 4) (by decide) b_a b_b b_c b_t b_l (by omega)
  clear hw
  exact ⟨by simp [decodeFields, decodeEX, f1, f2, bv_eq f3, bv_eq f4, bv_eq f5, bv_eq f6], bit_eq fl⟩

theorem mlds (a : Reg) (b : Reg) (c : Reg) : Statement (.mlds a b c) := by
  intro hw _ st l hst
  have b_a := a.isLt
  have b_b := b.isLt
  have b_c := c.isLt
  have b_l := Bool.toNat_lt l
  refine back_of (k := 950009856 + a.toNat * 65536 + b.toNat * 2048 + c.toNat * 64) hw rfl rfl (by omega) fun N hN => ?_
  obtain ⟨f1, f2, f3, f4, f5, f6, fl⟩ := lay47 (N := N) (o := 5) (by decide) b_a b_b b_c b_l (by omega)
  clear hw
  exact ⟨by simp [decodeFields, decodeEX, f1, f2, f3, bv_eq f4, bv_eq f5, bv_eq f6], bit_eq fl⟩

theorem mswap  : Statement (.mswap) := by
  intro hw _ st l hst
  have b_l := Bool.toNat_lt l
  refine back_of (k := 952107008) hw rfl rfl (by omega) fun N hN => ?_
  obtain ⟨f1, f2, f3, fl⟩ := lay48 (N := N) (o := 6) (by decide) b_l (by omega)
  clear hw
  exact ⟨by simp [decodeFields, decodeEX, f1, f2, f3], bit_eq fl⟩

theorem mmul (a : Reg) (b : Reg) (c : Reg) (cbf : Bool) (n : BitVec 4) : Statement (.mmul a b c cbf n) := by
  intro hw _ st l hst
  have b_a := a.isLt
  have b_b := b.isLt
  have b_c := c.isLt
  have b_cbf := Bool.toNat_lt cbf
  have b_n := n.isLt
  have b_l := Bool.toNat_lt l
  refine back_of (k := 954204160 + a.toNat * 65536 + b.toNat * 2048 + c.toNat * 64 + cbf.toNat * 32 + n.toNat) hw rfl rfl (by omega) fun N hN => ?_
  obtain ⟨f1, f2, f3, f4, f5, f6, f7, f8, fl⟩ := lay49 (N := N) (o := 7) (by decide) b_a b_b b_c b_cbf b_n b_l (by omega)
  clear hw
  exact ⟨by simp [decodeFields, decodeEX, f1, f2, f3, bv_eq f4, bv_eq f5, bv_eq f6, bit_eq f7, bv_eq f8], bit_eq fl⟩

theorem mmulc (a : Reg) (b : Reg) (c : Reg) (cbf : Bool) (n : BitVec 4) : Statement (.mmulc a b c cbf n) := by
  intro hw _ st l hst
  have b_a := a.isLt
  have b_b := b.isLt
  have b_c := c.isLt
  have b_cbf := Bool.toNat_lt cbf
  have b_n := n.isLt
  have b_l := Bool.toNat_lt l
  refine back_of (k := 956301312 + a.toNat * 65536 + b.toNat * 2048 + c.toNat * 64 + cbf.toNat * 32 + n.toNat) hw rfl rfl (by omega) fun N hN => ?_
  obtain ⟨f1, f2, f3, f4, f5, f6, f7, f8, fl⟩ := lay49 (N := N) (o := 8) (by decide) b_a b_b b_c b_cbf b_n b_l (by omega)
  clear hw
  exact ⟨by simp [decodeFields, decodeEX, f1, f2, f3, bv_eq f4, bv_eq f5, bv_eq f6, bit_eq f7, bv_eq f8], bit_eq fl⟩

theorem mclr (a : Reg) (b : Reg) : Statement (.mclr a b) := by
  intro hw _ st l hst
  have b_a := a.isLt
  have b_b := b.isLt
  have b_l := Bool.toNat_lt l
  refine back_of (k := 958398464 + a.toNat * 65536 + b.toNat * 2048) hw rfl rfl (by omega) fun N hN => ?_
  obtain ⟨f1, f2, f3, f4, f5, fl⟩ := lay50 (N := N) (o := 9) (by decide) b_a b_b b_l (by omega)
  clear hw
  exact ⟨by simp [decodeFields, decodeEX, f1, f2, f3, bv_eq f4, bv_eq f5], bit_eq fl⟩

theorem snd (a : Reg) (b : Reg) (c : Reg) : Statement (.snd a b c) := by
  intro hw _ st l hst
  have b_a := a.isLt
  have b_b := b.isLt
  have b_c := c.isLt
  have b_l := Bool.toNat_lt l
  refine back_of (k := 960495616 + a.toNat * 65536 + b.toNat * 2048 + c.toNat * 64) hw rfl rfl (by omega) fun N hN => ?_
  obtain ⟨f1, f2, f3, f4, f5, f6, fl⟩ := lay47 (N := N) (o := 10) (by decide) b_a b_b b_c b_l (by omega)
  clear hw
  exact ⟨by simp [decodeFields, decodeEX, f1, f2, f3, bv_eq f4, bv_eq f5, bv_eq f6], bit_eq fl⟩

theorem rcv (a : Reg) (b : Reg) (sig : BitVec 6) : Statement (.rcv a b sig) := by
  intro hw _ st l hst
  have b_a := a.isLt
  have b_b := b.isLt
  have b_sig := sig.isLt
  have b_l := Bool.toNat_lt l
  refine back_of (k := 962592768 + a.toNat * 65536 + b.toNat * 2048 + sig.toNat) hw rfl rfl (by omega) fun N hN => ?_
  obtain ⟨f1, f2, f3, f4, f5, f6, fl⟩ := lay51 (N := N) (o := 11) (by decide) b_a b_b b_sig b_l (by omega)
  clear hw
  exact ⟨by simp [decodeFields, decodeEX, f1, f2, f3, bv_eq f4, bv_eq f5, bv_eq f6], bit_eq fl⟩

theorem msq (a : Reg) : Statement (.msq a) := by
  intro hw _ st l hst
  have b_a := a.isLt
  have b_l := Bool.toNat_lt l
  refine back_of (k := 964689920 + a.toNat * 65536) hw rfl rfl (by omega) fun N hN => ?_
  obtain ⟨f1, f2, f3, f4, fl⟩ := lay52 (N := N) (o := 12) (by decide) b_a b_l (by omega)
  clear hw
  exact ⟨by simp [decodeFields, decodeEX, f1, f2, f3, bv_eq f4], bit_eq fl⟩

theorem ldg (d : Reg) (a : Reg) (sp : Bool) (win : BitVec 3) (cls : BitVec 3) : Statement (.ldg d a sp win cls) := by
  intro hw _ st l hst
  have b_d := d.isLt
  have b_a := a.isLt
  have b_sp := Bool.toNat_lt sp
  have b_win := win.isLt
  have b_cls := cls.isLt
  have b_l := Bool.toNat_lt l
  refine back_of (k := 1073741824 + d.toNat * 131072 + a.toNat * 4096 + sp.toNat * 2048 + win.toNat * 128 + cls.toNat) hw rfl rfl (by omega) fun N hN => ?_
  obtain ⟨f1, f2, f3, f4, f5, f6, f7, f8, f9, fl⟩ := lay53 (N := N) (o := 0) (by decide) b_d b_a b_sp b_win b_cls b_l (by omega)
  clear hw
  exact ⟨by simp [decodeFields, decodeGL, f1, f2, f3, f4, bv_eq f5, bv_eq f6, bit_eq f7, bv_eq f8, bv_eq f9], bit_eq fl⟩

theorem stg (d : Reg) (a : Reg) (size : Size) (win : BitVec 3) : Statement (.stg d a size win) := by
  intro hw _ st l hst
  have b_d := d.isLt
  have b_a := a.isLt
  have b_size := Size_lt size
  have b_win := win.isLt
  have b_l := Bool.toNat_lt l
  refine back_of (k := 1077936128 + d.toNat * 131072 + a.toNat * 4096 + size.toNat * 1024 + win.toNat * 128) hw rfl rfl (by omega) fun N hN => ?_
  obtain ⟨f1, f2, f3, f4, f5, f6, f7, fl⟩ := lay54 (N := N) (o := 1) (by decide) b_d b_a b_size b_win b_l (by omega)
  clear hw
  exact ⟨by simp [decodeFields, decodeGL, f1, f2, f3, bv_eq f4, bv_eq f5, f6, Size_of, bv_eq f7], bit_eq fl⟩

theorem vldg (d : Reg) (a : Reg) (sp : Bool) (win : BitVec 3) (cls : BitVec 3) : Statement (.vldg d a sp win cls) := by
  intro hw _ st l hst
  have b_d := d.isLt
  have b_a := a.isLt
  have b_sp := Bool.toNat_lt sp
  have b_win := win.isLt
  have b_cls := cls.isLt
  have b_l := Bool.toNat_lt l
  refine back_of (k := 1082130432 + d.toNat * 131072 + a.toNat * 4096 + sp.toNat * 2048 + win.toNat * 128 + cls.toNat) hw rfl rfl (by omega) fun N hN => ?_
  obtain ⟨f1, f2, f3, f4, f5, f6, f7, f8, f9, fl⟩ := lay53 (N := N) (o := 2) (by decide) b_d b_a b_sp b_win b_cls b_l (by omega)
  clear hw
  exact ⟨by simp [decodeFields, decodeGL, f1, f2, f3, f4, bv_eq f5, bv_eq f6, bit_eq f7, bv_eq f8, bv_eq f9], bit_eq fl⟩

theorem vstg (d : Reg) (a : Reg) (win : BitVec 3) : Statement (.vstg d a win) := by
  intro hw _ st l hst
  have b_d := d.isLt
  have b_a := a.isLt
  have b_win := win.isLt
  have b_l := Bool.toNat_lt l
  refine back_of (k := 1086324736 + d.toNat * 131072 + a.toNat * 4096 + win.toNat * 128) hw rfl rfl (by omega) fun N hN => ?_
  obtain ⟨f1, f2, f3, f4, f5, f6, f7, fl⟩ := lay55 (N := N) (o := 3) (by decide) b_d b_a b_win b_l (by omega)
  clear hw
  exact ⟨by simp [decodeFields, decodeGL, f1, f2, f3, f4, bv_eq f5, bv_eq f6, bv_eq f7], bit_eq fl⟩

theorem amo (d : Reg) (a : Reg) (w4 : Bool) (win : BitVec 3) (scope : Scope) (op : AmoOp) : Statement (.amo d a w4 win scope op) := by
  intro hw _ st l hst
  have b_d := d.isLt
  have b_a := a.isLt
  have b_w4 := Bool.toNat_lt w4
  have b_win := win.isLt
  have b_scope := Scope_lt scope
  have b_op := AmoOp_lt op
  have b_l := Bool.toNat_lt l
  refine back_of (k := 1090519040 + d.toNat * 131072 + a.toNat * 4096 + w4.toNat * 1024 + win.toNat * 128 + scope.toNat * 16 + op.toNat) hw rfl rfl (by omega) fun N hN => ?_
  obtain ⟨f1, f2, f3, f4, f5, f6, f7, f8, f9, fl⟩ := lay56 (N := N) (o := 4) (by decide) b_d b_a b_w4 b_win b_scope b_op b_l (by omega)
  clear hw
  exact ⟨by simp [decodeFields, decodeGL, f1, f2, f3, bv_eq f4, bv_eq f5, bit_eq f6, bv_eq f7, f8, Scope_of, f9, AmoOp_of], bit_eq fl⟩

theorem red (d : Reg) (a : Reg) (w4 : Bool) (win : BitVec 3) (scope : Scope) (op : AmoOp) : Statement (.red d a w4 win scope op) := by
  intro hw _ st l hst
  have b_d := d.isLt
  have b_a := a.isLt
  have b_w4 := Bool.toNat_lt w4
  have b_win := win.isLt
  have b_scope := Scope_lt scope
  have b_op := AmoOp_lt op
  have b_l := Bool.toNat_lt l
  refine back_of (k := 1094713344 + d.toNat * 131072 + a.toNat * 4096 + w4.toNat * 1024 + win.toNat * 128 + scope.toNat * 16 + op.toNat) hw rfl rfl (by omega) fun N hN => ?_
  obtain ⟨f1, f2, f3, f4, f5, f6, f7, f8, f9, fl⟩ := lay56 (N := N) (o := 5) (by decide) b_d b_a b_w4 b_win b_scope b_op b_l (by omega)
  clear hw
  exact ⟨by simp [decodeFields, decodeGL, f1, f2, f3, bv_eq f4, bv_eq f5, bit_eq f6, bv_eq f7, f8, Scope_of, f9, AmoOp_of], bit_eq fl⟩

theorem lqpop (d : Reg) : Statement (.lqpop d) := by
  intro hw _ st l hst
  have b_d := d.isLt
  have b_l := Bool.toNat_lt l
  refine back_of (k := 1098907648 + d.toNat * 131072) hw rfl rfl (by omega) fun N hN => ?_
  obtain ⟨f1, f2, f3, f4, fl⟩ := lay57 (N := N) (o := 6) (by decide) b_d b_l (by omega)
  clear hw
  exact ⟨by simp [decodeFields, decodeGL, f1, f2, f3, bv_eq f4], bit_eq fl⟩

theorem tagw (t : BitVec 6) : Statement (.tagw t) := by
  intro hw _ st l hst
  have b_t := t.isLt
  have b_l := Bool.toNat_lt l
  refine back_of (k := 1103101952 + t.toNat * 128) hw rfl rfl (by omega) fun N hN => ?_
  obtain ⟨f1, f2, f3, f4, f5, fl⟩ := lay58 (N := N) (o := 7) (by decide) b_t b_l (by omega)
  clear hw
  exact ⟨by simp [decodeFields, decodeGL, f1, f2, f3, f4, bv_eq f5], bit_eq fl⟩

theorem tagwa (a : Reg) : Statement (.tagwa a) := by
  intro hw _ st l hst
  have b_a := a.isLt
  have b_l := Bool.toNat_lt l
  refine back_of (k := 1107296256 + a.toNat * 4096) hw rfl rfl (by omega) fun N hN => ?_
  obtain ⟨f1, f2, f3, f4, f5, fl⟩ := lay59 (N := N) (o := 8) (by decide) b_a b_l (by omega)
  clear hw
  exact ⟨by simp [decodeFields, decodeGL, f1, f2, f3, f4, bv_eq f5], bit_eq fl⟩

theorem tagff (t : BitVec 6) : Statement (.tagff t) := by
  intro hw _ st l hst
  have b_t := t.isLt
  have b_l := Bool.toNat_lt l
  refine back_of (k := 1111490560 + t.toNat * 128) hw rfl rfl (by omega) fun N hN => ?_
  obtain ⟨f1, f2, f3, f4, f5, fl⟩ := lay58 (N := N) (o := 9) (by decide) b_t b_l (by omega)
  clear hw
  exact ⟨by simp [decodeFields, decodeGL, f1, f2, f3, f4, bv_eq f5], bit_eq fl⟩

theorem tagclr (t : BitVec 6) : Statement (.tagclr t) := by
  intro hw _ st l hst
  have b_t := t.isLt
  have b_l := Bool.toNat_lt l
  refine back_of (k := 1115684864 + t.toNat * 128) hw rfl rfl (by omega) fun N hN => ?_
  obtain ⟨f1, f2, f3, f4, f5, fl⟩ := lay58 (N := N) (o := 10) (by decide) b_t b_l (by omega)
  clear hw
  exact ⟨by simp [decodeFields, decodeGL, f1, f2, f3, f4, bv_eq f5], bit_eq fl⟩

theorem fenceAcq (scope : Scope) : Statement (.fenceAcq scope) := by
  intro hw _ st l hst
  have b_scope := Scope_lt scope
  have b_l := Bool.toNat_lt l
  refine back_of (k := 1119879168 + scope.toNat * 16) hw rfl rfl (by omega) fun N hN => ?_
  obtain ⟨f1, f2, f3, f4, f5, fl⟩ := lay60 (N := N) (o := 11) (by decide) b_scope b_l (by omega)
  clear hw
  exact ⟨by simp [decodeFields, decodeGL, f1, f2, f3, f4, f5, Scope_of], bit_eq fl⟩

theorem fenceRel (scope : Scope) : Statement (.fenceRel scope) := by
  intro hw _ st l hst
  have b_scope := Scope_lt scope
  have b_l := Bool.toNat_lt l
  refine back_of (k := 1119879169 + scope.toNat * 16) hw rfl rfl (by omega) fun N hN => ?_
  obtain ⟨f1, f2, f3, f4, f5, fl⟩ := lay61 (N := N) (o := 11) (by decide) b_scope b_l (by omega)
  clear hw
  exact ⟨by simp [decodeFields, decodeGL, f1, f2, f3, f4, f5, Scope_of], bit_eq fl⟩

theorem fenceSc (scope : Scope) : Statement (.fenceSc scope) := by
  intro hw _ st l hst
  have b_scope := Scope_lt scope
  have b_l := Bool.toNat_lt l
  refine back_of (k := 1119879170 + scope.toNat * 16) hw rfl rfl (by omega) fun N hN => ?_
  obtain ⟨f1, f2, f3, f4, f5, fl⟩ := lay62 (N := N) (o := 11) (by decide) b_scope b_l (by omega)
  clear hw
  exact ⟨by simp [decodeFields, decodeGL, f1, f2, f3, f4, f5, Scope_of], bit_eq fl⟩

theorem drain (scope : Scope) : Statement (.drain scope) := by
  intro hw _ st l hst
  have b_scope := Scope_lt scope
  have b_l := Bool.toNat_lt l
  refine back_of (k := 1124073472 + scope.toNat * 16) hw rfl rfl (by omega) fun N hN => ?_
  obtain ⟨f1, f2, f3, f4, f5, fl⟩ := lay60 (N := N) (o := 12) (by decide) b_scope b_l (by omega)
  clear hw
  exact ⟨by simp [decodeFields, decodeGL, f1, f2, f3, f4, f5, Scope_of], bit_eq fl⟩

theorem trig  : Statement (.trig) := by
  intro hw _ st l hst
  have b_l := Bool.toNat_lt l
  refine back_of (k := 1128267776) hw rfl rfl (by omega) fun N hN => ?_
  obtain ⟨f1, f2, f3, fl⟩ := lay63 (N := N) (o := 13) (by decide) b_l (by omega)
  clear hw
  exact ⟨by simp [decodeFields, decodeGL, f1, f2, f3], bit_eq fl⟩

theorem coll (a : Reg) : Statement (.coll a) := by
  intro hw _ st l hst
  have b_a := a.isLt
  have b_l := Bool.toNat_lt l
  refine back_of (k := 1132462080 + a.toNat * 4096) hw rfl rfl (by omega) fun N hN => ?_
  obtain ⟨f1, f2, f3, f4, f5, fl⟩ := lay59 (N := N) (o := 14) (by decide) b_a b_l (by omega)
  clear hw
  exact ⟨by simp [decodeFields, decodeGL, f1, f2, f3, f4, bv_eq f5], bit_eq fl⟩

theorem rdsr (d : Reg) (n : BitVec 16) : Statement (.rdsr d n) := by
  intro hw _ st l hst
  have b_d := d.isLt
  have b_n := n.isLt
  have b_l := Bool.toNat_lt l
  refine back_of (k := 1207959552 + d.toNat * 65536 + n.toNat) hw rfl rfl (by omega) fun N hN => ?_
  obtain ⟨f1, f2, f3, f4, fl⟩ := lay64 (N := N) (o := 0) (by decide) b_d b_n b_l (by omega)
  clear hw
  exact ⟨by simp [decodeFields, decodeSY, f1, f2, bv_eq f3, bv_eq f4], bit_eq fl⟩

theorem wrsr (a : Reg) (n : BitVec 16) : Statement (.wrsr a n) := by
  intro hw _ st l hst
  have b_a := a.isLt
  have b_n := n.isLt
  have b_l := Bool.toNat_lt l
  refine back_of (k := 1210056704 + a.toNat * 65536 + n.toNat) hw rfl rfl (by omega) fun N hN => ?_
  obtain ⟨f1, f2, f3, f4, fl⟩ := lay64 (N := N) (o := 1) (by decide) b_a b_n b_l (by omega)
  clear hw
  exact ⟨by simp [decodeFields, decodeSY, f1, f2, bv_eq f3, bv_eq f4], bit_eq fl⟩

theorem trap (k : BitVec 8) : Statement (.trap k) := by
  intro hw _ st l hst
  have b_k := k.isLt
  have b_l := Bool.toNat_lt l
  refine back_of (k := 1212153856 + k.toNat) hw rfl rfl (by omega) fun N hN => ?_
  obtain ⟨f1, f2, f3, f4, fl⟩ := lay65 (N := N) (o := 2) (by decide) b_k b_l (by omega)
  clear hw
  exact ⟨by simp [decodeFields, decodeSY, f1, f2, f3, bv_eq f4], bit_eq fl⟩

theorem tret  : Statement (.tret) := by
  intro hw _ st l hst
  have b_l := Bool.toNat_lt l
  refine back_of (k := 1214251008) hw rfl rfl (by omega) fun N hN => ?_
  obtain ⟨f1, f2, f3, fl⟩ := lay66 (N := N) (o := 3) (by decide) b_l (by omega)
  clear hw
  exact ⟨by simp [decodeFields, decodeSY, f1, f2, f3], bit_eq fl⟩

theorem stop (k : BitVec 16) : Statement (.stop k) := by
  intro hw _ st l hst
  have b_k := k.isLt
  have b_l := Bool.toNat_lt l
  refine back_of (k := 1216348160 + k.toNat) hw rfl rfl (by omega) fun N hN => ?_
  obtain ⟨f1, f2, f3, f4, fl⟩ := lay67 (N := N) (o := 4) (by decide) b_k b_l (by omega)
  clear hw
  exact ⟨by simp [decodeFields, decodeSY, f1, f2, f3, bv_eq f4], bit_eq fl⟩

theorem swap  : Statement (.swap) := by
  intro hw _ st l hst
  have b_l := Bool.toNat_lt l
  refine back_of (k := 1218445312) hw rfl rfl (by omega) fun N hN => ?_
  obtain ⟨f1, f2, f3, fl⟩ := lay66 (N := N) (o := 5) (by decide) b_l (by omega)
  clear hw
  obtain rfl : st = false := by simpa [onCore] using hst
  exact ⟨by simp [decodeFields, decodeSY, f1, f2, f3], bit_eq fl⟩

theorem swapSteward (a : Reg) : Statement (.swapSteward a) := by
  intro hw _ st l hst
  have b_a := a.isLt
  have b_l := Bool.toNat_lt l
  refine back_of (k := 1218445312 + a.toNat * 65536) hw rfl rfl (by omega) fun N hN => ?_
  obtain ⟨f1, f2, f3, f4, fl⟩ := lay68 (N := N) (o := 5) (by decide) b_a b_l (by omega)
  clear hw
  obtain rfl : st = true := by simpa [onCore] using hst
  exact ⟨by simp [decodeFields, decodeSY, f1, f2, f3, bv_eq f4], bit_eq fl⟩

theorem ckpt (t : BitVec 6) : Statement (.ckpt t) := by
  intro hw _ st l hst
  have b_t := t.isLt
  have b_l := Bool.toNat_lt l
  refine back_of (k := 1220542464 + t.toNat) hw rfl rfl (by omega) fun N hN => ?_
  obtain ⟨f1, f2, f3, f4, fl⟩ := lay69 (N := N) (o := 6) (by decide) b_t b_l (by omega)
  clear hw
  exact ⟨by simp [decodeFields, decodeSY, f1, f2, f3, bv_eq f4], bit_eq fl⟩

theorem lsv (b : Reg) (off : BitVec 16) : Statement (.lsv b off) := by
  intro hw _ st l hst
  have b_b := b.isLt
  have b_off := off.isLt
  have b_l := Bool.toNat_lt l
  refine back_of (k := 1222639616 + b.toNat * 65536 + off.toNat) hw rfl rfl (by omega) fun N hN => ?_
  obtain ⟨f1, f2, f3, f4, fl⟩ := lay64 (N := N) (o := 7) (by decide) b_b b_off b_l (by omega)
  clear hw
  exact ⟨by simp [decodeFields, decodeSY, f1, f2, bv_eq f3, bv_eq f4], bit_eq fl⟩

theorem lrs (b : Reg) (off : BitVec 16) : Statement (.lrs b off) := by
  intro hw _ st l hst
  have b_b := b.isLt
  have b_off := off.isLt
  have b_l := Bool.toNat_lt l
  refine back_of (k := 1224736768 + b.toNat * 65536 + off.toNat) hw rfl rfl (by omega) fun N hN => ?_
  obtain ⟨f1, f2, f3, f4, fl⟩ := lay64 (N := N) (o := 8) (by decide) b_b b_off b_l (by omega)
  clear hw
  exact ⟨by simp [decodeFields, decodeSY, f1, f2, bv_eq f3, bv_eq f4], bit_eq fl⟩

theorem stampAt (sig : BitVec 26) : Statement (.stampAt sig) := by
  intro hw _ st l hst
  have b_sig := sig.isLt
  have b_l := Bool.toNat_lt l
  refine back_of (k := 1342177280 + sig.toNat) hw rfl rfl (by omega) fun N hN => ?_
  obtain ⟨f1, f2, f3, fl⟩ := lay70 (N := N) (o := 0) (by decide) b_sig b_l (by omega)
  clear hw
  exact ⟨by simp [decodeFields, decodeSW, f1, f2, bv_eq f3], bit_eq fl⟩

theorem stampHold (sig : BitVec 26) : Statement (.stampHold sig) := by
  intro hw _ st l hst
  have b_sig := sig.isLt
  have b_l := Bool.toNat_lt l
  refine back_of (k := 1409286144 + sig.toNat) hw rfl rfl (by omega) fun N hN => ?_
  obtain ⟨f1, f2, f3, fl⟩ := lay70 (N := N) (o := 1) (by decide) b_sig b_l (by omega)
  clear hw
  exact ⟨by simp [decodeFields, decodeSW, f1, f2, bv_eq f3], bit_eq fl⟩

theorem xt (e : BitVec 27) : Statement (.xt e) := by
  intro hw _ st l hst
  have b_e := e.isLt
  have b_l := Bool.toNat_lt l
  refine back_of (k := 1476395008 + e.toNat) hw rfl rfl (by omega) fun N hN => ?_
  obtain ⟨f1, f2, fl⟩ := lay71 (N := N) b_e b_l (by omega)
  clear hw
  exact ⟨by simp [decodeFields, decodeXT, f1, bv_eq f2], bit_eq fl⟩

theorem hold  : Statement (.hold) := fun _ h => Bool.noConfusion h

theorem resultPerforms  : Statement (.resultPerforms) := fun _ h => Bool.noConfusion h

theorem variableLatencyReply (core : Nat) (id : Nat) : Statement (.variableLatencyReply core id) := fun _ h => Bool.noConfusion h

theorem elasticStall (cause : StallCause) : Statement (.elasticStall cause) := fun _ h => Bool.noConfusion h

theorem haltLine (core : Nat) : Statement (.haltLine core) := fun _ h => Bool.noConfusion h

theorem stopRecord (core : Nat) : Statement (.stopRecord core) := fun _ h => Bool.noConfusion h

theorem syncPost (core : Nat) : Statement (.syncPost core) := fun _ h => Bool.noConfusion h

theorem barrierRelease (core : Nat) : Statement (.barrierRelease core) := fun _ h => Bool.noConfusion h

theorem legEvaluation (part : BitVec 6) : Statement (.legEvaluation part) := fun _ h => Bool.noConfusion h

theorem run (part : BitVec 6) : Statement (.run part) := fun _ h => Bool.noConfusion h

theorem done (part : BitVec 6) : Statement (.done part) := fun _ h => Bool.noConfusion h

theorem traverseMessage (part : BitVec 6) (fwd : Bool) (far : Option FarItem) : Statement (.traverseMessage part fwd far) := fun _ h => Bool.noConfusion h

theorem slotReturn (part : BitVec 6) (down : Bool) (far : Option FarItem) : Statement (.slotReturn part down far) := fun _ h => Bool.noConfusion h

theorem triggerPost (core : Nat) : Statement (.triggerPost core) := fun _ h => Bool.noConfusion h

theorem planeFlip (part : BitVec 6) : Statement (.planeFlip part) := fun _ h => Bool.noConfusion h

theorem copyComplete (core : Nat) : Statement (.copyComplete core) := fun _ h => Bool.noConfusion h

theorem streamFire (core : Nat) : Statement (.streamFire core) := fun _ h => Bool.noConfusion h

theorem planeReady (core : Nat) : Statement (.planeReady core) := fun _ h => Bool.noConfusion h

theorem axUpdate (core : Nat) : Statement (.axUpdate core) := fun _ h => Bool.noConfusion h

theorem msqTransferComplete (die : BitVec 3) (id : Nat) : Statement (.msqTransferComplete die id) := fun _ h => Bool.noConfusion h

theorem collComplete (core : Nat) (id : Nat) : Statement (.collComplete core id) := fun _ h => Bool.noConfusion h

theorem ckptComplete (core : Nat) : Statement (.ckptComplete core) := fun _ h => Bool.noConfusion h

theorem messageArrival (m : Arrival) : Statement (.messageArrival m) := fun _ h => Bool.noConfusion h

theorem atomicOperation (core : Nat) (id : Nat) : Statement (.atomicOperation core id) := fun _ h => Bool.noConfusion h

theorem reductionContribution (core : Nat) (id : Nat) : Statement (.reductionContribution core id) := fun _ h => Bool.noConfusion h

theorem pageWalk (core : Nat) : Statement (.pageWalk core) := fun _ h => Bool.noConfusion h

theorem invalidation (ctx : BitVec 16) (va : Nat) (size : Nat) : Statement (.invalidation ctx va size) := fun _ h => Bool.noConfusion h

theorem migration (ctx : BitVec 16) (va : Nat) (frame : Nat) : Statement (.migration ctx va frame) := fun _ h => Bool.noConfusion h

theorem migrationRelease (ctx : BitVec 16) (va : Nat) : Statement (.migrationRelease ctx va) := fun _ h => Bool.noConfusion h

theorem channelLending (die : BitVec 3) (channel : BitVec 6) : Statement (.channelLending die channel) := fun _ h => Bool.noConfusion h

theorem reclaim (die : BitVec 3) (channel : BitVec 6) : Statement (.reclaim die channel) := fun _ h => Bool.noConfusion h

theorem scrub (place : EccPlace) (err : EccErr) (lasting : Bool) : Statement (.scrub place err lasting) := fun _ h => Bool.noConfusion h

theorem ueccRetry (core : Nat) (place : EccPlace) (fin : EccEnd) : Statement (.ueccRetry core place fin) := fun _ h => Bool.noConfusion h

theorem refreshElision (region : Nat) : Statement (.refreshElision region) := fun _ h => Bool.noConfusion h

theorem cellInsert (ringW : Bool) (strand : BitVec 3) (station : BitVec 3) : Statement (.cellInsert ringW strand station) := fun _ h => Bool.noConfusion h

theorem cellDelivery (ringW : Bool) (strand : BitVec 3) (station : BitVec 3) (bad : Bool) : Statement (.cellDelivery ringW strand station bad) := fun _ h => Bool.noConfusion h

theorem cellReturn (ringW : Bool) (strand : BitVec 3) (station : BitVec 3) : Statement (.cellReturn ringW strand station) := fun _ h => Bool.noConfusion h

theorem rsvmWrite (idx : BitVec 7) (value : W64) : Statement (.rsvmWrite idx value) := fun _ h => Bool.noConfusion h

theorem tstatErrClear (part : BitVec 6) : Statement (.tstatErrClear part) := fun _ h => Bool.noConfusion h

theorem pgctlGo (group : BitVec 5) (value : W64) : Statement (.pgctlGo group value) := fun _ h => Bool.noConfusion h

theorem pgctlClear (group : BitVec 5) : Statement (.pgctlClear group) := fun _ h => Bool.noConfusion h

theorem quiesced (group : BitVec 5) : Statement (.quiesced group) := fun _ h => Bool.noConfusion h

theorem drainTimeout (group : BitVec 5) : Statement (.drainTimeout group) := fun _ h => Bool.noConfusion h

theorem retraining (group : BitVec 5) (ok : Bool) (rate : Trained) : Statement (.retraining group ok rate) := fun _ h => Bool.noConfusion h

theorem keyRotation (group : BitVec 5) (dir : LinkDir) (key : List Byte) : Statement (.keyRotation group dir key) := fun _ h => Bool.noConfusion h

theorem oldKeyRelease (group : BitVec 5) (dir : LinkDir) : Statement (.oldKeyRelease group dir) := fun _ h => Bool.noConfusion h

theorem ptpSync (offset : PtpEvent) (rate : Int) : Statement (.ptpSync offset rate) := fun _ h => Bool.noConfusion h

theorem syncLoss  : Statement (.syncLoss) := fun _ h => Bool.noConfusion h

theorem ptcStep (sec : BitVec 48) (ns : BitVec 32) : Statement (.ptcStep sec ns) := fun _ h => Bool.noConfusion h

theorem leaveGrant (die : BitVec 3) : Statement (.leaveGrant die) := fun _ h => Bool.noConfusion h

theorem thermalLimit (die : BitVec 3) (budget : BitVec 32) : Statement (.thermalLimit die budget) := fun _ h => Bool.noConfusion h

theorem boot (slots : Flash) (minVersion : Nat) : Statement (.boot slots minVersion) := fun _ h => Bool.noConfusion h

theorem launch (seq : Doorbell) (record : List Byte) : Statement (.launch seq record) := fun _ h => Bool.noConfusion h

theorem launchGroupRelease (lgrp : BitVec 16) : Statement (.launchGroupRelease lgrp) := fun _ h => Bool.noConfusion h

theorem attest (seq : Doorbell) (request : List Byte) : Statement (.attest seq request) := fun _ h => Bool.noConfusion h

theorem evict (seq : Doorbell) (acc : BitVec 10) (accepted : Bool) : Statement (.evict seq acc accepted) := fun _ h => Bool.noConfusion h

theorem preempt (seq : Doorbell) (ctx : BitVec 16) : Statement (.preempt seq ctx) := fun _ h => Bool.noConfusion h

theorem resume (seq : Doorbell) (ctx : BitVec 16) (record : List Byte) : Statement (.resume seq ctx record) := fun _ h => Bool.noConfusion h

theorem contextRelease (ctx : BitVec 16) : Statement (.contextRelease ctx) := fun _ h => Bool.noConfusion h

theorem endContext (seq : Doorbell) (ctx : BitVec 16) : Statement (.endContext seq ctx) := fun _ h => Bool.noConfusion h

theorem status (seq : Doorbell) (ctx : BitVec 16) (addr : W64) (len : BitVec 32) : Statement (.status seq ctx addr len) := fun _ h => Bool.noConfusion h

theorem reload (seq : Doorbell) (arg : BitVec 32) (record : List Byte) : Statement (.reload seq arg record) := fun _ h => Bool.noConfusion h

theorem eventPost  : Statement (.eventPost) := fun _ h => Bool.noConfusion h

theorem mainRailsOff  : Statement (.mainRailsOff) := fun _ h => Bool.noConfusion h

theorem inboundRequest (group : BitVec 5) (req : Inbound) : Statement (.inboundRequest group req) := fun _ h => Bool.noConfusion h

theorem trickleCheckpoint (core : Nat) : Statement (.trickleCheckpoint core) := fun _ h => Bool.noConfusion h

theorem auxiliaryRail (on : Bool) : Statement (.auxiliaryRail on) := fun _ h => Bool.noConfusion h

theorem collectiveAbandoned (group : BitVec 32) : Statement (.collectiveAbandoned group) := fun _ h => Bool.noConfusion h

theorem decodeMsq_of {i : Instr} {w : W64} (hw : i.wf = true) (h : decodeMsqFields w.toNat = some i) :
    decodeMsq w = .ok i := by
  unfold decodeMsq
  rw [h]
  simp only [hw, if_true]

theorem seq_of {i : Instr} {st l : Bool} {k : Nat} (hw : i.wf = true) (hs : ofSeq i = true)
    (hk : encodeMsq i = BitVec.ofNat 64 k) (hb : k < 18446744073709551616)
    (hd : ∀ N, N = k → decodeMsqFields N = some i) : back i st l := by
  have e : (encodeMsq i).toNat = k := by
    rw [hk, BitVec.toNat_ofNat]
    clear hk hd hw hs
    omega
  unfold back
  rw [if_pos hs]
  exact decodeMsq_of hw (hd _ e)

theorem seq_xrd0 {N x1 x2 x3 x4 x5 x6 x7 : Nat} (_ : x1 < 16) (_ : x2 < 4) (_ : x3 < 4) (_ : x4 < 64) (_ : x5 < 65536) (_ : x6 < 32768) (_ : x7 < 8)
    (hN : N = 0 + x1 * 72057594037927936 + x2 * 18014398509481984 + x3 * 4503599627370496 + x4 * 70368744177664 + x5 * 1073741824 + x6 * 32768 + x7 * 1024) :
    fld N 63 60 = 0 ∧ fld N 14 13 = 0 ∧ fld N 9 0 = 0 ∧ N / 2 ^ 56 % 2 ^ 4 = x1 ∧ N / 2 ^ 54 % 2 ^ 2 = x2 := by
  simp only [fld, Nat.reduceAdd, Nat.reduceSub, Nat.reducePow]
  refine ⟨?_, ?_, ?_, ?_, ?_⟩ <;> omega

theorem seq_xrd1 {N x1 x2 x3 x4 x5 x6 x7 : Nat} (_ : x1 < 16) (_ : x2 < 4) (_ : x3 < 4) (_ : x4 < 64) (_ : x5 < 65536) (_ : x6 < 32768) (_ : x7 < 8)
    (hN : N = 0 + x1 * 72057594037927936 + x2 * 18014398509481984 + x3 * 4503599627370496 + x4 * 70368744177664 + x5 * 1073741824 + x6 * 32768 + x7 * 1024) :
    N / 2 ^ 52 % 2 ^ 2 = x3 ∧ N / 2 ^ 46 % 2 ^ 6 = x4 ∧ N / 2 ^ 30 % 2 ^ 16 = x5 ∧ N / 2 ^ 15 % 2 ^ 15 = x6 ∧ N / 2 ^ 10 % 2 ^ 3 = x7 := by
  simp only [Nat.reducePow]
  refine ⟨?_, ?_, ?_, ?_, ?_⟩ <;> omega

theorem xrd (areg : BitVec 4) (space : BitVec 2) (layout : BitVec 2) (tag : BitVec 6) (len : BitVec 16) (boff : BitVec 15) (sel : BitVec 3) : Statement (.xrd areg space layout tag len boff sel) := by
  intro hw _ st l _
  have b_areg := areg.isLt
  have b_space := space.isLt
  have b_layout := layout.isLt
  have b_tag := tag.isLt
  have b_len := len.isLt
  have b_boff := boff.isLt
  have b_sel := sel.isLt
  refine seq_of (k := areg.toNat * 2 ^ 56 + space.toNat * 2 ^ 54 + layout.toNat * 2 ^ 52 + tag.toNat * 2 ^ 46 + len.toNat * 2 ^ 30 + boff.toNat * 2 ^ 15 + sel.toNat * 2 ^ 10) hw rfl rfl (by omega) fun N hN => ?_
  obtain ⟨f1, f2, f3, f4, f5⟩ := seq_xrd0 (N := N) b_areg b_space b_layout b_tag b_len b_boff b_sel (by omega)
  obtain ⟨f6, f7, f8, f9, f10⟩ := seq_xrd1 (N := N) b_areg b_space b_layout b_tag b_len b_boff b_sel (by omega)
  clear hw
  simp [decodeMsqFields, f1, f2, f3, bv_eq f4, bv_eq f5, bv_eq f6, bv_eq f7, bv_eq f8, bv_eq f9, bv_eq f10]

theorem seq_xwr0 {N x1 x2 x3 x4 x5 x6 : Nat} (_ : x1 < 16) (_ : x2 < 4) (_ : x3 < 64) (_ : x4 < 65536) (_ : x5 < 32768) (_ : x6 < 32)
    (hN : N = 1152921504606846976 + x1 * 72057594037927936 + x2 * 18014398509481984 + x3 * 70368744177664 + x4 * 1073741824 + x5 * 32768 + x6 * 1024) :
    fld N 63 60 = 1 ∧ fld N 53 52 = 0 ∧ fld N 9 0 = 0 ∧ N / 2 ^ 56 % 2 ^ 4 = x1 ∧ N / 2 ^ 54 % 2 ^ 2 = x2 := by
  simp only [fld, Nat.reduceAdd, Nat.reduceSub, Nat.reducePow]
  refine ⟨?_, ?_, ?_, ?_, ?_⟩ <;> omega

theorem seq_xwr1 {N x1 x2 x3 x4 x5 x6 : Nat} (_ : x1 < 16) (_ : x2 < 4) (_ : x3 < 64) (_ : x4 < 65536) (_ : x5 < 32768) (_ : x6 < 32)
    (hN : N = 1152921504606846976 + x1 * 72057594037927936 + x2 * 18014398509481984 + x3 * 70368744177664 + x4 * 1073741824 + x5 * 32768 + x6 * 1024) :
    N / 2 ^ 46 % 2 ^ 6 = x3 ∧ N / 2 ^ 30 % 2 ^ 16 = x4 ∧ N / 2 ^ 15 % 2 ^ 15 = x5 ∧ N / 2 ^ 10 % 2 ^ 5 = x6 := by
  simp only [Nat.reducePow]
  refine ⟨?_, ?_, ?_, ?_⟩ <;> omega

theorem xwr (areg : BitVec 4) (space : BitVec 2) (tag : BitVec 6) (len : BitVec 16) (boff : BitVec 15) (sel : BitVec 5) : Statement (.xwr areg space tag len boff sel) := by
  intro hw _ st l _
  have b_areg := areg.isLt
  have b_space := space.isLt
  have b_tag := tag.isLt
  have b_len := len.isLt
  have b_boff := boff.isLt
  have b_sel := sel.isLt
  refine seq_of (k := 1 * 2 ^ 60 + areg.toNat * 2 ^ 56 + space.toNat * 2 ^ 54 + tag.toNat * 2 ^ 46 + len.toNat * 2 ^ 30 + boff.toNat * 2 ^ 15 + sel.toNat * 2 ^ 10) hw rfl rfl (by omega) fun N hN => ?_
  obtain ⟨f1, f2, f3, f4, f5⟩ := seq_xwr0 (N := N) b_areg b_space b_tag b_len b_boff b_sel (by omega)
  obtain ⟨f6, f7, f8, f9⟩ := seq_xwr1 (N := N) b_areg b_space b_tag b_len b_boff b_sel (by omega)
  clear hw
  simp [decodeMsqFields, f1, f2, f3, bv_eq f4, bv_eq f5, bv_eq f6, bv_eq f7, bv_eq f8, bv_eq f9]

theorem seq_xset0 {N x1 x2 x3 : Nat} (_ : x1 < 4) (_ : x2 < 16) (_ : x3 < 18014398509481984)
    (hN : N = 2305843009213693952 + x1 * 288230376151711744 + x2 * 18014398509481984 + x3) :
    fld N 63 60 = 2 ∧ N / 2 ^ 58 % 2 ^ 2 = x1 ∧ N / 2 ^ 54 % 2 ^ 4 = x2 ∧ N / 2 ^ 0 % 2 ^ 54 = x3 := by
  simp only [fld, Nat.reduceAdd, Nat.reduceSub, Nat.reducePow]
  refine ⟨?_, ?_, ?_, ?_⟩ <;> omega

theorem xset (kind : BitVec 2) (idx : BitVec 4) (value : BitVec 54) : Statement (.xset kind idx value) := by
  intro hw _ st l _
  have b_kind := kind.isLt
  have b_idx := idx.isLt
  have b_value := value.isLt
  refine seq_of (k := 2 * 2 ^ 60 + kind.toNat * 2 ^ 58 + idx.toNat * 2 ^ 54 + value.toNat) hw rfl rfl (by omega) fun N hN => ?_
  obtain ⟨f1, f2, f3, f4⟩ := seq_xset0 (N := N) b_kind b_idx b_value (by omega)
  clear hw
  simp [decodeMsqFields, f1, bv_eq f2, bv_eq f3, bv_eq f4]

theorem seq_xlp0 {N x1 x2 x3 x4 x5 : Nat} (_ : x1 < 65536) (_ : x2 < 4096) (_ : x3 < 16) (_ : x4 < 16) (_ : x5 < 4)
    (hN : N = 3458764513820540928 + x1 * 17592186044416 + x2 * 4294967296 + x3 * 268435456 + x4 * 16777216 + x5 * 4194304) :
    fld N 63 60 = 3 ∧ fld N 21 0 = 0 ∧ N / 2 ^ 44 % 2 ^ 16 = x1 ∧ N / 2 ^ 32 % 2 ^ 12 = x2 := by
  simp only [fld, Nat.reduceAdd, Nat.reduceSub, Nat.reducePow]
  refine ⟨?_, ?_, ?_, ?_⟩ <;> omega

theorem seq_xlp1 {N x1 x2 x3 x4 x5 : Nat} (_ : x1 < 65536) (_ : x2 < 4096) (_ : x3 < 16) (_ : x4 < 16) (_ : x5 < 4)
    (hN : N = 3458764513820540928 + x1 * 17592186044416 + x2 * 4294967296 + x3 * 268435456 + x4 * 16777216 + x5 * 4194304) :
    N / 2 ^ 28 % 2 ^ 4 = x3 ∧ N / 2 ^ 24 % 2 ^ 4 = x4 ∧ N / 2 ^ 22 % 2 ^ 2 = x5 := by
  simp only [Nat.reducePow]
  refine ⟨?_, ?_, ?_⟩ <;> omega

theorem xlp (count : BitVec 16) (back : BitVec 12) (areg : BitVec 4) (sreg : BitVec 4) (level : BitVec 2) : Statement (.xlp count back areg sreg level) := by
  intro hw _ st l _
  have b_count := count.isLt
  have b_back := back.isLt
  have b_areg := areg.isLt
  have b_sreg := sreg.isLt
  have b_level := level.isLt
  refine seq_of (k := 3 * 2 ^ 60 + count.toNat * 2 ^ 44 + back.toNat * 2 ^ 32 + areg.toNat * 2 ^ 28 + sreg.toNat * 2 ^ 24 + level.toNat * 2 ^ 22) hw rfl rfl (by omega) fun N hN => ?_
  obtain ⟨f1, f2, f3, f4⟩ := seq_xlp0 (N := N) b_count b_back b_areg b_sreg b_level (by omega)
  obtain ⟨f5, f6, f7⟩ := seq_xlp1 (N := N) b_count b_back b_areg b_sreg b_level (by omega)
  clear hw
  simp [decodeMsqFields, f1, f2, bv_eq f3, bv_eq f4, bv_eq f5, bv_eq f6, bv_eq f7]

theorem seq_xwt0 {N x1 x2 : Nat} (_ : x1 < 32) (_ : x2 < 64)
    (hN : N = 4611686018427387904 + x1 * 36028797018963968 + x2 * 562949953421312) :
    fld N 63 60 = 4 ∧ fld N 48 0 = 0 ∧ N / 2 ^ 55 % 2 ^ 5 = x1 ∧ N / 2 ^ 49 % 2 ^ 6 = x2 := by
  simp only [fld, Nat.reduceAdd, Nat.reduceSub, Nat.reducePow]
  refine ⟨?_, ?_, ?_, ?_⟩ <;> omega

theorem xwt (tile : BitVec 5) (tag : BitVec 6) : Statement (.xwt tile tag) := by
  intro hw _ st l _
  have b_tile := tile.isLt
  have b_tag := tag.isLt
  refine seq_of (k := 4 * 2 ^ 60 + tile.toNat * 2 ^ 55 + tag.toNat * 2 ^ 49) hw rfl rfl (by omega) fun N hN => ?_
  obtain ⟨f1, f2, f3, f4⟩ := seq_xwt0 (N := N) b_tile b_tag (by omega)
  clear hw
  simp [decodeMsqFields, f1, f2, bv_eq f3, bv_eq f4]

theorem seq_xsg0 {N x1 x2 : Nat} (_ : x1 < 32) (_ : x2 < 64)
    (hN : N = 5764607523034234880 + x1 * 36028797018963968 + x2 * 562949953421312) :
    fld N 63 60 = 5 ∧ fld N 48 0 = 0 ∧ N / 2 ^ 55 % 2 ^ 5 = x1 ∧ N / 2 ^ 49 % 2 ^ 6 = x2 := by
  simp only [fld, Nat.reduceAdd, Nat.reduceSub, Nat.reducePow]
  refine ⟨?_, ?_, ?_, ?_⟩ <;> omega

theorem xsg (tile : BitVec 5) (tag : BitVec 6) : Statement (.xsg tile tag) := by
  intro hw _ st l _
  have b_tile := tile.isLt
  have b_tag := tag.isLt
  refine seq_of (k := 5 * 2 ^ 60 + tile.toNat * 2 ^ 55 + tag.toNat * 2 ^ 49) hw rfl rfl (by omega) fun N hN => ?_
  obtain ⟨f1, f2, f3, f4⟩ := seq_xsg0 (N := N) b_tile b_tag (by omega)
  clear hw
  simp [decodeMsqFields, f1, f2, bv_eq f3, bv_eq f4]

theorem seq_xend0 {N : Nat}
    (hN : N = 6917529027641081856) :
    fld N 63 60 = 6 ∧ fld N 59 0 = 0 := by
  simp only [fld, Nat.reduceAdd, Nat.reduceSub, Nat.reducePow]
  refine ⟨?_, ?_⟩ <;> omega

theorem xend  : Statement (.xend) := by
  intro hw _ st l _
  refine seq_of (k := 6 * 2 ^ 60) hw rfl rfl (by omega) fun N hN => ?_
  obtain ⟨f1, f2⟩ := seq_xend0 (N := N) (by omega)
  clear hw
  simp [decodeMsqFields, f1, f2]

end Sys2Proof.Laws.Encoding
end

