-- ==== Sys2Proof/Safety.lean ====
section
/-! DEFINITION. What a safe state and a safe run of the module are. -/

namespace Sys2Proof.Machine

/-- Global memory in its canonical form: bytes, owner tags and key slots strictly rising by address, none of them equal
to what an unlisted place reads as. -/
def PMem.wf (m : PMem) : Bool := Memory.wf m.cells && Tags.wf m.owner && Tags.wf m.key

/-- A buffer in its canonical form. -/
def Buf.wf (b : Buf) : Bool := Memory.wf b.cells && mapWf b.all none b.owner

/-- No slot of a strand is reserved by two stations (R317): the masks of two stations for one ring and strand have no bit
in common. -/
def Ring.Apart (r : Ring) : Prop :=
  ∀ i j : Nat, i < 128 → j < 128 → i ≠ j → i % 16 = j % 16 → (r.rsvm[i]?.getD 0) &&& (r.rsvm[j]?.getD 0) = 0

/-- A safe state: global memory is in its canonical form and every ring slot has at most one holder of a reservation. -/
def State.Safe (s : State) : Prop := s.mem.wf = true ∧ s.ring.Apart

/-- A safe run of `n` steps: every step answers a next state, and every state of the run is safe. -/
def State.SafeRun : Nat → State → Prop
  | 0, s => s.Safe
  | n + 1, s => s.Safe ∧ ∃ t, step s = .next t ∧ t.SafeRun n

end Sys2Proof.Machine
end

