-- ==== Sys2Proof/Certificates/Slice0/Obligations.lean ====
section
/-! DEFINITION. The statements made of the model, and the words they are made in. -/

namespace Sys2Proof.Claims

open Sys2Proof Sys2Proof.Machine

/-! ### Words that issue -/

/-- The word is legal here and touches no register whose reply is late: nothing of R38 step 3 or R28 keeps it. -/
def Ready (i : Instr) (s : State) : Prop := legal i s.me = true ∧ hazard i s.me = false

/-- The word issues, and all it does is `f` on the executing core. -/
def Acts (i : Instr) (s : State) (f : Core → Core) : Prop := exec i s = .next (s.done f)

/-- The word issues, and all it does is to send the result `w` on its way: it performs `l` logical cycles later. -/
def Sends (i : Instr) (s : State) (l : Nat) (w : Landing) : Prop := Acts i s fun c => c.push l w

/-- The word issues, and all it does is to write `v`, not poisoned, to scalar register `d` `l` logical cycles later. -/
def Yields (i : Instr) (s : State) (l : Nat) (d : Reg) (v : W64) : Prop := Sends i s l (.sreg d v false 0)

/-- None of some scalar registers is poisoned. -/
def Clear (s : State) (rs : List Reg) : Prop := ∀ r ∈ rs, (s.me.s r).poison = false

/-- The value of a scalar register. -/
def val (s : State) (r : Reg) : W64 := (s.me.s r).val

/-! ### The 32-bit and the 64-bit form (R70) -/

/-- Bits of a form. -/
def width (w : Bool) : Nat := if w then 32 else 64

/-- What a form writes for the exact result `z`: its low 64 bits, or its low 32 bits sign-extended. -/
def form (w : Bool) (z : Int) : W64 := if w then (BitVec.ofInt 32 z).signExtend 64 else BitVec.ofInt 64 z

/-- A source as a form takes it, signed. -/
def sVal (w : Bool) (x : W64) : Int := if w then (x.setWidth 32).toInt else x.toInt

/-- A source as a form takes it, unsigned. -/
def uVal (w : Bool) (x : W64) : Nat := if w then x.toNat % 2 ^ 32 else x.toNat

/-- The bit of the form's result that bit `k` of the register shows: bits 32 to 63 of a 32-bit form repeat bit 31. -/
def bitOf (w : Bool) (k : Nat) : Nat := if w then min k 31 else k

/-- The word writes to `d`, one cycle later, the number whose bit `k` is `f` of the bit of the form that `k` shows. -/
def YieldsBits (i : Instr) (s : State) (d : Reg) (w : Bool) (f : Nat → Bool) : Prop :=
  ∃ v : W64, Yields i s 1 d v ∧ ∀ k < 64, v.getLsbD k = f (bitOf w k)

/-- A two-source operation: `z` of the sources, after `l` cycles. -/
def Arith (mk : Reg → Reg → Reg → Bool → Bool → Instr) (l : Nat) (z : Bool → W64 → W64 → Int) : Prop :=
  ∀ (s : State) (d a b : Reg) (w sp : Bool), Ready (mk d a b w sp) s → Clear s [a, b] →
    Yields (mk d a b w sp) s l d (form w (z w (val s a) (val s b)))

/-- A two-source operation on bits. -/
def Bitwise (mk : Reg → Reg → Reg → Bool → Bool → Instr) (f : Bool → W64 → W64 → Nat → Bool) : Prop :=
  ∀ (s : State) (d a b : Reg) (w sp : Bool), Ready (mk d a b w sp) s → Clear s [a, b] →
    YieldsBits (mk d a b w sp) s d w (f w (val s a) (val s b))

/-- A one-source operation that counts: what it writes is the number `P` picks out. -/
def Counts (mk : Reg → Reg → Bool → Bool → Instr) (P : Bool → W64 → Nat → Prop) : Prop :=
  ∀ (s : State) (d a : Reg) (w sp : Bool), Ready (mk d a w sp) s → Clear s [a] →
    ∃ n : Nat, n ≤ width w ∧ P w (val s a) n ∧ Yields (mk d a w sp) s 1 d (BitVec.ofNat 64 n)

/-- Position of a bit field (R73). -/
def fieldAt (w : Bool) (b : W64) : Nat := b.toNat % width w

/-- End of a bit field (R73). -/
def fieldEnd (w : Bool) (b : W64) : Nat := min (fieldAt w b + b.toNat / 256 % 128) (width w)

/-- The value of an immediate field: sign-extended, or below the 27 bits of an XT word (R43). -/
def immInt {n : Nat} (x : Option (BitVec 27)) (f : BitVec n) : Int :=
  match x with
  | none => f.toInt
  | some e => e.toInt * 2 ^ n + f.toNat

/-- The same where the field alone is unsigned. -/
def immNat {n : Nat} (x : Option (BitVec 27)) (f : BitVec n) : Int :=
  match x with
  | none => f.toNat
  | some e => e.toInt * 2 ^ n + f.toNat

/-- The SR and SI words that pass poison on: whether they are `.s`, their latency, destination and sources in order
(R68, R71, R75). -/
def scalarWord : Instr → Option (Bool × Nat × Reg × List Reg)
  | .add d a b _ sp | .sub d a b _ sp | .and d a b _ sp | .or d a b _ sp | .xor d a b _ sp | .andn d a b _ sp
  | .orn d a b _ sp | .shl d a b _ sp | .shr d a b _ sp | .sar d a b _ sp | .rol d a b _ sp | .ror d a b _ sp
  | .min d a b _ sp | .max d a b _ sp | .minn d a b _ sp | .maxn d a b _ sp | .bfx d a b _ sp | .bfxn d a b _ sp =>
    some (sp, 1, d, [a, b])
  | .mul d a b _ sp | .mulh d a b _ sp | .mulhn d a b _ sp => some (sp, 3, d, [a, b])
  | .div d a b _ sp | .divn d a b _ sp | .rem d a b _ sp | .remn d a b _ sp => some (sp, 20, d, [a, b])
  | .bfi d a b _ sp => some (sp, 1, d, [a, b, d])
  | .clz d a _ sp | .ctz d a _ sp | .popc d a _ sp => some (sp, 1, d, [a])
  | .addi sp d a _ | .andi sp d a _ | .ori sp d a _ | .xori sp d a _ | .shli sp d a _ | .shri sp d a _
  | .sari sp d a _ => some (sp, 1, d, [a])
  | .muli sp d a _ => some (sp, 3, d, [a])
  | _ => none

/-- The lanes of a vector register as scalar values, lane 0 first (R103, R206). -/
def laneSources (s : State) (r : Reg) : List SReg :=
  (List.range 64).map fun j =>
    { val := ((s.me.v r).val.extractLsb' (32 * j) 32).setWidth 64, poison := (s.me.v r).poison.getLsbD j }

/-- The words that fire on a poisoned scalar source, with those sources in the order they are tried (DEDUCED log 2). -/
def firesOn : Instr → List Reg
  | .prepr _ a | .loop a _ _ _ | .wrsr a _ | .swapSteward a | .tagwa a | .coll a | .lsv a _ | .lrs a _ | .msq a => [a]
  | .waitt a b | .mclr a b | .rcv a b _ => [a, b]
  | .ld _ _ b _ _ | .vld _ _ b _ _ | .vldb _ _ b _ _ | .vgat _ _ b _ _ _ | .vsct _ _ b _ _ => [b]
  | .st _ r b _ _ => [r, b]
  | .cbdef a b c _ _ | .cp a b c _ | .cpg a b c _ | .cpm a b c _ | .mlds a b c | .mmul a b c _ _ => [a, b, c]
  | .cbadvP a _ | .cbadvC a _ | .cbadvPW a _ | .cbadvCW a _ => [a]
  | .ldg _ a _ _ _ | .vldg _ a _ _ _ => [a]
  | .stg d a _ _ => [d, a]
  | .snd a b c => [a, b, c]
  | .amo d a _ _ _ op => if op = .cas then [d, d + 1, a] else [d, a]
  | .red d a _ _ _ _ => [d, a]
  | _ => []

/-- What a word that fires on poison tries, in the model's order (DEDUCED log 2): its scalar registers; a store of a vector register
the lanes before the base; `mmulc` its `c` on tile 0 of a cluster alone (R193, R206, R222). -/
def consumes (s : State) : Instr → List SReg
  | .vst _ r b z _ => laneSources s r ++ (if z = .d then laneSources s (r + 1) else []) ++ [s.me.s b]
  | .vstg d a _ => laneSources s d ++ [s.me.s a]
  | .mmulc a b c _ _ => if s.me.num % 4 = 0 then [s.me.s a, s.me.s b, s.me.s c] else [s.me.s a, s.me.s b]
  | i => (firesOn i).map s.me.s

/-! ### Control -/

/-- Whether a condition holds of two numbers given signed and unsigned (R78). -/
def holds (c : Cond) (x y : Int) (m n : Nat) : Bool :=
  match c with
  | .eq => decide (x = y)
  | .ne => decide (x ≠ y)
  | .lt => decide (x < y)
  | .ge => decide (x ≥ y)
  | .le => decide (x ≤ y)
  | .gt => decide (x > y)
  | .ltn => decide (m < n)
  | .gen => decide (m ≥ n)
  | .len => decide (m ≤ n)
  | .gtn => decide (m > n)

/-- The word sends the condition `v` to `g`, two cycles later, or where `p` holds a poisoned 0 (R68, R77). -/
def SetsCondition (i : Instr) (s : State) (g : GIdx) (p v : Bool) : Prop := Sends i s 2 (.gcond g (!p && v) p)

/-- The word raises the local cause POISON with a code, and has no effect of its own. -/
def Fires (i : Instr) (s : State) (code : BitVec 8) : Prop := exec i s = .next (s.raiseLocal .poison code)

/-- The word raises a partition cause, and has no effect of its own. -/
def Stops (i : Instr) (s : State) (k : Cause) : Prop := exec i s = .next (s.raise k)

/-- The word waits: the cycle is a stall of a cause. -/
def Waits (i : Instr) (s : State) (k : StallCause) : Prop := exec i s = .next (s.stall k)

/-- What the loop-end check of R86 does to a core whose bundle started at `a`, and the address it decides, as the three
ways in which it goes on or ends. -/
inductive EndCheck (a : IAddr) : Core → Core → Option IAddr → Prop where
  | stop (c : Core) : (c.loops.lsd = 0 ∨ (c.level (c.loops.lsd.toNat - 1)).fin.setWidth 15 ≠ a) → EndCheck a c c none
  | again (c : Core) (l : Level) : c.loops.lsd ≠ 0 → c.level (c.loops.lsd.toNat - 1) = l → l.fin.setWidth 15 = a →
      l.idx.toNat + 1 < l.cnt.toNat →
      EndCheck a c (c.setLevel (c.loops.lsd.toNat - 1) { l with idx := l.idx + 1 }) (some l.beg)
  | pop (c d : Core) (l : Level) (n : Option IAddr) : c.loops.lsd ≠ 0 → c.level (c.loops.lsd.toNat - 1) = l →
      l.fin.setWidth 15 = a → ¬ l.idx.toNat + 1 < l.cnt.toNat → EndCheck a (c.setLsd (c.loops.lsd - 1)) d n →
      EndCheck a c d n

/-! ### Vectors -/

/-- A lane of a vector register (R148). -/
def lane (v : VWord) (j : Nat) : BitVec 32 := v.extractLsb' (32 * j) 32

/-- Element `q` of width `n` of a vector register (R148). -/
def el (n : Nat) (v : VWord) (q : Nat) : Nat := v.toNat / 2 ^ (n * q) % 2 ^ n

/-- Some vector registers without a poisoned lane. -/
def VClear (s : State) (rs : List Reg) : Prop := ∀ r ∈ rs, (s.me.v r).poison = 0

/-- What a vector word does, by the chapter on the V pipe: whether it is `.s`, its latency, the draws it takes (R153), its
destination, its sources, and its 64 destination lanes with the source lanes each depends on. -/
structure VDo where
  sp : Bool
  lat : Nat
  draws : Nat
  d : Reg
  ops : VOps
  lanes : List LaneOut

/-- An arithmetic word with MOD: 4 cycles and, in mode SR, one draw on floating point, else 2 cycles (R53, R153). -/
def arithDo (s : State) (ty : VTy) (sp : Bool) (md : BitVec 2) (d : Reg) (o : VOps) (l : List LaneOut) : Option VDo :=
  some ⟨sp, if ty.isFp then 4 else 2, if ty.isFp && drawsSr s md then 1 else 0, d, o, l⟩

/-- A word that never draws. -/
def plainDo (sp : Bool) (lat : Nat) (d : Reg) (o : VOps) (l : List LaneOut) : Option VDo := some ⟨sp, lat, 0, d, o, l⟩

/-- The VR and VX words with their latencies (R154, R167), but for the selects and `vptst`. -/
def vectorWord (s : State) : Instr → Option VDo
  | .vadd d a b ty sp md => arithDo s ty sp md d (s.ops2 a b) (laneAdd s.me.venv ty md (s.ops2 a b).src)
  | .vsub d a b ty sp md => arithDo s ty sp md d (s.ops2 a b) (laneSub s.me.venv ty md (s.ops2 a b).src)
  | .vmul d a b ty sp md => arithDo s ty sp md d (s.ops2 a b) (laneMul s.me.venv ty md (s.ops2 a b).src)
  | .vfma d a b ty sp md =>
    some ⟨sp, 4, if drawsSr s md then 1 else 0, d, s.ops3 a b d, laneFma s.me.venv ty md false false (s.ops3 a b d).src⟩
  | .vfms d a b ty sp md =>
    some ⟨sp, 4, if drawsSr s md then 1 else 0, d, s.ops3 a b d, laneFma s.me.venv ty md false true (s.ops3 a b d).src⟩
  | .vfnma d a b ty sp md =>
    some ⟨sp, 4, if drawsSr s md then 1 else 0, d, s.ops3 a b d, laneFma s.me.venv ty md true false (s.ops3 a b d).src⟩
  | .vmulh d a b ty sp => plainDo sp 2 d (s.ops2 a b) (laneMulh ty (s.ops2 a b).src)
  | .vmin d a b ty sp => plainDo sp 2 d (s.ops2 a b) (laneMinMax s.me.venv ty false (s.ops2 a b).src)
  | .vmax d a b ty sp => plainDo sp 2 d (s.ops2 a b) (laneMinMax s.me.venv ty true (s.ops2 a b).src)
  | .vabs d a ty sp md => plainDo sp 2 d (s.ops2 a a) (laneSign s.me.venv ty false md (s.ops2 a a).src)
  | .vneg d a ty sp md => plainDo sp 2 d (s.ops2 a a) (laneSign s.me.venv ty true md (s.ops2 a a).src)
  | .vand d a b sp => plainDo sp 2 d (s.ops2 a b) (laneLogic (fun x y => x &&& y) (s.ops2 a b).src)
  | .vor d a b sp => plainDo sp 2 d (s.ops2 a b) (laneLogic (fun x y => x ||| y) (s.ops2 a b).src)
  | .vxor d a b sp => plainDo sp 2 d (s.ops2 a b) (laneLogic (fun x y => x ^^^ y) (s.ops2 a b).src)
  | .vandn d a b sp => plainDo sp 2 d (s.ops2 a b) (laneLogic (fun x y => x &&& (y ^^^ (2 ^ 32 - 1))) (s.ops2 a b).src)
  | .vshl d a b ty sp md => plainDo sp 2 d (s.ops2 a b) (laneShift 0 ty md b.toNat (s.ops2 a b).src)
  | .vshr d a b ty sp md => plainDo sp 2 d (s.ops2 a b) (laneShift 1 ty md b.toNat (s.ops2 a b).src)
  | .vsar d a b ty sp md => plainDo sp 2 d (s.ops2 a b) (laneShift 2 ty md b.toNat (s.ops2 a b).src)
  | .vcmp d a b ty sp c => plainDo sp 2 d (s.ops2 a b) (laneCmp s.me.venv ty c (s.ops2 a b).src)
  | .vbc d a b ty sp md => plainDo sp 2 d (s.ops2 a b) (laneBc ty md b.toNat (s.ops2 a b).src)
  | .vxt d a b ty sp md => plainDo sp 2 d (s.ops2 a b) (laneXt ty md b.toNat (s.ops2 a b).src)
  | .vrot d a b ty sp md => plainDo sp 2 d (s.ops2 a b) (laneRot ty md b.toNat (s.ops2 a b).src)
  | .vlid d ty sp => plainDo sp 2 d (s.ops2 d d) (laneLid ty)
  | .vperm d a b ty sp => plainDo sp 3 d (s.ops2 a b) (lanePerm ty (s.ops2 a b).src)
  | .vrsum d a ty sp md =>
    some ⟨sp, 6, if ty.isFp && drawsSr s md then treeDepth ty else 0, d, s.ops2 a a,
      laneRsum s.me.venv ty md (s.ops2 a a).src⟩
  | .vrmax d a ty sp => plainDo sp 6 d (s.ops2 a a) (laneRmm s.me.venv ty true (s.ops2 a a).src)
  | .vrmin d a ty sp => plainDo sp 6 d (s.ops2 a a) (laneRmm s.me.venv ty false (s.ops2 a a).src)
  | .vrcp d a ty sp => plainDo sp 10 d (s.ops2 a a) (laneApprox s.me.venv ty Fmt.rcpOp (s.ops2 a a).src)
  | .vrsq d a ty sp => plainDo sp 10 d (s.ops2 a a) (laneApprox s.me.venv ty Fmt.rsqOp (s.ops2 a a).src)
  | .vex2 d a ty sp => plainDo sp 10 d (s.ops2 a a) (laneApprox s.me.venv ty Fmt.ex2Op (s.ops2 a a).src)
  | .vlg2 d a ty sp => plainDo sp 10 d (s.ops2 a a) (laneApprox s.me.venv ty Fmt.lg2Op (s.ops2 a a).src)
  | .vdot4 d a b ty sp md =>
    some ⟨sp, 3, if ty.isFp && drawsSr s md then 1 else 0, d, s.ops3 a b d, laneDot s.me.venv ty md (s.ops3 a b d).src⟩
  | .vpopc d a ty sp => plainDo sp 2 d (s.ops2 a a) (lanePopc ty (s.ops2 a a).src)
  | .vclz d a ty sp => plainDo sp 2 d (s.ops2 a a) (laneClz ty (s.ops2 a a).src)
  | .vtacc d a b ty sp => plainDo sp 2 d (s.ops3 a b d) (laneTacc ty (s.ops3 a b d).src)
  | .vcvt d a src cf sp md =>
    some ⟨sp, 4, if s.me.rmode == .sr then cvtDraws src.toNat cf.toNat md else 0, d, s.ops2 a a,
      laneCvt s.me.venv src.toNat cf.toNat md (s.ops2 a a).src⟩
  | .vbq d a b fmt sp md => plainDo sp 6 d (s.ops2 a b) (laneBq (fmt.toNat - 11) md (s.ops2 a b).src)
  | .vbdq d a fmt sp md =>
    some ⟨sp, 4, if s.me.rmode == .sr then 1 else 0, d, s.ops2 a a, laneBdq s.me.venv (fmt.toNat - 11) md (s.ops2 a a).src⟩
  | .vbscl d a b fmt sp md => plainDo sp 4 d (s.ops2 a b) (laneBscl (fmt.toNat - 11) md (s.ops2 a b).src)
  | .vtunp d a n sp => plainDo sp 3 d (s.ops2 a a) (laneTunp n.toNat (s.ops2 a a).src)
  | .vpak d a b wc sp => plainDo sp 2 d (s.ops2 a b) (lanePak wc.toNat (s.ops2 a b).src)
  | .vupk d a h wc sp md => plainDo sp 2 d (s.ops2 a a) (laneUpk wc.toNat h.toNat md (s.ops2 a a).src)
  | .vrng d a b sp md =>
    plainDo sp 8 d (s.ops2 a b)
      (laneRng (if md then s.me.venv.key else (s.ops2 a b).src.b % 2 ^ 128) (if md then [] else (upTo 4).map fun i => (1, i))
        (s.ops2 a b).src)
  | _ => none

/-- `vtunp`, whose lanes keep the value they compute where they pass poison on (R123). -/
def keepsValue : Instr → Bool
  | .vtunp .. => true
  | _ => false

/-- The word issues, and its one effect is to write to vector register `d`, `lat` cycles later, clear lanes whose elements
of width `n` are `e 0`, `e 1` and so on, modulo 2^n; the flags `fl` are raised with them. -/
def Elements (i : Instr) (s : State) (lat : Nat) (d : Reg) (n : Nat) (fl : Fl) (e : Nat → Int) : Prop :=
  ∃ v : VWord, Sends i s lat (.vreg d v 0 fl) ∧ ∀ q, n * (q + 1) ≤ 2048 → ((el n v q : Nat) : Int) = e q % 2 ^ n

/-- The range of an integer type (R151). -/
def clampTo (ty : VTy) (x : Int) : Int := max (VTy.lo ty) (min (VTy.hi ty) x)

/-- What an integer instruction with MOD makes of an exact result: wrapped, or with MOD 1 clamped (R151). -/
def modded (ty : VTy) (md : BitVec 2) (x : Int) : Int := if md = 1 then clampTo ty x else x

/-- The flags of an integer instruction with MOD whose exact results are `x`: AOF where a clamped ax element lies outside its range,
else none (R151). -/
def overflow (ty : VTy) (md : BitVec 2) (x : Nat → Int) : Fl :=
  if ty = .ax ∧ md = 1 ∧ (List.range 32).any (fun q => clampTo ty (x q) != x q) = true then flAOF else 0

/-- The integer that element `q` of register `r` stands for in a type. -/
def ival (s : State) (ty : VTy) (r : Reg) (q : Nat) : Int := VTy.int ty (el (VTy.ew ty) (s.me.v r).val q)

/-- The index of `vbc`, `vxt` and `vrot` (R160). -/
def moveAt (s : State) (ty : VTy) (md : Bool) (b : Reg) : Nat :=
  (if md then b.toNat else el 32 (s.me.v b).val 0) % VTy.count ty

/-! ### Floating point, as 08_number_formats.md gives it -/

/-- Whether a code is negative, its exponent field, its fraction (R128). -/
def minus (f : Fmt) (x : Nat) : Bool := x / 2 ^ (f.ew + f.mw) % 2 == 1
def expo (f : Fmt) (x : Nat) : Nat := x / 2 ^ f.mw % 2 ^ f.ew
def frac (f : Fmt) (x : Nat) : Nat := x % 2 ^ f.mw

/-- A subnormal code. -/
def subnormal (f : Fmt) (x : Nat) : Prop := expo f x = 0 ∧ frac f x ≠ 0

/-- Whether the "Specials" column of R128 reserves a code. -/
def reservedCode (f : Fmt) (x : Nat) : Prop :=
  (f.sp = .ieee ∧ expo f x = 2 ^ f.ew - 1) ∨ (f.sp = .e4m3 ∧ expo f x = 2 ^ f.ew - 1 ∧ frac f x = 2 ^ f.mw - 1)

/-- The number of a code that is not reserved (R128). -/
def numberOf (f : Fmt) (x : Nat) : ℚ :=
  (if minus f x then -1 else 1) *
  (if expo f x = 0 then (frac f x : ℚ) * 2 ^ (1 - (f.bias : ℤ) - f.mw)
   else (2 ^ f.mw + (frac f x : ℚ)) * 2 ^ ((expo f x : ℤ) - f.bias - f.mw))

/-- What an operand stands for: a NaN, signalling or not, an infinity or a number with its sign. -/
inductive Operand where
  | nan (signalling : Bool)
  | inf (neg : Bool)
  | num (z : ℚ) (neg : Bool)

/-- A code stands for an operand of an operation, flushed outside graded mode (R128, R142). -/
inductive Reads (f : Fmt) (graded : Bool) (x : Nat) : Operand → Prop where
  | flushed : graded = false → subnormal f x → Reads f graded x (.num 0 (minus f x))
  | number : ¬ reservedCode f x → (graded = true ∨ ¬ subnormal f x) → Reads f graded x (.num (numberOf f x) (minus f x))
  | infinity : f.sp = .ieee → expo f x = 2 ^ f.ew - 1 → frac f x = 0 → Reads f graded x (.inf (minus f x))
  | nan : reservedCode f x → frac f x ≠ 0 →
      Reads f graded x (.nan (f.sp == .ieee && decide (frac f x < 2 ^ (f.mw - 1))))

/-- FLUSH of an operand (R142). -/
def flushFl (f : Fmt) (graded : Bool) (x : Nat) : Fl :=
  if graded = false ∧ expo f x = 0 ∧ frac f x ≠ 0 then flFLUSH else 0

/-- IV under a condition. -/
def ivFl (b : Bool) : Fl := if b then flIV else 0

/-- The negation of an operand. -/
def Operand.minus : Operand → Operand
  | .nan s => .nan s
  | .inf n => .inf !n
  | .num z n => .num (-z) !n

/-- The exact sum, and whether it is invalid (R141, R156); `rd`: an exact zero sum of opposite signs is −0. -/
def Operand.plus (rd : Bool) : Operand → Operand → Operand × Bool
  | .nan a, .nan b => (.nan false, a || b)
  | .nan a, _ => (.nan false, a)
  | _, .nan b => (.nan false, b)
  | .inf a, .inf b => if a = b then (.inf a, false) else (.nan false, true)
  | .inf a, .num _ _ => (.inf a, false)
  | .num _ _, .inf b => (.inf b, false)
  | .num x a, .num y b =>
    (.num (x + y) (if x + y = 0 then (if x = 0 ∧ y = 0 ∧ a = b then a else rd) else decide (x + y < 0)), false)

/-- The exact product, and whether it is invalid (R141). -/
def Operand.times : Operand → Operand → Operand × Bool
  | .nan a, .nan b => (.nan false, a || b)
  | .nan a, _ => (.nan false, a)
  | _, .nan b => (.nan false, b)
  | .inf a, .inf b => (.inf (a != b), false)
  | .inf a, .num y b => if y = 0 then (.nan false, true) else (.inf (a != b), false)
  | .num x a, .inf b => if x = 0 then (.nan false, true) else (.inf (a != b), false)
  | .num x a, .num y b => (.num (x * y) (a != b), false)

/-- A magnitude of a format with its exponents unbounded above (R139, R140). -/
def OnGrid (f : Fmt) (g : ℚ) : Prop :=
  ∃ (k : ℕ) (q : ℤ), k ≤ 2 ^ (f.mw + 1) ∧ 1 - (f.bias : ℤ) - f.mw ≤ q ∧ g = k * 2 ^ q

/-- `lo` and `hi` are the members of a set of magnitudes that bracket a magnitude. -/
def Brackets (P : ℚ → Prop) (a lo hi : ℚ) : Prop :=
  P lo ∧ P hi ∧ lo ≤ a ∧ a ≤ hi ∧ ∀ g, P g → (g ≤ a → g ≤ lo) ∧ (a ≤ g → hi ≤ g)

/-- Whether a mode raises a magnitude that lies between two neighbours (R139); `r` is the random value of SR. -/
def raises (m : RMode) (r : Nat) (neg : Bool) (a lo hi : ℚ) : Prop :=
  match m with
  | .rne => lo + hi < 2 * a ∨ (2 * a = lo + hi ∧ ∃ j : ℕ, hi = 2 * j * (hi - lo))
  | .rz => False
  | .ru => neg = false
  | .rd => neg = true
  | .sr => (65536 : ℤ) ≤ ⌊(a - lo) / (hi - lo) * 65536⌋ + r

/-- The magnitude that a mode makes of one between two neighbours. -/
def Picks (m : RMode) (r : Nat) (neg : Bool) (a lo hi w : ℚ) : Prop :=
  (lo = hi → w = lo) ∧ (lo ≠ hi → (raises m r neg a lo hi → w = hi) ∧ (¬ raises m r neg a lo hi → w = lo))

/-- Whether an overflow of a mode goes to the infinity of a format that has one (R140). -/
def toInfinity (m : RMode) (neg : Bool) : Bool :=
  match m with
  | .rne | .sr => true
  | .rz => false
  | .ru => !neg
  | .rd => neg

/-- The smallest normal magnitude of a format, and the largest one that no mode rounds up to it (R142). -/
def least (f : Fmt) : ℚ := 2 ^ (1 - (f.bias : ℤ))
def below (f : Fmt) : ℚ := least f * (1 - 1 / 2 ^ (f.mw + 1))

/-- A code and its flags are what one rounding makes of a number that is not 0 (R139, R140, R142). -/
def Rounds (f : Fmt) (m : RMode) (r : Nat) (graded : Bool) (z : ℚ) (c : Nat) (fl : Fl) : Prop :=
  let neg := decide (z < 0)
  let a := |z|
  (graded = false → a ≤ below f → c = f.zero neg ∧ fl = flFLUSH ||| flUF ||| flNX) ∧
  ((graded = true ∨ least f ≤ a) → ∃ lo hi w, Brackets (OnGrid f) a lo hi ∧ Picks m r neg a lo hi w ∧
    (numberOf f f.maxCode < w →
      c = f.zero neg + (if f.sp = .ieee ∧ toInfinity m neg = true then f.infCode else f.maxCode) ∧ fl = flOF ||| flNX) ∧
    (w ≤ numberOf f f.maxCode → c < 2 ^ f.width ∧ ¬ reservedCode f c ∧ minus f c = neg ∧ |numberOf f c| = w ∧
      (least f ≤ a → fl = if w = a then 0 else flNX) ∧ (a ≤ below f → fl = if w = a then 0 else flNX ||| flUF)))

/-- A code and its flags are what an operation writes for its exact result (R128, R139 to R142). -/
def Gives (f : Fmt) (m : RMode) (r : Nat) (graded : Bool) (o : Operand) (c : Nat) (fl : Fl) : Prop :=
  match o with
  | .nan s => if f.sp = .none then c = 0 ∧ fl = flIV else c = f.nanCode ∧ fl = ivFl s
  | .inf n => if f.sp = .ieee then c = f.zero n + f.infCode ∧ fl = 0 else c = f.zero n + f.maxCode ∧ fl = flOF
  | .num z n => if z = 0 then c = f.zero n ∧ fl = 0 else Rounds f m r graded z c fl

/-- The order of `vmin` and `vmax` (R157), which has −0 below +0. -/
def Operand.le : Operand → Operand → Prop
  | .inf true, _ | _, .inf false => True
  | .num x a, .num y b => x < y ∨ (x = y ∧ (a = true ∨ b = false))
  | _, _ => False

/-- Whether an operand is a NaN. -/
def Operand.isNan : Operand → Bool
  | .nan _ => true
  | _ => false

/-- Whether an operand is a signalling NaN. -/
def Operand.signals : Operand → Bool
  | .nan s => s
  | _ => false

/-- The order of the compares (R159): that of the numbers. -/
def Operand.lt : Operand → Operand → Prop
  | .inf true, .inf false | .inf true, .num _ _ | .num _ _, .inf false => True
  | .num x _, .num y _ => x < y
  | _, _ => False

/-- Equality as the compares have it. -/
def Operand.same : Operand → Operand → Prop
  | .inf a, .inf b => a = b
  | .num x _, .num y _ => x = y
  | _, _ => False

/-- Whether a compare holds (R159). -/
def Operand.holds (c : VCond) (x y : Operand) : Prop :=
  match c with
  | .eq => x.same y
  | .ne => ¬ x.same y
  | .lt => x.lt y
  | .le => x.lt y ∨ x.same y

/-- The mode of a word with MOD (R151). -/
def modeOf (s : State) (md : BitVec 2) : RMode := if md = 1 then .rne else if md = 2 then .rz else if md = 3 then .sr else s.me.rmode

/-- The random value of element `q` of draw `k`, in mode SR (R143). -/
def random (s : State) (m : RMode) (k q : Nat) : Nat := if m = .sr then drawAt s.me.venv.key s.me.venv.ctr k q else 0

/-- The word issues, takes `k` draws, and its one effect is to write to vector register `d`, `lat` cycles later, clear lanes whose
elements of width `n` have codes and flags that `P` holds of; all flags are raised as it lands. -/
def FpElements (i : Instr) (s : State) (lat k : Nat) (d : Reg) (n : Nat) (P : Nat → Nat → Fl → Prop) : Prop :=
  ∃ (v : VWord) (g : Nat → Fl),
    (Acts i s fun c => (if k = 0 then c else c.advance k).push lat
      (.vreg d v 0 ((List.range (2048 / n)).foldl (fun a q => a ||| g q) 0))) ∧
    ∀ q < 2048 / n, P q (el n v q) (g q)

/-- The word does to the codes of two registers what an exact operation on what they stand for, rounded once, makes (R156). -/
def FpTwo (i : Instr) (s : State) (ty : VTy) (md : BitVec 2) (d a b : Reg)
    (op : Operand → Operand → Operand × Bool) : Prop :=
  let f := VTy.fmt ty
  let g := s.me.graded
  FpElements i s 4 (if modeOf s md = .sr then 1 else 0) d (VTy.ew ty) fun q c fl =>
    let x := el (VTy.ew ty) (s.me.v a).val q
    let y := el (VTy.ew ty) (s.me.v b).val q
    ∀ o p, Reads f g x o → Reads f g y p → ∃ k, Gives f (modeOf s md) (random s (modeOf s md) 0 q) g (op o p).1 c k ∧
      fl = flushFl f g x ||| flushFl f g y ||| ivFl (op o p).2 ||| k

/-- The same of a product and the old element of the destination, with one rounding. -/
def FpThree (i : Instr) (s : State) (ty : VTy) (md : BitVec 2) (d a b : Reg) (p n : Operand → Operand) : Prop :=
  let f := VTy.fmt ty
  let g := s.me.graded
  FpElements i s 4 (if modeOf s md = .sr then 1 else 0) d (VTy.ew ty) fun q c fl =>
    let x := el (VTy.ew ty) (s.me.v a).val q
    let y := el (VTy.ew ty) (s.me.v b).val q
    let z := el (VTy.ew ty) (s.me.v d).val q
    ∀ o u w, Reads f g x o → Reads f g y u → Reads f g z w →
      let m := o.times u
      let t := Operand.plus (modeOf s md == .rd) (p m.1) (n w)
      ∃ k, Gives f (modeOf s md) (random s (modeOf s md) 0 q) g t.1 c k ∧
        fl = flushFl f g x ||| flushFl f g y ||| flushFl f g z ||| ivFl m.2 ||| ivFl t.2 ||| k

/-- An integer that a mode makes of a number (R139, R170). -/
def RoundsInt (m : RMode) (r : Nat) (z : ℚ) (y : ℤ) : Prop :=
  ∃ lo hi w : ℚ, Brackets (fun g => ∃ k : ℕ, g = k) |z| lo hi ∧ Picks m r (decide (z < 0)) |z| lo hi w ∧
    (y : ℚ) = if z < 0 then -w else w

/-- A code of a kind stands for an operand; its FLUSH (R126, R170). -/
def ReadsKind (k : Kind) (g : Bool) (x : Nat) (o : Operand) (fl : Fl) : Prop :=
  match k with
  | .fp f => Reads f g (x % 2 ^ f.width) o ∧ fl = flushFl f g (x % 2 ^ f.width)
  | .int w sg =>
    let z : Int := if sg then sgn w (x % 2 ^ w) else (x % 2 ^ w : Nat)
    o = .num z (decide (z < 0)) ∧ fl = 0

/-- A code of a kind and its flags are what a conversion makes of an operand (R140, R170). -/
def Converts (k : Kind) (m : RMode) (r : Nat) (g : Bool) (o : Operand) (c : Nat) (fl : Fl) : Prop :=
  match k with
  | .fp f => Gives f m r g o c fl
  | .int w sg =>
    let lo : Int := if sg then -2 ^ (w - 1) else 0
    let hi : Int := if sg then 2 ^ (w - 1) - 1 else 2 ^ w - 1
    match o with
    | .nan _ => c = 0 ∧ fl = flIV
    | .inf n => (c : Int) = (if n then lo else hi) % 2 ^ w ∧ fl = flIV
    | .num z _ => ∃ y : ℤ, RoundsInt m r z y ∧ (c : Int) = max lo (min hi y) % 2 ^ w ∧
        fl = ivFl (decide (y < lo) || decide (hi < y)) ||| if (y : ℚ) = z then 0 else flNX

/-- A register holds an image of `n` blocks of format B`bn`: their scales and their mantissas, all other bytes 0 (R174). -/
def Image (bn n : Nat) (v : VWord) (e : Nat → Nat) (m : Nat → Nat → Int) : Prop :=
  (∀ g < n, el 8 v (248 + g) = e g ∧ ∀ i < 24, sgn bn (v.toNat / 2 ^ (bn * (24 * g + i)) % 2 ^ bn) = m g i) ∧
  v.toNat / 2 ^ (24 * bn * n) % 2 ^ (1984 - 24 * bn * n) = 0 ∧ v.toNat / 2 ^ (1984 + 8 * n) = 0

/-- The block that the block scale rule makes of `n` codes (R133): its scale, its mantissas, its flags. -/
def BlockOf (bn : Nat) (f : Fmt) (n : Nat) (x : Nat → Nat) (e : Nat) (m : Nat → Int) (fl : Fl) : Prop :=
  let z := fun i => numberOf f (x i)
  let empty := e = 0 ∧ (∀ i < 24, m i = 0)
  ((∃ i < n, reservedCode f (x i)) → e = 255 ∧ (∀ i < 24, m i = 0) ∧ fl = flIV) ∧
  ((∀ i < n, ¬ reservedCode f (x i)) →
    ((∀ i < n, z i = 0) → empty ∧ fl = 0) ∧
    ((∃ i < n, z i ≠ 0) → ∃ t : ℤ, (∃ i < n, (2 : ℚ) ^ (t + bn - 2) ≤ |z i|) ∧ (∀ i < n, |z i| < (2 : ℚ) ^ (t + bn - 1)) ∧
      (t + 127 < 0 → empty ∧ fl = flUF) ∧
      (0 ≤ t + 127 → (e : Int) = t + 127 ∧ (∀ i < 24, n ≤ i → m i = 0) ∧
        (∀ i < n, ∃ y : ℤ, RoundsInt .rne 0 (z i * 2 ^ (-t)) y ∧ m i = max (-(2 ^ (bn - 1) - 1)) (min (2 ^ (bn - 1) - 1) y)) ∧
        ((∀ i < n, (m i : ℚ) = z i * 2 ^ (-t)) → fl = 0) ∧ ((∃ i < n, (m i : ℚ) ≠ z i * 2 ^ (-t)) → fl = flNX))))

/-- `lo` and `hi` are the members of a grid that bracket 1/√z (R162). -/
def BracketsRoot (P : ℚ → Prop) (z lo hi : ℚ) : Prop :=
  P lo ∧ P hi ∧ lo * lo * z ≤ 1 ∧ 1 ≤ hi * hi * z ∧ ∀ g, P g → (g * g * z ≤ 1 → g ≤ lo) ∧ (1 ≤ g * g * z → hi ≤ g)

/-- The special inputs and the exact cases of an approximation, as R162 and R163 list them, for `vrcp`, `vrsq`, `vex2`, `vlg2`
numbered 0 to 3; where the format has 16 bits `vrcp` and `vrsq` round correctly, in f32 they are one of two neighbours. -/
def Approximates (op : Nat) (f : Fmt) (g : Bool) (o : Operand) (c : Nat) (fl : Fl) : Prop :=
  let infty := fun n => f.zero n + f.infCode
  match op, o with
  | _, .nan s => c = f.nanCode ∧ fl = ivFl s
  | 0, .inf n => c = f.zero n ∧ fl = 0
  | 0, .num z n =>
    (z = 0 → c = infty n ∧ fl = flDZ) ∧
    (z ≠ 0 → f ≠ fp32 → Rounds f .rne 0 g (1 / z) c fl) ∧
    (f = fp32 → (2 : ℚ) ^ (128 : ℤ) ≤ |1 / z| → c = infty n ∧ fl = flOF ||| flNX) ∧
    (z ≠ 0 → f = fp32 → least f ≤ |1 / z| → |1 / z| ≤ numberOf f f.maxCode → ∃ lo hi, Brackets (OnGrid f) |1 / z| lo hi ∧
      ¬ reservedCode f c ∧ minus f c = n ∧ (|numberOf f c| = lo ∨ |numberOf f c| = hi) ∧ fl = if lo = hi then 0 else flNX)
  | 1, .inf n => if n then c = f.nanCode ∧ fl = flIV else c = 0 ∧ fl = 0
  | 1, .num z n =>
    (z = 0 → c = infty n ∧ fl = flDZ) ∧ (z < 0 → c = f.nanCode ∧ fl = flIV) ∧
    (0 < z → ∃ lo hi, BracketsRoot (OnGrid f) z lo hi ∧ ¬ reservedCode f c ∧ (numberOf f c = lo ∨ numberOf f c = hi) ∧
      (f ≠ fp32 → ((lo + hi) / 2) ^ 2 * z < 1 → numberOf f c = hi) ∧
      (f ≠ fp32 → 1 < ((lo + hi) / 2) ^ 2 * z → numberOf f c = lo) ∧ fl = if lo = hi then 0 else flNX)
  | 2, .inf n => if n then c = 0 ∧ fl = 0 else c = infty false ∧ fl = 0
  | 2, .num z _ =>
    (z = 0 → c = f.bias * 2 ^ f.mw ∧ fl = 0) ∧
    (∀ k : ℤ, z = k → 1 - (f.bias : ℤ) ≤ k → k ≤ f.bias → c = (k + f.bias).toNat * 2 ^ f.mw ∧ fl = 0) ∧
    ((f.bias : ℚ) + 1 ≤ z → c = infty false ∧ fl = flOF ||| flNX)
  | 3, .inf n => if n then c = f.nanCode ∧ fl = flIV else c = infty false ∧ fl = 0
  | 3, .num z _ =>
    (z = 0 → c = infty true ∧ fl = flDZ) ∧ (z < 0 → c = f.nanCode ∧ fl = flIV) ∧ (z = 1 → c = 0 ∧ fl = 0) ∧
    (∀ k : ℤ, z = (2 : ℚ) ^ k → ¬ reservedCode f c ∧ numberOf f c = k ∧ fl = 0)
  | _, _ => True

/-! ### Buffers and engines -/

/-- The address of a buffer access: base plus offset in units of `u` bytes, modulo 2^64, rounded down to a multiple of `n`
(R41, R205). -/
def bufAddr (s : State) (b : Reg) (off : BitVec 10) (u n : Nat) : Nat :=
  (((val s b).toInt + immNat s.me.iss.ext off * u) % 2 ^ 64).toNat / n * n

/-- The 64 elements of `n` bytes of a buffer from address `a` on, as the core reads them now, in the lanes of `v`. -/
def HoldsElements (s : State) (sp : BSpace) (a n : Nat) (v : VWord) : Prop :=
  ∀ j < 64, lane v j = BitVec.ofNat 32 (leNat (s.me.bytes sp (a + n * j) n))

/-- Bytes of `n` bytes of each lane of a vector register, lane 0 first. -/
def laneBytes (n : Nat) (v : VWord) : List Byte := (List.range 64).flatMap fun j => leBytes n (lane v j).toNat

/-- The address of lane `j` of a gather or scatter (R208). -/
def idxAddr (s : State) (b vi : Reg) (n j : Nat) : Nat :=
  (((val s b).toNat + (lane (s.me.v vi).val j).toNat * n) % 2 ^ 64) / n * n

/-- A stream's leave, as the governor sizes it: by its steps, on a chain those of tile 0, its activation width and the `n` bytes copied
before it (R198). -/
def leaveOf (op : BitVec 8) (s : State) (d : W64) (n : Nat) : BitVec 32 := streamLeave op (s.steps (op == 0x08) d) d n

/-- The state in which a word has issued with its power leave: all it does on the executing core is `f`, and it holds the leave
under the number of its array command (R198). -/
def withGrant (s : State) (id : Nat) (size : BitVec 32) (f : Core → Core) : State :=
  s.done fun c => { f c with leave := .none, grants := (f c).grants ++ [(id, size)] }

/-- The word takes power leave (R198, R354): granted, it issues and does `f`; where it has not asked, it has leave in the same
cycle if no request is older and the budget allows its size, else it asks once and waits; asked, it waits. -/
def ActsWithLeave (i : Instr) (s : State) (id : Nat) (size : BitVec 32) (f : Core → Core) : Prop :=
  let d := s.die s.me.die
  let now := d.leaves = [] ∧ d.pwruse.toNat + size.toNat ≤ d.pwrbud.toNat
  (s.me.leave = .granted → exec i s = .next (withGrant s id size f)) ∧
  (s.me.leave = .none → now → exec i s = .next ((withGrant s id size f).onDie s.me.die fun d =>
    { d with pwruse := d.pwruse + size })) ∧
  (s.me.leave = .none → ¬ now → exec i s = .next
    (((s.onMe fun c => { c with leave := .asked }).onDie s.me.die fun d =>
      { d with leaves := d.leaves ++ [(s.me.num, size)] }).stall .leave)) ∧
  (s.me.leave = .asked → Waits i s .leave)

/-- A result that follows, due in `n` cycles. -/
def flies (n : Nat) (w : Landing) : Flight := { remain := n, past := 0, declared := 0, await := .no, what := w }

/-- What may keep an array stream from issuing does not: its descriptor is valid, its areas lie in their buffers, its
circular buffer fits, the array has room (R182, R183, R186, R195, R215). -/
def StreamMayIssue (s : State) (own : Bool) (x y z : W64) (cb : Option (BitVec 4)) : Prop :=
  streamFault s.me own x y z cb = none

/-! ### Global memory -/

/-- `va` is the virtual address of `n` bytes at offset `o`, which R202 admits in the window (R242). -/
def Within (w : Window) (o n va : Nat) : Prop :=
  w.limit ≠ 0 ∧ o + n ≤ w.limit.toNat ∧ w.base.toNat + o + n ≤ 2 ^ 80 ∧ va = w.base.toNat + o

/-- R202 does not allow `n` bytes at offset `o` in the window. -/
def Outside (w : Window) (o n : Nat) : Prop := ∀ va, ¬ Within w o n va

/-- What translating and decoding the pieces of `n` bytes at `va` gives the executing core now (R246, R263). -/
def translated (s : State) (va n : Nat) (rd wr : Bool) : XAll := translateAll (fun v => s.xlat s.me v rd wr) (cut va n)

/-- A request that goes out with its pieces; the walk it waited for is used. -/
def requested (c : Core) (k : ReqKind) : Core := { c.request k with walk := .none }

/-- A poison code in each lane of a vector register. -/
def codeLanes (n : Nat) (v : VWord) : Prop := ∀ j < 64, lane v j = BitVec.ofNat 32 n

/-- Cycles of an atomic's result by scope (R53). -/
def scopeCycles : Scope → Nat
  | .tile | .cluster | .die => 128
  | .partition | .module => 512
  | .pod => 8192

/-- Requests whose answer a core waits for: loads, and atomics by their result, also while the answer crosses the ring (R230). -/
def answers : ReqKind → Bool
  | .kload .. | .gload .. | .amo .. | .back .. => true
  | _ => false

/-- Requests that R229 does not cover: loads, and answers under way, whose access has performed. -/
def isLoad : ReqKind → Bool
  | .kload .. | .gload .. | .back .. => true
  | _ => false

/-- A side of a copy outside the core: K, or global memory. -/
def isRemote : Side → Bool
  | .buf (.at .k _) | .glob .. => true
  | _ => false

/-- Every store, copy, atomic and reduction of the core that R229 covers has performed; a copy, a transfer or a collective that
moves nothing has its acknowledgement (R277). -/
def StoresDone (s : State) (c : Core) : Prop :=
  (∀ r ∈ c.eng.reqs, isLoad r.kind = true) ∧ (∀ k ∈ c.eng.copies, isRemote k.dst = false ∧ k.len ≠ 0) ∧ c.eng.openRed = 0 ∧
  (∀ k ∈ c.eng.colls, field k.record 8 8 ≠ 0) ∧ ∀ x ∈ (s.die c.die).msq.xfers, x.owner = c.num → x.len ≠ 0

/-- No remote load or atomic of the core is without its result (R230). -/
def LoadsDone (c : Core) : Prop := ∀ r ∈ c.eng.reqs, answers r.kind = false

/-- Every remote access of the core, the remote sides of its copies and of its memory sequencer's transfers among them, has
performed (R267). -/
def AllDone (s : State) (c : Core) : Prop :=
  LoadsDone c ∧ StoresDone s c ∧ (∀ k ∈ c.eng.copies, isRemote k.dst = false ∧ isRemote k.src = false) ∧
  ∀ x ∈ (s.die c.die).msq.xfers, x.owner ≠ c.num

/-! ### The system -/

/-- The special registers of a core with their values (R52, R94, R114). -/
def special (s : State) : List (BitVec 16 × W64) :=
  let c := s.me
  let p := c.spec
  [(0x00, p.lt), (0x01, p.cyc), (0x02, p.frame), (0x10, p.leavec), (0x18, p.tagmap), (0x19, c.iss.seen.lqn),
    (0x20, p.fpctl), (0x21, p.fpstat), (0x22, p.srk0), (0x23, p.srk1), (0x24, p.src0), (0x25, p.src1),
    (0x28, c.iss.seen.pixm), (0x29, c.iss.seen.pixg), (0x2A, c.iss.seen.pixc), (0x30, p.trapc),
    (0x31, p.trappc.setWidth 64), (0x32, p.trapv.setWidth 64), (0x38, p.stage.setWidth 64),
    (0x39, BitVec.ofNat 64 (c.ncl.toNat * 2 ^ 24 + c.part.toNat * 2 ^ 16 + c.rank.toNat * 2 ^ 8 + c.num % 256)),
    (0x40, (s.die c.die).ptc.ns.setWidth 64), (0x41, p.ptcs.setWidth 64), (0x48, p.bubup), (0x49, p.bubdn),
    (0x4A, p.bubst), (0x50, c.loops.lsd.setWidth 64)] ++
  (List.range 8).map (fun k => (BitVec.ofNat 16 (0x08 + k), p.stallc[k]?.getD 0)) ++
  (List.range 6).flatMap (fun k =>
    [(BitVec.ofNat 16 (0x58 + k), (c.level k).cnt), (BitVec.ofNat 16 (0x60 + k), (c.level k).idx),
      (BitVec.ofNat 16 (0x68 + k), (c.level k).beg.setWidth 64), (BitVec.ofNat 16 (0x70 + k), (c.level k).fin.setWidth 64)]) ++
  (List.range 8).flatMap (fun k =>
    let w := c.win (BitVec.ofNat 3 k)
    [(BitVec.ofNat 16 (0x80 + k), w.base.extractLsb' 16 64), (BitVec.ofNat 16 (0x88 + k), w.limit.setWidth 64),
      (BitVec.ofNat 16 (0x90 + k), w.key.setWidth 64)])

/-- The system registers of the stewards with their values (R6, R343); PGCTL is write-only and reads 0. -/
def stewardRegs (s : State) : List (BitVec 16 × W64) :=
  [(0x8000, s.host.mbxseq.setWidth 64)] ++
  (List.range 64).flatMap (fun p =>
    [(BitVec.ofNat 16 (0x8100 + p), s.tstat (BitVec.ofNat 6 p)), (BitVec.ofNat 16 (0x8140 + p), s.trctlOf (BitVec.ofNat 6 p))]) ++
  (List.range 128).map (fun k => (BitVec.ofNat 16 (0x8200 + k), s.ring.rsvm[k]?.getD 0)) ++
  (List.range 24).flatMap (fun g => [(BitVec.ofNat 16 (0x8300 + g), s.pgstat g), (BitVec.ofNat 16 (0x8320 + g), 0)]) ++
  (List.range 8).flatMap (fun d =>
    [(BitVec.ofNat 16 (0x8280 + d), s.ring.rsvf[d]?.getD 0), (BitVec.ofNat 16 (0x8400 + d), (s.die d).pwrbud.setWidth 64),
      (BitVec.ofNat 16 (0x8408 + d), (s.die d).pwruse.setWidth 64)])

/-- The fields of TSTAT of a partition (R303). -/
def TstatIs (q : Part) (v : W64) : Prop :=
  let t := q.trav
  v.extractLsb' 0 9 = BitVec.ofNat 9 t.cursor ∧
  v.extractLsb' 9 3 = (match t.state with
    | .wait => 0
    | .ready => 1
    | .run => 2
    | .done => 3
    | .fin => 4) ∧
  v.getLsbD 12 = t.plane ∧ v.getLsbD 13 = q.swp ∧ v.getLsbD 14 = (q.shi && q.sht) ∧ v.getLsbD 15 = t.err ∧
  v.extractLsb' 16 4 = t.errc ∧ v.extractLsb' 20 12 = BitVec.ofNat 12 t.lpc ∧ v.extractLsb' 32 5 = t.unmet ∧
  v.extractLsb' 37 27 = 0

/-- The fields of PGSTAT of a group (R332, R333). -/
def PgstatIs (s : State) (x : Group) (v : W64) : Prop :=
  v.extractLsb' 0 5 = 0 ∧ v.extractLsb' 5 2 = x.pers ∧ v.extractLsb' 7 2 = x.role ∧ v.extractLsb' 9 2 = 0 ∧
  v.getLsbD 11 = x.bond ∧
  v.extractLsb' 12 3 = (match x.state with
    | .off => 0
    | .active => 1
    | .draining => 2
    | .quiesced => 3
    | .retraining => 4
    | .mapping => 5
    | .failed => 6) ∧
  v.getLsbD 15 = x.err ∧ v.extractLsb' 16 4 = x.errc ∧ v.extractLsb' 20 4 = x.rate ∧ v.extractLsb' 24 5 = x.peer ∧
  v.extractLsb' 29 19 = 0 ∧ v.extractLsb' 48 16 = s.mapgen

/-- The words that no steward issues: those of the classes VR, VX, MB and EX, `lsv`, `lrs`, `vldg`, `vstg`, `trig` and
`coll` (R46, R233). -/
def offSteward : Instr → Bool
  | .vadd .. | .vsub .. | .vmul .. | .vmulh .. | .vfma .. | .vfms .. | .vfnma .. | .vmin .. | .vmax ..
  | .vabs .. | .vneg .. | .vand .. | .vor .. | .vxor .. | .vandn .. | .vshl .. | .vshr .. | .vsar .. | .vcmp ..
  | .vbc .. | .vxt .. | .vlid .. | .vrot .. | .vperm .. | .vrsum .. | .vrmax .. | .vrmin .. | .vrcp ..
  | .vrsq .. | .vex2 .. | .vlg2 .. | .vdot4 .. | .vpopc .. | .vclz .. | .vtacc ..
  | .vsel .. | .vselB .. | .vcvt .. | .vbq .. | .vbdq .. | .vbscl .. | .vtunp .. | .vpak .. | .vupk .. | .vrng ..
  | .vptst ..
  | .ld .. | .st .. | .vld .. | .vst .. | .vgat .. | .vsct .. | .vldb ..
  | .cbdef .. | .cbadvP .. | .cbadvC .. | .cbadvPW .. | .cbadvCW .. | .cp .. | .cpg .. | .cpm .. | .mlds .. | .mswap
  | .mmul .. | .mmulc .. | .mclr .. | .snd .. | .rcv .. | .msq ..
  | .lsv .. | .lrs .. | .vldg .. | .vstg .. | .trig | .coll .. => true
  | _ => false

/-- A little-endian number in the bytes of a buffer. -/
def num (s : State) (sp : BSpace) (a n : Nat) : Nat := leNat (s.me.bytes sp a n)

/-- The level of a loop stack that an image at `a` in A holds (R101). -/
def imageLevel (s : State) (a k : Nat) : Level :=
  { cnt := BitVec.ofNat 64 (num s .a (a + 64 * k) 8), idx := BitVec.ofNat 64 (num s .a (a + 64 * k + 8) 8)
    beg := BitVec.ofNat 15 (num s .a (a + 64 * k + 16) 8), fin := BitVec.ofNat 16 (num s .a (a + 64 * k + 24) 8) }

/-- The address of a loop-stack image (R101). -/
def imgAddr (s : State) (b : Reg) (off : BitVec 16) : Nat :=
  (((val s b).toInt + immNat s.me.iss.ext off) % 2 ^ 64).toNat / 64 * 64

/-! ### The memory sequencer -/

/-- A word of a sequencer program answers `t`. -/
def Seq (i : Instr) (s : State) (t : State) : Prop := exec i s = .next t

/-- The word raises a cause, charged to the tile that started the program, with the word's index in FINFO0; a tile that already has a
cause, or stops, keeps what it has (R48, R106). -/
def SeqStops (i : Instr) (s : State) (k : Cause) : Prop :=
  Seq i s (s.onCore s.slotNow.tile fun c => if c.fault.isSome ∨ c.run = .stopping ∨ c.run = .stopped then c else
    { c with fault := some { mkStop k 0 0 with
      async := true, msq := true, finfo0 := BitVec.ofNat 64 s.slotNow.pc, culprit := .program s.slotNow.num } })

/-- Slot whose word executes, changed, with the next word to follow. -/
def Passes (s : State) (f : Slot → Slot) : State := s.onSlot fun x => { f x with pc := (f x).pc + 1 }

/-- Tile `t` of the sequencer's die, which is in the program's partition. -/
def Mine (s : State) (t n : Nat) : Prop := n = 32 * s.turnAt.1 + t ∧ s.inPart (s.core s.slotNow.tile) n = true

/-- The buffer a code of the sequencer names: 0 A, 1 W, 2 C (R220). -/
def codeSpace (c : BitVec 2) : BSpace := if c = 0 then .a else if c = 1 then .w else .c

/-- A transfer joins the sequencer's list under its next number, and the next word follows. -/
def begins (s : State) (x : Xfer) : State :=
  Passes (s.onDie s.turnAt.1 fun d => { d with msq := { d.msq with
    xfers := d.msq.xfers ++ [{ x with id := d.msq.nextId }], nextId := d.msq.nextId + 1 } }) id

/-! ### Steps that are no words -/

/-- The step answers `t`. -/
def Happens (i : Instr) (s t : State) : Prop := exec i s = .next t

/-- A request of core `n` that has reached its place: known, not faulted, its cells delivered. -/
def Arrived (s : State) (n id : Nat) (r : Req) : Prop :=
  (s.core n).req id = some r ∧ r.fault = none ∧ s.inRing (s.core n) r.id = false

/-- The same of an access with its pieces, where no channel of theirs is away and the ring has room for the answer (R250, R319). -/
def Reaches (s : State) (n id : Nat) (r : Req) (ps : List Piece) : Prop :=
  Arrived s n id r ∧ s.chansHold ps = false ∧ s.ringRoom (replies (s.core n) r ps []) = true

/-- What is due on a core is of one kind and nothing keeps its cycle. -/
def OnlyDue (s : State) (n : Nat) (p : Landing → Prop) : Prop :=
  n < 264 ∧ s.mayPerform = true ∧ (∃ f ∈ s.me.flight, f.due = true) ∧ ∀ f ∈ s.me.flight, f.due = true → p f.what

/-- A command of the mailbox reaches an idle steward: the mailbox is open, nothing is under way, no eviction, no recovery. -/
def Served (s : State) : Prop :=
  s.mailboxOpen = true ∧ s.host.fw ≠ .evicting ∧ s.host.fw ≠ .recovery ∧ s.host.task = .none

/-- The state in which the steward has taken a command, which stands in the mailbox (R344). -/
def taken (s : State) (b : Doorbell) (cmd len arg : Nat) : State :=
  s.onHost fun h => { h with
    mbxseq := b.seq
    mbox := memWrite h.mbox 0 (leBytes 4 b.seq.toNat ++ leBytes 1 cmd ++ leBytes 3 0 ++ leBytes 8 b.addr.toNat ++
      leBytes 4 len ++ leBytes 4 arg) }

/-- The command is answered with a code from the state `u` in which it is taken, and does nothing else. -/
def Answers (i : Instr) (s u : State) (seq : BitVec 32) (k : Nat) : Prop := Happens i s (u.answer seq k [])

/-- The neighbour on whose side a traverse looks has the item at the head of its queue (R292). -/
def Head (s : State) (p : BitVec 6) (fwd ret : Bool) (l : TLoc) (m : TMsg) (r : List TMsg) : Prop :=
  s.withItem p fwd ret = some l ∧ ∃ t, s.trav l = some t ∧ takeItem fwd t.arriving = some (m, r)

/-! ### Words, states and steps -/

/-- The words of bundles but the XT word, which is a part of the word before it. -/
def coreWord : Instr → Bool
  | .xt _ | .xrd .. | .xwr .. | .xset .. | .xlp .. | .xwt .. | .xsg .. | .xend => false
  | i => !isEvent i

/-- The words that may change the loop stack when they issue (R53, R83, R85, R101). -/
def loopWord : Instr → Bool
  | .loop .. | .loopi .. | .lbrk .. | .lrs .. | .wrsr .. => true
  | _ => false

/-- The words that may let a logical cycle pass while they are held, and `halt`, which drops results (R24, R91, R225). -/
def cycleWord : Instr → Bool
  | .stampHold _ | .lqpop _ | .halt => true
  | _ => false

/-- The fields of another core that no word of this core changes. -/
def others (s : State) : List (Regs × Loops × Spec × Store × List Flight × IAddr × Run) :=
  s.rest.map fun c => (c.regs, c.loops, c.spec, c.store, c.flight, c.pc, c.run)

/-- The turn that comes next is taken off the agenda. -/
def begun (s : State) (r : List Turn) : State := { s with agenda := r, turns := s.turns + 1 }

/-- Core `n` is about to begin a logical cycle, for which its ports have time, with a bundle of the one word `w`, not a stamp, that
decodes to `i` and is legal: `v` is the state with the due results performed, `b` the state in which the word executes. -/
def Fetches (s : State) (r : List Turn) (n : Nat) (w : Word) (i : Instr) (a v b : State) : Prop :=
  s.agenda = .core n :: r ∧ n < 264 ∧ a = (((begun s r).focus n).onMe Core.capture).meetChain ∧
  a.me.run = .running ∧ a.me.fault = none ∧ a.dueStall = none ∧ v = a.performDue.1 ∧
  (∀ q, a.portNeed q ≤ a.me.served + 1) ∧ v.me.enabled a.performDue.2 = 0 ∧ b = (v.onMe Core.beginIss).onMe (fun c => c.atWord v.me.pc none) ∧
  v.me.badTarget = false ∧ link w = false ∧ w = v.me.word v.me.pc ∧ composed (v.me.pc.toNat % 4) [w] = true ∧
  classOf w < 10 ∧ decode v.me.steward w = .ok i ∧ legal i b.me = true

end Sys2Proof.Claims

open Sys2Proof Sys2Proof.Machine Sys2Proof.Claims

/-! ### Scalar words (R68 to R76) -/

/-- R70, R71: the sums, differences and products of the exact values, by form; latency 1, and 3 for products. -/
def Obligations.ScalarArithmeticOfExactValues : Prop :=
  Arith .add 1 (fun w x y => sVal w x + sVal w y) ∧
  Arith .sub 1 (fun w x y => sVal w x - sVal w y) ∧
  Arith .mul 3 (fun w x y => sVal w x * sVal w y) ∧
  Arith .mulh 3 (fun w x y => sVal w x * sVal w y / 2 ^ width w) ∧
  Arith .mulhn 3 (fun w x y => (uVal w x : Int) * uVal w y / 2 ^ width w)

/-- R72: quotients truncate towards zero and remainders follow the dividend; a zero divisor gives all ones and the
dividend; no case raises anything. -/
def Obligations.DivisionTruncatesWithItsCorners : Prop :=
  Arith .div 20 (fun w x y => if sVal w y = 0 then -1 else (sVal w x).tdiv (sVal w y)) ∧
  Arith .rem 20 (fun w x y => if sVal w y = 0 then sVal w x else (sVal w x).tmod (sVal w y)) ∧
  Arith .divn 20 (fun w x y => if uVal w y = 0 then -1 else (uVal w x / uVal w y : Nat)) ∧
  Arith .remn 20 (fun w x y => if uVal w y = 0 then uVal w x else (uVal w x % uVal w y : Nat))

/-- R70, R71: the logical operations, the shifts and the rotates bit by bit, and the shifts as arithmetic. -/
def Obligations.LogicShiftsAndRotatesByBits : Prop :=
  Bitwise .and (fun _ x y k => x.getLsbD k && y.getLsbD k) ∧
  Bitwise .or (fun _ x y k => x.getLsbD k || y.getLsbD k) ∧
  Bitwise .xor (fun _ x y k => x.getLsbD k != y.getLsbD k) ∧
  Bitwise .andn (fun _ x y k => x.getLsbD k && !y.getLsbD k) ∧
  Bitwise .orn (fun _ x y k => x.getLsbD k || !y.getLsbD k) ∧
  Arith .shl 1 (fun w x y => sVal w x * 2 ^ (y.toNat % width w)) ∧
  Arith .shr 1 (fun w x y => (uVal w x / 2 ^ (y.toNat % width w) : Nat)) ∧
  Arith .sar 1 (fun w x y => sVal w x / 2 ^ (y.toNat % width w)) ∧
  Bitwise .rol (fun w x y k => x.getLsbD ((k + width w - y.toNat % width w) % width w)) ∧
  Bitwise .ror (fun w x y k => x.getLsbD ((k + y.toNat % width w) % width w))

/-- R70, R71: the smaller and the larger of the sources, and the counts of bits. -/
def Obligations.ExtremaAndBitCounts : Prop :=
  Arith .min 1 (fun w x y => min (sVal w x) (sVal w y)) ∧
  Arith .max 1 (fun w x y => max (sVal w x) (sVal w y)) ∧
  Arith .minn 1 (fun w x y => (min (uVal w x) (uVal w y) : Nat)) ∧
  Arith .maxn 1 (fun w x y => (max (uVal w x) (uVal w y) : Nat)) ∧
  Counts .clz (fun w x n => uVal w x < 2 ^ (width w - n) ∧ (n < width w → 2 ^ (width w - n - 1) ≤ uVal w x)) ∧
  Counts .ctz (fun w x n => 2 ^ n ∣ uVal w x ∧ (n < width w → ¬ 2 ^ (n + 1) ∣ uVal w x)) ∧
  Counts .popc (fun w x n => n = (List.range (width w)).countP x.getLsbD)

/-- R73, R74: fields extracted and inserted bit by bit, where `bfi` also reads its destination, and the arm that `csel`
keeps. -/
def Obligations.FieldsAndCommitSelect : Prop :=
  Bitwise .bfxn (fun w x y k => decide (k < fieldEnd w y - fieldAt w y) && x.getLsbD (fieldAt w y + k)) ∧
  Bitwise .bfx (fun w x y k =>
    decide (fieldAt w y < fieldEnd w y) && x.getLsbD (min (fieldAt w y + k) (fieldEnd w y - 1))) ∧
  (∀ (s : State) (d a b : Reg) (w sp : Bool), Ready (.bfi d a b w sp) s → Clear s [a, b, d] →
    YieldsBits (.bfi d a b w sp) s d w fun k =>
      if fieldAt w (val s b) ≤ k ∧ k < fieldEnd w (val s b) then (val s a).getLsbD (k - fieldAt w (val s b))
      else (val s d).getLsbD k) ∧
  (∀ (s : State) (d a b : Reg) (g : GIdx), Ready (.csel d a b g) s →
    let kept := if (s.me.g g).c then a else b
    if (s.me.g g).cp then exec (.csel d a b g) s = .next (s.raiseLocal .poison 0)
    else if (s.me.s kept).poison then exec (.csel d a b g) s = .next (s.raiseLocal .poison ((val s kept).setWidth 8))
    else Yields (.csel d a b g) s 1 d (val s kept))

/-- R75, R76, R43: the immediate words, with and without an XT word. -/
def Obligations.ScalarImmediates : Prop :=
  ∀ (s : State) (d a : Reg) (sp : Bool), Clear s [a] →
    let x := val s a
    let e := s.me.iss.ext
    (∀ i : BitVec 12, Ready (.addi sp d a i) s → Yields (.addi sp d a i) s 1 d (form false (x.toInt + immInt e i))) ∧
    (∀ i : BitVec 12, Ready (.andi sp d a i) s → Yields (.andi sp d a i) s 1 d (x &&& BitVec.ofInt 64 (immInt e i))) ∧
    (∀ i : BitVec 12, Ready (.ori sp d a i) s → Yields (.ori sp d a i) s 1 d (x ||| BitVec.ofInt 64 (immInt e i))) ∧
    (∀ i : BitVec 12, Ready (.xori sp d a i) s → Yields (.xori sp d a i) s 1 d (x ^^^ BitVec.ofInt 64 (immInt e i))) ∧
    (∀ i : BitVec 12, Ready (.muli sp d a i) s → Yields (.muli sp d a i) s 3 d (form false (x.toInt * immInt e i))) ∧
    (∀ n : BitVec 6, Ready (.shli sp d a n) s → Yields (.shli sp d a n) s 1 d (form false (x.toInt * 2 ^ n.toNat))) ∧
    (∀ n : BitVec 6, Ready (.shri sp d a n) s → Yields (.shri sp d a n) s 1 d (form false (x.toNat / 2 ^ n.toNat : Nat))) ∧
    (∀ n : BitVec 6, Ready (.sari sp d a n) s → Yields (.sari sp d a n) s 1 d (form false (x.toInt / 2 ^ n.toNat))) ∧
    (∀ i : BitVec 20, Ready (.lui d i) s → Yields (.lui d i) s 1 d (form false (immInt e i * 2 ^ 12))) ∧
    (∀ i : BitVec 20, Ready (.aup d i) s → Yields (.aup d i) s 1 d
      (BitVec.ofInt 64 (((s.me.iss.word.toNat / 4 : Nat) + immInt e i / 4) % 8192 * 4 + (i.toNat % 4 : Nat))))

/-- R68: a poisoned source of an SR or SI word raises POISON with the code in its value, or under `.s` is passed on: the
destination is poisoned with the value of the first poisoned source. -/
def Obligations.PoisonedScalarSources : Prop :=
  ∀ (s : State) (i : Instr) (sp : Bool) (l : Nat) (d : Reg) (rs : List Reg) (r : SReg),
    scalarWord i = some (sp, l, d, rs) → Ready i s → ((rs.map s.me.s).find? fun x => x.poison) = some r →
    if sp then Sends i s l (.sreg d r.val true 0) else Fires i s (r.val.setWidth 8)

/-- R68, R101, R193, R203, R206, R211, R216, R217, R219, R222, R223, R232: every other word that reads a register and acts on it
fires on the first poisoned one, with the code in its value; the stamp check of `snd` comes before it. Which of several poisoned
sources is the first is the model's reading (DEDUCED log 2). -/
def Obligations.ConsumersFireOnPoison : Prop :=
  ∀ (s : State) (i : Instr) (r : SReg), Ready i s → (∀ a b c, i = .snd a b c → s.me.delta.toNat < 2 ^ 26) →
    ((consumes s i).find? fun x => x.poison) = some r → Fires i s (r.val.setWidth 8)

/-! ### Control words (R77 to R92) -/

/-- R68, R77 to R80: compares, tests and steer logic write a condition two cycles later, a poisoned 0 where a source is
poisoned; `ptst` tests poison itself. -/
def Obligations.ComparesAndSteerLogic : Prop :=
  ∀ (s : State) (g : GIdx),
    (∀ (a b : Reg) (c : Cond) (w : Bool), Ready (.cmp g a b c w) s →
      SetsCondition (.cmp g a b c w) s g ((s.me.s a).poison || (s.me.s b).poison)
        (holds c (sVal w (val s a)) (sVal w (val s b)) (uVal w (val s a)) (uVal w (val s b)))) ∧
    (∀ (i : BitVec 9) (c : Cond) (a : Reg), Ready (.cmpi g i c a) s →
      let y := immInt s.me.iss.ext i
      SetsCondition (.cmpi g i c a) s g (s.me.s a).poison
        (holds c (val s a).toInt y (val s a).toNat (BitVec.ofInt 64 y).toNat)) ∧
    (∀ (a b : Reg) (z w : Bool), Ready (.tst g a b z w) s →
      SetsCondition (.tst g a b z w) s g ((s.me.s a).poison || (s.me.s b).poison)
        (z != decide (∃ k < width w, (val s a).getLsbD k ∧ (val s b).getLsbD k))) ∧
    (∀ ga gb : GIdx, Ready (.gand g ga gb) s →
      SetsCondition (.gand g ga gb) s g ((s.me.g ga).cp || (s.me.g gb).cp) ((s.me.g ga).c && (s.me.g gb).c)) ∧
    (∀ ga gb : GIdx, Ready (.gor g ga gb) s →
      SetsCondition (.gor g ga gb) s g ((s.me.g ga).cp || (s.me.g gb).cp) ((s.me.g ga).c || (s.me.g gb).c)) ∧
    (∀ ga gb : GIdx, Ready (.gxor g ga gb) s →
      SetsCondition (.gxor g ga gb) s g ((s.me.g ga).cp || (s.me.g gb).cp) ((s.me.g ga).c != (s.me.g gb).c)) ∧
    (∀ ga : GIdx, Ready (.gnot g ga) s → SetsCondition (.gnot g ga) s g (s.me.g ga).cp (!(s.me.g ga).c)) ∧
    (∀ a : Reg, Ready (.ptst g a) s → Sends (.ptst g a) s 2 (.gcond g (s.me.s a).poison false))

/-- R81, R82, R87: targets are written three cycles later; a branch that is taken sends the next bundle to its target and
skips the loop-end check, one that is not changes nothing; `br` and `brf` fire on a poisoned condition, `br.a` and `brl`
do not read it; `brl` writes the return address to s31. -/
def Obligations.TargetsAndBranches : Prop :=
  ∀ (s : State) (g : GIdx),
    let x := s.me.g g
    (∀ t : BitVec 15, Ready (.prep g t) s → Sends (.prep g t) s 3 (.gtarg g t)) ∧
    (∀ a : Reg, Ready (.prepr g a) s → Clear s [a] → Sends (.prepr g a) s 3 (.gtarg g ((val s a).setWidth 15))) ∧
    (Ready (.br g) s → if x.cp then Fires (.br g) s 0
      else Acts (.br g) s fun c => if x.c then c.jump x.t else c) ∧
    (Ready (.brf g) s → if x.cp then Fires (.brf g) s 0
      else Acts (.brf g) s fun c => if x.c then c else c.jump x.t) ∧
    (Ready (.brA g) s → Acts (.brA g) s fun c => c.jump x.t) ∧
    (Ready (.brl g) s → Acts (.brl g) s fun c => (c.push 1 (.sreg 31 (s.me.iss.seq.setWidth 64) false 0)).jump x.t)

/-- R83 to R85, R87: a loop word with a trip count pushes a level that governs the next bundle, raises LOOPOVF at depth 6,
and without trips goes on behind its end; `lbrk` takes levels off, or raises LOOPOVF. That an end which is no start word is itself
fetched, and raises BADTARGET, is the model's reading (DEDUCED log 29). -/
def Obligations.LoopsPushAndBreak : Prop :=
  ∀ s : State,
    let Begins := fun (i : Instr) (n : W64) (gr : Bool) (epk : BitVec 8) (esl : BitVec 2) =>
      let e := loopEnd s.me.iss.word epk esl
      (s.me.iss.word.toNat / 4 + epk.toNat ≤ 8191 → e.toNat = (s.me.iss.word.toNat / 4 + epk.toNat) * 4 + esl.toNat) ∧
      if n = 0 then
        Acts i s fun c => c.jump (if c.isStart e then (c.afterBundle 24576 e).getD 0x7FFF else e)
      else if 6 ≤ s.me.loops.lsd.toNat then exec i s = .next (s.raiseLocal .loopovf 0)
      else
        Acts i s fun c =>
          ((c.setLevel c.loops.lsd.toNat
            { cnt := n, idx := 0, beg := c.iss.seq
              fin := BitVec.ofNat 16 (e.toNat + gr.toNat * 32768) }).setLsd (c.loops.lsd + 1)).jump c.iss.seq
    (∀ (a : Reg) (gr : Bool) (epk : BitVec 8) (esl : BitVec 2), Ready (.loop a gr epk esl) s → Clear s [a] →
      Begins (.loop a gr epk esl) (val s a) gr epk esl) ∧
    (∀ (n : BitVec 7) (gr : Bool) (epk : BitVec 8) (esl : BitVec 2), Ready (.loopi n gr epk esl) s →
      Begins (.loopi n gr epk esl) (BitVec.ofInt 64 (immNat s.me.iss.ext n)) gr epk esl) ∧
    (∀ (g : GIdx) (n : BitVec 3), Ready (.lbrk g n) s →
      if (s.me.g g).cp then Fires (.lbrk g n) s 0
      else if (s.me.g g).c = false then Acts (.lbrk g n) s id
      else if s.me.loops.lsd.toNat < n.toNat then exec (.lbrk g n) s = .next (s.raiseLocal .loopovf 0)
      else Acts (.lbrk g n) s fun c => (c.setLsd (c.loops.lsd - n)).jump (s.me.g g).t)

/-- R17, R86, R98, R107: a bundle that makes the loop-end check closes with the check of R86, its next address or the next in
sequence, LT and CYC one higher; one whose C word decides (R87) goes where that word sends it; the stop address of a tile that stops
after its bundle is the next start word in sequence, whatever the check decides (DEDUCED log 57). -/
def Obligations.BundlesCloseByTheLoopEndCheck : Prop :=
  ∀ (c : Core) (trap : Bool), c.loops.lsd.toNat ≤ 6 → (c.run = .running ∨ c.run = .stopping) →
    let n := c.nextBundle trap
    n.spec.lt = c.spec.lt + 1 ∧ n.spec.cyc = c.spec.cyc + 1 ∧
    (c.iss.skip = false → ∃ d t, EndCheck c.iss.start c d t ∧ n.loops = d.loops ∧ n.pc = t.getD c.iss.seq) ∧
    (c.iss.skip = true → n.loops = c.loops ∧ n.pc = c.iss.next.getD c.iss.seq) ∧
    (c.run = .running → n.stop = c.stop) ∧
    (c.run = .stopping → n.stop = c.stop.map fun p => { p with addr := c.iss.seq })

/-- R23, R27, R89 to R92, R194: `frame` dates from the LT of its bundle; `waitt` issues once PTC has reached its time and
stalls with cause SYNC before; `nop` does nothing; `sync` leaves its tile at the barrier, behind a held stamp; `halt` ends
the tile's part of its leg: writes of its own pipes due later are gone, what engines and the fabric hold goes on. Which of its
results count as handed to an engine is the model's reading (DEDUCED log 13); where the chain check of the cluster is open, both
wait, and where it fails, they raise TSMISMATCH. -/
def Obligations.DatumWaitBarrierAndHalt : Prop :=
  ∀ s : State,
    (Ready .frame s → Sends .frame s 1 (.special 0x0002 s.me.spec.lt)) ∧
    (∀ a b : Reg, Ready (.waitt a b) s → Clear s [a, b] →
      let p := (s.die s.me.die).ptc
      let sec := (val s a).toNat % 2 ^ 48
      let ns := (val s b).toNat % 2 ^ 32
      if sec < p.sec.toNat ∨ (sec = p.sec.toNat ∧ ns ≤ p.ns.toNat) then Acts (.waitt a b) s id
      else Waits (.waitt a b) s .sync) ∧
    (Ready .nop s → Acts .nop s id) ∧
    (∀ sc : Scope, Ready (.sync sc) s →
      (s.me.iss.held = none → Stops (.sync sc) s .illbundle) ∧
      (s.me.iss.held ≠ none → s.me.leave ≠ .asked → chainCheck s = some true →
        Acts (.sync sc) s fun c => { c with run := .barrier false sc }) ∧
      (s.me.iss.held ≠ none → s.me.leave = .asked → chainCheck s = some true → Waits (.sync sc) s .leave) ∧
      (s.me.iss.held ≠ none → chainCheck s = some false → Stops (.sync sc) s .tsmismatch) ∧
      (s.me.iss.held ≠ none → chainCheck s = none → Waits (.sync sc) s .engine)) ∧
    (Ready .halt s →
      (s.me.leave = .asked → chainCheck s = some true → Waits .halt s .leave) ∧
      (chainCheck s = some false → Stops .halt s .tsmismatch) ∧ (chainCheck s = none → Waits .halt s .engine)) ∧
    (Ready .halt s → s.me.leave ≠ .asked → chainCheck s = some true → ∃ t : State, exec .halt s = .next t ∧ t.me.run = .halted ∧
      t.me.flight = s.me.flight.filter (fun f => !(f.what.ownPipe && decide (0 < f.remain))) ∧
      t.me.eng.copies = s.me.eng.copies ∧ t.me.eng.arr = s.me.eng.arr ∧ t.me.regs = s.me.regs ∧
      t.me.loops = s.me.loops ∧ t.me.spec = s.me.spec ∧ t.me.store = s.me.store ∧ t.mem = s.mem)

/-- R24, R43, R44: `at` issues only at its relative time; `at.h` there too, and before it the cycle holds an empty bundle;
a stamp that has passed, and an `at` too early, raise STAMP. An XT word extends the immediate of the word immediately
before it; the clause on `xt` is the model's own means of handing its bits to that word (DESIGN CHOICE log 5). -/
def Obligations.StampsAgreeOrHoldOrStop : Prop :=
  ∀ (s : State) (g : BitVec 26),
    let d := (s.me.spec.lt - s.me.spec.frame).toNat
    (Ready (.stampAt g) s →
      if d = g.toNat then Acts (.stampAt g) s fun c => { c with iss := { c.iss with held := none } }
      else Stops (.stampAt g) s .stamp) ∧
    (Ready (.stampHold g) s →
      if d = g.toNat then Acts (.stampHold g) s fun c => { c with iss := { c.iss with held := some g } }
      else if d < g.toNat then ∃ t, exec (.stampHold g) s = .next t ∧ t.me.spec.lt = s.me.spec.lt + 1 ∧
        t.me.spec.cyc = s.me.spec.cyc + 1 ∧ t.me.pc = s.me.pc ∧ t.me.iss.verdict = .held ∧ t.me.regs = s.me.regs
      else Stops (.stampHold g) s .stamp) ∧
    (∀ e : BitVec 27, Acts (.xt e) s fun c => { c with iss := { c.iss with ext := some e } })

/-! ### Vector words (R122, R123, R148 to R179) -/

/-- R128, R139 to R142, R150, R151, R154 to R179: a vector word none of whose source lanes is poisoned writes its lanes at its
latency, raises the flags of its elements with them, and advances the counter of the rounding stream by the draws it took. The
floating-point arithmetic computes exactly and rounds once; minimum, maximum, sign and compare go by values; the reductions go up
their tree; the approximations have their special and exact results and, for `vrcp` and `vrsq`, their neighbours; the conversions
clamp with IV, set NX where they round; blocks follow the scale rule. The order of the terms of `vdot4` is the model's (DESIGN
CHOICE log 55); that a `vcvt` between integers draws nothing is its reading (DEDUCED log 33). -/
def Obligations.VectorWordsWriteTheirLanes : Prop :=
  (∀ (s : State) (i : Instr) (r : VDo), vectorWord s i = some r → Ready i s →
    (∀ x ∈ r.lanes, ∀ p ∈ x.deps, r.ops.pois p = false) →
    Acts i s fun c =>
      (if r.draws = 0 then c else c.advance r.draws).push r.lat
        (.vreg r.d (BitVec.ofNat 2048 (packW 32 (r.lanes.map LaneOut.val)))
          (BitVec.ofNat 64 (packW 1 (r.lanes.map fun x => x.bad.toNat))) (r.lanes.foldl (fun f x => f ||| x.fl) 0))) ∧
  (fp32.nanCode = 0x7FC00000 ∧ fp16.nanCode = 0x7E00 ∧ bf16.nanCode = 0x7FC0 ∧ e5m2.nanCode = 0x7E ∧ e4m3.nanCode = 0x7F ∧
    fp32.maxCode = 0x7F7FFFFF ∧ fp16.maxCode = 0x7BFF ∧ bf16.maxCode = 0x7F7F ∧ e5m2.maxCode = 0x7B ∧ e4m3.maxCode = 0x7E ∧
    e3m2.maxCode = 0x1F ∧ e2m3.maxCode = 0x1F ∧ e2m1.maxCode = 7 ∧ fp32.infCode = 0x7F800000 ∧ fp16.infCode = 0x7C00 ∧
    bf16.infCode = 0x7F80 ∧ e5m2.infCode = 0x7C) ∧
  ∀ (s : State) (d a b : Reg) (ty : VTy) (sp : Bool) (md : BitVec 2), ty.isFp = true →
    let A := VClear s [a]
    let AB := VClear s [a, b]
    let ABD := VClear s [a, b, d]
    let n := VTy.ew ty
    let f := VTy.fmt ty
    let g := s.me.graded
    let rd := modeOf s md == .rd
    (AB → Ready (.vadd d a b ty sp md) s → FpTwo (.vadd d a b ty sp md) s ty md d a b (Operand.plus rd)) ∧
    (AB → Ready (.vsub d a b ty sp md) s → FpTwo (.vsub d a b ty sp md) s ty md d a b fun x y => Operand.plus rd x y.minus) ∧
    (AB → Ready (.vmul d a b ty sp md) s → FpTwo (.vmul d a b ty sp md) s ty md d a b Operand.times) ∧
    (ABD → Ready (.vfma d a b ty sp md) s → FpThree (.vfma d a b ty sp md) s ty md d a b id id) ∧
    (ABD → Ready (.vfms d a b ty sp md) s → FpThree (.vfms d a b ty sp md) s ty md d a b id Operand.minus) ∧
    (ABD → Ready (.vfnma d a b ty sp md) s → FpThree (.vfnma d a b ty sp md) s ty md d a b Operand.minus id) ∧
    (∀ mx : Bool, let i : Instr := if mx then .vmax d a b ty sp else .vmin d a b ty sp
      AB → Ready i s → FpElements i s 2 0 d n fun q c fl =>
        let x := el n (s.me.v a).val q
        let y := el n (s.me.v b).val q
        ∀ o p, Reads f g x o → Reads f g y p →
          fl = flushFl f g x ||| flushFl f g y ||| ivFl (o.signals || p.signals) ∧
          ((o.isNan = true ∨ p.isNan = true) → c = f.nanCode) ∧
          (o.isNan = false → p.isNan = false → ∃ w, Reads f true c w ∧ (w = o ∨ w = p) ∧
            (mx = false → w.le o ∧ w.le p) ∧ (mx = true → o.le w ∧ p.le w))) ∧
    (∀ ng : Bool, let i : Instr := if ng then .vneg d a ty sp md else .vabs d a ty sp md
      A → Ready i s → FpElements i s 2 0 d n fun q c fl =>
        let x := el n (s.me.v a).val q
        ∀ o, Reads f g x o → fl = flushFl f g x ||| ivFl o.signals ∧ (o.isNan = true → c = f.nanCode) ∧
          (o.isNan = false → minus f c = (ng && !minus f x) ∧
            c % 2 ^ (n - 1) = if flushFl f g x = 0 then x % 2 ^ (n - 1) else 0)) ∧
    (∀ cond : VCond, AB → Ready (.vcmp d a b ty sp cond) s → FpElements (.vcmp d a b ty sp cond) s 2 0 d n fun q c fl =>
      let x := el n (s.me.v a).val q
      let y := el n (s.me.v b).val q
      ∀ o p, Reads f g x o → Reads f g y p →
        (o.holds cond p → c = 2 ^ n - 1) ∧ (¬ o.holds cond p → c = 0) ∧
        fl = flushFl f g x ||| flushFl f g y |||
          ivFl (if cond = .eq ∨ cond = .ne then o.signals || p.signals else o.isNan || p.isNan)) ∧
    (A → Ready (.vrsum d a ty sp md) s → ∃ (t : Nat → Nat → Nat) (v : VWord) (fl : Fl),
      (Acts (.vrsum d a ty sp md) s fun c =>
        (if modeOf s md = .sr then c.advance (Nat.log 2 (2048 / n)) else c).push 6 (.vreg d v 0 fl)) ∧
      (∀ q < 2048 / n, t 0 q = el n (s.me.v a).val q ∧ el n v q = t (Nat.log 2 (2048 / n)) 0) ∧
      ∀ l i, 2 ^ (l + 1) * (i + 1) ≤ 2048 / n → ∀ o p, Reads f g (t l (2 * i)) o → Reads f g (t l (2 * i + 1)) p →
        ∃ k, Gives f (modeOf s md) (random s (modeOf s md) l i) g (Operand.plus rd o p).1 (t (l + 1) i) k) ∧
    (∀ mx : Bool, let i : Instr := if mx then .vrmax d a ty sp else .vrmin d a ty sp
      A → Ready i s → ∃ (c : Nat) (fl : Fl) (v : VWord), Sends i s 6 (.vreg d v 0 fl) ∧ (∀ q < 2048 / n, el n v q = c) ∧
        let x := fun q => el n (s.me.v a).val q
        ((∃ q < 2048 / n, reservedCode f (x q) ∧ frac f (x q) ≠ 0) → c = f.nanCode) ∧
        ((∀ q < 2048 / n, ¬ (reservedCode f (x q) ∧ frac f (x q) ≠ 0)) → ∃ w, Reads f true c w ∧
          (∃ q < 2048 / n, Reads f g (x q) w) ∧ ∀ q < 2048 / n, ∀ o, Reads f g (x q) o → if mx then o.le w else w.le o)) ∧
    (ABD → Ready (.vdot4 d a b ty sp md) s → FpElements (.vdot4 d a b ty sp md) s 3 (if modeOf s md = .sr then 1 else 0) d 32
      fun j c fl =>
        let x := fun k => el 16 (s.me.v a).val (2 * j + k)
        let y := fun k => el 16 (s.me.v b).val (2 * j + k)
        let z := el 32 (s.me.v d).val j
        ∀ o0 o1 p0 p1 w, Reads bf16 g (x 0) o0 → Reads bf16 g (x 1) o1 → Reads bf16 g (y 0) p0 → Reads bf16 g (y 1) p1 →
          Reads fp32 g z w →
          let m0 := o0.times p0
          let m1 := o1.times p1
          let t := Operand.plus rd w m0.1
          let u := Operand.plus rd t.1 m1.1
          ∃ k, Gives fp32 (modeOf s md) (random s (modeOf s md) 0 j) g u.1 c k ∧
            fl = flushFl bf16 g (x 0) ||| flushFl bf16 g (x 1) ||| flushFl bf16 g (y 0) ||| flushFl bf16 g (y 1) |||
              flushFl fp32 g z ||| ivFl m0.2 ||| ivFl m1.2 ||| ivFl t.2 ||| ivFl u.2 ||| k) ∧
    (∀ op < 4, let i : Instr := match op with
        | 0 => .vrcp d a ty sp
        | 1 => .vrsq d a ty sp
        | 2 => .vex2 d a ty sp
        | _ => .vlg2 d a ty sp
      A → Ready i s → FpElements i s 10 0 d n fun q c fl =>
        let x := el n (s.me.v a).val q
        ∀ o, Reads f g x o → ∃ k, fl = flushFl f g x ||| k ∧ Approximates op f g o c k) ∧
    (∀ (src : BitVec 5) (cf : BitVec 5) (m : Bool), A → Ready (.vcvt d a src cf sp m) s →
      let k := cvtKinds src.toNat cf.toNat m
      let w := max k.1.reg k.2.reg
      let draws := if s.me.rmode = .sr then cvtDraws src.toNat cf.toNat m else 0
      FpElements (.vcvt d a src cf sp m) s 4 draws d w fun q c fl =>
        let r := if w < 16 then random s s.me.rmode (q / 128) (q % 128) else random s s.me.rmode 0 q
        ∀ o e, ReadsKind k.1 g (el w (s.me.v a).val q % 2 ^ k.1.reg) o e → ∃ h, Converts k.2 s.me.rmode r g o c h ∧ fl = e ||| h) ∧
    (∀ (fmt : BitVec 5) (m : Bool), 13 ≤ fmt.toNat → fmt.toNat ≤ 19 →
      let bn := fmt.toNat - 11
      let num := if m then 4 else 2
      let h := if m then bf16 else fp32
      let w := if m then 16 else 32
      let X := (s.me.v a).val
      let mant := fun k i => sgn bn (X.toNat / 2 ^ (bn * (24 * k + i)) % 2 ^ bn)
      (A → Ready (.vbdq d a fmt sp m) s → FpElements (.vbdq d a fmt sp m) s 4 (if s.me.rmode = .sr then 1 else 0) d w fun q c fl =>
        let e := el 8 X (248 + q / 24)
        let z := mant (q / 24) (q % 24)
        (24 * num ≤ q → c = 0 ∧ fl = 0) ∧
        (q < 24 * num → (e = 255 → c = h.nanCode ∧ fl = 0) ∧
          (e ≠ 255 → Gives h s.me.rmode (random s s.me.rmode 0 q) g (.num (z * 2 ^ ((e : ℤ) - 127)) (decide (z < 0))) c fl))) ∧
      (AB → Ready (.vbscl d a b fmt sp m) s → ∃ (v : VWord) (fl : Fl) (e : Nat → Nat) (y : Nat → Nat → Int),
        Sends (.vbscl d a b fmt sp m) s 4 (.vreg d v 0 fl) ∧ Image bn num v e y ∧
        let t := fun k => (el 8 X (248 + k) : Int) + sgn 9 (el 32 (s.me.v b).val 0 % 512)
        let kept := fun k => el 8 X (248 + k) = 255 ∨ ∀ i < 24, mant k i = 0
        (∀ k < num,
          (kept k → e k = el 8 X (248 + k) ∧ ∀ i < 24, y k i = mant k i) ∧
          (¬ kept k → 0 ≤ t k → t k ≤ 254 → (e k : Int) = t k ∧ ∀ i < 24, y k i = mant k i) ∧
          (¬ kept k → 254 < t k → e k = 255 ∧ ∀ i < 24, y k i = 0) ∧
          (¬ kept k → t k < 0 → e k = 0 ∧ ∀ i < 24, y k i = 0)) ∧
        (fl.getLsbD 2 = true ↔ ∃ k < num, ¬ kept k ∧ 254 < t k) ∧ (fl.getLsbD 3 = true ↔ ∃ k < num, ¬ kept k ∧ t k < 0) ∧
        fl &&& ~~~(flOF ||| flUF) = 0) ∧
      (AB → Ready (.vbq d a b fmt sp m) s → ∃ (v : VWord) (e : Nat → Nat) (y : Nat → Nat → Int) (fl : Nat → Fl),
        Sends (.vbq d a b fmt sp m) s 6 (.vreg d v 0 ((List.range num).foldl (fun u k => u ||| fl k) 0)) ∧ Image bn num v e y ∧
        ∀ k < num, BlockOf bn h (min 24 (min (el 8 (s.me.v b).val 0) (24 * num) - 24 * k))
          (fun i => el w X (24 * k + i)) (e k) (y k) (fl k)))

/-- R150, R123: without `.s` the first poisoned source lane fires, the lanes taken source by source and upwards; with `.s`
a lane that depends on a poisoned one is poisoned, with the value of the first, and every other lane is as without. -/
def Obligations.VectorPoisonFiresOrPasses : Prop :=
  ∀ (s : State) (i : Instr) (r : VDo), vectorWord s i = some r → Ready i s →
    (r.sp = false → ∀ p, p ∈ r.lanes.flatMap LaneOut.deps → r.ops.pois p = true →
      (∀ q ∈ r.lanes.flatMap LaneOut.deps, r.ops.pois q = true → depBefore q p = false) →
      Fires i s ((BitVec.ofNat 64 (r.ops.lane p)).setWidth 8)) ∧
    (r.sp = true → ∃ (v : VWord) (m : BitVec 64) (f : Fl),
      (Acts i s fun c => (if r.draws = 0 then c else c.advance r.draws).push r.lat (.vreg r.d v m f)) ∧
      ∀ (j : Nat) (x : LaneOut), j < 64 → r.lanes[j]? = some x →
        ((∀ p ∈ x.deps, r.ops.pois p = false) → m.getLsbD j = x.bad ∧ lane v j = BitVec.ofNat 32 x.val) ∧
        (∀ p ∈ x.deps, r.ops.pois p = true → (∀ q ∈ x.deps, r.ops.pois q = true → depBefore q p = false) →
          m.getLsbD j = true ∧
          lane v j = BitVec.ofNat 32 (if keepsValue i then x.val else r.ops.lane p)))

/-- R151, R155, R157 to R161, R164 to R166: the integer instructions element by element, exact results wrapped or clamped, AOF for a
clamped ax element; the dot products and ternary accumulations lane by lane, the reductions over all elements. That `vabs` and
`vneg` of the most negative ax element clamp it, with AOF, is the model's reading (DEDUCED log 30). -/
def Obligations.VectorIntegerElements : Prop :=
  ∀ (s : State) (d a b : Reg) (ty : VTy) (sp : Bool) (md : BitVec 2), ty.isFp = false →
    let A := VClear s [a]
    let AB := VClear s [a, b]
    let n := VTy.ew ty
    let x := ival s ty a
    let y := ival s ty b
    let Two := fun (i : Instr) (e : Nat → Int) => AB → Ready i s → Elements i s 2 d n (overflow ty md e) fun q => modded ty md (e q)
    let One := fun (i : Instr) (e : Nat → Int) => A → Ready i s → Elements i s 2 d n (overflow ty md e) fun q => modded ty md (e q)
    Two (.vadd d a b ty sp md) (fun q => x q + y q) ∧
    Two (.vsub d a b ty sp md) (fun q => x q - y q) ∧
    Two (.vmul d a b ty sp md) (fun q => x q * y q) ∧
    (AB → Ready (.vmulh d a b ty sp) s → Elements (.vmulh d a b ty sp) s 2 d n 0 fun q => x q * y q / 2 ^ n) ∧
    (AB → Ready (.vmin d a b ty sp) s → Elements (.vmin d a b ty sp) s 2 d n 0 fun q => min (x q) (y q)) ∧
    (AB → Ready (.vmax d a b ty sp) s → Elements (.vmax d a b ty sp) s 2 d n 0 fun q => max (x q) (y q)) ∧
    One (.vabs d a ty sp md) (fun q => (x q).natAbs) ∧
    One (.vneg d a ty sp md) (fun q => -x q) ∧
    (∀ c : VCond, AB → Ready (.vcmp d a b ty sp c) s → Elements (.vcmp d a b ty sp c) s 2 d n 0 fun q =>
      if (match c with
        | .eq => decide (x q = y q)
        | .ne => decide (x q ≠ y q)
        | .lt => decide (x q < y q)
        | .le => decide (x q ≤ y q)) then -1 else 0) ∧
    (Ready (.vlid d ty sp) s → Elements (.vlid d ty sp) s 2 d n 0 fun q => q) ∧
    (A → Ready (.vpopc d a ty sp) s → Elements (.vpopc d a ty sp) s 2 d n 0 fun q =>
      ((List.range n).countP (el n (s.me.v a).val q).testBit : Nat)) ∧
    (A → Ready (.vclz d a ty sp) s → Elements (.vclz d a ty sp) s 2 d n 0 fun q => (n : Int) - Nat.size (el n (s.me.v a).val q)) ∧
    (A → Ready (.vrsum d a ty sp md) s → Elements (.vrsum d a ty sp md) s 6 d n 0 fun _ =>
      ∑ q ∈ Finset.range (VTy.count ty), x q) ∧
    (∀ mx : Bool, let i : Instr := if mx then .vrmax d a ty sp else .vrmin d a ty sp
      A → Ready i s → ∃ k < VTy.count ty, (∀ q < VTy.count ty, if mx then x q ≤ x k else x k ≤ x q) ∧
        Elements i s 6 d n 0 fun _ => x k) ∧
    (VClear s [a, b, d] →
      let acc := fun j => el 32 (s.me.v d).val j
      let part := fun (u : Nat → Int) (j : Nat) => ∑ k ∈ Finset.range (32 / n), u (j * (32 / n) + k)
      (Ready (.vdot4 d a b ty sp md) s → Elements (.vdot4 d a b ty sp md) s 3 d 32 0 fun j =>
        modded .i32 md (sgn 32 (acc j) + part (fun q => x q * y q) j)) ∧
      (Ready (.vtacc d a b ty sp) s → Elements (.vtacc d a b ty sp) s 2 d 32 0 fun j =>
        acc j + part (fun q => (x q).sign * y q) j))

/-- R123, R143, R147, R158, R160, R171 to R173, R179: the logical instructions, the shifts, and the instructions that move, pack
and unpack elements; trits, illegal bytes poisoned with TBAD; the random numbers of `vrng`. -/
def Obligations.VectorLogicShiftsAndMoves : Prop :=
  ∀ (s : State) (d a b : Reg) (ty : VTy) (sp md : Bool),
    let A := VClear s [a]
    let AB := VClear s [a, b]
    let Src := VClear s (if md then [a] else [a, b])
    let n := VTy.ew ty
    let x := fun q => el n (s.me.v a).val q
    let y := fun q => el n (s.me.v b).val q
    let X := (s.me.v a).val
    let Y := (s.me.v b).val
    (AB → Ready (.vand d a b sp) s → Sends (.vand d a b sp) s 2 (.vreg d (X &&& Y) 0 0)) ∧
    (AB → Ready (.vor d a b sp) s → Sends (.vor d a b sp) s 2 (.vreg d (X ||| Y) 0 0)) ∧
    (AB → Ready (.vxor d a b sp) s → Sends (.vxor d a b sp) s 2 (.vreg d (X ^^^ Y) 0 0)) ∧
    (AB → Ready (.vandn d a b sp) s → Sends (.vandn d a b sp) s 2 (.vreg d (X &&& ~~~Y) 0 0)) ∧
    (Src → Ready (.vshl d a b ty sp md) s → Elements (.vshl d a b ty sp md) s 2 d n 0 fun q =>
      x q * 2 ^ ((if md then b.toNat else y q) % n)) ∧
    (Src → Ready (.vshr d a b ty sp md) s → Elements (.vshr d a b ty sp md) s 2 d n 0 fun q =>
      (x q / 2 ^ ((if md then b.toNat else y q) % n) : Nat)) ∧
    (Src → Ready (.vsar d a b ty sp md) s → Elements (.vsar d a b ty sp md) s 2 d n 0 fun q =>
      sgn n (x q) / 2 ^ ((if md then b.toNat else y q) % n)) ∧
    (Src → Ready (.vbc d a b ty sp md) s → Elements (.vbc d a b ty sp md) s 2 d n 0 fun _ => x (moveAt s ty md b)) ∧
    (Src → Ready (.vxt d a b ty sp md) s → Elements (.vxt d a b ty sp md) s 2 d n 0 fun q =>
      if q = 0 then x (moveAt s ty md b) else 0) ∧
    (Src → Ready (.vrot d a b ty sp md) s → Elements (.vrot d a b ty sp md) s 2 d n 0 fun q =>
      x ((q + moveAt s ty md b) % VTy.count ty)) ∧
    (AB → Ready (.vperm d a b ty sp) s → Elements (.vperm d a b ty sp) s 3 d n 0 fun q => x (y q % VTy.count ty)) ∧
    (∀ wc : BitVec 5, wc.toNat < 4 →
      let e := 4 * 2 ^ wc.toNat
      let m := 1024 / e
      (AB → Ready (.vpak d a b wc sp) s → Elements (.vpak d a b wc sp) s 2 d e 0 fun q =>
        (if q < m then el (2 * e) X q else el (2 * e) Y (q - m) : Nat)) ∧
      ∀ h : Reg, A → Ready (.vupk d a h wc sp md) s → Elements (.vupk d a h wc sp md) s 2 d (2 * e) 0 fun q =>
        let z := el e X (h.toNat * m + q)
        if md then sgn e z else z) ∧
    (A → Ready (.vpak d a b 4 sp) s → ∃ v : VWord, Sends (.vpak d a b 4 sp) s 2 (.vreg d v 0 0) ∧ v.toNat < 2 ^ 1536 ∧
      ∀ k < 256, el 6 v k = el 8 X k % 64) ∧
    (∀ h : Reg, A → Ready (.vupk d a h 4 sp md) s → Elements (.vupk d a h 4 sp md) s 2 d 8 0 fun k =>
      if md then sgn 6 (el 6 X k) else el 6 X k) ∧
    (∀ t : BitVec 5, A → Ready (.vtunp d a t sp) s → ∃ (v : VWord) (p : BitVec 64) (f : Fl),
      Sends (.vtunp d a t sp) s 3 (.vreg d v p f) ∧
      (∀ j < 64, (p.getLsbD j = true ↔ ∃ m < 4, 243 ≤ el 8 X (4 * j + m)) ∧ ∀ e < 4,
        let k := 4 * t.toNat + e
        let z := el 8 X (4 * j + k / 5)
        ((el 8 v (4 * j + e) : Nat) : Int) = (if 243 ≤ z then 0 else (z / 3 ^ (k % 5) % 3 : Nat) - 1 : Int) % 256) ∧
      ((∃ k < 256, 243 ≤ el 8 X k) → f = flTBAD) ∧ ((∀ k < 256, el 8 X k < 243) → f = 0)) ∧
    (Src → Ready (.vrng d a b sp md) s → ∃ v : VWord, Sends (.vrng d a b sp md) s 8 (.vreg d v 0 0) ∧ ∀ o < 16,
      let key : Mix := if md then
          { x0 := s.me.spec.srk0.setWidth 32, x1 := s.me.spec.srk0.extractLsb' 32 32
            x2 := s.me.spec.srk1.setWidth 32, x3 := s.me.spec.srk1.extractLsb' 32 32 }
        else { x0 := lane Y 0, x1 := lane Y 1, x2 := lane Y 2, x3 := lane Y 3 }
      mix10 key { x0 := lane X (4 * o), x1 := lane X (4 * o + 1), x2 := lane X (4 * o + 2), x3 := lane X (4 * o + 3) } =
        { x0 := lane v (4 * o), x1 := lane v (4 * o + 1), x2 := lane v (4 * o + 2), x3 := lane v (4 * o + 3) })

/-- R122, R168: `vsel` keeps lane by lane, `vsel.b` bit by bit; a poisoned lane fires where they read it and nowhere else;
`vptst` shows poison and never fires. -/
def Obligations.SelectsAndPoisonTest : Prop :=
  ∀ (s : State) (d a b c : Reg),
    let X := s.me.v a
    let Y := s.me.v b
    let C := s.me.v c
    let lanesOk := ∀ j < 64, C.poison.getLsbD j = false ∧ (lane C.val j = 0 → Y.poison.getLsbD j = false) ∧
      (lane C.val j ≠ 0 → X.poison.getLsbD j = false)
    let bitsOk := ∀ j < 64, C.poison.getLsbD j = false ∧ (lane C.val j ≠ BitVec.allOnes 32 → Y.poison.getLsbD j = false) ∧
      (lane C.val j ≠ 0 → X.poison.getLsbD j = false)
    (Ready (.vsel d a b c) s →
      (lanesOk → ∃ v, Sends (.vsel d a b c) s 2 (.vreg d v 0 0) ∧
        ∀ j < 64, lane v j = if lane C.val j = 0 then lane Y.val j else lane X.val j) ∧
      (¬ lanesOk → ∃ k, Fires (.vsel d a b c) s k)) ∧
    (Ready (.vselB d a b c) s →
      (bitsOk → Sends (.vselB d a b c) s 2 (.vreg d ((X.val &&& C.val) ||| (Y.val &&& ~~~C.val)) 0 0)) ∧
      (¬ bitsOk → ∃ k, Fires (.vselB d a b c) s k)) ∧
    (Ready (.vptst d a) s → ∃ v, Sends (.vptst d a) s 2 (.vreg d v 0 0) ∧
      ∀ j < 64, lane v j = if X.poison.getLsbD j then 1 else 0)

/-! ### Buffer words (R204 to R208) -/

/-- R204 to R207: a load from A, W or C writes the bytes that stand at its address when it issues, at its latency: `ld`
sign-extended after 4 cycles, `vld` 64 elements after 5, `vldb` one element in every place after 6. A load from K sends a
request for its bytes, which are due after 10 cycles. -/
def Obligations.LoadsBringBufferBytes : Prop :=
  ∀ (s : State) (sp : Space) (r b : Reg) (z : Size) (off : BitVec 10), Clear s [b] →
    let n := sizeBytes z
    let sa := bufAddr s b off n n
    let va := bufAddr s b off (64 * n) (elemBytes z)
    (∀ u, bufOf sp = some u →
      (Ready (.ld sp r b z off) s → sa + n ≤ u.size →
        Yields (.ld sp r b z off) s 4 r (BitVec.ofInt 64 (sgn (8 * n) (leNat (s.me.bytes u sa n))))) ∧
      (Ready (.vld sp r b z off) s → z ≠ .d → va + 64 * n ≤ u.size →
        ∃ v, Sends (.vld sp r b z off) s 5 (.vreg r v 0 0) ∧ HoldsElements s u va n v) ∧
      (Ready (.vld sp r b z off) s → z = .d → va + 512 ≤ u.size →
        ∃ v w, (Acts (.vld sp r b z off) s fun c => (c.push 5 (.vreg r v 0 0)).push 5 (.vreg (r + 1) w 0 0)) ∧
          HoldsElements s u va 4 v ∧ HoldsElements s u (va + 256) 4 w) ∧
      (Ready (.vldb sp r b z off) s → va + n ≤ u.size →
        ∃ v, Sends (.vldb sp r b z off) s 6 (.vreg r v 0 0) ∧
          ∀ k < 256, v.extractLsb' (8 * k) 8 = (s.me.bytes u va n).getD (k % n) 0)) ∧
    (bufOf sp = none →
      (Ready (.ld sp r b z off) s → sa + n ≤ 2 ^ 24 → ∃ v, Acts (.ld sp r b z off) s fun c =>
        (c.pushAwait 10 (.net c.eng.nextId) (.sreg r v false 0)).request (.kload sa false z)) ∧
      (Ready (.vld sp r b z off) s → z ≠ .d → va + 64 * n ≤ 2 ^ 24 → ∃ v, Acts (.vld sp r b z off) s fun c =>
        (c.pushAwait 10 (.net c.eng.nextId) (.vreg r v 0 0)).request (.kload va true z)) ∧
      (Ready (.vld sp r b z off) s → z = .d → va + 512 ≤ 2 ^ 24 → ∃ v w, Acts (.vld sp r b z off) s fun c =>
        ((c.pushAwait 10 (.net c.eng.nextId) (.vreg r v 0 0)).pushAwait 10 (.net c.eng.nextId) (.vreg (r + 1) w 0 0)).request
          (.kload va true z)))

/-- R204 to R207: a store to A, W or C performs 2 cycles after its issue and writes the low bytes of its register, or the
elements of a vector register, at its address and nowhere else; a store to K goes out as a remote access of these bytes; a
load from K is due after 10 cycles. -/
def Obligations.StoresSendTheirBytes : Prop :=
  ∀ (s : State) (sp : Space) (r b : Reg) (z : Size) (off : BitVec 10), Clear s [b] →
    let data := VClear s (if z = .d then [r, r + 1] else [r])
    let n := sizeBytes z
    let sa := bufAddr s b off n n
    let va := bufAddr s b off (64 * n) (elemBytes z)
    let sb := leBytes n (val s r).toNat
    let vb := if z = .d then laneBytes 4 (s.me.v r).val ++ laneBytes 4 (s.me.v (r + 1)).val else laneBytes n (s.me.v r).val
    (∀ u, bufOf sp = some u → Clear s [r] → Ready (.st sp r b z off) s → sa + n ≤ u.size →
      Sends (.st sp r b z off) s 2 (.bstore u (place sa sb) false)) ∧
    (∀ u, bufOf sp = some u → data → Ready (.vst sp r b z off) s → va + 64 * n ≤ u.size →
      Sends (.vst sp r b z off) s 2 (.bstore u (place va vb) false)) ∧
    (Clear s [r] → Ready (.st .k r b z off) s → sa + n ≤ 2 ^ 24 →
      Acts (.st .k r b z off) s fun c => c.request (.kstore (place sa sb))) ∧
    (data → Ready (.vst .k r b z off) s → va + 64 * n ≤ 2 ^ 24 →
      Acts (.vst .k r b z off) s fun c => c.request (.kstore (place va vb))) ∧
    (Ready (.ld .k r b z off) s → sa + n ≤ 2 ^ 24 → Acts (.ld .k r b z off) s fun c =>
      (c.pushAwait 10 (.net c.eng.nextId) (.sreg r (ldVal z []) false 0)).request (.kload sa false z))

/-- R205: an access that would reach past the end of its space raises PERM and does nothing else. -/
def Obligations.AccessesPastTheEndAreStopped : Prop :=
  ∀ (s : State) (sp : Space) (r b : Reg) (z : Size) (off : BitVec 10), Clear s [b] →
    let n := sizeBytes z
    (Ready (.ld sp r b z off) s → spaceSize sp < bufAddr s b off n n + n → Stops (.ld sp r b z off) s .perm) ∧
    (Clear s [r] → Ready (.st sp r b z off) s → spaceSize sp < bufAddr s b off n n + n → Stops (.st sp r b z off) s .perm) ∧
    (Ready (.vld sp r b z off) s → spaceSize sp < bufAddr s b off (64 * n) (elemBytes z) + 64 * n →
      Stops (.vld sp r b z off) s .perm) ∧
    (VClear s (if z = .d then [r, r + 1] else [r]) → Ready (.vst sp r b z off) s →
      spaceSize sp < bufAddr s b off (64 * n) (elemBytes z) + 64 * n →
      Stops (.vst sp r b z off) s .perm) ∧
    (Ready (.vldb sp r b z off) s → spaceSize sp < bufAddr s b off (64 * n) (elemBytes z) + n →
      Stops (.vldb sp r b z off) s .perm)

/-- R208: a gather reads 64 elements at their lane addresses and lands after 12 cycles; a scatter writes its lanes in four
groups of sixteen, 3, 6, 9 and 12 cycles after its issue, the highest lane last; a lane out of range is PERM. Under `.s` a lane of a
gather with a poisoned index is poisoned with the index's value, one out of range with the code of PERM, and the others load. -/
def Obligations.GatherAndScatterByLanes : Prop :=
  ∀ (s : State) (sp : Space) (u : BSpace) (r b vi : Reg) (z : Size), bufOf sp = some u → Clear s [b] →
    let n := sizeBytes z
    (VClear s [vi] → ∀ g : Bool, Ready (.vgat sp r b z vi g) s → (∀ j < 64, idxAddr s b vi n j + n ≤ u.size) →
      ∃ v, (Acts (.vgat sp r b z vi g) s fun c => (c.push 12 (.vreg r v 0 0)).gather 4
          (leBytes 8 (val s b).toNat ++ leBytes 256 (s.me.v vi).val.toNat)) ∧
        ∀ j < 64, lane v j = BitVec.ofNat 32 (leNat (s.me.bytes u (idxAddr s b vi n j) n))) ∧
    (VClear s [vi, r] → Ready (.vsct sp r b z vi) s → (∀ j < 64, idxAddr s b vi n j + n ≤ u.size) →
      let w := fun g => (List.range 16).flatMap fun k =>
        place (idxAddr s b vi n (16 * g + k)) (leBytes n (lane (s.me.v r).val (16 * g + k)).toNat)
      Acts (.vsct sp r b z vi) s fun c =>
        ((((c.push 3 (.bstore u (w 0) true)).push 6 (.bstore u (w 1) true)).push 9 (.bstore u (w 2) true)).push 12
          (.bstore u (w 3) true)).gather 5
            (leBytes 8 (val s b).toNat ++ leBytes 256 (s.me.v vi).val.toNat ++ leBytes 256 (s.me.v r).val.toNat)) ∧
    (VClear s [vi] → Ready (.vgat sp r b z vi false) s → (∃ j < 64, u.size < idxAddr s b vi n j + n) →
      Stops (.vgat sp r b z vi false) s .perm) ∧
    (VClear s [vi, r] → Ready (.vsct sp r b z vi) s → (∃ j < 64, u.size < idxAddr s b vi n j + n) →
      Stops (.vsct sp r b z vi) s .perm) ∧
    (Ready (.vgat sp r b z vi true) s → ∃ v m,
      (Acts (.vgat sp r b z vi true) s fun c => (c.push 12 (.vreg r v m 0)).gather 4
        (leBytes 8 (val s b).toNat ++ leBytes 256 (s.me.v vi).val.toNat)) ∧
      ∀ j < 64, let here := idxAddr s b vi n j + n ≤ u.size
        if (s.me.v vi).poison.getLsbD j then m.getLsbD j = true ∧ lane v j = lane (s.me.v vi).val j
        else if here then
          m.getLsbD j = false ∧ lane v j = BitVec.ofNat 32 (leNat (s.me.bytes u (idxAddr s b vi n j) n))
        else m.getLsbD j = true ∧ lane v j = 0x16)

/-! ### Engine words (R181 to R219) -/

/-- R210, R211: a definition that R210 admits sets the circular buffer empty; pointers move at issue + 1 within the bytes
and the room there are, past them is CBERR; the waiting forms wait for them with cause ENGINE; an undefined circular buffer, or a
count above its size, is CBERR in all four forms. -/
def Obligations.CircularBuffersDefineAndAdvance : Prop :=
  ∀ (s : State) (a b c : Reg) (n : BitVec 4), Clear s [a, b, c] →
    (∀ inC : Bool, Ready (.cbdef a b c inC n) s →
      let base := (val s a).toNat
      let size := (val s b).toNat
      let elem := (val s c).toNat
      let ok := base % 128 = 0 ∧ 0 < size ∧ 0 < elem ∧ elem ≤ 65536 ∧ elem ∣ size ∧
        base + size ≤ (if inC then 1048576 else 4194304) ∧ s.me.cbBusy n = false
      (ok → Acts (.cbdef a b c inC n) s fun k =>
        ((k.setCb n (some { inC := inC, base := base, size := size, elem := elem, prod := 0, cons := 0 })).push 1
          (.cbptr n false 0)).push 1 (.cbptr n true 0)) ∧
      (¬ ok → Stops (.cbdef a b c inC n) s .cberr)) ∧
    (∀ d : Cb, s.me.cb n = some d → (val s a).toNat ≤ d.size / d.elem →
      let m := (val s a).toNat * d.elem
      (Ready (.cbadvP a n) s → if d.occ + m ≤ d.size then Sends (.cbadvP a n) s 1 (.cbptr n false m)
        else Stops (.cbadvP a n) s .cberr) ∧
      (Ready (.cbadvC a n) s → if m ≤ d.occ then Sends (.cbadvC a n) s 1 (.cbptr n true m)
        else Stops (.cbadvC a n) s .cberr) ∧
      (Ready (.cbadvPW a n) s → if d.occ + m ≤ d.size then Acts (.cbadvPW a n) s id else Waits (.cbadvPW a n) s .engine) ∧
      (Ready (.cbadvCW a n) s → if m ≤ d.occ then Acts (.cbadvCW a n) s id else Waits (.cbadvCW a n) s .engine)) ∧
    ((s.me.cb n = none ∨ ∃ d : Cb, s.me.cb n = some d ∧ d.size / d.elem < (val s a).toNat) →
      (Ready (.cbadvP a n) s → Stops (.cbadvP a n) s .cberr) ∧ (Ready (.cbadvC a n) s → Stops (.cbadvC a n) s .cberr) ∧
      (Ready (.cbadvPW a n) s → Stops (.cbadvPW a n) s .cberr) ∧ (Ready (.cbadvCW a n) s → Stops (.cbadvCW a n) s .cberr))

/-- What R212 finds wrong with a buffer place as a copy's destination (`dst`) or source, and the cause: a space that may not be read,
or written, an area past its buffer; a circular buffer that is undefined or whose elements do not divide the length. -/
def PlaceBad (s : State) (dst : Bool) (p : Place) (n : Nat) : Cause → Prop
  | .perm => (∃ sp o, p = .at sp o ∧ (spaceSize sp < o + n ∨ sp = if dst then .c else .w)) ∨
      ∃ k b, p = .cb k ∧ s.me.cb k = some b ∧ dst = true ∧ b.inC = true
  | .cberr => ∃ k, p = .cb k ∧ (s.me.cb k = none ∨
      ∃ b, s.me.cb k = some b ∧ (dst && b.inC) = false ∧ (n % b.elem ≠ 0 ∨ b.size < n))
  | _ => False

/-- R197, R198, R200, R201, R212, R213: a copy whose places and length R212 admits joins the engine's queue with its tag, and
waits with cause ENGINE while 16 copies are queued; one longer than 2^24 - 1 bytes, or past the end of a buffer, raises PERM, and one
whose circular buffer is undefined, or whose elements do not divide its length, CBERR; a place or record with bits that must be 0 is
ILLOP; the stream of a `cpm` is queued with its copy, under power leave. -/
def Obligations.CopiesAreQueued : Prop :=
  ∀ (s : State) (a b c : Reg) (t : BitVec 6), Clear s [a, b, c] →
    (bufPlace (val s a) = none ∨ bufPlace (val s b) = none →
      (Ready (.cp a b c t) s → Stops (.cp a b c t) s .illop) ∧ (Ready (.cpm a b c t) s → Stops (.cpm a b c t) s .illop)) ∧
    (bufPlace (val s a) = none ∨ globPlace (val s b) = none → Ready (.cpg a b c t) s → Stops (.cpg a b c t) s .illop) ∧
    ∀ p q : Place, bufPlace (val s a) = some p →
    let n := (val s c).toNat
    (Ready (.cp a b c t) s → bufPlace (val s b) = some q →
      (n < 2 ^ 24 → placeFault s.me true p n = none → placeFault s.me false q n = none →
        if 16 ≤ s.me.eng.copies.length then Waits (.cp a b c t) s .engine
        else Acts (.cp a b c t) s fun k => k.addCopy 0x02 (.buf p) (.buf q) n t []) ∧
      (2 ^ 24 ≤ n → Stops (.cp a b c t) s .perm) ∧
      (∀ sp o, p = .at sp o → spaceSize sp < o + n → Stops (.cp a b c t) s .perm) ∧
      (∀ sp o, q = .at sp o → spaceSize sp < o + n → placeFault s.me true p n = none → Stops (.cp a b c t) s .perm) ∧
      (n < 2 ^ 24 → ∀ k, PlaceBad s true p n k → Stops (.cp a b c t) s k) ∧
      (n < 2 ^ 24 → ∀ k, placeFault s.me true p n = none → PlaceBad s false q n k → Stops (.cp a b c t) s k)) ∧
    (∀ (out : Bool) (w : BitVec 3) (off : Nat), Ready (.cpg a b c t) s → globPlace (val s b) = some (out, w, off) →
      (2 ^ 24 ≤ n → Stops (.cpg a b c t) s .perm) ∧
      (n < 2 ^ 24 → ∀ k, PlaceBad s (!out) p n k → Stops (.cpg a b c t) s k) ∧
      (n < 2 ^ 24 → placeFault s.me (!out) p n = none →
        if 16 ≤ s.me.eng.copies.length then Waits (.cpg a b c t) s .engine
        else Acts (.cpg a b c t) s fun k =>
          k.addCopy 0x03 (if out then .glob w off else .buf p) (if out then .buf p else .glob w off) n t [])) ∧
    (Ready (.cpm a b c t) s → bufPlace (val s b) = some q →
      (4194304 < n + 32 → Stops (.cpm a b c t) s .perm) ∧
      (n + 32 ≤ 4194304 →
        let r := s.me.bytes .a n 32
        let m := field r 0 8
        (2 ^ 24 ≤ m → Stops (.cpm a b c t) s .perm) ∧
        (m < 2 ^ 24 → ∀ k, PlaceBad s true p m k → Stops (.cpm a b c t) s k) ∧
        (m < 2 ^ 24 → placeFault s.me true p m = none → (∀ k, PlaceBad s false q m k → Stops (.cpm a b c t) s k) ∧
          (placeFault s.me false q m = none → cpmStream r = none → Stops (.cpm a b c t) s .illop)))) ∧
    (∀ (st : W64 × W64 × W64 × Option (BitVec 4)), Ready (.cpm a b c t) s → bufPlace (val s b) = some q →
      n + 32 ≤ 4194304 →
      let r := s.me.bytes .a n 32
      let m := field r 0 8
      m < 2 ^ 24 → placeFault s.me true p m = none → placeFault s.me false q m = none → cpmStream r = some st →
      StreamMayIssue s true st.1 st.2.1 st.2.2.1 st.2.2.2 →
      (16 ≤ s.me.eng.copies.length → Waits (.cpm a b c t) s .engine) ∧
      (s.me.eng.copies.length < 16 →
        ActsWithLeave (.cpm a b c t) s (s.me.eng.nextId + 1) (leaveOf 0x04 s st.1 m) fun k =>
          (k.addCopy 0x04 (.buf p) (.buf q) m t r).startStream st.1 st.2.1 st.2.2.1 st.2.2.2 (some k.eng.nextId) none))

/-- R182 to R188, R192 to R194, R198, R215, R235: with its leave an array command begins: a load, a stream, a chained stream;
leave comes in the cycle it is asked where the budget allows and no request is older, else the bundle asks once and waits; a swap
performs one cycle after its bundle and a clearing 2 + ⌈e / 128⌉. The size of a leave is open (DESIGN CHOICE log 3). -/
def Obligations.ArrayCommandsBegin : Prop :=
  ∀ (s : State) (a b c : Reg) (cbf : Bool) (n : BitVec 4), Clear s [a, b, c] →
    let x := val s a
    let y := val s b
    let z := val s c
    let cb := if cbf then some n else none
    (Ready (.mlds a b c) s → wOk z = true → wFits z x.toNat y.toNat = true → s.me.arrayRoom 0 = true →
      ActsWithLeave (.mlds a b c) s s.me.eng.nextId
        (Config.leave 0x05 (fdWidth (wFd z)) (if fdWidth (wFd z) = 16 then 1 else 0) 0) fun k => k.startLoad z x y) ∧
    (Ready (.mmul a b c cbf n) s → StreamMayIssue s true x y z cb →
      ActsWithLeave (.mmul a b c cbf n) s s.me.eng.nextId (leaveOf 0x07 s x 0) fun k =>
        k.startStream x y z cb none none) ∧
    (Ready (.mmulc a b c cbf n) s → StreamMayIssue s (s.me.num % 4 == 0) x y z cb →
      ActsWithLeave (.mmulc a b c cbf n) s s.me.eng.nextId (leaveOf 0x08 s x 0) fun k =>
        if s.me.num % 4 = 0 then k.startStream x y z cb none (some k.eng.arr.nchain) else k.startChained x y) ∧
    (Ready .mswap s → Sends .mswap s 1 .swap) ∧
    (Ready (.mclr a b) s → x.toNat / 128 * 128 + 8 * y.toNat + (y.toNat + 3) / 4 ≤ 1048576 → s.me.arrayRoom 0 = true →
      Acts (.mclr a b) s fun k =>
        (k.push (2 + (y.toNat + 127) / 128) (.mclr k.eng.nextId x.toNat y.toNat)).fresh)

/-- R184, R185, R188, R191: when a direct stream of `m` rows and `d` steps a row begins, its rows enter every `d` cycles and
the AX update of row `j` performs 552 + d (j + 1) cycles after its issue; when a load begins, its groups are read every 25
cycles and its plane is ready after 300, in a pair every 49 and after 588. That a group is read at the first cycle of its share is the
model's reading (DEDUCED log 38). -/
def Obligations.StreamsAndLoadsKeepTheirTimes : Prop :=
  ∀ (c : Core) (x y z : W64),
    let d := stepsOf (fdWidth (descAfd x)) c.eng.arr.active
    let m := descM x
    (c.startStream x y z none none none).flight = c.flight ++
      ((List.range (m - 1)).map fun j => flies (d * (j + 1)) (.enter c.eng.nextId (j + 1))) ++
      ((List.range m).map fun j => flies (552 + d * (j + 1)) (.axrow c.eng.nextId j)) ∧
    (let g := if fdWidth (wFd x) = 16 then 49 else 25
     (c.startLoad x y z).flight = c.flight ++
      ((List.range (kBlocks (wKw x) - 1)).map fun j => flies (g * (j + 1)) (.wgroup c.eng.nextId (j + 1))) ++
      [flies (12 * g) (.plane c.eng.nextId)])

/-- R25, R26, R216 to R219: `snd` takes its bytes and Δ to a tile or far tile that has fewer than 32 untaken messages from
it; `rcv` takes the oldest message of its source where its stamp agrees, gives the credit back, and the bytes land after 4
cycles; without a message it waits with cause RECV, with another stamp it raises TSMISMATCH; `msq` begins its program in the lowest
free slot, behind the requests that wait; a bit of s(a)[63:13] raises ILLOP (DESIGN CHOICE log 55). -/
def Obligations.MessagesAndSequencerRequests : Prop :=
  ∀ (s : State) (a b c : Reg), Clear s [a, b, c] →
    let x := val s a
    let y := (val s b).toNat
    let z := (val s c).toNat
    (∀ far : Bool, Ready (.snd a b c) s → s.me.delta.toNat < 2 ^ 26 → s.peer s.me x = some far → z ≤ 4096 →
      y + z ≤ 4194304 →
      if 32 ≤ s.me.sent x.toNat then Waits (.snd a b c) s .fabric
      else Acts (.snd a b c) s fun k =>
        (k.setSent x.toNat (k.sent x.toNat + 1)).request
          (.snd x.toNat far (BitVec.ofNat 26 s.me.delta.toNat) (k.bytes .a y z))) ∧
    (Ready (.snd a b c) s → 2 ^ 26 ≤ s.me.delta.toNat → Stops (.snd a b c) s .stamp) ∧
    (∀ (g : BitVec 6) (far : Bool), Ready (.rcv a b g) s → s.peer s.me x = some far →
      (s.me.eng.skid.find? (fun m => m.src == x.toNat) = none → Waits (.rcv a b g) s .recv) ∧
      (∀ m : Msg, s.me.eng.skid.find? (fun m => m.src == x.toNat) = some m →
        if (m.stamp.toNat : Int) ≠ immNat s.me.iss.ext g then Stops (.rcv a b g) s .tsmismatch
        else if 4194304 < y + m.bytes.length then Stops (.rcv a b g) s .perm
        else
          let t := s.done fun k =>
            ((k.onEng fun e => { e with skid := takeMsg x.toNat e.skid }).push 4
              (.rcvdata k.eng.nextId (leBytes 8 x.toNat ++ leBytes 8 y) (place y m.bytes))).fresh
          exec (.rcv a b g) s = .next (if far then t
            else t.onCore x.toNat fun k => k.setSent s.me.num (k.sent s.me.num - 1)))) ∧
    (let m := (s.die s.me.die).msq
     let inRegion := x.toNat < (m.region s.me.ctx).2
     (Ready (.msq a) s → 2 ^ 13 ≤ x.toNat → Stops (.msq a) s .illop) ∧
     (Ready (.msq a) s → x.toNat < 2 ^ 13 → ¬ inRegion → Stops (.msq a) s .perm) ∧
     (Ready (.msq a) s → x.toNat < 2 ^ 13 → inRegion → 16 ≤ m.wait.length → Waits (.msq a) s .engine) ∧
     (Ready (.msq a) s → x.toNat < 2 ^ 13 → inRegion → m.wait.length < 16 → ∃ m' : Msq,
       exec (.msq a) s = .next ((s.onDie s.me.die fun q => { q with msq := m' }).done Core.fresh) ∧
       m'.xfers = m.xfers ∧ m'.signals = m.signals ∧ m'.regions = m.regions ∧ m'.prog = m.prog ∧
       if m.wait = [] ∧ ∃ p ∈ m.slots.toList, p.busy = false then
         m'.wait = [] ∧ ∃ (k : Nat) (p : Slot), m.slots[k]? = some p ∧ p.busy = false ∧
           (∀ j < k, ∀ q, m.slots[j]? = some q → q.busy = true) ∧
           m'.slots = m.slots.setIfInBounds k
             { busy := true, num := m.nextId, key := s.me.eng.nextId, tile := s.me.num, ctx := s.me.ctx, first := x.toNat
               pc := x.toNat, ma := Vector.replicate 16 0, ms := Vector.replicate 16 0, mm := Vector.replicate 8 0
               cnt := Vector.replicate 4 0 }
       else m'.slots = m.slots ∧ m'.wait = m.wait ++ [(s.me.num, x.toNat, s.me.eng.nextId)]))

/-! ### Global words (R221 to R232) -/

/-- R53, R221, R222: a global access within its window whose pages are translated goes out as a request of its aligned
bytes, with the offset of its register; a load's result is due 64 · 2^CLASS cycles after issue. -/
def Obligations.GlobalLoadsAndStores : Prop :=
  ∀ (s : State) (d a : Reg) (w cls : BitVec 3) (va : Nat) (ps : List Piece), Clear s [a] →
    let x := (val s a).toNat
    (∀ sp : Bool, Ready (.ldg d a sp w cls) s → Within (s.me.win w) (x / 8 * 8) 8 va →
      translated s va 8 true false = .ok ps →
      Acts (.ldg d a sp w cls) s fun c =>
        requested (c.pushAwait (64 * 2 ^ cls.toNat) (.reply c.eng.nextId) (.sreg d 0 false 0))
          (.gload ps w x sp false)) ∧
    (∀ sp : Bool, Ready (.vldg d a sp w cls) s → Within (s.me.win w) (x / 4 * 4) 256 va →
      translated s va 256 true false = .ok ps →
      Acts (.vldg d a sp w cls) s fun c =>
        requested (c.pushAwait (64 * 2 ^ cls.toNat) (.reply c.eng.nextId) (.vreg d 0 0 0))
          (.gload ps w x sp true)) ∧
    (∀ z : Size, Ready (.stg d a z w) s → Clear s [d] →
      let n := sizeBytes z
      Within (s.me.win w) (x / n * n) n va → translated s va n false true = .ok ps →
      Acts (.stg d a z w) s fun c => requested c (.gstore ps w x (leBytes n (val s d).toNat))) ∧
    (Ready (.vstg d a w) s → VClear s [d] → Within (s.me.win w) (x / 4 * 4) 256 va →
      translated s va 256 false true = .ok ps →
      Acts (.vstg d a w) s fun c => requested c (.gstore ps w x (laneBytes 4 (s.me.v d).val)))

/-- R202, R222, R246, R256, R264: an offset outside its window is WINDOW, or under `.s` the poison code 18 at the due cycle; an
untranslated page is asked for and waited for with cause XLATE, a draining group with cause FABRIC; a page fault of a load
under `.s` is the poison code 15, and waits with cause XLATE while the replay queue is full. -/
def Obligations.GlobalAccessesThatDoNotGo : Prop :=
  ∀ (s : State) (d a : Reg) (w cls : BitVec 3), Clear s [a] →
    let x := (val s a).toNat
    let late := 64 * 2 ^ cls.toNat
    (∀ sp : Bool, Ready (.ldg d a sp w cls) s → Outside (s.me.win w) (x / 8 * 8) 8 →
      if sp then Acts (.ldg d a sp w cls) s fun c => { c.push late (.sreg d 0x18 true 0) with walk := .none }
      else Stops (.ldg d a sp w cls) s .window) ∧
    (∀ z : Size, Ready (.stg d a z w) s → Clear s [d] →
      Outside (s.me.win w) (x / sizeBytes z * sizeBytes z) (sizeBytes z) → Stops (.stg d a z w) s .window) ∧
    (∀ sp : Bool, Ready (.vldg d a sp w cls) s → Outside (s.me.win w) (x / 4 * 4) 256 →
      if sp then ∃ v, codeLanes 0x18 v ∧ Acts (.vldg d a sp w cls) s fun c =>
        { c.push late (.vreg d v (BitVec.allOnes 64) 0) with walk := .none }
      else Stops (.vldg d a sp w cls) s .window) ∧
    (Ready (.vstg d a w) s → VClear s [d] → Outside (s.me.win w) (x / 4 * 4) 256 → Stops (.vstg d a w) s .window) ∧
    (∀ (sp : Bool) (va v : Nat), Ready (.ldg d a sp w cls) s → Within (s.me.win w) (x / 8 * 8) 8 va →
      (translated s va 8 true false = .no .miss v →
        exec (.ldg d a sp w cls) s = .next
          (((s.askWalk s.me.die s.me.ctx v).onMe fun c => { c with walk := .wait v true false }).stall .xlat)) ∧
      (translated s va 8 true false = .no .drain v → Waits (.ldg d a sp w cls) s .fabric) ∧
      (translated s va 8 true false = .no .xlate v → s.replayFull s.me.die = true → Waits (.ldg d a sp w cls) s .xlat) ∧
      (translated s va 8 true false = .no .xlate v → s.replayFull s.me.die = false → sp = true →
        Acts (.ldg d a sp w cls) s fun c => { c.push late (.sreg d 0x15 true 0) with walk := .none }))

/-- R53, R223, R225, R226: an atomic goes out as a request and takes an entry at the end of the load queue, due 128, 512 or
8,192 cycles after issue by its scope; a seventeenth is LANDFULL; a reduction takes no entry; `lqpop` takes the oldest value
that is due, holds its cycle before, and raises LANDFULL on an empty queue. -/
def Obligations.AtomicsAndTheLoadQueue : Prop :=
  ∀ (s : State) (d a : Reg) (b : Bool) (w : BitVec 3) (sc : Scope) (op : AmoOp), Clear s [a, d] →
    let n := if b then 4 else 8
    let x := (val s a).toNat
    let o := x / n * n
    (Ready (.amo d a b w sc op) s → (op = .cas → Clear s [d + 1]) →
      (16 ≤ s.me.eng.lq.length → exec (.amo d a b w sc op) s = .next (s.landfull 2)) ∧
      (∀ va ps, s.me.eng.lq.length < 16 → Within (s.me.win w) o n va → translated s va n true true = .ok ps →
        Acts (.amo d a b w sc op) s fun c =>
          requested (c.onEng fun e => { e with
            lq := e.lq ++ [{ id := e.nextId, remain := scopeCycles sc, here := false, val := 0, fl := 0 }] })
            (.amo ps w x op b (val s d) (val s (d + 1))))) ∧
    (∀ va ps, Ready (.red d a b w sc op) s → Within (s.me.win w) o n va → translated s va n true true = .ok ps →
      Acts (.red d a b w sc op) s fun c => requested c (.red ps w x op b (val s d))) ∧
    (Ready (.lqpop d) s →
      (s.me.eng.lq = [] → exec (.lqpop d) s = .next (s.landfull 3)) ∧
      (∀ q r, s.me.eng.lq = q :: r →
        (0 < q.remain → exec (.lqpop d) s = .next (s.onMe Core.hold)) ∧
        (q.remain = 0 → q.here = false → Waits (.lqpop d) s .land) ∧
        (q.remain = 0 → q.here = true → Acts (.lqpop d) s fun c =>
          (c.onEng fun e => { e with lq := r }).push 1 (.sreg d q.val false q.fl))))

/-- R114, R144, R228: tag words wait for their tags with cause SYNC; the observed tags retire their copies from PIXC and raise the
flags kept for them with their bundle; `tagff` posts a signal two cycles later, or with the last store before it (DEDUCED log 54),
and waits with cause ENGINE at 255; `tagclr` clears its tag one cycle later, retires its copies, and loses the flags kept for it
(DEDUCED log 15). -/
def Obligations.TagsAndSignals : Prop :=
  ∀ (s : State) (t : BitVec 6) (a : Reg),
    let on := fun (t : BitVec 6) => s.me.spec.tagmap.getLsbD t.toNat
    (Ready (.tagw t) s → if on t then Acts (.tagw t) s fun c => c.observe (1 <<< t.toNat) else Waits (.tagw t) s .sync) ∧
    (Ready (.tagwa a) s → Clear s [a] →
      ((∀ k : BitVec 6, (val s a).getLsbD k.toNat = true → on k = true) →
        Acts (.tagwa a) s fun c => c.observe (val s a)) ∧
      (∀ k : BitVec 6, (val s a).getLsbD k.toNat = true → on k = false → Waits (.tagwa a) s .sync)) ∧
    (∀ (c : Core) (m : W64), (c.observe m).spec = c.spec ∧ (c.observe m).regs = c.regs ∧
      ((c.observe m).eng.unretired = c.eng.unretired.filter fun x => !m.getLsbD x.2.toNat) ∧
      (∀ e ∈ c.eng.lazyFl, m.getLsbD e.1.toNat = true → e.2 &&& ~~~(c.observe m).iss.fl = 0) ∧
      (c.observe m).eng.lazyFl = c.eng.lazyFl.filter fun x => !m.getLsbD x.1.toNat) ∧
    (Ready (.tagff t) s → if 255 ≤ (s.die s.me.die).msq.count s.me.num t +
        (s.me.flight.filter fun f => f.what = .signal t).length then Waits (.tagff t) s .engine
      else ∃ l, Sends (.tagff t) s l (.signal t) ∧ 2 ≤ l ∧
        (∀ f ∈ s.me.flight, ∀ u w q, f.what = .bstore u w q → f.remain ≤ l) ∧
        (l = 2 ∨ ∃ f ∈ s.me.flight, ∃ u w q, f.what = .bstore u w q ∧ f.remain = l)) ∧
    (Ready (.tagclr t) s → Acts (.tagclr t) s fun c => (c.onEng fun e => { e with
      unretired := e.unretired.filter fun x => x.2 != t
      lazyFl := e.lazyFl.filter fun x => x.1 != t }).push 1 (.tagset t false))

/-- R227, R229 to R231, R267, R277: fences and drains issue once what they cover has performed and wait with cause SYNC before; a
drain at module or pod scope merges the flags of window reductions one cycle later; a trigger posts its outbox once in a leg that
launches early, with the bytes as the anchor's trigger covers them (DEDUCED log 47); that `fence.acq` waits for atomics as it does for
loads is the model's reading (DEDUCED log 41). -/
def Obligations.FencesDrainsAndTriggers : Prop :=
  ∀ (s : State) (sc : Scope),
    (Ready (.drain sc) s → (StoresDone s s.me → Acts (.drain sc) s fun c =>
        if (sc = .module ∨ sc = .pod) ∧ c.eng.redFl ≠ 0 then
          (c.onEng fun e => { e with redFl := 0 }).push 1 (.flags c.eng.redFl) else c) ∧
      (¬ StoresDone s s.me → Waits (.drain sc) s .sync)) ∧
    (Ready (.fenceAcq sc) s → (LoadsDone s.me → Acts (.fenceAcq sc) s id) ∧
      (¬ LoadsDone s.me → Waits (.fenceAcq sc) s .sync)) ∧
    (Ready (.fenceRel sc) s → (AllDone s s.me → Acts (.fenceRel sc) s id) ∧
      (¬ AllDone s s.me → Waits (.fenceRel sc) s .sync)) ∧
    (Ready (.fenceSc sc) s → (AllDone s s.me → Acts (.fenceSc sc) s id) ∧
      (¬ AllDone s s.me → Waits (.fenceSc sc) s .sync)) ∧
    (Ready .trig s → Acts .trig s fun c =>
      if c.eng.trig || !s.earlyLeg c then c
      else (c.request (.trig (s.boxNow c) false)).onEng fun e => { e with trig := true })

/-- R232, R325: a collective whose record is legal and names a group of this core begins while fewer than 16 are queued and
its carriers are ready, and waits with cause ENGINE otherwise; a record past A, or of no group of the core, is PERM. Which fields
a legal record may hold is in part the model's reading (DEDUCED log 49). -/
def Obligations.CollectivesBegin : Prop :=
  ∀ (s : State) (a : Reg), Ready (.coll a) s → Clear s [a] →
    let x := (val s a).toNat / 64 * 64
    let r := s.me.bytes .a x 64
    (4194304 < x + 64 → Stops (.coll a) s .perm) ∧
    (x + 64 ≤ 4194304 → collOk r = false → Stops (.coll a) s .illop) ∧
    (x + 64 ≤ 4194304 → collOk r = true → (∀ g ∈ s.cgroups, g.num.toNat ≠ num s .a (x + 4) 4) → Stops (.coll a) s .perm) ∧
    (∀ g, x + 64 ≤ 4194304 → collOk r = true → s.collGroup r = some g → (∀ w ∈ g.entries, isSelf s.me w = false) →
      Stops (.coll a) s .perm) ∧
    (∀ g, x + 64 ≤ 4194304 → collOk r = true → s.collGroup r = some g → (∃ w ∈ g.entries, isSelf s.me w = true) →
      if s.me.eng.colls.length < 16 ∧ s.carried g = true then
        Acts (.coll a) s fun c => c.onEng fun e => { e with
          nextId := e.nextId + 1
          colls := e.colls ++ [{ id := e.nextId, record := r, steps := 0, fl := 0, gone := false, told := false }] }
      else Waits (.coll a) s .engine) ∧
    (∀ g, s.carried g = true ↔ ∀ (k : Nat) (w : W64), g.entries[k]? = some w →
      w.toNat / 2 ^ 30 % 1024 = Config.accel.toNat ∨ (let x := s.group (w.toNat / 2 ^ 43 % 32)
        x.carries = true ∧ (x.pers = 2 ∨ x.pers = 3) ∧
        (g.need.getD k 0 = 2 ∨ g.need.getD k 0 = 3 → x.pers = g.need.getD k 0)))

/-! ### System words (R93 to R107) -/

/-- R52, R53, R94, R303, R332, R343: `rdsr` writes each special register's value, as it stands at issue, one cycle later; a read
of PTCN latches the seconds; a steward also reads the system registers, TSTAT and PGSTAT among them with their fields. -/
def Obligations.SpecialRegistersAreRead : Prop :=
  ∀ (s : State) (d : Reg),
    (∀ p ∈ special s, Ready (.rdsr d p.1) s → Acts (.rdsr d p.1) s fun c =>
      (if p.1 = 0x40 then c.onSpec fun q => { q with ptcs := (s.die c.die).ptc.sec } else c).push 1 (.sreg d p.2 false 0)) ∧
    (∀ p ∈ stewardRegs s, Ready (.rdsr d p.1) s → Yields (.rdsr d p.1) s 1 d p.2) ∧
    (∀ p q, s.part p = some q → TstatIs q (s.tstat p)) ∧ ∀ g, PgstatIs s (s.group g) (s.pgstat g)

/-- R53, R87, R95, R317, R343: `wrsr` changes a loop register at once and skips the loop-end check, raises LOOPOVF for an LSD
above 6, and sends any other register its value one cycle later; there the register reads as what was written, reserved bits 0;
of the system registers a reservation mask takes a value that gives no slot to two stations, a write of TSTAT clears ERR, and a
write of PGCTL is the command it holds. -/
def Obligations.SpecialRegistersAreWritten : Prop :=
  (∀ (s : State) (a : Reg) (n : BitVec 16), Ready (.wrsr a n) s → Clear s [a] →
    if n = 0x50 ∧ 6 < (val s a).toNat then exec (.wrsr a n) s = .next (s.raiseLocal .loopovf 0)
    else if 0x50 ≤ n.toNat ∧ n.toNat ≤ 0x75 then ∃ f : Core → Core, Acts (.wrsr a n) s f ∧
      (f s.me).iss.skip = true ∧ (f s.me).regs = s.me.regs ∧ (f s.me).spec = s.me.spec ∧
      (n = 0x50 → (f s.me).loops = { s.me.loops with lsd := (val s a).setWidth 3 }) ∧
      ∀ k < 6, (n.toNat = 0x58 + k → (f s.me).level k = { s.me.level k with cnt := val s a }) ∧
        (n.toNat = 0x60 + k → (f s.me).level k = { s.me.level k with idx := val s a }) ∧
        (n.toNat = 0x68 + k → (f s.me).level k = { s.me.level k with beg := (val s a).setWidth 15 }) ∧
        (n.toNat = 0x70 + k → (f s.me).level k = { s.me.level k with fin := (val s a).setWidth 16 })
    else Sends (.wrsr a n) s 1 (.special n (val s a))) ∧
  (∀ (s : State) (v : W64),
    let write := fun (b k : Nat) => s.writeSpecial (BitVec.ofNat 16 (b + k)) v
    let after := fun (b k : Nat) => (write b k).readSr (b + k)
    (∀ p < 64, after 0x8140 p = v &&& 0x00FFFFFFFFFF0F01 ∧
      write 0x8100 p = if v.getLsbD 15 then s.onPart (BitVec.ofNat 6 p) fun q => { q with trav := { q.trav with err := false } }
        else s) ∧
    (∀ k < 128,
      let clash := ∃ e < 8, 16 * e + k % 16 ≠ k ∧ (s.ring.rsvm[16 * e + k % 16]?.getD 0) &&& v ≠ 0
      (¬ clash → after 0x8200 k = v) ∧
      (clash → write 0x8200 k = { s with ring := { s.ring with errs := s.ring.errs + 1 } })) ∧
    (∀ d < 8, after 0x8280 d = v ∧ (d < s.dies.length → after 0x8400 d = v &&& 0xFFFFFFFF)) ∧
    ∀ g : BitVec 5, g.toNat < 24 →
      (v = 0 → exec (.pgctlClear g) s = .next (write 0x8320 g.toNat)) ∧
      (v.getLsbD 7 = true → exec (.pgctlGo g v) s = .next (write 0x8320 g.toNat)) ∧
      (v ≠ 0 → v.getLsbD 7 = false → write 0x8320 g.toNat = s)) ∧
  ∀ (s : State) (v : W64),
    let after := fun (n : BitVec 16) => (s.writeSpecial n v).readSr n.toNat
    after 0x02 = v ∧ (∀ k < 8, after (BitVec.ofNat 16 (8 + k)) = v) ∧ after 0x10 = v ∧ after 0x20 = v &&& 0x01FF0007 ∧
    after 0x21 = v &&& 0x1FF ∧ after 0x22 = v ∧ after 0x23 = v ∧ after 0x24 = v ∧ after 0x25 = v ∧
    after 0x31 = v &&& 0x7FFF ∧ after 0x32 = v &&& 0x7FFF ∧
    ∀ k < 8, after (BitVec.ofNat 16 (0x80 + k)) = v ∧ after (BitVec.ofNat 16 (0x88 + k)) = v &&& 0x00FFFFFFFFFFFFFF ∧
      after (BitVec.ofNat 16 (0x90 + k)) = v &&& 0xFF

/-- R22, R28, R38, R42, R46, R52, R95, R343: a word that is not legal where it stands raises ILLOP, and one that touches a
register whose reply is late stalls with cause LAND. Not legal are: on a steward the words of the vector pipe, of buffers
and engines, and the `swap` of a tile; elsewhere the system registers and the `swap` of a steward; the module's registers
but on the primary steward; a write of a window by a tile and of a read-only register by anyone; registers that are none. -/
def Obligations.WordsThatMayNotIssue : Prop :=
  ∀ (s : State) (r : Reg) (n : BitVec 16),
    (∀ i, coreWord i = true → (legal i s.me = false → Stops i s .illop) ∧
      (legal i s.me = true → hazard i s.me = true → Waits i s .land)) ∧
    (∀ i, offSteward i = true → s.me.steward = true → Stops i s .illop) ∧
    (s.me.steward = false → 0x8000 ≤ n.toNat → Stops (.rdsr r n) s .illop ∧ Stops (.wrsr r n) s .illop) ∧
    (s.me.steward = false → 0x80 ≤ n.toNat → n.toNat ≤ 0x97 → Stops (.wrsr r n) s .illop) ∧
    (n.toNat ∈ [0x00, 0x01, 0x18, 0x19, 0x28, 0x29, 0x2A, 0x30, 0x38, 0x39, 0x40, 0x41, 0x48, 0x49, 0x4A] →
      Stops (.wrsr r n) s .illop) ∧
    (s.me.num ≠ 256 → 0x8140 ≤ n.toNat → Stops (.wrsr r n) s .illop) ∧
    (0x98 ≤ n.toNat → n.toNat < 0x8000 → Stops (.rdsr r n) s .illop ∧ Stops (.wrsr r n) s .illop) ∧
    (s.me.steward = true → Stops .swap s .illop) ∧ (s.me.steward = false → Stops (.swapSteward r) s .illop)

/-- R86, R87, R96 to R99, R103 to R105: a trap saves the cause with its code and the next address and goes to TRAPV, and without a
handler halts with ESCALATED; `tret` goes to TRAPPC; `stop` halts after its bundle, which makes the loop-end check; `swap` makes a
flip of the planes pending, on the steward of the partition its register names; that a larger number is ILLOP is the model's reading
(DEDUCED log 14). -/
def Obligations.TrapsStopsAndSwaps : Prop :=
  ∀ s : State,
    (∀ k : BitVec 8, Ready (.trap k) s →
      if s.me.spec.trapv.toNat % 4 = 3 then ∃ t, exec (.trap k) s = .next t ∧ t.me.run = .stopping ∧
        t.me.stop = some { mkStop .trapi s.me.iss.seq (k.setWidth 16) with escalated := true } ∧
        t.me.spec = s.me.spec ∧ t.me.regs = s.me.regs ∧ t.me.iss.next = some s.me.iss.seq
      else Acts (.trap k) s fun c => { c.jump c.spec.trapv with
        spec := { c.spec with trapc := BitVec.ofNat 64 (256 * k.toNat + 1), trappc := c.iss.seq }, fromTrap := true }) ∧
    (Ready .tret s → Acts .tret s fun c => c.jump c.spec.trappc) ∧
    (∀ k : BitVec 16, Ready (.stop k) s → ∃ t, exec (.stop k) s = .next t ∧ t.me.run = .stopping ∧
      t.me.stop = some (mkStop .stop s.me.iss.seq k) ∧ t.me.spec = s.me.spec ∧ t.me.regs = s.me.regs ∧
      t.me.iss.next = s.me.iss.next ∧ t.me.iss.skip = s.me.iss.skip) ∧
    (Ready .swap s → exec .swap s = .next ((s.onPart s.me.part fun q => { q with swp := true }).done id)) ∧
    (∀ a : Reg, Ready (.swapSteward a) s → Clear s [a] →
      if 64 ≤ (val s a).toNat then Stops (.swapSteward a) s .illop
      else exec (.swapSteward a) s = .next ((s.onPart ((val s a).setWidth 6) fun q => { q with swp := true }).done id))

/-- R103 to R105: a local cause enters the handler before its bundle, with TRAPC, TRAPPC and the next address as its only
changes; it halts the partition with ESCALATED where no handler is set, and where a poison or a loop overflow is met at the
first bundle after a trap. -/
def Obligations.LocalCausesEnterTheHandler : Prop :=
  ∀ (s : State) (k : Cause) (code : BitVec 8),
    let t := s.raiseLocal k code
    t.me.regs = s.me.regs ∧ t.me.loops = s.me.loops ∧ t.me.store = s.me.store ∧ t.me.eng = s.me.eng ∧
    t.me.flight = s.me.flight ∧ t.rest = s.rest ∧ t.mem = s.mem ∧ t.me.iss.verdict = .raised ∧
    if s.me.spec.trapv.toNat % 4 = 3 ∨ (s.me.fromTrap = true ∧ (k = .poison ∨ k = .loopovf)) then
      t.me.run = .stopping ∧ t.me.spec = s.me.spec ∧
      t.me.stop = some { mkStop k s.me.iss.start (code.setWidth 16) with escalated := true } ∧
      (s.me.steward = false → ∀ q, s.part s.me.part = some q → ∃ r, t.part s.me.part = some r ∧ r.halt = true)
    else
      t.me.spec = { s.me.spec with
        trapc := BitVec.ofNat 64 (256 * code.toNat + k.num), trappc := s.me.iss.start } ∧
      t.me.pc = s.me.spec.trapv ∧ t.me.run = s.me.run ∧ t.me.fromTrap = true ∧ t.parts = s.parts

/-- R106, R107: a partition cause stops its core before the bundle, with its cause and the bundle's address, and drives the
halt line of its partition; a steward, which belongs to none, does not (DEDUCED log 43); nothing else changes. -/
def Obligations.PartitionCausesStopTheTile : Prop :=
  ∀ (s : State) (k : Cause),
    let t := s.raise k
    t.me.run = .stopping ∧ t.me.stop = some (mkStop k s.me.iss.start 0) ∧ t.me.iss.verdict = .raised ∧
    t.me.regs = s.me.regs ∧ t.me.loops = s.me.loops ∧ t.me.spec = s.me.spec ∧ t.me.store = s.me.store ∧
    t.me.eng = s.me.eng ∧ t.me.flight = s.me.flight ∧ t.rest = s.rest ∧ t.mem = s.mem ∧ t.ring = s.ring ∧
    (s.me.steward = true → t.parts = s.parts) ∧
    (s.me.steward = false → ∀ q, s.part s.me.part = some q → ∃ r, t.part s.me.part = some r ∧ r.halt = true)

/-- R100, R101: `ckpt` asks for an image unless one is incomplete; `lsv` stores the loop stack, 64 bytes a level with LSD
in the first, two cycles later; `lrs` restores such an image at once, raises LOOPOVF where its LSD is above 6 and fires on
a poisoned byte. -/
def Obligations.CheckpointsAndLoopImages : Prop :=
  ∀ s : State,
    (∀ t : BitVec 6, Ready (.ckpt t) s →
      if s.me.ckpt = [] then Acts (.ckpt t) s fun c => { c with ckpt := [{ tag := t, image := none, saved := [] }] }
      else Waits (.ckpt t) s .misc) ∧
    (∀ (b : Reg) (off : BitVec 16), Clear s [b] →
      let a := imgAddr s b off
      (4194304 < a + 384 → (Ready (.lsv b off) s → Stops (.lsv b off) s .perm) ∧
        (Ready (.lrs b off) s → Stops (.lrs b off) s .perm)) ∧
      (a + 384 ≤ 4194304 → Ready (.lsv b off) s → ∃ bs : List Byte, bs.length = 384 ∧
        Sends (.lsv b off) s 2 (.bstore .a (place a bs) false) ∧
        leNat ((bs.drop 32).take 8) = s.me.loops.lsd.toNat ∧
        ∀ k < 6, leNat ((bs.drop (64 * k)).take 8) = (s.me.level k).cnt.toNat ∧
          leNat ((bs.drop (64 * k + 8)).take 8) = (s.me.level k).idx.toNat ∧
          leNat ((bs.drop (64 * k + 16)).take 8) = (s.me.level k).beg.toNat ∧
          leNat ((bs.drop (64 * k + 24)).take 8) = (s.me.level k).fin.toNat) ∧
      (a + 384 ≤ 4194304 → Ready (.lrs b off) s → (∃ y ∈ s.me.store.a.bad, a ≤ y ∧ y < a + 384) →
        ∃ y ∈ s.me.store.a.bad, a ≤ y ∧ y < a + 384 ∧ Fires (.lrs b off) s (BitVec.ofNat 8 (num s .a y 1))) ∧
      (a + 384 ≤ 4194304 → Ready (.lrs b off) s → (∀ y ∈ s.me.store.a.bad, y < a ∨ a + 384 ≤ y) →
        if 6 < num s .a (a + 32) 8 then exec (.lrs b off) s = .next (s.raiseLocal .loopovf 0)
        else ∃ l : Loops, l.lsd.toNat = num s .a (a + 32) 8 ∧ (∀ k (h : k < 6), l.lev[k] = imageLevel s a k) ∧
          Acts (.lrs b off) s fun c => { c with loops := l, iss := { c.iss with skip := true } }))

/-! ### Words of the memory sequencer (R47, R48, R218 to R220) -/

/-- R47, R48, R220: `xset` sets a register; `xlp` adds its stride to the offset of its address register and goes back until
its level has counted COUNT; `xwt` takes a signal, `xsg` sets a tag behind the program's transfers, both waiting till then;
`xend` ends the program, and the request that has waited longest takes its slot. The way an offset wraps, and the order of
causes, are the model's reading (DEDUCED log 17). -/
def Obligations.SequencerRegistersLoopsAndTags : Prop :=
  ∀ s : State,
    (∀ (i : BitVec 4) (v : BitVec 54),
      Seq (.xset 0 i v) s (Passes s fun x => { x with ma := x.ma.set i.toNat v }) ∧
      Seq (.xset 1 i v) s (Passes s fun x => { x with ms := x.ms.set i.toNat v }) ∧
      (i.toNat < 8 → Seq (.xset 2 i v) s (Passes s fun x => { x with mm := x.mm.setIfInBounds i.toNat (v.setWidth 32) }))) ∧
    (∀ (n : BitVec 16) (back : BitVec 12) (a st : BitVec 4) (l : BitVec 2),
      (s.slotNow.pc < s.slotNow.first + back.toNat → SeqStops (.xlp n back a st l) s .illop) ∧
      (s.slotNow.first + back.toNat ≤ s.slotNow.pc →
        ∃ f, Seq (.xlp n back a st l) s (s.onSlot f) ∧ ∀ x : Slot,
          (f x).ms = x.ms ∧ (f x).mm = x.mm ∧ (∀ k, k ≠ a.toNat → (f x).ma[k]? = x.ma[k]?) ∧
          ((f x).ma[a.toNat]).extractLsb' 51 3 = (x.ma[a.toNat]).extractLsb' 51 3 ∧
          ((f x).ma[a.toNat]).toNat % 2 ^ 51 = ((x.ma[a.toNat]).toNat + (x.ms[st.toNat]).toNat) % 2 ^ 51 ∧
          if (x.cnt[l.toNat] + 1).toNat < n.toNat then
            (f x).pc = x.pc - back.toNat ∧ (f x).cnt[l.toNat] = x.cnt[l.toNat] + 1
          else (f x).pc = x.pc + 1 ∧ (f x).cnt[l.toNat] = 0)) ∧
    (∀ (t : BitVec 5) (g : BitVec 6) (n : Nat), Mine s t.toNat n →
      let c := (s.die s.turnAt.1).msq.count n g
      (if c = 0 then Seq (.xwt t g) s s
        else Seq (.xwt t g) s (Passes (s.onDie s.turnAt.1 fun d => { d with msq := d.msq.setCount n g (c - 1) }) id)) ∧
      (if ∃ x ∈ (s.die s.turnAt.1).msq.xfers, x.prog = s.slotNow.num then Seq (.xsg t g) s s
        else Seq (.xsg t g) s (Passes (s.onCore n fun c =>
          { c with spec := { c.spec with tagmap := c.spec.tagmap ||| 1 <<< g.toNat } }) id))) ∧
    (∀ (t : BitVec 5) (g : BitVec 6), (¬ ∃ n, Mine s t.toNat n) → SeqStops (.xwt t g) s .perm ∧ SeqStops (.xsg t g) s .perm) ∧
    (let t := s.onSlot fun x => { x with busy := false }
     let d := s.turnAt.1
     ((s.die d).msq.wait = [] → Seq .xend s t) ∧
     (s.turnAt.2 < 8 → ∀ w r, (s.die d).msq.wait = w :: r → ∃ t', Seq .xend s t' ∧ t'.me = s.me ∧ t'.rest = s.rest ∧
       t'.mem = s.mem ∧ (t'.die d).msq.wait = r ∧ (t'.die d).msq.slot s.turnAt.2 =
         { busy := true, num := (s.die d).msq.nextId, key := w.2.2, tile := w.1, ctx := (s.core w.1).ctx, first := w.2.1, pc := w.2.1
           ma := Vector.replicate 16 0, ms := Vector.replicate 16 0, mm := Vector.replicate 8 0, cnt := Vector.replicate 4 0 }))

/-- R220, R251 to R253: a transfer of the sequencer whose tiles are its program's, whose bytes lie in their buffer and in
their window, begins and the next word follows; else the tile of the program stops with ILLOP, PERM or WINDOW, in this order
(DEDUCED log 17). -/
def Obligations.SequencerTransfersBegin : Prop :=
  ∀ (s : State) (r : BitVec 4) (space layout : BitVec 2) (tag : BitVec 6) (len : BitVec 16) (boff : BitVec 15),
    let p := s.slotNow
    let m := p.ma[r.toNat]
    let v := p.ms[15]
    let n := len.toNat
    let w := m.extractLsb' 51 3
    let off := m.toNat % 2 ^ 51 / 128 * 128
    let size := (codeSpace space).size
    let inWindow := ∃ va, Within ((s.core p.tile).win w) off (128 * n) va
    let x : Bool → List Nat → BitVec 2 → BitVec 54 → Xfer := fun out cores lay desc =>
      { id := 0, prog := p.num, slot := s.turnAt.2, write := out, tag := tag, cores := cores, space := space, boff := boff.toNat
        len := n, layout := lay, desc := desc, win := w, off := off, owner := p.tile, key := p.key, first := p.first, word := p.pc
        done := 0, stale := false, way := .home, got := [], out := none, fl := 0 }
    (∀ sel : BitVec 3,
      let mask := p.mm[sel.toNat]
      let tiles := (List.range 32).filter fun t => mask.getLsbD t
      let i := Instr.xrd r space layout tag len boff sel
      let shape := (layout = 1 → n % 32 = 0) ∧ (layout = 3 → n % 64 = 0) ∧ (layout = 2 → rbOk v n = true)
      let room := space ≠ 2 ∧ 128 * boff.toNat + seqSpan layout v n ≤ size ∧ ∀ t ∈ tiles, ∃ k, Mine s t k
      (¬ shape → SeqStops i s .illop) ∧ (shape → ¬ room → SeqStops i s .perm) ∧
      (shape → room → ¬ inWindow → SeqStops i s .window) ∧
      (shape → room → inWindow → Seq i s (begins s (x false (tiles.map fun t => 32 * s.turnAt.1 + t) layout v)))) ∧
    (∀ sel : BitVec 5,
      let i := Instr.xwr r space tag len boff sel
      let room := space ≠ 1 ∧ 128 * boff.toNat + 128 * n ≤ size
      ((¬ ∃ k, Mine s sel.toNat k) → SeqStops i s .perm) ∧
      ∀ k, Mine s sel.toNat k → (¬ room → SeqStops i s .perm) ∧ (room → ¬ inWindow → SeqStops i s .window) ∧
        (room → inWindow → Seq i s (begins s (x true [k] 0 0))))

/-! ### The other steps of the part -/

/-- R17, R19 to R22, R24, R28, R103, R145, R222, R316: the results that are due perform in a cycle that nothing keeps, and FPX is
taken for the lowest enabled flag they raise; below its stamp a held bundle is an empty one; a stall cycle is charged to the
lowest cause present and moves CYC and its counter alone; MISC, and ENGINE for an engine's result, may come where the state shows
no cause (DESIGN CHOICE log 59); a reply gives its bytes to the result that waits for it, from another die by its cells. -/
def Obligations.CyclesResultsAndReplies : Prop :=
  (∀ s : State, s.me.run = .running →
    let r := s.performDue
    let on := r.1.me.enabled r.2
    (s.mayPerform = true ↔ s.me.fault = none ∧ ∃ u, s.tryCycle = .commit u) ∧
    (s.mayPerform = false → Happens .resultPerforms s s) ∧
    (s.mayPerform = true → (on = 0 → Happens .resultPerforms s r.1) ∧
      ∀ k < 9, on.getLsbD k = true → (∀ j < k, on.getLsbD j = false) → r.1.me.run = .running →
        Happens .resultPerforms s ((r.1.onMe fun c => c.onIss fun i => { i with start := c.pc }).raiseLocal .fpx
          (BitVec.ofNat 8 k))) ∧
    (∀ u, s.tryCycle = .commit u → u.me.iss.verdict = .held →
      Happens .hold s (u.onMe fun c => { c with served := 0, iss := State.resetIss })) ∧
    (∀ j, s.me.fault = none → s.dueStall = some j → ∃ k u, s.tryCycle = .stall k u ∧ stallNum k ≤ stallNum j) ∧
    (∀ k u, s.tryCycle = .stall k u → Happens (.elasticStall k) s (s.stalled k u) ∧
      ∀ j, j ≠ k → Happens (.elasticStall j) s s) ∧
    (∀ u, s.tryCycle = .commit u → s.me.fault = none → Happens (.elasticStall .misc) s (s.stalled .misc s) ∧
      ∀ k, k ≠ .misc → k ≠ .engine → Happens (.elasticStall k) s s) ∧
    ∀ (k : StallCause) (u : State), let t := s.stalled k u
      t.me.spec.lt = s.me.spec.lt ∧ t.me.spec.cyc = s.me.spec.cyc + 1 ∧ t.me.regs = s.me.regs ∧ t.me.loops = s.me.loops ∧
      t.me.flight = s.me.flight ∧ t.me.store = s.me.store ∧ t.me.pc = s.me.pc ∧ t.me.spec.tagmap = s.me.spec.tagmap ∧
      t.mem = s.mem ∧ t.rest = s.rest ∧
      (∀ j < 8, t.me.spec.stallc[j]? = if j = stallNum k then (s.me.spec.stallc[j]?).map (· + 1) else s.me.spec.stallc[j]?) ∧
      t.me.spec.leavec = if k = .leave then s.me.spec.leavec + 1 else s.me.spec.leavec) ∧
  (∀ c : Core, c.hold.spec.lt = c.spec.lt + 1 ∧ c.hold.spec.cyc = c.spec.cyc + 1 ∧ c.hold.pc = c.pc ∧ c.hold.regs = c.regs) ∧
  (∀ (s : State) (n id : Nat) (r : Req),
    let c := s.core n
    (∀ p ps w o sp v, Reaches s n id r (p :: ps) → r.kind = .gload (p :: ps) w o sp v →
      let bs := s.readPieces c.ctx.toNat (c.win w).key.toNat (p :: ps)
      let fl := flIf (s.stalePieces (p :: ps)) flSTALE
      let cells := replies c r (p :: ps) bs
      Happens (.variableLatencyReply n id) s ((if cells = [] then (s.consumeCells c id).onCore n fun c => c.reply id bs fl
        else s.sendBack c id cells bs fl false).overGroups (p :: ps) r.kind.sends)) ∧
    (∀ bs fl w, c.req id = some r → r.kind = .back bs fl false w → s.inRing c id = false →
      Happens (.variableLatencyReply n id) s ((s.consumeCells c id).onCore n fun c => c.reply id bs fl))) ∧
  ∀ (c : Core) (id : Nat) (bs : List Byte) (fl : Fl), (c.reply id bs fl).spec = c.spec ∧
    (c.reply id bs fl).flight = c.flight.map fun f => if f.await = .reply id then
      { f with await := .no, what := match f.what with
        | .sreg d _ _ _ => .sreg d (BitVec.ofNat 64 (leNat bs)) false fl
        | .vreg d _ _ _ => .vreg d (vldVal 4 bs) 0 fl
        | x => x } else f

/-- R27, R92, R106 to R111, R115, R118: a driven halt line stops every tile of the context before its next bundle, with its own
cause where one is raised; its record, with CAUSE, FLAGS, CODE, NLQ, LSD, STOPADDR, LT, CYC, FRAME, FINFO and SYNCST in their places,
is written once all tiles of the partition are quiet; a release goes on at the stop
addresses; tiles that have drained post at their barrier, which releases them together where their release times agree and stops
those that differ with STAMP, 6 tile cycles after the last post on a die and 38 over dies; one that has halted stops the others.
A steward belongs to no partition (DEDUCED log 43); where a record stands in the shadow region, and what an idle tile records, are
the model's choices (DEDUCED log 20, DESIGN CHOICE log 55). -/
def Obligations.HaltLinesRecordsAndBarriers : Prop :=
  ∀ (s : State) (n : Nat),
    let c := s.core n
    (∀ p, s.part c.part = some p → p.halt = true → p.ctx = c.ctx → c.ctx ≠ 0 → c.steward = false → c.run ≠ .stopping →
      c.run ≠ .stopped →
      Happens (.haltLine n) s ((s.stopDue n).onCore n fun c => { c with
        run := .stopping, fault := none, iss := State.resetIss
        stop := some { c.fault.getD { mkStop (if p.haltPre then .preempt else .halted) c.pc 0 with faulting := false } with
          addr := c.pc, done := c.run == .halted || c.run == .idle, syncw := c.atBarrier.isSome, syncst := c.syncst } })) ∧
    (∀ p, c.run = .stopping → c.stop = some p →
      let q := s.finalStop c p
      let d := { c with run := .stopped, stop := some q, walk := .none, leave := .none }
      let quiet := ∀ k ∈ s.tiles c.part, (s.core k).quiet = true ∧ s.seqQuiet k = true
      (c.steward = true → c.settled = true → Happens (.stopRecord n) s (s.setCore n d)) ∧
      (c.steward = false → ¬ quiet → Happens (.stopRecord n) s s) ∧
      (c.steward = false → quiet → Happens (.stopRecord n) s ((((s.setCore n d).onDie c.die fun y =>
        { y with leaves := y.leaves.filter fun z => z.1 != n }).tileImage d q).ctxHalted c.part c.ctx))) ∧
    (∀ p, let b := (s.record c p).1
      let at' := fun o n => leNat ((b.drop o).take n)
      b.headD 0 = BitVec.ofNat 8 p.cause.num ∧
      (∀ k < 8, (b.getD 1 0).getLsbD k =
        [p.faulting, p.escalated, p.async, p.msq, p.done, p.syncw, p.final].getD k false) ∧
      at' 2 2 = p.code.toNat ∧ at' 6 1 = c.eng.lq.length % 256 ∧ at' 7 1 = c.loops.lsd.toNat ∧ at' 8 8 = p.addr.toNat ∧
      at' 16 8 = c.spec.lt.toNat ∧ at' 24 8 = c.spec.cyc.toNat ∧ at' 32 8 = c.spec.frame.toNat ∧
      at' 40 8 = p.finfo0.toNat ∧ at' 48 8 = p.finfo1.toNat ∧ at' 56 8 = p.syncst.toNat) ∧
    (∀ (seq : BitVec 32) (i : BitVec 16) (x : Ctx), s.host.task = .resume seq i → s.ctx i = some x →
      Happens (.contextRelease i) s (((s.release x.part x).setTask .none).answer seq 0 [])) ∧
    (∀ (k : Core) (p : Stop) (inRun : Bool), k.stop = some p → k.eng.colls = [] →
      let r := k.released inRun []
      r.pc = p.addr ∧ r.stop = none ∧ r.fault = k.fault ∧ r.regs = k.regs ∧ r.spec = k.spec ∧ r.loops = k.loops ∧
      r.flight = k.flight ∧ (p.done = false → p.syncw = false → r.run = .running) ∧
      (p.done = true → r.run = if inRun then .halted else .idle)) ∧
    (∀ sc, c.run = .barrier false sc →
      (AllDone s c → Happens (.syncPost n) s (s.onCore n fun c => { c.mergeRed sc with run := .barrier true sc, since := 0 })) ∧
      (¬ AllDone s c → Happens (.syncPost n) s s)) ∧
    (∀ sc p, c.run = .barrier true sc → s.part c.part = some p →
      let l := s.covered c sc
      let posted := fun k => (s.core k).run = .barrier true sc
      let cycles := if ∀ k ∈ l, k / 32 = l.headD 0 / 32 then 5 else 37
      let t := (s.core (l.headD n)).release
      (p.halt = true ∨ (∃ k ∈ l, ¬ posted k ∧ (s.core k).run ≠ .halted) ∨ (∃ k ∈ l, posted k ∧ (s.core k).since < cycles) →
        Happens (.barrierRelease n) s s) ∧
      (p.halt = false → (∀ k ∈ l, posted k ∧ cycles ≤ (s.core k).since) →
        ((∀ k ∈ l, (s.core k).release = t) →
          Happens (.barrierRelease n) s (l.foldl (fun s k => s.onCore k fun c => { c with run := .running }) s)) ∧
        ((∃ k ∈ l, (s.core k).release ≠ t) → Happens (.barrierRelease n) s
          ((l.filter fun k => (s.core k).release != t).foldl (fun s k => s.stampAt k) s))) ∧
      (p.halt = false → (∀ k ∈ l, (posted k ∧ cycles ≤ (s.core k).since) ∨ (s.core k).run = .halted) →
        (∃ k ∈ l, (s.core k).run = .halted) → Happens (.barrierRelease n) s
          ((l.filter fun k => (s.core k).run != .halted).foldl (fun s k => s.stampAt k) s)))

/-- R14, R231, R287 to R304: a waiting leg is charged and evaluated; a ready one starts on every tile; done, it moves the
cursor, the stash and the inbox; at the end of a done cycle the planes flip where a flip is pending and the next leg is
current, or the traverse ends; messages and returns, their cells delivered, and triggers move the counters, those of another module
where its steward has bound it and its group carries them; an error is cleared. The step that a die's ring crossing waits for is
the model's reading (DEDUCED log 61), and so is where the trace wraps and which drops it counts (DEDUCED log 21). -/
def Obligations.LegsOfTheTraverse : Prop :=
  ∀ (s : State) (p : BitVec 6) (q : Part), s.part p = some q →
    let t := q.trav
    (s.legsGo q = true → t.state = .wait → Happens (.legEvaluation p) s ((s.onTrav (.part p) Trav.charge).evalLeg p)) ∧
    (s.legsGo q = true → t.state = .done → ∀ l u, (s.flip p).trav (.part p) = some u →
      (u.cur = some l → Happens (.legEvaluation p) s ((s.flip p).evalLeg p)) ∧
      (u.cur = none → Happens (.legEvaluation p) s
        (((s.flip p).onTrav (.part p) fun t => { t with state := .fin }).endEvent p q.ctx))) ∧
    (∀ l, t.cur = some l →
      let u := s.unmetOf p t l
      s.evalLeg p = s.onTrav (.part p) (fun t =>
        { t.evalErr l with unmet := u, state := if u = 0 then .ready else .wait }) ∧
      u.getLsbD 1 = decide (l.w1 &&& ~~~(s.core (s.anchor p)).spec.tagmap ≠ 0) ∧
      u.getLsbD 3 = (l.push && decide (t.stlim ≤ t.stash.length)) ∧
      u.getLsbD 4 = (l.pop && decide (t.stash.head? ≠ some ((l.mb + t.lpc * l.step) % 1024)))) ∧
    (∀ l, t.cur = some l → q.live = true → t.state = .ready →
      Happens (.run p) s ((s.tiles p).foldl (fun s n => s.onCore n fun c => c.startLeg l.entry t)
        ((s.writeTrace p t l).onTrav (.part p) fun t => t.startLeg l))) ∧
    (∀ (c : Core) (a : IAddr), let d := c.startLeg a t
      d.run = .running ∧ d.pc = a ∧ d.spec.lt = 0 ∧ d.spec.frame = 0 ∧ d.loops.lsd = 0 ∧ d.spec.cyc = c.spec.cyc ∧
      d.regs = c.regs ∧ d.store = c.store ∧ d.spec.bubup = t.bubup ∧ d.spec.bubdn = t.bubdn ∧ d.spec.bubst = t.bubst) ∧
    (∀ l, t.cur = some l → q.live = true → t.state = .run → (∀ n ∈ s.tiles p, s.tileDone n = true) →
      s.sendRoom p (s.doneSends p t l) = true → ∃ x r, Happens (.done p) s x ∧ x.part p = some r ∧ r.trav.state = .done ∧
        r.trav.doneCyc = (s.core (s.anchor p)).spec.cyc ∧
        r.trav.stash = (if l.pop then (if l.push then t.stash ++ [t.mbOf l] else t.stash).drop 1
          else if l.push then t.stash ++ [t.mbOf l] else t.stash) ∧
        (l.rep = 0 → r.trav.cursor = t.cursor + 1 ∧ r.trav.lpc = t.lpc) ∧
        (l.rep ≠ 0 → t.lpc < l.rep → r.trav.cursor = l.loopTo ∧ r.trav.lpc = t.lpc + 1) ∧
        (l.rep ≠ 0 → l.rep ≤ t.lpc → r.trav.cursor = t.cursor + 1 ∧ r.trav.lpc = 0)) ∧
    (s.legsGo q = true → (t.state = .done ∨ t.state = .fin) → q.swp = true → q.shi = true → q.sht = true →
      Happens (.planeFlip p) s ((s.flip p).evalLeg p) ∧
      (s.flip p).part p = some { q with
        swp := false, shi := false, sht := false, trav := { t with plane := !t.plane, cursor := 0, lpc := 0 } }) ∧
    (q.swp = false ∨ q.shi = false ∨ q.sht = false → s.flip p = s) ∧
    (∀ fwd l m r, Head s p fwd false l m r →
      (s.viaOut m.via = true → Happens (.traverseMessage p fwd none) s s) ∧
      (s.viaOut m.via = false → Happens (.traverseMessage p fwd none) s
        (((s.viaTake m.via).onTrav l fun t => { t with arriving := r }).arrive l fwd m.bytes))) ∧
    (∀ fwd l f u, s.findTrav p (fun t => s.fromFar t fwd) = some l → s.trav l = some u →
      let g := u.carrier fwd
      Happens (.traverseMessage p fwd (some f)) s (s.enterIn g f.key (.msg p fwd ((s.group g).plain f.key f.bytes)))) ∧
    (∀ fwd f, s.findTrav p (fun t => s.fromFar t fwd) = none → Happens (.traverseMessage p fwd (some f)) s s) ∧
    (∀ u up, s.fromFar u up = true → u.isFar up = true ∧ s.ualOpen (u.carrier up) = true ∧
      if up then u.upMet = true ∧ u.upGone = false else u.dnMet = true ∧ u.dnGone = false) ∧
    (∀ (l : TLoc) (bs : List Byte) (u : Trav), s.trav l = some u →
      (u.inf < u.fins → s.arrive l true bs = (s.inboxWrite l (u.fibase + 128 * u.wrf) bs).onTrav l fun t =>
        { t with inf := t.inf + 1, wrf := (t.wrf + 1) % t.fins }) ∧
      (u.fins ≤ u.inf → s.arrive l true bs = s.onTrav l fun t => { t with err := true, errc := 2 })) ∧
    (∀ down l m r, Head s p (!down) true l m r →
      (s.viaOut m.via = true → Happens (.slotReturn p down none) s s) ∧
      (s.viaOut m.via = false → Happens (.slotReturn p down none) s ((s.viaTake m.via).onTrav l fun t =>
        if down then { t with arriving := r, freedn := t.freedn + 1 }
        else { t with arriving := r, freeup := t.freeup + 1 }))) ∧
    (∀ down l f u, s.findTrav p (fun t => s.fromFar t (!down)) = some l → s.trav l = some u →
      Happens (.slotReturn p down (some f)) s (s.enterIn (u.carrier (!down)) f.key (.ret p down))) ∧
    (∀ down f, s.findTrav p (fun t => s.fromFar t (!down)) = none → Happens (.slotReturn p down (some f)) s s) ∧
    (∀ n r b a, (s.core n).part = p →
        (s.core n).eng.reqs.find? (fun r => match r.kind with | .trig .. => true | _ => false) = some r →
        r.kind = .trig b a → s.trigReady (s.core n) r.id a = true → (t.cur.map LegW.early).getD false = false →
      Happens (.triggerPost n) s ((s.onCore n fun c => c.dropReq r.id).onTrav (.part p) fun u =>
        { u with ntrig := u.ntrig + 1, box := if (s.core n).rank = 0 then (if a then s.boxNow (s.core n) else b) else u.box })) ∧
    Happens (.tstatErrClear p) s (s.onPart p fun q => { q with trav := { q.trav with err := false } })

/-- R100, R119, R134, R184, R191, R195, R197, R213, R220, R251: the engines' completions: a copy all of whose bytes have
performed sets its tag and hands its stream over; a stream fires from its buffer; planes and rows perform at their cycle; a
transfer whose bursts from other dies have come moves the others and sets its tags; a checkpoint image reaches the context's
region, but for the block of a tile that has stopped, which holds its stop. -/
def Obligations.EnginesComplete : Prop :=
  ∀ (s : State) (n : Nat),
    let c := s.core n
    (∀ k r, c.eng.copies = k :: r → k.read = true → k.len ≤ k.done → k.way = .home → c.engines = true →
      (∀ q ∈ c.eng.inq, q.copy = false) →
      Happens (.copyComplete n) s (s.onCore n fun c =>
        let c1 := match k.dst with
          | .buf (.cb m) => c.movePtr m false k.len
          | _ => c
        (((c1.setTag k.tag).lazy k.tag (flIf k.stale flSTALE)).onEng fun e => { e with copies := e.copies.drop 1 }).openGate
          k.id)) ∧
    (∀ x m b, c.nextStream = some x → x.cb = some m → c.cb m = some b → c.engines = true →
      let held := c.reserved m b.elem
      held + descM x.desc * b.elem ≤ b.occ → Happens (.streamFire n) s (s.onCore n fun c =>
        c.onStream x.id fun y => { y with fired := true, data := c.recordRows b x held })) ∧
    (∀ t : State, t = (s.focus n).meetChain → t.performDue.1.me.enabled t.performDue.2 = 0 →
      (OnlyDue t n (fun w => ∃ l, w = .plane l) → Happens (.planeReady n) s t.performDue.1) ∧
      (OnlyDue t n (fun w => ∃ x j, w = .axrow x j) → Happens (.axUpdate n) s t.performDue.1)) ∧
    (∀ (d : BitVec 3) (id : Nat) (x : Xfer) (ps : List PAddr),
      (s.die d.toNat).msq.xfers.find? (fun x => x.id == id) = some x → s.seqLive x = true → x.way = .home →
      s.restOf x (min 1 (x.len - x.done)) = .ok ps →
      let moved := x.len ≤ x.done ∧ (x.layout = 0 ∨ x.len = 0 ∨ x.out = some [])
      (moved → Happens (.msqTransferComplete d id) s (s.seqFinish d.toNat x)) ∧
      (¬ moved → Happens (.msqTransferComplete d id) s s)) ∧
    (∀ (d : Nat) (x : Xfer), let t := s.seqFinish d x
      let waits := fun (k : Nat) => !x.write && (s.core k).eng.inq.any fun q => !q.copy
      x.cores.Nodup → (∀ k ∈ x.cores, k = s.me.num ∨ k < s.rest.length) → d < s.dies.length →
      (∀ k ∈ x.cores, t.core k = if waits k then s.core k
        else ((s.core k).setTag x.tag).lazy x.tag (x.fl ||| flIf x.stale flSTALE)) ∧ t.mem = s.mem ∧
      ((∀ k ∈ x.cores, waits k = false) →
        (t.die d).msq.xfers = (s.die d).msq.xfers.filter fun y => y.id != x.id) ∧
      ((∃ k ∈ x.cores, waits k = true) → (t.die d).msq.xfers = (s.die d).msq.xfers.map fun y =>
        if y.id = x.id then { y with cores := y.cores.filter waits } else y)) ∧
    (∀ (d id : Nat) (x : Xfer), (s.die d).msq.xfers.find? (fun x => x.id == id) = some x → x.way = .home → s.seqLive x = true →
      x.len ≤ x.done → s.moveBurst d id = s.seqConvert d x) ∧
    (∀ (d : Nat) (x : Xfer),
      (x.layout = 0 ∨ x.len = 0 → x.out = none → s.seqConvert d x = s) ∧
      (x.layout ≠ 0 → x.len ≠ 0 → x.out = none → let r := converted x.layout x.desc x.got
        s.seqConvert d x = s.onXfer d x.id fun y => { y with got := [], out := some (chunks 128 r.1.length r.1), fl := r.2 }) ∧
      (∀ w r, x.out = some (w :: r) →
        s.seqConvert d x = if ∀ k ∈ x.cores, ((s.core k).eng.inq.filter fun q => q.copy == false).length < 16
          then (s.deliver x w).onXfer d x.id fun y => { y with out := some r } else s)) ∧
    (∀ k r a, c.ckpt = k :: r → k.image = some a →
      (c.run ≠ .stopped → Happens (.ckptComplete n) s
        ((s.putImage c a).onCore n fun c => { c.setTag k.tag with ckpt := r, kept := c.run != .stopped })) ∧
      (c.run = .stopped → Happens (.ckptComplete n) s
        (s.onCore n fun c => { c.setTag k.tag with ckpt := r, kept := false }))) ∧
    (c.ctx ≠ 0 → c.steward = false → c.kept = false → c.ckpt = [] → c.run ≠ .stopped →
      Happens (.trickleCheckpoint n) s (s.putImage c c.toArch)) ∧
    (∀ (x : Ctx) (a : Arch), s.ctx c.ctx = some x → ∃ y, (s.putImage c a).ctx c.ctx = some y ∧
      y.images = x.images.set c.rank.toNat a)

/-- A code and its flags are what a floating-point addition at an atomic unit makes of two codes: rounded once by RNE, subnormals
exact (R224). -/
def Fadds (f : Fmt) (o v c : Nat) (fl : Fl) : Prop :=
  ∀ x y, Reads f true o x → Reads f true v y →
    ∃ k, Gives f .rne 0 true (Operand.plus false x y).1 c k ∧ fl = ivFl (Operand.plus false x y).2 ||| k

/-- R26, R223 to R227, R232, R261, R273 to R275, R307, R322, R323, R328 to R330, R335, R338, R354: what the fabric brings: a message
goes behind the untaken ones, that of a far tile under the number whose entry names its sender; an atomic reads its word, writes its
new value there alone, and returns the old, from another die by its cells; a contribution from outside its set is WINDOW; a collective
that has exchanged sets its tag, one that is abandoned is over for all; leave is granted oldest first within the budget; what comes in
over a group, under a key it knows, goes on to its unit, over the ring to another die (DEDUCED log 61), and accesses from outside reach
HBM4 through an active group alone, as the owner of each block (DEDUCED log 24). -/
def Obligations.FabricArrivals : Prop :=
  ∀ (s : State) (n id : Nat),
    let c := s.core n
    (∀ r dst st bs, c.req id = some r → r.kind = .snd dst false st bs → (c.firstSend dst false).map Req.id = some id →
      s.inRing c id = false → Happens (.messageArrival (.sent n id)) s
        (((s.consumeCells c id).onCore n fun c => c.dropReq id).intoSkid dst { src := n, far := false, stamp := st, bytes := bs })) ∧
    (∀ (key : Option Nat) (p : BitVec 6) (rank : BitVec 8) (src : BitVec 24) (st : BitVec 26) bs,
      let i := Instr.messageArrival (.far key p rank src st bs)
      (s.farFor p rank src = none → Happens i s (s.farLost p)) ∧
      ∀ w, s.farFor p rank src = some w →
        let g := w.toNat / 2 ^ 43 % 32
        Happens i s (if s.farReaches w then s.enterIn g key (.far p rank src st ((s.group g).plain key bs)) else s)) ∧
    (∀ (p : BitVec 6) (rank : BitVec 8) (src : BitVec 24) (st : BitVec 26) bs q w k, s.part p = some q →
      farFrom q.far src = some w → (s.tiles p)[rank.toNat]? = some k →
      let nr := w.toNat % 256
      let here := ((s.core k).eng.skid.filter fun m => m.far && m.src == nr).length
      s.farFor p rank src = some w ∧ s.farLand p rank src st bs = if here < 32 then
        some ((s.intoSkid k { src := nr, far := true, stamp := st, bytes := bs.take 4096 }).imageAgain k) else none) ∧
    (∀ (g : Nat) (key : Option Nat) (what : InAct),
      let x := s.group g
      let known := x.secure = false ∨ ∃ k, key = some k ∧ x.rx.knows k = true
      let m : InItem := { grp := g, tid := s.ring.tids, die := (s.inUnit g what).1, unit := (s.inUnit g what).2
                          back := none, what := what }
      (¬ known → s.enterIn g key what = s.badKey g) ∧ (known → s.ringRoom m.ask = false → s.enterIn g key what = s) ∧
      (known → m.ask = [] → (∀ y ∈ s.inbound, y.tid ≠ m.tid ∧ ¬ (y.grp = g ∧ y.die = m.die ∧ y.unit = m.unit ∧ y.back = none)) →
        s.under m.trip = false → s.enterIn g key what =
          ((({ s with ring := { s.ring with tids := (s.ring.tids + 1) % 65536 }, inbound := s.inbound ++ [m] } : State).onGroup
            g fun x => x.came key).absorb m.trip).inEffect m) ∧
      (x.state = .active → (x.pers = 1 ∨ x.pers = 2) → s.badKey g = s.onGroup g fun x => { x with retrain := true }) ∧
      (x.pers = 3 → s.badKey g = s)) ∧
    (∀ m : InItem, let u := s.dropIn m.tid
      (∀ p rank src st bs, m.what = .far p rank src st bs →
        (∀ t, s.farLand p rank src st bs = some t → s.inEffect m = t.dropIn m.tid) ∧
        (s.farLand p rank src st bs = none → s.inEffect m = s)) ∧
      (∀ p fwd bs l, m.what = .msg p fwd bs → s.findTrav p (fun t => t.meets fwd) = some l →
        s.inEffect m = u.arrive l fwd (padTo 128 bs)) ∧
      (∀ p down l, m.what = .ret p down → s.findTrav p (fun t => t.meets (!down)) = some l → s.inEffect m = u.onTrav l fun t =>
        if down then { t with freedn := t.freedn + 1 } else { t with freeup := t.freeup + 1 }) ∧
      (∀ r, m.what = .req r →
        (s.chansHold m.what.pieces = true → s.inEffect m = s.askReclaim m.what.pieces) ∧
        (s.chansHold m.what.pieces = false → s.ringRoom (m.answer [] ++ m.acks) = true →
          let y := s.performIn r
          m.answer y.2 = [] → s.inEffect m = ((y.1.dropIn m.tid).queueCells m.acks).replyOut m.grp (some y.2)))) ∧
    (∀ (pa n : Nat) bs en op b v v2,
      s.performIn (.cxlMemRead pa n) = (s, s.mem.bytes 0xFFFF 0 true pa n) ∧
      s.performIn (.cxlMemWrite pa bs en) = ({ s with mem := s.mem.hostWrite pa bs en }, []) ∧
      s.performIn (.ualRead pa n) = (s, s.mem.peerRead pa n) ∧
      s.performIn (.ualWrite pa bs en) = ({ s with mem := s.mem.peerWrite pa bs en }, []) ∧
      s.performIn (.ualAtomic op b pa v v2) = s.peerAtomic op b pa v v2) ∧
    (∀ (k : Core) (w : BitVec 3) (p : Piece) op (b : Bool) (v v2 : W64), p.n = (if b then 4 else 8) →
      let key := (k.win w).key.toNat
      let old := leNat (s.mem.bytes k.ctx.toNat key (s.encrypted p.pa) p.pa p.n)
      let r := amoNew op b old (v.toNat % 2 ^ (8 * p.n)) (v2.toNat % 2 ^ (8 * p.n))
      s.applyAtomic k w [p] op b v v2 = ({ s with mem := s.mem.write k.ctx.toNat key p.pa (leBytes p.n r.1) }, old,
        r.2 ||| flIf (s.stalePieces [p]) flSTALE)) ∧
    (∀ o v w : Nat, o < 2 ^ 32 → v < 2 ^ 32 →
      let x := amoNew .faddF32 true o v w
      let y := amoNew .faddBf16x2 true o v w
      Fadds fp32 o v x.1 x.2 ∧ ∃ a b, y.2 = a ||| b ∧ Fadds bf16 (o % 65536) (v % 65536) (y.1 % 65536) a ∧
        Fadds bf16 (o / 65536) (v / 65536) (y.1 / 65536) b) ∧
    (∀ r p ps w o op b v v2, Reaches s n id r (p :: ps) → r.kind = .amo (p :: ps) w o op b v v2 →
      let x := s.applyAtomic c w (p :: ps) op b v v2
      let old := amoOld op b x.2.1
      let cells := replies c r (p :: ps) (leBytes 8 old.toNat)
      Happens (.atomicOperation n id) s
        ((if cells = [] then (x.1.consumeCells c id).onCore n fun c => (c.dropReq id).fillLq id old x.2.2
          else x.1.sendBack c id cells (leBytes 8 old.toNat) x.2.2 true).overGroups (p :: ps) r.kind.sends)) ∧
    (∀ r bs fl w, c.req id = some r → r.kind = .back bs fl true w → s.inRing c id = false → Happens (.atomicOperation n id) s
      ((s.consumeCells c id).onCore n fun c => (c.dropReq id).fillLq id (BitVec.ofNat 64 (leNat bs)) fl)) ∧
    (∀ (b : Bool) (o v w : Nat), let m := if b then 32 else 64
      o < 2 ^ m → v < 2 ^ m → amoNew .add b o v w = ((o + v) % 2 ^ m, 0) ∧ amoNew .swap b o v w = (v, 0) ∧
      amoNew .cas b o v w = (if o = v then w else o, 0) ∧ amoNew .minn b o v w = (min o v, 0) ∧
      amoNew .maxn b o v w = (max o v, 0) ∧ (amoNew .and b o v w).1 = o &&& v ∧ (amoNew .or b o v w).1 = o ||| v ∧
      (amoNew .xor b o v w).1 = o ^^^ v ∧ sgn m (amoNew .min b o v w).1 = min (sgn m o) (sgn m v) ∧
      sgn m (amoNew .max b o v w).1 = max (sgn m o) (sgn m v) ∧
      (amoOld .add b o).toInt = sgn m o ∧ (amoOld .maxn b o).toNat = o) ∧
    (∀ r p ps w o op b v y, Reaches s n id r (p :: ps) → r.kind = .red (p :: ps) w o op b v → s.rwinAt p.pa = some y →
      let near := s.cellsOf c { r with kind := r.kind.setPieces (p :: ps) } = []
      let ov := fun (t : State) => t.overGroups (p :: ps) r.kind.sends
      (y.pset.getLsbD n = false → Happens (.reductionContribution n id) s (ov (s.onCore n fun c => c.reqFault id .window))) ∧
      (y.pset.getLsbD n = true → y.part = c.part → y.ctx = c.ctx → (near → s.mayOpen (p.pa / 2 ^ 37 % 8) p.pa = true) →
        Happens (.reductionContribution n id) s (ov (if s.closes y p.pa = true ∧ s.chansHold [{ pa := y.flagw, n := 8 }] = true
          then s.askReclaim [{ pa := y.flagw, n := 8 }] else s.contribute n id y w o p.pa op b v))) ∧
      (y.pset.getLsbD n = true → y.part = c.part → y.ctx = c.ctx → near → s.mayOpen (p.pa / 2 ^ 37 % 8) p.pa = false →
        Happens (.reductionContribution n id) s (ov s))) ∧
    (∀ k, c.eng.colls.find? (fun k => k.id == id) = some k → k.steps = 1 → c.run ≠ .stopped →
      Happens (.collComplete n id) s (s.onCore n fun c => c.collDone k)) ∧
    (∀ g : BitVec 32, let t := s.abandon g 0
      Happens (.collectiveAbandoned g) s t ∧ t.mem = s.mem ∧ (∀ x ∈ t.cruns, x.num ≠ g) ∧
      t.cgroups = (s.cgroups.map fun y => if y.num = g then { y with dead := true } else y) ∧
      (∀ m < 256, (s.core m).ctx ≠ 0 → ∀ k ∈ (t.core m).eng.colls, field k.record 4 4 = g.toNat → k.steps = 0 → k.gone = true) ∧
      ∀ x ∈ t.ctxs, x.id ≠ 0 → ∀ a ∈ x.images, ∀ k ∈ a.eng.colls, field k.record 4 4 = g.toNat → k.steps = 0 → k.gone = true) ∧
    (∀ (d : BitVec 3) k z r, (s.die d.toNat).leaves = (k, z) :: r →
      if (s.die d.toNat).pwruse.toNat + z.toNat ≤ (s.die d.toNat).pwrbud.toNat then
        Happens (.leaveGrant d) s ((s.onDie d.toNat fun d => { d with leaves := r, pwruse := d.pwruse + z }).onCore k fun c =>
          { c with leave := .granted })
      else Happens (.leaveGrant d) s s) ∧
    (∀ (d : BitVec 3) b, b.toNat < (s.die d.toNat).pwrbud.toNat →
      Happens (.thermalLimit d b) s (s.onDie d.toNat fun d => { d with pwrbud := b })) ∧
    (∀ (g : BitVec 5) pa bs en op b v v2 m, g.toNat < 24 →
      let x := s.group g.toNat
      let at' := fun (r : Inbound) (t : State) => Happens (.inboundRequest g r) s t
      let goes := fun (r : Inbound) => at' r (s.enterIn g.toNat none (.req r))
      let cxl := [Inbound.cxlMemRead pa m, .cxlMemWrite pa bs en]
      let ual := [Inbound.ualRead pa m, .ualWrite pa bs en, .ualAtomic op b pa v v2]
      let away := x.state = .draining ∨ x.state = .quiesced ∨ x.state = .retraining ∨ x.state = .mapping
      (x.secure = false →
        (x.upstream = true → x.keyless = false → (∀ r ∈ cxl, goes r) ∧ ∀ v : BitVec 32, at' (.cxlIo (some v))
          (s.onHost fun h => { h with evtail := v, mbox := memWrite h.mbox 0x1004 (leBytes 4 v.toNat) })) ∧
        (x.upstream = false → at' (.cxlMemWrite pa bs en) s) ∧
        (x.pers = 1 → x.role = 0 → away → at' (.cxlMemRead pa m) (s.replyOut g.toNat none) ∧
          ∀ v, at' (.cxlIo v) (s.replyOut g.toNat none)) ∧
        (x.pers = 2 → x.state = .active → x.keyless = false → ∀ r ∈ ual, goes r) ∧
        (x.state ≠ .active → ∀ r ∈ ual, at' r s)) ∧
      (x.secure = true → ∀ r ∈ cxl ++ ual, at' r (s.badKey g.toNat) ∧
        ∀ k, x.rx.knows k = false → at' (.keyed k r) (s.badKey g.toNat)) ∧
      (∀ k, x.secure = true → x.rx.knows k = true → x.pers = 2 → x.state = .active → x.keyless = false →
        at' (.keyed k (.ualWrite pa bs en))
          (s.enterIn g.toNat (some k) (.req (.ualWrite pa (Config.decipher (x.rx.slot k) k bs) en)))))

/-- R121, R245 to R247, R250, R255, R257 to R259, R261: a walk fills the translation buffers for all who wait for its page, or is
their page fault; an invalidation waits for the open accesses and leaves no entry of its range; a page moves with its contents;
a channel without work lends its lanes and has them back; an elided region reads as unwritten; errors are corrected and counted, or
end the context that owns the place, which costs a timed access of a running core a stall. The key of a page outside HBM4 and the tile
that a scrubber's finding is charged to are the model's reading (DEDUCED logs 25, 26), what becomes of the frame a page leaves and of
the tags of an elided region its choice (DESIGN CHOICE log 65). -/
def Obligations.MemorySystemSteps : Prop :=
  ∀ s : State,
    (∀ n x page, s.walkOf n = some (x, page) →
      let c := s.core n
      let d := s.die c.die
      let reads := s.walkReads c.die (x, page)
      let found := s.lookup c.die x (65536 * page)
      let waits := fun (k : Core) => k.die = c.die ∧ k.ctx = x ∧ ∃ va rd wr, k.walk = .wait va rd wr ∧ va / 65536 = page
      ((x, page) ∉ d.walks.take 64 → Happens (.pageWalk n) s s) ∧
      ((x, page) ∈ d.walks.take 64 → s.chansHold reads = true → Happens (.pageWalk n) s (s.askReclaim reads)) ∧
      ((x, page) ∈ d.walks.take 64 → s.chansHold reads = false →
        (found = none → ∃ t, Happens (.pageWalk n) s t ∧ t.mem = s.mem ∧ (x, page) ∉ (t.die c.die).walks ∧
          ∀ m < 264, ∀ va rd wr, waits (s.core m) → (s.core m).walk = .wait va rd wr → (t.core m).walk = .fault va rd wr) ∧
        ∀ e b, found = some (e, b) →
          (pteMig e = true → Happens (.pageWalk n) s s) ∧
          (pteMig e = false → ∃ t, Happens (.pageWalk n) s t ∧ t.mem = s.mem ∧ (x, page) ∉ (t.die c.die).walks ∧
            (∀ m < 264, waits (s.core m) → t.core m = { (s.core m).fillTlb (65536 * page) e b with walk := .none }) ∧
            (s.dieTlb c.die x (65536 * page) = none →
              (t.die c.die).tlb = (d.fillTlb x (65536 * page) e b).tlb)))) ∧
    (∀ (x : BitVec 16) (va z : Nat),
      (s.openIn x va (va + z) = true → Happens (.invalidation x va z) s s) ∧
      (s.openIn x va (va + z) = false → ∃ t, Happens (.invalidation x va z) s t ∧ t.mem = s.mem ∧
        (∀ e ∈ t.me.utlb, e.hits x va (va + z) = false) ∧
        (∀ k ∈ t.rest, ∀ e ∈ k.utlb, e.hits x va (va + z) = false) ∧
        ∀ d ∈ t.dies, ∀ e ∈ d.tlb, e.hits x va (va + z) = false)) ∧
    (∀ (i : BitVec 16) (va frame tier : Nat) (x : Ctx) (a : PAddr), s.ctx i = some x → s.mem.leafAt va 5 0 x.root = some a →
      let e := s.mem.entry a
      let page := va / 65536
      (pteMig e = false → s.pinned (ptePa e) = false → frame % 65536 = 0 → s.frameTier frame = some tier →
        ptePa e ≠ frame → Happens (.migration i va frame) s
          ((({ s with mem := s.mem.setEntry a (e ||| 0x20) } : State).onDie (pageDie (ptePa e)) fun d =>
            { d with mig := d.mig ++ [(⟨i, page, frame, tier⟩ : Mig)] }).dropTlb i (65536 * page) (65536 * page + 65536))) ∧
      (∀ y, s.moving64 i page = some y → s.openIn i (65536 * page) (65536 * page + 65536) = false →
        ∃ t, Happens (.migrationRelease i va) s t ∧ t.me = s.me ∧ t.rest = s.rest ∧
          t.mem = (s.mem.movePage i.toNat (x.keyAt (65536 * page)) (ptePa e) y.frame).setEntry a (newLeaf e y.frame y.tier) ∧
          ∀ d ∈ t.dies, ∀ z ∈ d.mig, ¬ (z.ctx = i ∧ z.page = page)) ∧
      (s.openIn i (65536 * page) (65536 * page + 65536) = true → Happens (.migrationRelease i va) s s)) ∧
    (∀ (d : BitVec 3) (k : BitVec 6),
      let q := s.die d.toNat
      let pair := if k.toNat % 2 = 0 then k.toNat + 1 else k.toNat - 1
      let put := fun (v : Chan) => s.onDie d.toNat fun d => { d with chans := d.chans.setIfInBounds k.toNat v }
      (q.chan k.toNat = .normal → q.chan pair = .normal → s.chanWork d.toNat k.toNat = false →
        Happens (.channelLending d k) s (put .lend)) ∧
      (q.chan k.toNat = .normal → (q.chan pair ≠ .normal ∨ s.chanWork d.toNat k.toNat = true) →
        Happens (.channelLending d k) s s) ∧
      (q.chan k.toNat = .lend → Happens (.channelLending d k) s (put .lending)) ∧
      (q.chan k.toNat = .reclaim → Happens (.reclaim d k) s (put .normal)) ∧
      (q.chan k.toNat ≠ .reclaim → Happens (.reclaim d k) s s)) ∧
    (∀ r : Nat, r < 2 ^ 15 → r ∉ s.mem.dead → s.mem.wf = true → ∃ t, Happens (.refreshElision r) s t ∧
      t.mem.dead = s.mem.dead ++ [r] ∧ t.me = s.me ∧
      ∀ a, look 0 t.mem.cells a = if a / 2 ^ 25 = r then 0 else look 0 s.mem.cells a) ∧
    (∀ (p : EccPlace) (n : Nat),
      let c := s.core n
      let d := s.eccDie p
      let late := fun (t : State) => t.eccLate n p
      let f := s.focus n
      (f.me.run ≠ .running ∨ f.me.fault.isSome = true ∨ f.timedAccess p = false → late s = s) ∧
      (f.me.run = .running → f.me.fault = none → f.timedAccess p = true →
        (∀ k u, f.tryCycle = .stall k u → late s = f.stalled k u) ∧
        (∀ u, f.tryCycle = .commit u → late s = f.stalled .misc f)) ∧
      (s.eccDead p = true → Happens (.scrub p .double true) s s ∧ Happens (.ueccRetry n p .lasting) s s) ∧
      (s.eccDead p = false →
        Happens (.scrub p .single false) s (s.onDie d fun d => { d with corrected := d.corrected + 1 }) ∧
        Happens (.scrub p .double false) s (s.onDie d fun d => { d with transient := d.transient + 1 }) ∧
        Happens (.scrub p .double true) s (s.eccEnds (s.eccOwner p 0) (s.scrubTile p (s.eccOwner p 0)) (mkStop .uecc 0 0)) ∧
        Happens (.scrub p .none false) s s ∧
        (s.eccOwner p c.ctx ≠ c.ctx.toNat → ∀ f, Happens (.ueccRetry n p f) s s) ∧
        (s.eccOwner p c.ctx = c.ctx.toNat →
          Happens (.ueccRetry n p .corrected) s (late (s.onDie d fun d => { d with corrected := d.corrected + 1 })) ∧
          Happens (.ueccRetry n p .transient) s (late (s.onDie d fun d => { d with transient := d.transient + 1 })) ∧
          Happens (.ueccRetry n p .lasting) s ((s.onCore n fun c => c.loseAccess p).eccEnds c.ctx.toNat n (s.eccMet c p)))))

/-- R313 to R320, R323: a cell enters the empty slot that passes its station, one reserved for it or one it owns or its owner left;
it leaves at its destination in the order of its flow, where its unit has room; refused, it circles once more before its source
takes it back, to go again ahead of what waits but behind the earlier cells of its flow; a mask that would give a slot to two stations is rejected and counted, and a mask takes effect slot by slot; a cell
with a reserved unit or kind is discarded and counted. What a slot's owner is before its first revolution is the model's reading
(DEDUCED log 60), as is which unit a cell waits for (DEDUCED log 61). -/
def Obligations.CellsOfTheRing : Prop :=
  ∀ (s : State) (w : Bool) (st p : BitVec 3),
    let d := p.toNat
    let k := s.slotAt w d
    let t := (s.die d).station
    let mask := fun e => (s.ring.live[rsvIdx e w st]?.getD 0).getLsbD k.toNat
    let free := s.ring.cell w st k = none ∧ (w, st, k) ∉ s.ring.freed
    (k.toNat = (if w then s.wall + 8 * d else s.wall + 512 - 8 * d) % 64) ∧
    (free → (∀ e < 8, e ≠ d → mask e = false) → (mask d = true ∨ s.ring.mayUse w st d s.wall = true) → ∀ c r,
      takeCell (fun c => !mask d || (s.ring.livef[d]?.getD 0).getLsbD c.sunit.toNat) w st t.egress = some (c, r) →
      Happens (.cellInsert w st p) s
        (({ s with ring := s.ring.setCell w st k (some { c with born := s.wall }) } : State).onDie d fun q =>
          { q with station := { q.station with
            egress := r, unconf := q.station.unconf ++ [((w, st, k), { c with born := s.wall })] } })) ∧
    ((¬ free ∨ (∃ e < 8, e ≠ d ∧ mask e = true) ∨ mask d = false ∧ s.ring.mayUse w st d s.wall = false) →
      Happens (.cellInsert w st p) s s) ∧
    (slotOwner k.toNat s.wall = some d → s.ring.mayUse w st d s.wall = true) ∧
    (∀ o < 8, slotOwner k.toNat s.wall = some o → k.toNat ≤ s.wall ∧ o = (k.toNat + (s.wall - k.toNat) / 64) % 8) ∧
    (∀ c, s.ring.cell w st k = some c →
      let left := c.dstr &&& ~~~((1 : BitVec 8) <<< d)
      let gone := s.ring.setCell w st k (if left = 0 then none else some { c with dstr := left })
      let l := s.tidy d
      let full := (l.filter fun e => e.1 == w && e.2.1 == st && e.2.2.dunit == c.dunit).length
      let room := if c.again then 32 else 28
      (c.dstr.getLsbD d = true → c.reserved = true → Happens (.cellDelivery w st p false) s
        { s with ring := { gone with errs := s.ring.errs + 1 } }) ∧
      (c.dstr.getLsbD d = true → c.reserved = false → full < room → flowGet t.expect (c.flow w st) = c.seq →
        s.roundsFull d c = false → Happens (.cellDelivery w st p false) s
          (({ s with ring := gone } : State).onDie d fun q => { q with station := { q.station with
            ingress := if s.wanted c then l ++ [(w, st, c)] else l
            expect := flowSet q.station.expect (c.flow w st) (c.seq + 1) } })) ∧
      ((c.dstr.getLsbD d = false ∨ c.reserved = false ∧ (room ≤ full ∨ flowGet t.expect (c.flow w st) ≠ c.seq ∨
          s.roundsFull d c = true)) → Happens (.cellDelivery w st p false) s s) ∧
      Happens (.cellDelivery w st p true) s s ∧
      (let u := s.onDie d fun q => { q with station := q.station.confirm w st k (some c) s.wall }
       ((c.sdie.toNat ≠ d ∨ s.wall ≤ c.born) → Happens (.cellReturn w st p) s u) ∧
       (c.sdie.toNat = d → c.born < s.wall → c.again = false → Happens (.cellReturn w st p) s
         { u with ring := s.ring.setCell w st k (some { c with again := true, born := s.wall }) }) ∧
       (c.sdie.toNat = d → c.born < s.wall → c.again = true → ∃ v, Happens (.cellReturn w st p) s v ∧
         v.ring = s.ring.setCell w st k none ∧
         (d < s.dies.length →
           let earlier := fun (e : Bool × BitVec 3 × RCell) => e.2.2.flow e.1 e.2.1 = c.flow w st ∧
             0 < (c.seq - e.2.2.seq).toNat ∧ (c.seq - e.2.2.seq).toNat < 32
           ∃ l r, t.egress = l ++ r ∧ (v.die d).station.egress = l ++ (w, st, { c with again := false }) :: r ∧
             (∀ e ∈ r, ¬ earlier e) ∧ ∀ e, l.getLast? = some e → earlier e)))) ∧
    (∀ (x : Option RCell) (e : (Bool × BitVec 3 × BitVec 6) × RCell), e ∈ (t.confirm w st k x s.wall).unconf ↔
      e ∈ t.unconf ∧ (e.1 = (w, st, k) → s.wall ≤ e.2.born ∨
        ∃ y, x = some y ∧ y.flow w st = e.2.flow w st ∧ y.seq = e.2.seq)) ∧
    (∀ (i : BitVec 7) (v : W64),
      ((∃ e < 8, 16 * e + i.toNat % 16 ≠ i.toNat ∧ (s.ring.rsvm[16 * e + i.toNat % 16]?.getD 0) &&& v ≠ 0) →
        Happens (.rsvmWrite i v) s { s with ring := { s.ring with errs := s.ring.errs + 1 } }) ∧
      ((∀ e < 8, 16 * e + i.toNat % 16 ≠ i.toNat → (s.ring.rsvm[16 * e + i.toNat % 16]?.getD 0) &&& v = 0) →
        Happens (.rsvmWrite i v) s { s with ring := { s.ring with rsvm := s.ring.rsvm.setIfInBounds i.toNat v } })) ∧
    (∀ (i : Nat) (h : i < 128) (b : Nat), b < 64 → ((s.ring.masks s.wall)[i]'h).getLsbD b =
      if b = (passing (i / 8 % 2 == 1) (i / 16) s.wall).toNat then (s.ring.rsvm[i]'h).getLsbD b
      else (s.ring.live[i]'h).getLsbD b)

/-- R333 to R342: a switch of a port group and of those that switch with it is rejected with ERRC 3, or drains what is active and
trains the rest; drained, they are quiesced together, and a time-out ends what is open over them, tiles' accesses, copies and transfers,
with WINDOW and ERRC 1 (that an S = 1 load counts among them, and the rate's resolution: DESIGN CHOICE log 65); training ends in
MAPPING, which raises MAPGEN, or in FAILED with ERRC 2; link keys rotate, the old key held until all sent under it is acknowledged;
the clocks follow the Syncs of the timing port and step back only on an empty module. What a switched pair becomes is the model's
reading where R327 is silent (DEDUCED log 44), the rate of a servo a free operand (DESIGN CHOICE log 53). -/
def Obligations.PortsKeysAndClocks : Prop :=
  (∀ (s : State) (g : BitVec 5) (v : W64), g.toNat < 24 →
    let x := s.group g.toNat
    let team := s.goTeam g.toNat v
    let gs := s.moving g.toNat
    (x.bond = false → ctlBond v = false → team = [g.toNat]) ∧
    (v.getLsbD 7 = true →
      (s.goBad g.toNat v = true → Happens (.pgctlGo g v) s (s.onGroup g.toNat fun x => { x with err := true, errc := 3 })) ∧
      (s.goBad g.toNat v = false → Happens (.pgctlGo g v) s (team.foldl (fun t k => t.onGroup k fun x => { x with
        tgt := v, team := team, retrain := false, state := if x.state = .active then .draining else .retraining }) s))) ∧
    ((v.extractLsb' 14 50 ≠ 0 ∨ (x.state ≠ .active ∧ x.state ≠ .off ∧ x.state ≠ .failed) ∨
        (x.state = .active ∧ x.pers = v.extractLsb' 4 2 ∧ x.role = v.extractLsb' 2 2) ∨
        (v.getLsbD 6 = false ∧ x.upstream = true ∧ ∀ k < 24, k ∉ team → (s.group k).upstream = false)) →
      s.goBad g.toNat v = true) ∧
    Happens (.pgctlClear g) s (s.onGroup g.toNat fun x => { x with err := false, errc := 0 }) ∧
    ((∀ k ∈ gs, (s.group k).state = .draining ∧ s.drainDone k = true) →
      Happens (.quiesced g) s (gs.foldl (fun s k => s.quiesce k) s)) ∧
    ((∃ k ∈ gs, (s.group k).state ≠ .draining ∨ s.drainDone k = false) → Happens (.quiesced g) s s) ∧
    (x.tgt.extractLsb' 4 2 = 2 → s.quiesce g.toNat = s.onGroup g.toNat fun x => { x with
      state := .quiesced, tx := State.noKey, rx := State.noKey }) ∧
    (x.state = .draining → (∃ k ∈ gs, s.opens k = true) → Happens (.drainTimeout g) s
      (gs.foldl (fun s k => ((List.range 8).foldl (fun s d => s.seqDrainOut d k) (s.onCores fun c => c.drainOut k)).onGroup k
        fun x => { x with err := true, errc := 1 }) s)) ∧
    ((∀ k ∈ gs, s.opens k = false) → Happens (.drainTimeout g) s s) ∧
    (∀ k, s.opens k = true ↔
      (∃ c ∈ s.cores, (∃ r ∈ c.eng.reqs, r.opens k = true) ∨ ∃ y ∈ c.eng.copies, inGroup k y.way.reached = true) ∨
      (∃ d ∈ s.dies, ∃ y ∈ d.msq.xfers, inGroup k y.way.reached = true) ∨ ∃ m ∈ s.inbound, m.grp = k ∧ ∃ r, m.what = .req r) ∧
    (∀ (c : Core) (k : Nat), let d := c.drainOut k
      d.eng.reqs = (c.eng.reqs.map fun r => if r.ends k then r.timedOut else r) ∧
      d.eng.copies = (c.eng.copies.map fun y => if inGroup k y.way.reached then { y with faulted := true, way := .home } else y) ∧
      (c.fault = none → c.run = .running →
        ((∃ r ∈ c.eng.reqs, r.ends k = true) ∨ ∃ y ∈ c.eng.copies, inGroup k y.way.reached = true) →
        ∃ p, d.fault = some p ∧ p.cause = .window ∧ p.async = true)) ∧
    (∀ r : Trained,
      (x.state = .retraining →
        (∃ t, Happens (.retraining g true r) s t ∧ t.mapgen = s.mapgen + 1 ∧ t.mem = s.mem ∧ t.me = s.me ∧
          ∀ k ∈ gs, k < s.groups.length →
            let y := t.group k
            let c := (s.group k).tgt
            y.state = .mapping ∧ y.pers = c.extractLsb' 4 2 ∧
            y.role = (if c.extractLsb' 4 2 = 2 ∧ r.rate ≠ 4 then 0 else c.extractLsb' 2 2) ∧
            y.mapped = mapOf y.pers y.role) ∧
        Happens (.retraining g false r) s (gs.foldl (fun s k => s.onGroup k fun x => { x with
          err := true, errc := 2, state := .failed, mapped := 0, rate := 0, decs := [], team := [] }) s)) ∧
      (x.state = .active → x.retrain = true → Happens (.retraining g true r) s
        (s.onGroup g.toNat fun x => { x with retrain := false, rate := r.rate }))) ∧
    (∀ (d : LinkDir) (key : List Byte),
      Happens (.keyRotation g d key) s (s.onGroup g.toNat fun g => { g.onKey d fun k => k.rotate key with secure := true }) ∧
      Happens (.oldKeyRelease g d) s (s.onGroup g.toNat fun g => g.onKey d LinkKey.release)) ∧
    ((∀ k < 24, (s.group k).state ≠ .quiesced) → g.toNat < s.groups.length → (s.portCycle.group g.toNat) =
      if x.state = .mapping then { x with state := if x.pers = 0 then .off else .active } else x)) ∧
  (∀ (k : LinkKey) (key : List Byte),
    (k.old = [] → k.rotate key = { k with cur := key, old := k.cur, curId := k.curId + 1 }) ∧
    (k.old ≠ [] → k.rotate key = { k with pend := k.pend ++ [key] }) ∧
    ((∃ f ∈ k.flits, f.1 ≠ k.curId) → k.release = k) ∧
    ((∀ f ∈ k.flits, f.1 = k.curId) → k.pend = [] → k.release = { k with old := [] }) ∧
    (∀ r, (∀ f ∈ k.flits, f.1 = k.curId) → k.pend = key :: r → k.release.cur = key ∧ k.release.old = k.cur ∧
      k.release.curId = k.curId + 1 ∧ k.release.pend = r)) ∧
  ∀ (s : State) (rate : Int) (sec : BitVec 48) (ns : BitVec 32),
    (s.servo.on = false → ∀ e, Happens (.ptpSync e rate) s s ∧ Happens .syncLoss s s) ∧
    (s.servo.on = true →
      (∀ cfg, Happens (.ptpSync (.select cfg) rate) s { s with servo := { s.servo with cfg := cfg } }) ∧
      (∀ port domain off,
        let c := s.servo.cfg
        let o := off - asymOf c port
        (c.port = some port → c.domain = domain → c.master = false → s.ptpPort port = true →
          Happens (.ptpSync (.sync port domain off) rate) s (s.onPtc fun p =>
            let good := if o.natAbs < 15 then p.good + 1 else 0
            let lock := if 30 < o.natAbs then false else if 16 ≤ good then true else p.lock
            { p with rate := if lock then max (-200) (min 200 rate) else p.rate, good := good, lock := lock })) ∧
        ((c.port ≠ some port ∨ c.domain ≠ domain ∨ c.master = true ∨ s.ptpPort port = false) →
          Happens (.ptpSync (.sync port domain off) rate) s s)) ∧
      Happens .syncLoss s (s.onPtc fun p => { p with good := 0, lock := false })) ∧
    (∀ port, s.ptpPort port = true → port < 48 ∧ (s.group (port / 2)).pers = 3) ∧
    (ns.toNat < 1000000000 → ((∀ d ∈ s.dies, ptcReached d.ptc sec ns = false) ∨ ∀ e ∈ s.parts, e.2.ctx = 0) →
      Happens (.ptcStep sec ns) s (s.onPtc fun p => { p with sec := sec, ns := ns, frac := 0 }))

/-- R328, R331, R341, R344, R348 to R351, R355, R357: the part boots into the newest firmware that verifies and is not too old,
gives the host its memory and applies the map its flash holds, or comes up in recovery; ATTEST answers FORMAT for a request of
another length; events are posted in order while the ring has room; the service bus tells version, serial and state; without its
main rails the module holds its reset values and releases ULPERM. That BOOT carries a recovery's image is the model's choice
(DESIGN CHOICE log 64), as is the free value of ATTEST (DESIGN CHOICE log 10); what the mailbox answers when is its reading
(DEDUCED logs 50 and 52). -/
def Obligations.BootEventsAndRails : Prop :=
  (∀ (l : List FwSlot) (v : Nat),
    let good := fun (x : FwSlot) => x ∈ l ∧ v ≤ x.version ∧ Config.verify 0 (Config.shake256 x.image 64) x.signature = true
    (∀ x, bootSlot l v = some x → good x ∧ ∀ y, good y → y.version ≤ x.version) ∧
    (bootSlot l v = none → ∀ y, ¬ good y)) ∧
  (∀ g < 24, let x := (State.reset.applyMap factoryMap).group g
    x.state = .retraining ∧ x.tgt.extractLsb' 4 2 = (if g < 4 then 3 else if g < 6 then 1 else 2) ∧
    x.tgt.extractLsb' 2 2 = (if g < 6 then 0 else 1)) ∧
  ∀ s : State,
    (∀ (f : Flash) (v : Nat), (s.host.fw = .reset ∨ s.host.fw = .recovery ∨ s.host.fw = .unpowered) →
      let u := s.onHost fun h => { h with rails := true, ulperm := !h.aux }
      (bootSlot f.slots v = none → Happens (.boot f v) s (u.onHost fun h => { h with fw := .recovery })) ∧
      ∀ x, bootSlot f.slots v = some x → Happens (.boot f v) s
        { (u.onHost fun h => { h with
            fw := .running, version := x.version, fwdig := Config.shake256 x.image 64, ident := Config.identity.2
            hdm := (f.hdmFirst, f.hdmCount) }).applyMap f.map with
          mem := s.mem.giveHost f.hdmFirst f.hdmCount
          servo := { on := true, cfg := f.ptp } }) ∧
    (∀ (b : Doorbell) (r : List Byte), Served s → b.arg = 0 → r.length ≤ 2 ^ 31 →
      let u := taken s b 2 r.length 0
      if r.length = 32 ∨ r.length = 1600 then
        let body := u.attestBody r
        Happens (.attest b r) s (({ u with free := s.free + 1 } : State).answer b.seq 0
          [(0x20, body), (0x780, padTo 1280 (Config.sign s.host.ident body))])
      else Answers (.attest b r) s u b.seq 2) ∧
    (∀ e r, s.host.pending = e :: r → s.host.fw ≠ .unpowered → s.host.fw ≠ .reset →
      if (s.host.evhead - s.host.evtail).toNat < 126 then
        Happens .eventPost s (s.onHost fun h => { h with
          pending := r, evhead := h.evhead + 1, evseq := h.evseq + 1, msix1 := h.msix1 + 1
          mbox := memWrite (memWrite h.mbox (0x1040 + 32 * (h.evhead.toNat % 126))
            (padTo 32 (padTo 16 e.bytes ++ leBytes 8 h.evseq.toNat))) 0x1000 (leBytes 4 (h.evhead + 1).toNat) })
      else Happens .eventPost s s) ∧
    (∃ t, Happens .mainRailsOff s t ∧ t.me = State.reset.me ∧ t.rest = State.reset.rest ∧ t.mem = State.reset.mem ∧
      t.parts = [] ∧ t.ctxs = [] ∧ t.host.fw = .unpowered ∧ t.host.rails = false ∧ t.host.ulperm = true ∧
      t.host.aux = s.host.aux) ∧
    (∀ on : Bool, Happens (.auxiliaryRail on) s (s.onHost fun h => { h with
      aux := on, ulperm := !on || !h.rails || h.fw == .unlatched })) ∧
    (s.host.aux = false → ∀ o, s.i3cByte o = none) ∧
    (s.host.aux = true → s.i3cByte 0 = some 1 ∧ (∀ k < 16, s.i3cByte (k + 1) = some (Config.serial.getD k 0)) ∧
      (∀ k < 64, s.i3cByte (0x20 + k) = some ((Config.shake256 Config.cert 64).getD k 0)) ∧
      s.i3cByte 0x61 = some (if s.host.ulperm then 1 else 0) ∧
      ((s.host.fw = .unpowered → s.i3cByte 0x60 = some 0) ∧ (s.host.fw = .running → s.i3cByte 0x60 = some 2) ∧
       (s.host.fw = .evicting → s.i3cByte 0x60 = some 3) ∧ (s.host.fw = .unlatched → s.i3cByte 0x60 = some 4) ∧
       (s.host.fw = .reset ∨ s.host.fw = .recovery → s.i3cByte 0x60 = some 1)))

/-- R12, R13, R99, R115, R120, R344 to R347, R356: the commands of the mailbox stand in it as they are taken; one is turned away
EVICTING during an eviction, BUSY while another is unfinished, and FORMAT where a field that must be 0 is not; a launch is answered
by its first check that fails, or creates its context; the other commands answer UNKNOWN for a context that does not exist, halt a
running one, release a halted one, end one, show one, fill its shadow planes; an eviction sends the contexts away. The number of a
new context and the answers where R347 gives none are the model's (DESIGN CHOICE log 28, DEDUCED logs 27, 52), as is what the
mailbox answers when (DEDUCED log 50). -/
def Obligations.CommandsOfTheMailbox : Prop :=
  (∀ (s : State) (b : Doorbell) (r : List Byte), s.mailboxOpen = true →
    let u := taken s b 1 r.length b.arg.toNat
    (s.host.fw = .evicting → Answers (.launch b r) s u b.seq 6) ∧
    (s.host.fw ≠ .evicting → s.host.task ≠ .none → Answers (.launch b r) s u b.seq 1) ∧
    (s.host.fw = .recovery → s.host.task = .none → Answers (.launch b r) s u b.seq 7) ∧
    (Served s → (b.arg ≠ 0 ∨ 2 ^ 31 < r.length) → Answers (.launch b r) s u b.seq 2)) ∧
  (∀ (s : State) (b : Doorbell) (r : List Byte) (i : BitVec 16) (a : BitVec 32), s.mailboxOpen = false →
    Happens (.launch b r) s s ∧ Happens (.preempt b i) s s ∧ Happens (.resume b i r) s s ∧ Happens (.endContext b i) s s ∧
    Happens (.reload b a r) s s) ∧
  (∀ (s : State) (b : Doorbell) (i : BitVec 16) (r : List Byte), Served s → b.arg = 0 → b.len = 0 → r.length ≤ 2 ^ 31 →
    let seq := b.seq
    let u := taken s b 1 r.length 0
    let at' := fun (cmd len : Nat) => taken s b cmd len i.toNat
    (launchOk r = false → Answers (.launch b r) s u seq 2) ∧
    (launchOk r = true → recSigned r = false → Answers (.launch b r) s u seq 3) ∧
    (launchOk r = true → recSigned r = true → s.clustersFree r = false → Answers (.launch b r) s u seq 4) ∧
    (∀ id, launchOk r = true → recSigned r = true → s.clustersFree r = true → s.newId = some id →
      (∀ k, u.create r id = .error k → Answers (.launch b r) s u seq k) ∧
      ∀ t, u.create r id = .ok t →
        let v := t.onHost fun h => { h with ldig := Config.shake256 r 64 }
        (field r 4 2 ≠ 0 → s.groupSizeOk r = false → Answers (.launch b r) s u seq 2) ∧
        (field r 4 2 ≠ 0 → s.groupSizeOk r = true → Happens (.launch b r) s (v.answer seq 0 [(0x20, leBytes 2 id.toNat)])) ∧
        (field r 4 2 = 0 → Happens (.launch b r) s
          ((v.evalLeg (BitVec.ofNat 6 (field r 2 1))).answer seq 0 [(0x20, leBytes 2 id.toNat)]))) ∧
    (s.live i = none → Answers (.preempt b i) s (at' 4 0) seq 8 ∧ Answers (.resume b i r) s (at' 5 r.length) seq 8 ∧
      Answers (.endContext b i) s (at' 6 0) seq 8 ∧
      ∀ a : BitVec 32, a.setWidth 16 = i → Answers (.reload b a r) s (taken s b 8 r.length a.toNat) seq 8) ∧
    (∀ a n, n.toNat ≤ 2 ^ 31 →
      let q := taken s { b with addr := a } 7 n.toNat i.toNat
      (s.ctx i = none → Answers (.status b i a n) s q seq 8) ∧
      ∀ x, s.ctx i = some x → Happens (.status b i a n) s ((q.onHost fun h => { h with
        dump := h.dump ++ if 2048 * (4 * x.ncl) ≤ n.toNat then [(a, (List.range (4 * x.ncl)).flatMap fun r =>
          memBytes x.shadow (tileBlock r + 0x4000) 2048)] else [] }).answer seq 0 [(0x20, q.statusBytes x)])) ∧
    (∀ x, s.live i = some x →
      (x.state = .running →
        Happens (.preempt b i) s (((at' 4 0).drive x).setTask (.preempt seq i)) ∧
        Happens (.endContext b i) s (((at' 6 0).drive x).setTask (.finish seq i))) ∧
      (x.state ≠ .running → Answers (.preempt b i) s (at' 4 0) seq 7 ∧
        Happens (.endContext b i) s (((at' 6 0).endCtx x).answer seq 0 [])) ∧
      (r.length = 16 → field r 0 1 < 64 → field r 1 7 = 0 →
        let q := at' 5 16
        let p : BitVec 6 := BitVec.ofNat 6 (field r 0 1)
        let m : BitVec 64 := BitVec.ofNat 64 (field r 8 8)
        (∀ k, q.resumeBad x p m = some k → Answers (.resume b i r) s q seq k) ∧
        (q.resumeBad x p m = none → Happens (.resume b i r) s (q.resumeOn seq x p m)))) ∧
    (∀ (a : BitVec 32) x q t, a.setWidth 16 = i → s.live i = some x → s.part x.part = some q → q.ctx = x.id →
      let v := taken s b 8 r.length a.toNat
      (x.state ≠ .running → x.state ≠ .halted → Answers (.reload b a r) s v seq 8) ∧
      ((x.state = .running ∨ x.state = .halted) → a.extractLsb' 17 15 ≠ 0 → Answers (.reload b a r) s v seq 2) ∧
      ((x.state = .running ∨ x.state = .halted) → a.extractLsb' 17 15 = 0 → headerOk r = true →
        field r 2 1 = x.part.toNat → reloadSecs r q (s.tiles x.part).length = true → recSigned r = true →
        v.reloadSeq x q.mask r = some t →
        let f := t.fillShadow x.part r
        Happens (.reload b a r) s ((if a.getLsbD 16 = true ∧ f.2 = true then f.1.onPart x.part fun q => { q with swp := true }
          else f.1).answer seq (if f.2 then 0 else 2) []))) ∧
    (∀ a : BitVec 10,
      let q := taken s b 3 0 a.toNat
      (s.evictable a = false → ∀ y, Answers (.evict b a y) s q seq 7) ∧
      (s.evictable a = true → Answers (.evict b a false) s q seq 7 ∧ Happens (.evict b a true) s
        (((q.onHost fun h => { h with fw := .evicting }).setTask (.evict seq 1)).evictAll)))) ∧
  ∀ s : State,
    (∀ g : BitVec 16, let l := s.ctxs.filter fun c => c.state == .waiting && c.lgrp == g && g != 0
      ∀ x k, l = x :: k → (∀ y ∈ l, y.lgdead = false) →
        (l.length < x.lgsz → Happens (.launchGroupRelease g) s s) ∧
        (x.lgsz ≤ l.length → Happens (.launchGroupRelease g) s ((l.take x.lgsz).foldl (fun s c => (s.onCtx c.id fun y => { y with state := .running }).evalLeg c.part) s))) ∧
    ∀ (b : Doorbell) (a : BitVec 10),
      (s.host.task = .evict b.seq 1 → (∃ c ∈ s.ctxs, c.state = .running) → ∀ y, Happens (.evict b a y) s s.evictAll) ∧
      (∀ (x : Ctx) (q : Part), x ∈ s.ctxs → x.state = .running → s.part x.part = some q → ∃ r, s.evictAll.part x.part = some r ∧
        r.halt = true) ∧
      (s.host.task = .evict b.seq 1 → (∀ c ∈ s.ctxs, c.state ≠ .running) → ∀ y, Happens (.evict b a y) s
        (s.allOut.setTask (.evict b.seq 2))) ∧
      (s.host.task = .evict b.seq 2 → ∃ t, Happens (.evict b a true) s t ∧ t.ctxs = [] ∧ t.parts = [] ∧
        t.host.sent = s.host.sent ++ (s.ctxs.filter fun c => c.state != .ended || c.final).map s.sentOf) ∧
      (s.host.task = .evict b.seq 2 → Happens (.evict b a false) s
        (((s.onHost fun h => { h with fw := .running }).setTask .none).answer b.seq 7 [])) ∧
      (s.host.task = .evict b.seq 3 → s.ring.slots = [] → (∀ x ∈ s.groups, x.state = .off) → ∀ y, Happens (.evict b a y) s
        (((s.onHost fun h => { h with fw := .unlatched, ulperm := true }).setTask .none).answer b.seq 0 [])) ∧
      (s.host.task = .evict b.seq 3 → (s.ring.slots ≠ [] ∨ ∃ x ∈ s.groups, x.state ≠ .off) → ∀ y, Happens (.evict b a y) s
        ((List.range 24).foldl (fun s g => if (s.group g).state = .active ∨ (s.group g).state = .failed then s.pgGo g 192 else s) s))

/-! ### The machine as a whole -/

/-- R49, R51, R52, R66, R187, R259, R331: after reset every register holds 0 but TRAPV, which names no handler; plane 0 is
active, no line of a buffer and no block of memory has an owner, every port group is OFF, nothing runs. The values of the
pc, of PTCS and of the clocks are the model's choice (DESIGN CHOICE log 6). -/
def Obligations.ResetValues : Prop :=
  State.reset.rest.length = 264 ∧ (∀ n < 264, State.reset.core n = State.resetCore n) ∧
  (∀ n, let c := State.resetCore n
    (∀ r : Reg, c.s r = { val := 0, poison := false }) ∧ (∀ r : Reg, c.v r = { val := 0, poison := 0 }) ∧
    (∀ g : GIdx, g.toNat < 12 → c.g g = { c := false, cp := false, t := 0 }) ∧
    (∀ w : BitVec 3, c.win w = { base := 0, limit := 0, key := 0 }) ∧
    c.spec = { State.resetSpec with trapv := 3 } ∧ c.noHandler = true ∧
    (∀ p ∈ [c.spec.lt, c.spec.cyc, c.spec.frame, c.spec.leavec, c.spec.tagmap, c.spec.fpctl, c.spec.fpstat, c.spec.srk0,
      c.spec.srk1, c.spec.src0, c.spec.src1, c.spec.trapc, c.spec.bubup, c.spec.bubdn, c.spec.bubst], p = 0) ∧
    (∀ k < 8, c.spec.stallc[k]? = some 0) ∧ c.loops.lsd = 0 ∧ (∀ k < 6, c.level k = { cnt := 0, idx := 0, beg := 0, fin := 0 }) ∧
    (∀ k : BitVec 4, c.cb k = none) ∧ c.flight = [] ∧ c.eng.lq = [] ∧ c.eng.reqs = [] ∧ c.eng.copies = [] ∧
    c.eng.arr.active = .p0 ∧ c.run = .idle ∧ c.store.plane = false ∧
    ∀ (u : BSpace) (t x : Nat), t ≠ 0 → (c.buf u).get t x = 0) ∧
  State.reset.parts = [] ∧ State.reset.ctxs = [] ∧ (∀ a, look 0 State.reset.mem.owner a = 0) ∧
  (∀ g < 24, (State.reset.group g).state = .off) ∧ State.reset.mapgen = 0 ∧ State.reset.ring.slots = [] ∧ State.reset.Safe

/-- R19, R38, R54: a word changes no register, no buffer and no memory when it issues: its results land later. It adds to
the results in flight, and leaves every other core, the contexts, the port groups and the host's side as they are; the loop
stack but for the loop words, the results in flight and the logical time but for held words and `halt`. -/
def Obligations.WordsChangeRegistersOnlyByLandings : Prop :=
  ∀ (s t : State) (i : Instr), coreWord i = true → exec i s = .next t →
    t.me.regs = s.me.regs ∧ t.me.store = s.me.store ∧ t.mem = s.mem ∧ t.ring = s.ring ∧ t.ctxs = s.ctxs ∧
    t.groups = s.groups ∧ t.host = s.host ∧ t.rwins = s.rwins ∧ t.cgroups = s.cgroups ∧ t.trctl = s.trctl ∧
    others t = others s ∧ t.me.spec.frame = s.me.spec.frame ∧ t.me.spec.tagmap = s.me.spec.tagmap ∧
    t.me.spec.fpctl = s.me.spec.fpctl ∧ t.me.spec.fpstat = s.me.spec.fpstat ∧ t.me.spec.trapv = s.me.spec.trapv ∧
    t.me.spec.srk0 = s.me.spec.srk0 ∧ t.me.spec.srk1 = s.me.spec.srk1 ∧ t.me.spec.stage = s.me.spec.stage ∧
    (loopWord i = false → t.me.loops = s.me.loops) ∧
    (cycleWord i = false → t.me.spec.lt = s.me.spec.lt ∧ ∃ l, t.me.flight = s.me.flight ++ l)

/-- R51, R53, R54, R112, R211, R228: a result changes its own target alone when it lands: a scalar register, s0 excepted,
a vector register, a condition or a target of a steer register, the bytes of its store, a tag, a pointer; flags gather. -/
def Obligations.ResultsLandWhereTheySay : Prop :=
  ∀ x : Perf,
    (∀ (d : Reg) v p fl, let y := x.one (.sreg d v p fl)
      (d ≠ 0 → y.s.me.s d = { val := v, poison := p }) ∧ y.s.me.s 0 = x.s.me.s 0 ∧
      (∀ r, r ≠ d → y.s.me.s r = x.s.me.s r) ∧ (∀ r, y.s.me.v r = x.s.me.v r) ∧ (∀ g, y.s.me.g g = x.s.me.g g) ∧
      y.s.me.spec = x.s.me.spec ∧ y.s.me.store = x.s.me.store ∧ y.s.mem = x.s.mem ∧ y.s.rest = x.s.rest ∧
      y.fl = x.fl ||| fl) ∧
    (∀ (d : Reg) v p fl, let y := x.one (.vreg d v p fl)
      y.s.me.v d = { val := v, poison := p } ∧ (∀ r, r ≠ d → y.s.me.v r = x.s.me.v r) ∧ (∀ r, y.s.me.s r = x.s.me.s r) ∧
      (∀ g, y.s.me.g g = x.s.me.g g) ∧ y.s.me.spec = x.s.me.spec ∧ y.s.me.store = x.s.me.store ∧ y.s.mem = x.s.mem ∧
      y.fl = x.fl ||| fl) ∧
    (∀ (g : GIdx) v p t, g.toNat < 12 →
      (x.one (.gcond g v p)).s.me.g g = { x.s.me.g g with c := v, cp := p } ∧
      (x.one (.gtarg g t)).s.me.g g = { x.s.me.g g with t := t } ∧
      (∀ h, h ≠ g → (x.one (.gcond g v p)).s.me.g h = x.s.me.g h ∧ (x.one (.gtarg g t)).s.me.g h = x.s.me.g h) ∧
      ∀ y ∈ [x.one (.gcond g v p), x.one (.gtarg g t)], (∀ r, y.s.me.s r = x.s.me.s r) ∧ (∀ r, y.s.me.v r = x.s.me.v r) ∧
        y.s.me.spec = x.s.me.spec ∧ y.s.me.store = x.s.me.store) ∧
    (∀ (u : BSpace) (a : Nat) (bs : List Byte) (lanes : Bool), (x.s.me.buf u).wf = true →
      let y := x.one (.bstore u (place a bs) lanes)
      let t := x.s.me.ctx.toNat
      (∀ k < bs.length, (y.s.me.buf u).get t (a + k) = bs.getD k 0) ∧
      (∀ b, (b < a ∨ a + bs.length ≤ b) → (y.s.me.buf u).get t b = (x.s.me.buf u).get t b) ∧
      (∀ o, o ≠ u → y.s.me.buf o = x.s.me.buf o) ∧ y.s.me.regs = x.s.me.regs ∧ y.s.me.spec = x.s.me.spec ∧
      y.s.mem = x.s.mem ∧ y.s.rest = x.s.rest) ∧
    (∀ (t : BitVec 6) (v : Bool), let y := x.one (.tagset t v)
      y.s.me.regs = x.s.me.regs ∧ y.s.me.store = x.s.me.store ∧ ∀ k < 64,
        y.s.me.spec.tagmap.getLsbD k = if k = t.toNat then v else x.s.me.spec.tagmap.getLsbD k) ∧
    (∀ (n : BitVec 4) (cons : Bool) (k : Nat) (b : Cb), x.s.me.cb n = some b →
      let y := x.one (.cbptr n cons k)
      y.s.me.cb n = some (if cons then { b with cons := (b.cons + k) % (2 * b.size) }
        else { b with prod := (b.prod + k) % (2 * b.size) }) ∧
      (∀ m, m ≠ n → y.s.me.cb m = x.s.me.cb m) ∧ y.s.me.regs = x.s.me.regs ∧ y.s.me.spec = x.s.me.spec ∧
      y.s.me.store = x.s.me.store) ∧
    ∀ w, (x.one w).s.mem = x.s.mem

/-- R17, R36, R38, R48, R86: a step whose turn is a core's runs the decoded word at its program counter: where the word
issues, and the ring takes the cells it sends, the bundle is closed behind it; where it stalls, the cycle is a stall; where it raises a cause, the state before the
words takes it. A step whose turn is a program slot's runs its next word, and one whose turn is another step of the part
runs that (who moves is the model's agenda: DESIGN CHOICE log 4). -/
def Obligations.StepsRunWhatIsDecoded : Prop :=
  ∀ (s : State) (r : List Turn),
    (∀ n w i a v b u, Fetches s r n w i a v b → exec i b = .next u →
      let t := v.onMe Core.beginIss
      let served := fun (x : State) => x.onMe fun c => { c with served := 0 }
      (u.me.iss.verdict = .issued → u.me.landCount ≤ 48 → u.ringFull v.me.eng.nextId = false → v.me.enabled u.me.iss.fl = 0 →
        step s = .next (served (u.close [{ addr := v.me.pc, ext := none, cls := classOf w, instr := i }] v.me.eng.nextId)).rested) ∧
      (∀ k, u.me.iss.verdict = .stall k → (t.keepAsk u).ringFull v.me.eng.nextId = false → step s = .next (a.stalled k
        (if k = .xlat ∨ k = .fabric ∨ k = .leave ∨ k = .sync then t.keepAsk u else t))) ∧
      (u.me.iss.verdict = .raised → step s = .next (served (t.adopt u)).rested)) ∧
    (∀ (d : BitVec 3) (k : Nat) (i : Instr), s.agenda = .msq d k :: r → k < 8 →
      let a := { begun s r with turnAt := (d.toNat, k) }
      let p := a.slotNow
      let m := (a.die d.toNat).msq
      p.busy = true → a.seqRuns p = true → p.pc < (m.region p.ctx).2 →
      decodeMsq (m.word ((m.region p.ctx).1 + p.pc)) = .ok i → step s = exec i a) ∧
    (∀ i, s.agenda = .evt i :: r → isEvent i = true → step s = exec i (begun s r))

/-- R33, R40 to R48: words written out bit by bit from the encoding tables read as the instructions they stand for. -/
def Obligations.SomeWordsRead : Prop :=
  decode false 0x800A52C0 = .ok (.add 10 10 11 false false) ∧ link 0x800A52C0 = true ∧
  decode false 0x18440045 = .ok (.cmpi 1 0 .lt 5) ∧ link 0x18440045 = false ∧
  decode false 0x20830890 = .ok (.vfma 3 1 2 .f32 false 0) ∧
  decode false 0x38E84AA2 = .ok (.mmul 8 9 10 true 2) ∧ decode false 0x38C00000 = .ok .mswap ∧
  decode false 0x35041820 = .ok (.vsct .a 2 1 .w 1) ∧ decode false 0x30081800 = .ok (.ld .a 4 1 .w 0) ∧
  decode false 0x410A3120 = .ok (.amo 5 3 false 2 .die .add) ∧ decode false 0x41C00280 = .ok (.tagw 5) ∧
  decode false 0xC8800005 = .ok (.stop 5) ∧ link 0xC8800005 = true ∧
  decodeMsq 0x6000000000000000 = .ok .xend

/-- R33, R40 to R48: every well-formed word reads back from what the encoder writes with all its operands, with either link
bit, on the kind of core that has it; the words of the memory sequencer too. -/
def Obligations.DecodingUndoesEncoding : Prop := ∀ i : Instr, Sys2Proof.Laws.Encoding.Statement i

/-- R317: every step answers a next state, and keeps a safe state safe: global memory in its canonical form, and no
slot of a strand of the ring reserved by two stations. -/
def Obligations.StepsKeepStatesSafe : Prop :=
  ∀ s : State, ∃ t, step s = .next t ∧ (s.Safe → t.Safe)
end

