-- ==== Sys2Proof/Laws/Map.lean ====
section
/-! SUPPORT. Maps in canonical form: reading back, other keys, and that every operation keeps the form. -/

namespace Sys2Proof.Machine

section
variable {β : Type} [DecidableEq β] {z : β}

/-- A listed key above the bound of the rest reads as unlisted there. -/
theorem look_low {k : Nat} : ∀ {m : List (Nat × β)} {a : Nat}, mapWf z (some k) m = true → a ≤ k → look z m a = z
  | [], _, _, _ => rfl
  | (b, v) :: r, a, h, ha => by
    simp only [mapWf, Bool.and_eq_true, decide_eq_true_eq] at h
    have : a < b := Nat.lt_of_le_of_lt ha h.1.1
    simp [look, Nat.ne_of_lt this, this]

/-- A weaker bound. -/
theorem mapWf_mono {k l : Nat} (hk : l ≤ k) : ∀ {m : List (Nat × β)}, mapWf z (some k) m = true → mapWf z (some l) m = true
  | [], _ => rfl
  | (b, v) :: r, h => by
    simp only [mapWf, Bool.and_eq_true, decide_eq_true_eq] at h ⊢
    exact ⟨⟨Nat.lt_of_le_of_lt hk h.1.1, h.1.2⟩, h.2⟩

/-- No bound at all. -/
theorem mapWf_none {k : Nat} : ∀ {m : List (Nat × β)}, mapWf z (some k) m = true → mapWf z none m = true
  | [], _ => rfl
  | (b, v) :: r, h => by
    simp only [mapWf, Bool.and_eq_true, Bool.true_and] at h ⊢
    exact ⟨h.1.2, h.2⟩

/-- A write keeps the canonical form above a bound. -/
theorem put_wf_some (v : β) : ∀ {m : List (Nat × β)} {k a : Nat}, mapWf z (some k) m = true → k < a →
    mapWf z (some k) (put z m a v) = true
  | [], k, a, _, ha => by
    unfold put; split <;> simp_all [mapWf]
  | (b, w) :: r, k, a, h, ha => by
    simp only [mapWf, Bool.and_eq_true, decide_eq_true_eq] at h
    unfold put
    split
    · split
      · simp only [mapWf, Bool.and_eq_true, decide_eq_true_eq]; exact h
      · simp only [mapWf, Bool.and_eq_true, decide_eq_true_eq]
        exact ⟨⟨ha, by assumption⟩, ⟨by assumption, h.1.2⟩, h.2⟩
    · split
      · split
        · exact mapWf_mono (Nat.le_of_lt h.1.1) h.2
        · subst_vars; simp only [mapWf, Bool.and_eq_true, decide_eq_true_eq]
          exact ⟨⟨ha, by assumption⟩, h.2⟩
      · simp only [mapWf, Bool.and_eq_true, decide_eq_true_eq]
        exact ⟨h.1, put_wf_some v h.2 (by omega)⟩

/-- A write keeps the canonical form. -/
theorem put_wf (v : β) (a : Nat) : ∀ {m : List (Nat × β)}, mapWf z none m = true → mapWf z none (put z m a v) = true
  | [], _ => by
    unfold put; split <;> simp_all [mapWf]
  | (b, w) :: r, h => by
    simp only [mapWf, Bool.and_eq_true, decide_eq_true_eq, Bool.true_and] at h
    unfold put
    split
    · split
      · simp only [mapWf, Bool.and_eq_true, decide_eq_true_eq, Bool.true_and]; exact h
      · simp only [mapWf, Bool.and_eq_true, decide_eq_true_eq, Bool.true_and]
        exact ⟨by assumption, ⟨by assumption, h.1⟩, h.2⟩
    · split
      · split
        · exact mapWf_none h.2
        · subst_vars; simp only [mapWf, Bool.and_eq_true, decide_eq_true_eq, Bool.true_and]
          exact ⟨by assumption, h.2⟩
      · simp only [mapWf, Bool.and_eq_true, decide_eq_true_eq, Bool.true_and]
        exact ⟨h.1, put_wf_some v h.2 (by omega)⟩

/-- The key written reads as the value written, above a bound. -/
theorem look_put_same_some (v : β) : ∀ {m : List (Nat × β)} {k a : Nat}, mapWf z (some k) m = true →
    look z (put z m a v) a = v
  | [], _, _, _ => by
    unfold put; split <;> simp_all [look]
  | (b, w) :: r, k, a, h => by
    simp only [mapWf, Bool.and_eq_true, decide_eq_true_eq] at h
    unfold put
    split
    · split
      · subst_vars; simp [look, *]; omega
      · simp [look]
    · split
      · split
        · subst_vars; exact look_low h.2 (Nat.le_refl _)
        · simp [look]
      · simp only [look, *, if_false]
        exact look_put_same_some v h.2

/-- The key written reads as the value written. -/
theorem look_put_same (v : β) (a : Nat) : ∀ {m : List (Nat × β)}, mapWf z none m = true → look z (put z m a v) a = v
  | [], _ => by
    unfold put; split <;> simp_all [look]
  | (b, w) :: r, h => by
    simp only [mapWf, Bool.and_eq_true, decide_eq_true_eq, Bool.true_and] at h
    unfold put
    split
    · split
      · subst_vars; simp [look, *]; omega
      · simp [look]
    · split
      · split
        · subst_vars; exact look_low h.2 (Nat.le_refl _)
        · simp [look]
      · simp only [look, *, if_false]
        exact look_put_same_some v h.2

/-- Every other key reads as before, above a bound. -/
theorem look_put_other_some (v : β) : ∀ {m : List (Nat × β)} {k a c : Nat}, mapWf z (some k) m = true → c ≠ a →
    look z (put z m a v) c = look z m c
  | [], _, a, c, _, hc => by
    unfold put; split
    · rfl
    · simp [look, hc]
  | (b, w) :: r, k, a, c, h, hc => by
    simp only [mapWf, Bool.and_eq_true, decide_eq_true_eq] at h
    unfold put
    split
    · split
      · rfl
      · simp only [look, hc, if_false]
        by_cases hca : c < a
        · have : c < b := by omega
          simp [hca, this, Nat.ne_of_lt this]
        · simp [hca]
    · split
      · subst_vars
        split
        · simp only [look, hc, if_false]
          by_cases hcb : c < a
          · simp only [hcb, if_true]; exact look_low h.2 (Nat.le_of_lt hcb)
          · simp [hcb]
        · simp [look, hc]
      · simp only [look]
        rw [look_put_other_some v h.2 hc]

/-- Every other key reads as before. -/
theorem look_put_other (v : β) (a : Nat) {c : Nat} (hc : c ≠ a) : ∀ {m : List (Nat × β)}, mapWf z none m = true →
    look z (put z m a v) c = look z m c
  | [], _ => by
    unfold put; split
    · rfl
    · simp [look, hc]
  | (b, w) :: r, h => by
    simp only [mapWf, Bool.and_eq_true, decide_eq_true_eq, Bool.true_and] at h
    unfold put
    split
    · split
      · rfl
      · simp only [look, hc, if_false]
        by_cases hca : c < a
        · have : c < b := by omega
          simp [hca, this, Nat.ne_of_lt this]
        · simp [hca]
    · split
      · subst_vars
        split
        · simp only [look, hc, if_false]
          by_cases hcb : c < b
          · simp only [hcb, if_true]; exact look_low h.2 (Nat.le_of_lt hcb)
          · simp [hcb]
        · simp [look, hc]
      · simp only [look]
        rw [look_put_other_some v h.2 hc]

/-- Filtering keeps the canonical form above a bound. -/
theorem filter_wf_some (p : Nat × β → Bool) : ∀ {m : List (Nat × β)} {k : Nat}, mapWf z (some k) m = true →
    mapWf z (some k) (m.filter p) = true
  | [], _, _ => rfl
  | (b, w) :: r, k, h => by
    simp only [mapWf, Bool.and_eq_true, decide_eq_true_eq] at h
    by_cases hp : p (b, w) = true
    · rw [List.filter_cons_of_pos hp]
      simp only [mapWf, Bool.and_eq_true, decide_eq_true_eq]
      exact ⟨h.1, filter_wf_some p h.2⟩
    · rw [List.filter_cons_of_neg hp]
      exact mapWf_mono (Nat.le_of_lt h.1.1) (filter_wf_some p h.2)

/-- Filtering keeps the canonical form. -/
theorem filter_wf (p : Nat × β → Bool) : ∀ {m : List (Nat × β)}, mapWf z none m = true → mapWf z none (m.filter p) = true
  | [], _ => rfl
  | (b, w) :: r, h => by
    simp only [mapWf, Bool.and_eq_true, decide_eq_true_eq, Bool.true_and] at h
    by_cases hp : p (b, w) = true
    · rw [List.filter_cons_of_pos hp]
      simp only [mapWf, Bool.and_eq_true, decide_eq_true_eq, Bool.true_and]
      exact ⟨h.1, filter_wf_some p h.2⟩
    · rw [List.filter_cons_of_neg hp]
      exact mapWf_none (filter_wf_some p h.2)

/-- Wiping keeps the canonical form. -/
theorem wipe_wf (lo hi : Nat) {m : List (Nat × β)} (h : mapWf z none m = true) : mapWf z none (wipe lo hi m) = true :=
  filter_wf _ h

/-- A filtered map reads the value of a key that the filter keeps whatever it holds, above a bound. -/
theorem look_filter_some (q : Nat → Bool) : ∀ {m : List (Nat × β)} {k a : Nat}, mapWf z (some k) m = true →
    look z (m.filter fun e => q e.1) a = if q a then look z m a else z
  | [], _, a, _ => by simp [look]
  | (b, w) :: r, k, a, h => by
    simp only [mapWf, Bool.and_eq_true, decide_eq_true_eq] at h
    have ih := look_filter_some q (a := a) h.2
    have hlow : a ≤ b → look z (r.filter fun e => q e.1) a = z := fun hl => look_low (filter_wf_some _ h.2) hl
    by_cases hq : q b = true
    · rw [List.filter_cons_of_pos (by simpa using hq)]
      simp only [look]
      by_cases hab : a = b
      · subst hab; simp [hq]
      · by_cases hlt : a < b
        · simp [hab, hlt]
        · simp [hab, hlt, ih]
    · rw [List.filter_cons_of_neg (by simpa using hq)]
      simp only [look]
      by_cases hab : a = b
      · subst hab; simp [hq, hlow (Nat.le_refl _)]
      · by_cases hlt : a < b
        · simp [hab, hlt, hlow (Nat.le_of_lt hlt)]
        · simp [hab, hlt, ih]

/-- A filtered map reads the value of a key that the filter keeps whatever it holds. -/
theorem look_filter (q : Nat → Bool) (a : Nat) : ∀ {m : List (Nat × β)}, mapWf z none m = true →
    look z (m.filter fun e => q e.1) a = if q a then look z m a else z
  | [], _ => by simp [look]
  | (b, w) :: r, h => by
    simp only [mapWf, Bool.and_eq_true, decide_eq_true_eq, Bool.true_and] at h
    have ih := look_filter_some q (a := a) h.2
    have hlow : a ≤ b → look z (r.filter fun e => q e.1) a = z := fun hl => look_low (filter_wf_some _ h.2) hl
    by_cases hq : q b = true
    · rw [List.filter_cons_of_pos (by simpa using hq)]
      simp only [look]
      by_cases hab : a = b
      · subst hab; simp [hq]
      · by_cases hlt : a < b
        · simp [hab, hlt]
        · simp [hab, hlt, ih]
    · rw [List.filter_cons_of_neg (by simpa using hq)]
      simp only [look]
      by_cases hab : a = b
      · subst hab; simp [hq, hlow (Nat.le_refl _)]
      · by_cases hlt : a < b
        · simp [hab, hlt, hlow (Nat.le_of_lt hlt)]
        · simp [hab, hlt, ih]

/-- A wiped map reads unlisted inside the range and as before outside. -/
theorem look_wipe (lo hi a : Nat) {m : List (Nat × β)} (h : mapWf z none m = true) :
    look z (wipe lo hi m) a = if lo ≤ a ∧ a < hi then z else look z m a := by
  have := look_filter (z := z) (fun x => !(decide (lo ≤ x) && decide (x < hi))) a h
  simp only [wipe]
  rw [this]
  by_cases h1 : lo ≤ a <;> by_cases h2 : a < hi <;> simp [h1, h2]

end

/-! ### Memory -/

/-- Bytes written keep the canonical form. -/
theorem memWrite_wf : ∀ (bs : List Byte) (a : Nat) {m : Mem}, Memory.wf m = true → Memory.wf (memWrite m a bs) = true
  | [], _, _, h => h
  | b :: r, a, _, h => memWrite_wf r (a + 1) (put_wf b a h)

/-- A byte outside those written reads as before. -/
theorem look_memWrite_other : ∀ (bs : List Byte) (a x : Nat) {m : Mem}, Memory.wf m = true →
    (x < a ∨ a + bs.length ≤ x) → look 0 (memWrite m a bs) x = look 0 m x
  | [], _, _, _, _, _ => rfl
  | b :: r, a, x, m, h, hx => by
    simp only [memWrite]
    have hl : (b :: r).length = r.length + 1 := rfl
    rw [look_memWrite_other r (a + 1) x (put_wf b a h) (by omega)]
    exact look_put_other b a (by omega) h

/-- A byte written reads as written. -/
theorem look_memWrite : ∀ (bs : List Byte) (a i : Nat) {m : Mem}, Memory.wf m = true → i < bs.length →
    look 0 (memWrite m a bs) (a + i) = bs.getD i 0
  | [], _, _, _, _, hi => absurd hi (Nat.not_lt_zero _)
  | b :: r, a, 0, m, h, _ => by
    simp only [memWrite, Nat.add_zero]
    rw [look_memWrite_other r (a + 1) a (put_wf b a h) (by omega)]
    simpa using look_put_same b a h
  | b :: r, a, i + 1, m, h, hi => by
    simp only [memWrite]
    have := look_memWrite r (a + 1) i (put_wf b a h) (by simpa using hi)
    rw [show a + (i + 1) = a + 1 + i by omega, this]
    simp

end Sys2Proof.Machine
end

