-- ==== Sys2Proof/Laws/Memory.lean ====
section
/-! SUPPORT. Every operation over buffers and global memory keeps the canonical form; a byte written reads back and no
other byte of a buffer changes. -/

namespace Sys2Proof.Machine

/-! ### Buffers -/

theorem Buf.wf_iff (b : Buf) : b.wf = true ↔ Memory.wf b.cells = true ∧ mapWf b.all none b.owner = true := by
  simp [Buf.wf, Bool.and_eq_true]

theorem Buf.claim_wf {b : Buf} (t line : Nat) (h : b.wf = true) : (b.claim t line).wf = true := by
  rw [Buf.wf_iff] at h
  unfold Buf.claim
  split
  · rw [Buf.wf_iff]; exact h
  · rw [Buf.wf_iff]; exact ⟨wipe_wf _ _ h.1, put_wf _ _ h.2⟩

theorem Buf.set_wf {b : Buf} (t x : Nat) (v : Byte) (h : b.wf = true) : (b.set t x v).wf = true := by
  have h1 := (Buf.wf_iff _).1 (Buf.claim_wf t (x / 128) h)
  unfold Buf.set
  rw [Buf.wf_iff]
  exact ⟨put_wf _ _ h1.1, h1.2⟩

theorem Buf.write_wf (t : Nat) : ∀ (w : List (Nat × Byte)) {b : Buf}, b.wf = true → (b.write t w).wf = true
  | [], _, h => h
  | e :: r, _, h => Buf.write_wf t r (Buf.set_wf t e.1 e.2 h)

theorem Buf.claim_owner {b : Buf} (t line : Nat) (h : b.wf = true) (l : Nat) :
    (b.claim t line).tag l = if l = line then t else b.tag l := by
  have ho := ((Buf.wf_iff _).1 h).2
  unfold Buf.claim
  split
  · next e => split
              · next c => rw [c]; exact e
              · rfl
  · by_cases e : l = line
    · subst e; simpa [Buf.tag] using look_put_same _ _ ho
    · simpa [e, Buf.tag] using look_put_other _ _ e ho

theorem Buf.get_claim {b : Buf} (t line : Nat) (h : b.wf = true) (y : Nat) : (b.claim t line).get t y = b.get t y := by
  have hc := ((Buf.wf_iff _).1 h).1
  unfold Buf.get
  rw [Buf.claim_owner t line h]
  unfold Buf.claim
  by_cases e : b.tag line = t
  · by_cases hl : y / 128 = line
    · simp [e, hl]
    · simp [e, hl]
  · by_cases hl : y / 128 = line
    · have h1 : 128 * line ≤ y := by omega
      have h2 : y < 128 * line + 128 := by omega
      have hz := look_wipe (128 * line) (128 * line + 128) y hc
      rw [if_pos ⟨h1, h2⟩] at hz
      simp [e, hl]
      exact hz
    · have h1 : ¬(128 * line ≤ y ∧ y < 128 * line + 128) := by omega
      simp only [e, if_false, hl]
      rw [look_wipe _ _ _ hc, if_neg h1]

/-- Read after write in a buffer: the byte written reads as written, every other byte of the context as before. -/
theorem Buf.get_set {b : Buf} (t x : Nat) (v : Byte) (h : b.wf = true) (y : Nat) :
    (b.set t x v).get t y = if y = x then v else b.get t y := by
  have hw := (Buf.wf_iff _).1 (Buf.claim_wf t (x / 128) h)
  have hg := Buf.get_claim t (x / 128) h y
  unfold Buf.set
  by_cases e : y = x
  · subst e
    have ht : (b.claim t (y / 128)).tag (y / 128) = t := by rw [Buf.claim_owner t _ h, if_pos rfl]
    simp only [Buf.get, Buf.tag] at ht ⊢
    simp only [ht, if_true]
    exact look_put_same v y hw.1
  · rw [if_neg e, ← hg]
    simp only [Buf.get, Buf.tag]
    rw [look_put_other v x e hw.1]
    congr

/-- Bytes of a buffer outside those written read as before. -/
theorem Buf.get_write (t : Nat) (y : Nat) : ∀ (w : List (Nat × Byte)) {b : Buf}, b.wf = true →
    (∀ e ∈ w, e.1 ≠ y) → (b.write t w).get t y = b.get t y
  | [], _, _, _ => rfl
  | e :: r, b, h, hy => by
    have h1 := Buf.get_write t y r (Buf.set_wf t e.1 e.2 h) (fun x hx => hy x (List.mem_cons_of_mem _ hx))
    have h2 := Buf.get_set t e.1 e.2 h y
    rw [if_neg (fun c => hy e (List.mem_cons_self ..) c.symm)] at h2
    exact h1.trans h2

/-! ### Global memory -/

theorem PMem.wf_iff (m : PMem) :
    m.wf = true ↔ Memory.wf m.cells = true ∧ Tags.wf m.owner = true ∧ Tags.wf m.key = true := by
  simp [PMem.wf, Bool.and_eq_true, and_assoc]

theorem PMem.revive_wf {m : PMem} (pa : PAddr) (h : m.wf = true) : (m.revive pa).wf = true := by
  unfold PMem.revive
  split
  · rw [PMem.wf_iff] at h ⊢
    exact ⟨wipe_wf _ _ h.1, wipe_wf _ _ h.2.1, wipe_wf _ _ h.2.2⟩
  · exact h

theorem PMem.claim_wf {m : PMem} (t blk : Nat) (h : m.wf = true) : (m.claim t blk).wf = true := by
  unfold PMem.claim
  split
  · exact h
  · rw [PMem.wf_iff] at h ⊢
    exact ⟨wipe_wf _ _ h.1, put_wf _ _ h.2.1, h.2.2⟩

theorem PMem.set_wf {m : PMem} (t k : Nat) (pa : PAddr) (v : Byte) (h : m.wf = true) : (m.set t k pa v).wf = true := by
  have h1 : (if inHbm pa = true then (m.revive pa).claim t (pa / 4096) else m).wf = true := by
    split
    · exact PMem.claim_wf _ _ (PMem.revive_wf _ h)
    · exact h
  rw [PMem.wf_iff] at h1
  unfold PMem.set
  rw [PMem.wf_iff]
  exact ⟨put_wf _ _ h1.1, h1.2.1, put_wf _ _ h1.2.2⟩

theorem PMem.write_wf (t k : Nat) : ∀ (bs : List Byte) (pa : PAddr) {m : PMem}, m.wf = true →
    (m.write t k pa bs).wf = true
  | [], _, _, h => h
  | b :: r, pa, _, h => PMem.write_wf t k r (pa + 1) (PMem.set_wf t k pa b h)

theorem PMem.hostWrite_wf : ∀ (bs : List Byte) (pa : PAddr) (en : List Bool) {m : PMem}, m.wf = true →
    (m.hostWrite pa bs en).wf = true
  | [], _, _, _, h => h
  | b :: r, pa, en, m, h => by
    unfold PMem.hostWrite
    refine PMem.hostWrite_wf r (pa + 1) en.tail ?_
    split
    · exact PMem.set_wf _ _ _ _ h
    · exact h

theorem PMem.peerWrite_wf : ∀ (bs : List Byte) (pa : PAddr) (en : List Bool) {m : PMem}, m.wf = true →
    (m.peerWrite pa bs en).wf = true
  | [], _, _, _, h => h
  | b :: r, pa, en, m, h => by
    unfold PMem.peerWrite
    refine PMem.peerWrite_wf r (pa + 1) en.tail ?_
    split
    · exact PMem.set_wf _ _ _ _ h
    · exact h

theorem PMem.setEntry_wf {m : PMem} (pa : PAddr) (e : W64) (h : m.wf = true) : (m.setEntry pa e).wf = true := by
  rw [PMem.wf_iff] at h
  unfold PMem.setEntry
  rw [PMem.wf_iff]
  exact ⟨memWrite_wf _ _ h.1, h.2.1, put_wf _ _ h.2.2⟩

theorem foldl_wf {α : Type} (f : PMem → α → PMem) (hf : ∀ m a, m.wf = true → (f m a).wf = true) :
    ∀ (l : List α) {m : PMem}, m.wf = true → (l.foldl f m).wf = true
  | [], _, h => h
  | a :: r, _, h => foldl_wf f hf r (hf _ a h)

theorem PMem.release_wf {m : PMem} (ctx : Nat) (h : m.wf = true) : (m.release ctx).wf = true := by
  refine foldl_wf _ ?_ _ h
  intro m b h
  rw [PMem.wf_iff] at h ⊢
  exact ⟨wipe_wf _ _ h.1, put_wf _ _ h.2.1, put_wf _ _ h.2.2⟩

theorem map_wf (f : Nat × Nat → Nat × Nat) (h1 : ∀ e, (f e).1 = e.1) (h2 : ∀ e, e.2 ≠ 0 → (f e).2 ≠ 0) :
    ∀ (m : List (Nat × Nat)) (k : Option Nat), mapWf 0 k m = true → mapWf 0 k (m.map f) = true
  | [], _, _ => rfl
  | e :: r, k, h => by
    have ih := map_wf f h1 h2 r (some e.1)
    obtain ⟨a, v⟩ := e
    have e1 := h1 (a, v)
    have e2 := h2 (a, v)
    simp only [List.map_cons]
    rcases hf : f (a, v) with ⟨a', v'⟩
    rw [hf] at e1 e2
    simp only at e1 e2
    subst e1
    simp only [mapWf, Bool.and_eq_true, decide_eq_true_eq] at h ⊢
    exact ⟨⟨h.1.1, e2 h.1.2⟩, ih h.2⟩

theorem PMem.loseKeys_wf {m : PMem} (ks : List (BitVec 8)) (h : m.wf = true) : (m.loseKeys ks).wf = true := by
  rw [PMem.wf_iff] at h ⊢
  refine ⟨h.1, h.2.1, map_wf _ ?_ ?_ _ _ h.2.2⟩
  · intro e; split <;> rfl
  · intro e he; split
    · simp
    · exact he

theorem foldl_keeps {α β : Type} {P : β → Prop} {g : β → α → β} (hg : ∀ m e, P m → P (g m e)) : ∀ (l : List α) {m : β},
    P m → P (l.foldl g m)
  | [], _, h => h
  | _ :: r, _, h => foldl_keeps hg r (hg _ _ h)

theorem PMem.movePage_wf {m : PMem} (ctx key : Nat) (old frame : PAddr) (h : m.wf = true) :
    (m.movePage ctx key old frame).wf = true := by
  have h1 : (if inHbm frame = true then m.revive frame else m).wf = true := by
    split
    · exact PMem.revive_wf _ h
    · exact h
  unfold PMem.movePage
  rw [PMem.wf_iff] at h1
  simp only []
  generalize (if inHbm frame = true then m.revive frame else m) = n at h1 ⊢
  rw [PMem.wf_iff]
  by_cases ho : inHbm old = true
  · simp only [ho, if_true]
    refine ⟨foldl_keeps (P := fun m => Memory.wf m = true) (fun _ _ h => put_wf _ _ h) _ (wipe_wf _ _ (wipe_wf _ _ h1.1)), ?_,
      foldl_keeps (P := fun m => Tags.wf m = true) (fun _ _ h => put_wf _ _ h) _ (wipe_wf _ _ h1.2.2)⟩
    split
    · exact foldl_keeps (P := fun m => Tags.wf m = true) (fun _ _ h => put_wf _ _ h) _ (wipe_wf _ _ h1.2.1)
    · exact wipe_wf _ _ h1.2.1
  · simp only [ho]
    refine ⟨foldl_keeps (P := fun m => Memory.wf m = true) (fun _ _ h => put_wf _ _ h) _ (wipe_wf _ _ h1.1), ?_,
      foldl_keeps (P := fun m => Tags.wf m = true) (fun _ _ h => put_wf _ _ h) _ h1.2.2⟩
    split
    · exact foldl_keeps (P := fun m => Tags.wf m = true) (fun _ _ h => put_wf _ _ h) _ h1.2.1
    · exact h1.2.1

theorem execRefreshElision_wf {region : Nat} {s t : State} (h : s.mem.wf = true)
    (ht : execRefreshElision region s = .next t) : t.mem.wf = true := by
  unfold execRefreshElision at ht
  rw [Host.Outcome.next.injEq] at ht
  subst ht
  split
  · exact h
  · rw [PMem.wf_iff] at h ⊢
    exact ⟨wipe_wf _ _ h.1, wipe_wf _ _ h.2.1, wipe_wf _ _ h.2.2⟩

end Sys2Proof.Machine
end

