-- ==== Sys2Proof/Laws/Ring.lean ====
section
/-! SUPPORT. A write of a reservation mask keeps the masks of different stations apart. -/

namespace Sys2Proof.Machine

theorem Ring.getD_set (r : Ring) (idx : Nat) (v : W64) (i : Nat) (hi : i < 128) :
    ((r.rsvm.setIfInBounds idx v)[i]?.getD 0) = if idx = i then v else r.rsvm[i]?.getD 0 := by
  simp only [Vector.getElem?_setIfInBounds]
  split
  · subst_vars; rw [if_pos hi]; rfl
  · rfl

/-- A mask that clashes with no other station meets none of theirs. -/
theorem Ring.clash_false {r : Ring} {idx : Nat} {v : W64} (h : r.clash idx v = false) {j : Nat} (hj : j < 128) (hn : j ≠ idx)
    (hm : j % 16 = idx % 16) : (r.rsvm[j]?.getD 0) &&& v = 0 := by
  unfold Ring.clash at h
  rw [List.any_eq_false] at h
  have := h (j / 16) (by simp only [List.mem_range]; omega)
  have e : 16 * (j / 16) + idx % 16 = j := by omega
  simp only [e, Bool.and_eq_true, bne_iff_ne, ne_eq, not_and, not_not] at this
  exact this hn

/-- Every write of a mask keeps the masks apart (R317). -/
theorem State.writeRsvm_apart {s : State} (idx : Nat) (v : W64) (h : s.ring.Apart) : (s.writeRsvm idx v).ring.Apart := by
  unfold State.writeRsvm
  split
  · exact h
  · rename_i hc
    simp only [Bool.not_eq_true] at hc
    intro i j hi hj hij hm
    simp only [Ring.getD_set _ _ _ _ hi, Ring.getD_set _ _ _ _ hj]
    split <;> split
    · omega
    · rename_i a b
      subst a
      rw [BitVec.and_comm]
      exact Ring.clash_false hc hj (Ne.symm hij) hm.symm
    · rename_i a b
      subst b
      exact Ring.clash_false hc hi hij hm
    · exact h i j hi hj hij hm

end Sys2Proof.Machine
end

