-- ==== Sys2Proof/Laws/State.lean ====
section
/-! SUPPORT. What each named update changes and what it leaves: one lemma per field and update. -/

namespace Sys2Proof.Machine

/-! ### Updates of the module -/

@[simp] theorem State.onMe_me (s : State) (f : Core → Core) :
    (s.onMe f).me = f s.me := rfl
@[simp] theorem State.onMe_rest (s : State) (f : Core → Core) :
    (s.onMe f).rest = s.rest := rfl
@[simp] theorem State.onMe_dies (s : State) (f : Core → Core) :
    (s.onMe f).dies = s.dies := rfl
@[simp] theorem State.onMe_parts (s : State) (f : Core → Core) :
    (s.onMe f).parts = s.parts := rfl
@[simp] theorem State.onMe_ctxs (s : State) (f : Core → Core) :
    (s.onMe f).ctxs = s.ctxs := rfl
@[simp] theorem State.onMe_groups (s : State) (f : Core → Core) :
    (s.onMe f).groups = s.groups := rfl
@[simp] theorem State.onMe_mapgen (s : State) (f : Core → Core) :
    (s.onMe f).mapgen = s.mapgen := rfl
@[simp] theorem State.onMe_mem (s : State) (f : Core → Core) :
    (s.onMe f).mem = s.mem := rfl
@[simp] theorem State.onMe_ring (s : State) (f : Core → Core) :
    (s.onMe f).ring = s.ring := rfl
@[simp] theorem State.onMe_rwins (s : State) (f : Core → Core) :
    (s.onMe f).rwins = s.rwins := rfl
@[simp] theorem State.onMe_cgroups (s : State) (f : Core → Core) :
    (s.onMe f).cgroups = s.cgroups := rfl
@[simp] theorem State.onMe_cruns (s : State) (f : Core → Core) :
    (s.onMe f).cruns = s.cruns := rfl
@[simp] theorem State.onMe_inbound (s : State) (f : Core → Core) :
    (s.onMe f).inbound = s.inbound := rfl
@[simp] theorem State.onMe_trctl (s : State) (f : Core → Core) :
    (s.onMe f).trctl = s.trctl := rfl
@[simp] theorem State.onMe_farBinds (s : State) (f : Core → Core) :
    (s.onMe f).farBinds = s.farBinds := rfl
@[simp] theorem State.onMe_farGone (s : State) (f : Core → Core) :
    (s.onMe f).farGone = s.farGone := rfl
@[simp] theorem State.onMe_servo (s : State) (f : Core → Core) :
    (s.onMe f).servo = s.servo := rfl
@[simp] theorem State.onMe_host (s : State) (f : Core → Core) :
    (s.onMe f).host = s.host := rfl
@[simp] theorem State.onMe_wall (s : State) (f : Core → Core) :
    (s.onMe f).wall = s.wall := rfl
@[simp] theorem State.onMe_free (s : State) (f : Core → Core) :
    (s.onMe f).free = s.free := rfl
@[simp] theorem State.onMe_agenda (s : State) (f : Core → Core) :
    (s.onMe f).agenda = s.agenda := rfl
@[simp] theorem State.onMe_turns (s : State) (f : Core → Core) :
    (s.onMe f).turns = s.turns := rfl
@[simp] theorem State.onMe_turnAt (s : State) (f : Core → Core) :
    (s.onMe f).turnAt = s.turnAt := rfl

@[simp] theorem State.onDie_me (s : State) (d : Nat) (f : Die → Die) :
    (s.onDie d f).me = s.me := rfl
@[simp] theorem State.onDie_rest (s : State) (d : Nat) (f : Die → Die) :
    (s.onDie d f).rest = s.rest := rfl
@[simp] theorem State.onDie_dies (s : State) (d : Nat) (f : Die → Die) :
    (s.onDie d f).dies = s.dies.set d (f (s.die d)) := rfl
@[simp] theorem State.onDie_parts (s : State) (d : Nat) (f : Die → Die) :
    (s.onDie d f).parts = s.parts := rfl
@[simp] theorem State.onDie_ctxs (s : State) (d : Nat) (f : Die → Die) :
    (s.onDie d f).ctxs = s.ctxs := rfl
@[simp] theorem State.onDie_groups (s : State) (d : Nat) (f : Die → Die) :
    (s.onDie d f).groups = s.groups := rfl
@[simp] theorem State.onDie_mapgen (s : State) (d : Nat) (f : Die → Die) :
    (s.onDie d f).mapgen = s.mapgen := rfl
@[simp] theorem State.onDie_mem (s : State) (d : Nat) (f : Die → Die) :
    (s.onDie d f).mem = s.mem := rfl
@[simp] theorem State.onDie_ring (s : State) (d : Nat) (f : Die → Die) :
    (s.onDie d f).ring = s.ring := rfl
@[simp] theorem State.onDie_rwins (s : State) (d : Nat) (f : Die → Die) :
    (s.onDie d f).rwins = s.rwins := rfl
@[simp] theorem State.onDie_cgroups (s : State) (d : Nat) (f : Die → Die) :
    (s.onDie d f).cgroups = s.cgroups := rfl
@[simp] theorem State.onDie_cruns (s : State) (d : Nat) (f : Die → Die) :
    (s.onDie d f).cruns = s.cruns := rfl
@[simp] theorem State.onDie_inbound (s : State) (d : Nat) (f : Die → Die) :
    (s.onDie d f).inbound = s.inbound := rfl
@[simp] theorem State.onDie_trctl (s : State) (d : Nat) (f : Die → Die) :
    (s.onDie d f).trctl = s.trctl := rfl
@[simp] theorem State.onDie_farBinds (s : State) (d : Nat) (f : Die → Die) :
    (s.onDie d f).farBinds = s.farBinds := rfl
@[simp] theorem State.onDie_farGone (s : State) (d : Nat) (f : Die → Die) :
    (s.onDie d f).farGone = s.farGone := rfl
@[simp] theorem State.onDie_servo (s : State) (d : Nat) (f : Die → Die) :
    (s.onDie d f).servo = s.servo := rfl
@[simp] theorem State.onDie_host (s : State) (d : Nat) (f : Die → Die) :
    (s.onDie d f).host = s.host := rfl
@[simp] theorem State.onDie_wall (s : State) (d : Nat) (f : Die → Die) :
    (s.onDie d f).wall = s.wall := rfl
@[simp] theorem State.onDie_free (s : State) (d : Nat) (f : Die → Die) :
    (s.onDie d f).free = s.free := rfl
@[simp] theorem State.onDie_agenda (s : State) (d : Nat) (f : Die → Die) :
    (s.onDie d f).agenda = s.agenda := rfl
@[simp] theorem State.onDie_turns (s : State) (d : Nat) (f : Die → Die) :
    (s.onDie d f).turns = s.turns := rfl
@[simp] theorem State.onDie_turnAt (s : State) (d : Nat) (f : Die → Die) :
    (s.onDie d f).turnAt = s.turnAt := rfl

@[simp] theorem State.onPart_me (s : State) (p : BitVec 6) (f : Part → Part) :
    (s.onPart p f).me = s.me := rfl
@[simp] theorem State.onPart_rest (s : State) (p : BitVec 6) (f : Part → Part) :
    (s.onPart p f).rest = s.rest := rfl
@[simp] theorem State.onPart_dies (s : State) (p : BitVec 6) (f : Part → Part) :
    (s.onPart p f).dies = s.dies := rfl
@[simp] theorem State.onPart_parts (s : State) (p : BitVec 6) (f : Part → Part) :
    (s.onPart p f).parts = s.parts.map fun e => if e.1 == p then (e.1, f e.2) else e := rfl
@[simp] theorem State.onPart_ctxs (s : State) (p : BitVec 6) (f : Part → Part) :
    (s.onPart p f).ctxs = s.ctxs := rfl
@[simp] theorem State.onPart_groups (s : State) (p : BitVec 6) (f : Part → Part) :
    (s.onPart p f).groups = s.groups := rfl
@[simp] theorem State.onPart_mapgen (s : State) (p : BitVec 6) (f : Part → Part) :
    (s.onPart p f).mapgen = s.mapgen := rfl
@[simp] theorem State.onPart_mem (s : State) (p : BitVec 6) (f : Part → Part) :
    (s.onPart p f).mem = s.mem := rfl
@[simp] theorem State.onPart_ring (s : State) (p : BitVec 6) (f : Part → Part) :
    (s.onPart p f).ring = s.ring := rfl
@[simp] theorem State.onPart_rwins (s : State) (p : BitVec 6) (f : Part → Part) :
    (s.onPart p f).rwins = s.rwins := rfl
@[simp] theorem State.onPart_cgroups (s : State) (p : BitVec 6) (f : Part → Part) :
    (s.onPart p f).cgroups = s.cgroups := rfl
@[simp] theorem State.onPart_cruns (s : State) (p : BitVec 6) (f : Part → Part) :
    (s.onPart p f).cruns = s.cruns := rfl
@[simp] theorem State.onPart_inbound (s : State) (p : BitVec 6) (f : Part → Part) :
    (s.onPart p f).inbound = s.inbound := rfl
@[simp] theorem State.onPart_trctl (s : State) (p : BitVec 6) (f : Part → Part) :
    (s.onPart p f).trctl = s.trctl := rfl
@[simp] theorem State.onPart_farBinds (s : State) (p : BitVec 6) (f : Part → Part) :
    (s.onPart p f).farBinds = s.farBinds := rfl
@[simp] theorem State.onPart_farGone (s : State) (p : BitVec 6) (f : Part → Part) :
    (s.onPart p f).farGone = s.farGone := rfl
@[simp] theorem State.onPart_servo (s : State) (p : BitVec 6) (f : Part → Part) :
    (s.onPart p f).servo = s.servo := rfl
@[simp] theorem State.onPart_host (s : State) (p : BitVec 6) (f : Part → Part) :
    (s.onPart p f).host = s.host := rfl
@[simp] theorem State.onPart_wall (s : State) (p : BitVec 6) (f : Part → Part) :
    (s.onPart p f).wall = s.wall := rfl
@[simp] theorem State.onPart_free (s : State) (p : BitVec 6) (f : Part → Part) :
    (s.onPart p f).free = s.free := rfl
@[simp] theorem State.onPart_agenda (s : State) (p : BitVec 6) (f : Part → Part) :
    (s.onPart p f).agenda = s.agenda := rfl
@[simp] theorem State.onPart_turns (s : State) (p : BitVec 6) (f : Part → Part) :
    (s.onPart p f).turns = s.turns := rfl
@[simp] theorem State.onPart_turnAt (s : State) (p : BitVec 6) (f : Part → Part) :
    (s.onPart p f).turnAt = s.turnAt := rfl

@[simp] theorem State.onCtx_me (s : State) (i : BitVec 16) (f : Ctx → Ctx) :
    (s.onCtx i f).me = s.me := rfl
@[simp] theorem State.onCtx_rest (s : State) (i : BitVec 16) (f : Ctx → Ctx) :
    (s.onCtx i f).rest = s.rest := rfl
@[simp] theorem State.onCtx_dies (s : State) (i : BitVec 16) (f : Ctx → Ctx) :
    (s.onCtx i f).dies = s.dies := rfl
@[simp] theorem State.onCtx_parts (s : State) (i : BitVec 16) (f : Ctx → Ctx) :
    (s.onCtx i f).parts = s.parts := rfl
@[simp] theorem State.onCtx_ctxs (s : State) (i : BitVec 16) (f : Ctx → Ctx) :
    (s.onCtx i f).ctxs = s.ctxs.map fun c => if c.id == i then f c else c := rfl
@[simp] theorem State.onCtx_groups (s : State) (i : BitVec 16) (f : Ctx → Ctx) :
    (s.onCtx i f).groups = s.groups := rfl
@[simp] theorem State.onCtx_mapgen (s : State) (i : BitVec 16) (f : Ctx → Ctx) :
    (s.onCtx i f).mapgen = s.mapgen := rfl
@[simp] theorem State.onCtx_mem (s : State) (i : BitVec 16) (f : Ctx → Ctx) :
    (s.onCtx i f).mem = s.mem := rfl
@[simp] theorem State.onCtx_ring (s : State) (i : BitVec 16) (f : Ctx → Ctx) :
    (s.onCtx i f).ring = s.ring := rfl
@[simp] theorem State.onCtx_rwins (s : State) (i : BitVec 16) (f : Ctx → Ctx) :
    (s.onCtx i f).rwins = s.rwins := rfl
@[simp] theorem State.onCtx_cgroups (s : State) (i : BitVec 16) (f : Ctx → Ctx) :
    (s.onCtx i f).cgroups = s.cgroups := rfl
@[simp] theorem State.onCtx_cruns (s : State) (i : BitVec 16) (f : Ctx → Ctx) :
    (s.onCtx i f).cruns = s.cruns := rfl
@[simp] theorem State.onCtx_inbound (s : State) (i : BitVec 16) (f : Ctx → Ctx) :
    (s.onCtx i f).inbound = s.inbound := rfl
@[simp] theorem State.onCtx_trctl (s : State) (i : BitVec 16) (f : Ctx → Ctx) :
    (s.onCtx i f).trctl = s.trctl := rfl
@[simp] theorem State.onCtx_farBinds (s : State) (i : BitVec 16) (f : Ctx → Ctx) :
    (s.onCtx i f).farBinds = s.farBinds := rfl
@[simp] theorem State.onCtx_farGone (s : State) (i : BitVec 16) (f : Ctx → Ctx) :
    (s.onCtx i f).farGone = s.farGone := rfl
@[simp] theorem State.onCtx_servo (s : State) (i : BitVec 16) (f : Ctx → Ctx) :
    (s.onCtx i f).servo = s.servo := rfl
@[simp] theorem State.onCtx_host (s : State) (i : BitVec 16) (f : Ctx → Ctx) :
    (s.onCtx i f).host = s.host := rfl
@[simp] theorem State.onCtx_wall (s : State) (i : BitVec 16) (f : Ctx → Ctx) :
    (s.onCtx i f).wall = s.wall := rfl
@[simp] theorem State.onCtx_free (s : State) (i : BitVec 16) (f : Ctx → Ctx) :
    (s.onCtx i f).free = s.free := rfl
@[simp] theorem State.onCtx_agenda (s : State) (i : BitVec 16) (f : Ctx → Ctx) :
    (s.onCtx i f).agenda = s.agenda := rfl
@[simp] theorem State.onCtx_turns (s : State) (i : BitVec 16) (f : Ctx → Ctx) :
    (s.onCtx i f).turns = s.turns := rfl
@[simp] theorem State.onCtx_turnAt (s : State) (i : BitVec 16) (f : Ctx → Ctx) :
    (s.onCtx i f).turnAt = s.turnAt := rfl

@[simp] theorem State.onGroup_me (s : State) (g : Nat) (f : Group → Group) :
    (s.onGroup g f).me = s.me := rfl
@[simp] theorem State.onGroup_rest (s : State) (g : Nat) (f : Group → Group) :
    (s.onGroup g f).rest = s.rest := rfl
@[simp] theorem State.onGroup_dies (s : State) (g : Nat) (f : Group → Group) :
    (s.onGroup g f).dies = s.dies := rfl
@[simp] theorem State.onGroup_parts (s : State) (g : Nat) (f : Group → Group) :
    (s.onGroup g f).parts = s.parts := rfl
@[simp] theorem State.onGroup_ctxs (s : State) (g : Nat) (f : Group → Group) :
    (s.onGroup g f).ctxs = s.ctxs := rfl
@[simp] theorem State.onGroup_groups (s : State) (g : Nat) (f : Group → Group) :
    (s.onGroup g f).groups = s.groups.set g (f (s.group g)) := rfl
@[simp] theorem State.onGroup_mapgen (s : State) (g : Nat) (f : Group → Group) :
    (s.onGroup g f).mapgen = s.mapgen := rfl
@[simp] theorem State.onGroup_mem (s : State) (g : Nat) (f : Group → Group) :
    (s.onGroup g f).mem = s.mem := rfl
@[simp] theorem State.onGroup_ring (s : State) (g : Nat) (f : Group → Group) :
    (s.onGroup g f).ring = s.ring := rfl
@[simp] theorem State.onGroup_rwins (s : State) (g : Nat) (f : Group → Group) :
    (s.onGroup g f).rwins = s.rwins := rfl
@[simp] theorem State.onGroup_cgroups (s : State) (g : Nat) (f : Group → Group) :
    (s.onGroup g f).cgroups = s.cgroups := rfl
@[simp] theorem State.onGroup_cruns (s : State) (g : Nat) (f : Group → Group) :
    (s.onGroup g f).cruns = s.cruns := rfl
@[simp] theorem State.onGroup_inbound (s : State) (g : Nat) (f : Group → Group) :
    (s.onGroup g f).inbound = s.inbound := rfl
@[simp] theorem State.onGroup_trctl (s : State) (g : Nat) (f : Group → Group) :
    (s.onGroup g f).trctl = s.trctl := rfl
@[simp] theorem State.onGroup_farBinds (s : State) (g : Nat) (f : Group → Group) :
    (s.onGroup g f).farBinds = s.farBinds := rfl
@[simp] theorem State.onGroup_farGone (s : State) (g : Nat) (f : Group → Group) :
    (s.onGroup g f).farGone = s.farGone := rfl
@[simp] theorem State.onGroup_servo (s : State) (g : Nat) (f : Group → Group) :
    (s.onGroup g f).servo = s.servo := rfl
@[simp] theorem State.onGroup_host (s : State) (g : Nat) (f : Group → Group) :
    (s.onGroup g f).host = s.host := rfl
@[simp] theorem State.onGroup_wall (s : State) (g : Nat) (f : Group → Group) :
    (s.onGroup g f).wall = s.wall := rfl
@[simp] theorem State.onGroup_free (s : State) (g : Nat) (f : Group → Group) :
    (s.onGroup g f).free = s.free := rfl
@[simp] theorem State.onGroup_agenda (s : State) (g : Nat) (f : Group → Group) :
    (s.onGroup g f).agenda = s.agenda := rfl
@[simp] theorem State.onGroup_turns (s : State) (g : Nat) (f : Group → Group) :
    (s.onGroup g f).turns = s.turns := rfl
@[simp] theorem State.onGroup_turnAt (s : State) (g : Nat) (f : Group → Group) :
    (s.onGroup g f).turnAt = s.turnAt := rfl

@[simp] theorem State.onHost_me (s : State) (f : HostIf → HostIf) :
    (s.onHost f).me = s.me := rfl
@[simp] theorem State.onHost_rest (s : State) (f : HostIf → HostIf) :
    (s.onHost f).rest = s.rest := rfl
@[simp] theorem State.onHost_dies (s : State) (f : HostIf → HostIf) :
    (s.onHost f).dies = s.dies := rfl
@[simp] theorem State.onHost_parts (s : State) (f : HostIf → HostIf) :
    (s.onHost f).parts = s.parts := rfl
@[simp] theorem State.onHost_ctxs (s : State) (f : HostIf → HostIf) :
    (s.onHost f).ctxs = s.ctxs := rfl
@[simp] theorem State.onHost_groups (s : State) (f : HostIf → HostIf) :
    (s.onHost f).groups = s.groups := rfl
@[simp] theorem State.onHost_mapgen (s : State) (f : HostIf → HostIf) :
    (s.onHost f).mapgen = s.mapgen := rfl
@[simp] theorem State.onHost_mem (s : State) (f : HostIf → HostIf) :
    (s.onHost f).mem = s.mem := rfl
@[simp] theorem State.onHost_ring (s : State) (f : HostIf → HostIf) :
    (s.onHost f).ring = s.ring := rfl
@[simp] theorem State.onHost_rwins (s : State) (f : HostIf → HostIf) :
    (s.onHost f).rwins = s.rwins := rfl
@[simp] theorem State.onHost_cgroups (s : State) (f : HostIf → HostIf) :
    (s.onHost f).cgroups = s.cgroups := rfl
@[simp] theorem State.onHost_cruns (s : State) (f : HostIf → HostIf) :
    (s.onHost f).cruns = s.cruns := rfl
@[simp] theorem State.onHost_inbound (s : State) (f : HostIf → HostIf) :
    (s.onHost f).inbound = s.inbound := rfl
@[simp] theorem State.onHost_trctl (s : State) (f : HostIf → HostIf) :
    (s.onHost f).trctl = s.trctl := rfl
@[simp] theorem State.onHost_farBinds (s : State) (f : HostIf → HostIf) :
    (s.onHost f).farBinds = s.farBinds := rfl
@[simp] theorem State.onHost_farGone (s : State) (f : HostIf → HostIf) :
    (s.onHost f).farGone = s.farGone := rfl
@[simp] theorem State.onHost_servo (s : State) (f : HostIf → HostIf) :
    (s.onHost f).servo = s.servo := rfl
@[simp] theorem State.onHost_host (s : State) (f : HostIf → HostIf) :
    (s.onHost f).host = f s.host := rfl
@[simp] theorem State.onHost_wall (s : State) (f : HostIf → HostIf) :
    (s.onHost f).wall = s.wall := rfl
@[simp] theorem State.onHost_free (s : State) (f : HostIf → HostIf) :
    (s.onHost f).free = s.free := rfl
@[simp] theorem State.onHost_agenda (s : State) (f : HostIf → HostIf) :
    (s.onHost f).agenda = s.agenda := rfl
@[simp] theorem State.onHost_turns (s : State) (f : HostIf → HostIf) :
    (s.onHost f).turns = s.turns := rfl
@[simp] theorem State.onHost_turnAt (s : State) (f : HostIf → HostIf) :
    (s.onHost f).turnAt = s.turnAt := rfl

@[simp] theorem State.dropIn_me (s : State) (t : Nat) :
    (s.dropIn t).me = s.me := rfl
@[simp] theorem State.dropIn_rest (s : State) (t : Nat) :
    (s.dropIn t).rest = s.rest := rfl
@[simp] theorem State.dropIn_dies (s : State) (t : Nat) :
    (s.dropIn t).dies = s.dies := rfl
@[simp] theorem State.dropIn_parts (s : State) (t : Nat) :
    (s.dropIn t).parts = s.parts := rfl
@[simp] theorem State.dropIn_ctxs (s : State) (t : Nat) :
    (s.dropIn t).ctxs = s.ctxs := rfl
@[simp] theorem State.dropIn_groups (s : State) (t : Nat) :
    (s.dropIn t).groups = s.groups := rfl
@[simp] theorem State.dropIn_mapgen (s : State) (t : Nat) :
    (s.dropIn t).mapgen = s.mapgen := rfl
@[simp] theorem State.dropIn_mem (s : State) (t : Nat) :
    (s.dropIn t).mem = s.mem := rfl
@[simp] theorem State.dropIn_ring (s : State) (t : Nat) :
    (s.dropIn t).ring = s.ring := rfl
@[simp] theorem State.dropIn_rwins (s : State) (t : Nat) :
    (s.dropIn t).rwins = s.rwins := rfl
@[simp] theorem State.dropIn_cgroups (s : State) (t : Nat) :
    (s.dropIn t).cgroups = s.cgroups := rfl
@[simp] theorem State.dropIn_cruns (s : State) (t : Nat) :
    (s.dropIn t).cruns = s.cruns := rfl
@[simp] theorem State.dropIn_trctl (s : State) (t : Nat) :
    (s.dropIn t).trctl = s.trctl := rfl
@[simp] theorem State.dropIn_farBinds (s : State) (t : Nat) :
    (s.dropIn t).farBinds = s.farBinds := rfl
@[simp] theorem State.dropIn_farGone (s : State) (t : Nat) :
    (s.dropIn t).farGone = s.farGone := rfl
@[simp] theorem State.dropIn_servo (s : State) (t : Nat) :
    (s.dropIn t).servo = s.servo := rfl
@[simp] theorem State.dropIn_host (s : State) (t : Nat) :
    (s.dropIn t).host = s.host := rfl
@[simp] theorem State.dropIn_wall (s : State) (t : Nat) :
    (s.dropIn t).wall = s.wall := rfl
@[simp] theorem State.dropIn_free (s : State) (t : Nat) :
    (s.dropIn t).free = s.free := rfl
@[simp] theorem State.dropIn_agenda (s : State) (t : Nat) :
    (s.dropIn t).agenda = s.agenda := rfl
@[simp] theorem State.dropIn_turns (s : State) (t : Nat) :
    (s.dropIn t).turns = s.turns := rfl
@[simp] theorem State.dropIn_turnAt (s : State) (t : Nat) :
    (s.dropIn t).turnAt = s.turnAt := rfl
@[simp] theorem State.dropIn_inbound (s : State) (t : Nat) :
    (s.dropIn t).inbound = s.inbound.filter fun m => m.tid != t := rfl

/-! ### Updates of a core -/

@[simp] theorem Core.onSpec_regs (c : Core) (f : Spec → Spec) :
    (c.onSpec f).regs = c.regs := rfl
@[simp] theorem Core.onSpec_loops (c : Core) (f : Spec → Spec) :
    (c.onSpec f).loops = c.loops := rfl
@[simp] theorem Core.onSpec_spec (c : Core) (f : Spec → Spec) :
    (c.onSpec f).spec = f c.spec := rfl
@[simp] theorem Core.onSpec_store (c : Core) (f : Spec → Spec) :
    (c.onSpec f).store = c.store := rfl
@[simp] theorem Core.onSpec_eng (c : Core) (f : Spec → Spec) :
    (c.onSpec f).eng = c.eng := rfl
@[simp] theorem Core.onSpec_flight (c : Core) (f : Spec → Spec) :
    (c.onSpec f).flight = c.flight := rfl
@[simp] theorem Core.onSpec_pc (c : Core) (f : Spec → Spec) :
    (c.onSpec f).pc = c.pc := rfl
@[simp] theorem Core.onSpec_xfer (c : Core) (f : Spec → Spec) :
    (c.onSpec f).xfer = c.xfer := rfl
@[simp] theorem Core.onSpec_fromTrap (c : Core) (f : Spec → Spec) :
    (c.onSpec f).fromTrap = c.fromTrap := rfl
@[simp] theorem Core.onSpec_run (c : Core) (f : Spec → Spec) :
    (c.onSpec f).run = c.run := rfl
@[simp] theorem Core.onSpec_stop (c : Core) (f : Spec → Spec) :
    (c.onSpec f).stop = c.stop := rfl
@[simp] theorem Core.onSpec_after (c : Core) (f : Spec → Spec) :
    (c.onSpec f).after = c.after := rfl
@[simp] theorem Core.onSpec_num (c : Core) (f : Spec → Spec) :
    (c.onSpec f).num = c.num := rfl
@[simp] theorem Core.onSpec_steward (c : Core) (f : Spec → Spec) :
    (c.onSpec f).steward = c.steward := rfl
@[simp] theorem Core.onSpec_ctx (c : Core) (f : Spec → Spec) :
    (c.onSpec f).ctx = c.ctx := rfl
@[simp] theorem Core.onSpec_part (c : Core) (f : Spec → Spec) :
    (c.onSpec f).part = c.part := rfl
@[simp] theorem Core.onSpec_rank (c : Core) (f : Spec → Spec) :
    (c.onSpec f).rank = c.rank := rfl
@[simp] theorem Core.onSpec_ncl (c : Core) (f : Spec → Spec) :
    (c.onSpec f).ncl = c.ncl := rfl
@[simp] theorem Core.onSpec_utlb (c : Core) (f : Spec → Spec) :
    (c.onSpec f).utlb = c.utlb := rfl
@[simp] theorem Core.onSpec_walk (c : Core) (f : Spec → Spec) :
    (c.onSpec f).walk = c.walk := rfl
@[simp] theorem Core.onSpec_leave (c : Core) (f : Spec → Spec) :
    (c.onSpec f).leave = c.leave := rfl
@[simp] theorem Core.onSpec_grants (c : Core) (f : Spec → Spec) :
    (c.onSpec f).grants = c.grants := rfl
@[simp] theorem Core.onSpec_ckpt (c : Core) (f : Spec → Spec) :
    (c.onSpec f).ckpt = c.ckpt := rfl
@[simp] theorem Core.onSpec_kept (c : Core) (f : Spec → Spec) :
    (c.onSpec f).kept = c.kept := rfl
@[simp] theorem Core.onSpec_fault (c : Core) (f : Spec → Spec) :
    (c.onSpec f).fault = c.fault := rfl
@[simp] theorem Core.onSpec_since (c : Core) (f : Spec → Spec) :
    (c.onSpec f).since = c.since := rfl
@[simp] theorem Core.onSpec_served (c : Core) (f : Spec → Spec) :
    (c.onSpec f).served = c.served := rfl
@[simp] theorem Core.onSpec_iss (c : Core) (f : Spec → Spec) :
    (c.onSpec f).iss = c.iss := rfl

@[simp] theorem Core.onEng_regs (c : Core) (f : Eng → Eng) :
    (c.onEng f).regs = c.regs := rfl
@[simp] theorem Core.onEng_loops (c : Core) (f : Eng → Eng) :
    (c.onEng f).loops = c.loops := rfl
@[simp] theorem Core.onEng_spec (c : Core) (f : Eng → Eng) :
    (c.onEng f).spec = c.spec := rfl
@[simp] theorem Core.onEng_store (c : Core) (f : Eng → Eng) :
    (c.onEng f).store = c.store := rfl
@[simp] theorem Core.onEng_eng (c : Core) (f : Eng → Eng) :
    (c.onEng f).eng = f c.eng := rfl
@[simp] theorem Core.onEng_flight (c : Core) (f : Eng → Eng) :
    (c.onEng f).flight = c.flight := rfl
@[simp] theorem Core.onEng_pc (c : Core) (f : Eng → Eng) :
    (c.onEng f).pc = c.pc := rfl
@[simp] theorem Core.onEng_xfer (c : Core) (f : Eng → Eng) :
    (c.onEng f).xfer = c.xfer := rfl
@[simp] theorem Core.onEng_fromTrap (c : Core) (f : Eng → Eng) :
    (c.onEng f).fromTrap = c.fromTrap := rfl
@[simp] theorem Core.onEng_run (c : Core) (f : Eng → Eng) :
    (c.onEng f).run = c.run := rfl
@[simp] theorem Core.onEng_stop (c : Core) (f : Eng → Eng) :
    (c.onEng f).stop = c.stop := rfl
@[simp] theorem Core.onEng_after (c : Core) (f : Eng → Eng) :
    (c.onEng f).after = c.after := rfl
@[simp] theorem Core.onEng_num (c : Core) (f : Eng → Eng) :
    (c.onEng f).num = c.num := rfl
@[simp] theorem Core.onEng_steward (c : Core) (f : Eng → Eng) :
    (c.onEng f).steward = c.steward := rfl
@[simp] theorem Core.onEng_ctx (c : Core) (f : Eng → Eng) :
    (c.onEng f).ctx = c.ctx := rfl
@[simp] theorem Core.onEng_part (c : Core) (f : Eng → Eng) :
    (c.onEng f).part = c.part := rfl
@[simp] theorem Core.onEng_rank (c : Core) (f : Eng → Eng) :
    (c.onEng f).rank = c.rank := rfl
@[simp] theorem Core.onEng_ncl (c : Core) (f : Eng → Eng) :
    (c.onEng f).ncl = c.ncl := rfl
@[simp] theorem Core.onEng_utlb (c : Core) (f : Eng → Eng) :
    (c.onEng f).utlb = c.utlb := rfl
@[simp] theorem Core.onEng_walk (c : Core) (f : Eng → Eng) :
    (c.onEng f).walk = c.walk := rfl
@[simp] theorem Core.onEng_leave (c : Core) (f : Eng → Eng) :
    (c.onEng f).leave = c.leave := rfl
@[simp] theorem Core.onEng_grants (c : Core) (f : Eng → Eng) :
    (c.onEng f).grants = c.grants := rfl
@[simp] theorem Core.onEng_ckpt (c : Core) (f : Eng → Eng) :
    (c.onEng f).ckpt = c.ckpt := rfl
@[simp] theorem Core.onEng_kept (c : Core) (f : Eng → Eng) :
    (c.onEng f).kept = c.kept := rfl
@[simp] theorem Core.onEng_fault (c : Core) (f : Eng → Eng) :
    (c.onEng f).fault = c.fault := rfl
@[simp] theorem Core.onEng_since (c : Core) (f : Eng → Eng) :
    (c.onEng f).since = c.since := rfl
@[simp] theorem Core.onEng_served (c : Core) (f : Eng → Eng) :
    (c.onEng f).served = c.served := rfl
@[simp] theorem Core.onEng_iss (c : Core) (f : Eng → Eng) :
    (c.onEng f).iss = c.iss := rfl

@[simp] theorem Core.onIss_regs (c : Core) (f : Iss → Iss) :
    (c.onIss f).regs = c.regs := rfl
@[simp] theorem Core.onIss_loops (c : Core) (f : Iss → Iss) :
    (c.onIss f).loops = c.loops := rfl
@[simp] theorem Core.onIss_spec (c : Core) (f : Iss → Iss) :
    (c.onIss f).spec = c.spec := rfl
@[simp] theorem Core.onIss_store (c : Core) (f : Iss → Iss) :
    (c.onIss f).store = c.store := rfl
@[simp] theorem Core.onIss_eng (c : Core) (f : Iss → Iss) :
    (c.onIss f).eng = c.eng := rfl
@[simp] theorem Core.onIss_flight (c : Core) (f : Iss → Iss) :
    (c.onIss f).flight = c.flight := rfl
@[simp] theorem Core.onIss_pc (c : Core) (f : Iss → Iss) :
    (c.onIss f).pc = c.pc := rfl
@[simp] theorem Core.onIss_xfer (c : Core) (f : Iss → Iss) :
    (c.onIss f).xfer = c.xfer := rfl
@[simp] theorem Core.onIss_fromTrap (c : Core) (f : Iss → Iss) :
    (c.onIss f).fromTrap = c.fromTrap := rfl
@[simp] theorem Core.onIss_run (c : Core) (f : Iss → Iss) :
    (c.onIss f).run = c.run := rfl
@[simp] theorem Core.onIss_stop (c : Core) (f : Iss → Iss) :
    (c.onIss f).stop = c.stop := rfl
@[simp] theorem Core.onIss_after (c : Core) (f : Iss → Iss) :
    (c.onIss f).after = c.after := rfl
@[simp] theorem Core.onIss_num (c : Core) (f : Iss → Iss) :
    (c.onIss f).num = c.num := rfl
@[simp] theorem Core.onIss_steward (c : Core) (f : Iss → Iss) :
    (c.onIss f).steward = c.steward := rfl
@[simp] theorem Core.onIss_ctx (c : Core) (f : Iss → Iss) :
    (c.onIss f).ctx = c.ctx := rfl
@[simp] theorem Core.onIss_part (c : Core) (f : Iss → Iss) :
    (c.onIss f).part = c.part := rfl
@[simp] theorem Core.onIss_rank (c : Core) (f : Iss → Iss) :
    (c.onIss f).rank = c.rank := rfl
@[simp] theorem Core.onIss_ncl (c : Core) (f : Iss → Iss) :
    (c.onIss f).ncl = c.ncl := rfl
@[simp] theorem Core.onIss_utlb (c : Core) (f : Iss → Iss) :
    (c.onIss f).utlb = c.utlb := rfl
@[simp] theorem Core.onIss_walk (c : Core) (f : Iss → Iss) :
    (c.onIss f).walk = c.walk := rfl
@[simp] theorem Core.onIss_leave (c : Core) (f : Iss → Iss) :
    (c.onIss f).leave = c.leave := rfl
@[simp] theorem Core.onIss_grants (c : Core) (f : Iss → Iss) :
    (c.onIss f).grants = c.grants := rfl
@[simp] theorem Core.onIss_ckpt (c : Core) (f : Iss → Iss) :
    (c.onIss f).ckpt = c.ckpt := rfl
@[simp] theorem Core.onIss_kept (c : Core) (f : Iss → Iss) :
    (c.onIss f).kept = c.kept := rfl
@[simp] theorem Core.onIss_fault (c : Core) (f : Iss → Iss) :
    (c.onIss f).fault = c.fault := rfl
@[simp] theorem Core.onIss_since (c : Core) (f : Iss → Iss) :
    (c.onIss f).since = c.since := rfl
@[simp] theorem Core.onIss_served (c : Core) (f : Iss → Iss) :
    (c.onIss f).served = c.served := rfl
@[simp] theorem Core.onIss_iss (c : Core) (f : Iss → Iss) :
    (c.onIss f).iss = f c.iss := rfl

@[simp] theorem Core.setV_regs (c : Core) (r : Reg) (x : VReg) :
    (c.setV r x).regs = { c.regs with v := c.regs.v.set r.toNat x } := rfl
@[simp] theorem Core.setV_loops (c : Core) (r : Reg) (x : VReg) :
    (c.setV r x).loops = c.loops := rfl
@[simp] theorem Core.setV_spec (c : Core) (r : Reg) (x : VReg) :
    (c.setV r x).spec = c.spec := rfl
@[simp] theorem Core.setV_store (c : Core) (r : Reg) (x : VReg) :
    (c.setV r x).store = c.store := rfl
@[simp] theorem Core.setV_eng (c : Core) (r : Reg) (x : VReg) :
    (c.setV r x).eng = c.eng := rfl
@[simp] theorem Core.setV_flight (c : Core) (r : Reg) (x : VReg) :
    (c.setV r x).flight = c.flight := rfl
@[simp] theorem Core.setV_pc (c : Core) (r : Reg) (x : VReg) :
    (c.setV r x).pc = c.pc := rfl
@[simp] theorem Core.setV_xfer (c : Core) (r : Reg) (x : VReg) :
    (c.setV r x).xfer = c.xfer := rfl
@[simp] theorem Core.setV_fromTrap (c : Core) (r : Reg) (x : VReg) :
    (c.setV r x).fromTrap = c.fromTrap := rfl
@[simp] theorem Core.setV_run (c : Core) (r : Reg) (x : VReg) :
    (c.setV r x).run = c.run := rfl
@[simp] theorem Core.setV_stop (c : Core) (r : Reg) (x : VReg) :
    (c.setV r x).stop = c.stop := rfl
@[simp] theorem Core.setV_after (c : Core) (r : Reg) (x : VReg) :
    (c.setV r x).after = c.after := rfl
@[simp] theorem Core.setV_num (c : Core) (r : Reg) (x : VReg) :
    (c.setV r x).num = c.num := rfl
@[simp] theorem Core.setV_steward (c : Core) (r : Reg) (x : VReg) :
    (c.setV r x).steward = c.steward := rfl
@[simp] theorem Core.setV_ctx (c : Core) (r : Reg) (x : VReg) :
    (c.setV r x).ctx = c.ctx := rfl
@[simp] theorem Core.setV_part (c : Core) (r : Reg) (x : VReg) :
    (c.setV r x).part = c.part := rfl
@[simp] theorem Core.setV_rank (c : Core) (r : Reg) (x : VReg) :
    (c.setV r x).rank = c.rank := rfl
@[simp] theorem Core.setV_ncl (c : Core) (r : Reg) (x : VReg) :
    (c.setV r x).ncl = c.ncl := rfl
@[simp] theorem Core.setV_utlb (c : Core) (r : Reg) (x : VReg) :
    (c.setV r x).utlb = c.utlb := rfl
@[simp] theorem Core.setV_walk (c : Core) (r : Reg) (x : VReg) :
    (c.setV r x).walk = c.walk := rfl
@[simp] theorem Core.setV_leave (c : Core) (r : Reg) (x : VReg) :
    (c.setV r x).leave = c.leave := rfl
@[simp] theorem Core.setV_grants (c : Core) (r : Reg) (x : VReg) :
    (c.setV r x).grants = c.grants := rfl
@[simp] theorem Core.setV_ckpt (c : Core) (r : Reg) (x : VReg) :
    (c.setV r x).ckpt = c.ckpt := rfl
@[simp] theorem Core.setV_kept (c : Core) (r : Reg) (x : VReg) :
    (c.setV r x).kept = c.kept := rfl
@[simp] theorem Core.setV_fault (c : Core) (r : Reg) (x : VReg) :
    (c.setV r x).fault = c.fault := rfl
@[simp] theorem Core.setV_since (c : Core) (r : Reg) (x : VReg) :
    (c.setV r x).since = c.since := rfl
@[simp] theorem Core.setV_served (c : Core) (r : Reg) (x : VReg) :
    (c.setV r x).served = c.served := rfl
@[simp] theorem Core.setV_iss (c : Core) (r : Reg) (x : VReg) :
    (c.setV r x).iss = c.iss := rfl

@[simp] theorem Core.setG_regs (c : Core) (g : GIdx) (x : Steer) :
    (c.setG g x).regs = { c.regs with g := c.regs.g.setIfInBounds g.toNat x } := rfl
@[simp] theorem Core.setG_loops (c : Core) (g : GIdx) (x : Steer) :
    (c.setG g x).loops = c.loops := rfl
@[simp] theorem Core.setG_spec (c : Core) (g : GIdx) (x : Steer) :
    (c.setG g x).spec = c.spec := rfl
@[simp] theorem Core.setG_store (c : Core) (g : GIdx) (x : Steer) :
    (c.setG g x).store = c.store := rfl
@[simp] theorem Core.setG_eng (c : Core) (g : GIdx) (x : Steer) :
    (c.setG g x).eng = c.eng := rfl
@[simp] theorem Core.setG_flight (c : Core) (g : GIdx) (x : Steer) :
    (c.setG g x).flight = c.flight := rfl
@[simp] theorem Core.setG_pc (c : Core) (g : GIdx) (x : Steer) :
    (c.setG g x).pc = c.pc := rfl
@[simp] theorem Core.setG_xfer (c : Core) (g : GIdx) (x : Steer) :
    (c.setG g x).xfer = c.xfer := rfl
@[simp] theorem Core.setG_fromTrap (c : Core) (g : GIdx) (x : Steer) :
    (c.setG g x).fromTrap = c.fromTrap := rfl
@[simp] theorem Core.setG_run (c : Core) (g : GIdx) (x : Steer) :
    (c.setG g x).run = c.run := rfl
@[simp] theorem Core.setG_stop (c : Core) (g : GIdx) (x : Steer) :
    (c.setG g x).stop = c.stop := rfl
@[simp] theorem Core.setG_after (c : Core) (g : GIdx) (x : Steer) :
    (c.setG g x).after = c.after := rfl
@[simp] theorem Core.setG_num (c : Core) (g : GIdx) (x : Steer) :
    (c.setG g x).num = c.num := rfl
@[simp] theorem Core.setG_steward (c : Core) (g : GIdx) (x : Steer) :
    (c.setG g x).steward = c.steward := rfl
@[simp] theorem Core.setG_ctx (c : Core) (g : GIdx) (x : Steer) :
    (c.setG g x).ctx = c.ctx := rfl
@[simp] theorem Core.setG_part (c : Core) (g : GIdx) (x : Steer) :
    (c.setG g x).part = c.part := rfl
@[simp] theorem Core.setG_rank (c : Core) (g : GIdx) (x : Steer) :
    (c.setG g x).rank = c.rank := rfl
@[simp] theorem Core.setG_ncl (c : Core) (g : GIdx) (x : Steer) :
    (c.setG g x).ncl = c.ncl := rfl
@[simp] theorem Core.setG_utlb (c : Core) (g : GIdx) (x : Steer) :
    (c.setG g x).utlb = c.utlb := rfl
@[simp] theorem Core.setG_walk (c : Core) (g : GIdx) (x : Steer) :
    (c.setG g x).walk = c.walk := rfl
@[simp] theorem Core.setG_leave (c : Core) (g : GIdx) (x : Steer) :
    (c.setG g x).leave = c.leave := rfl
@[simp] theorem Core.setG_grants (c : Core) (g : GIdx) (x : Steer) :
    (c.setG g x).grants = c.grants := rfl
@[simp] theorem Core.setG_ckpt (c : Core) (g : GIdx) (x : Steer) :
    (c.setG g x).ckpt = c.ckpt := rfl
@[simp] theorem Core.setG_kept (c : Core) (g : GIdx) (x : Steer) :
    (c.setG g x).kept = c.kept := rfl
@[simp] theorem Core.setG_fault (c : Core) (g : GIdx) (x : Steer) :
    (c.setG g x).fault = c.fault := rfl
@[simp] theorem Core.setG_since (c : Core) (g : GIdx) (x : Steer) :
    (c.setG g x).since = c.since := rfl
@[simp] theorem Core.setG_served (c : Core) (g : GIdx) (x : Steer) :
    (c.setG g x).served = c.served := rfl
@[simp] theorem Core.setG_iss (c : Core) (g : GIdx) (x : Steer) :
    (c.setG g x).iss = c.iss := rfl

@[simp] theorem Core.setLevel_regs (c : Core) (k : Nat) (x : Level) :
    (c.setLevel k x).regs = c.regs := rfl
@[simp] theorem Core.setLevel_loops (c : Core) (k : Nat) (x : Level) :
    (c.setLevel k x).loops = { c.loops with lev := c.loops.lev.setIfInBounds k x } := rfl
@[simp] theorem Core.setLevel_spec (c : Core) (k : Nat) (x : Level) :
    (c.setLevel k x).spec = c.spec := rfl
@[simp] theorem Core.setLevel_store (c : Core) (k : Nat) (x : Level) :
    (c.setLevel k x).store = c.store := rfl
@[simp] theorem Core.setLevel_eng (c : Core) (k : Nat) (x : Level) :
    (c.setLevel k x).eng = c.eng := rfl
@[simp] theorem Core.setLevel_flight (c : Core) (k : Nat) (x : Level) :
    (c.setLevel k x).flight = c.flight := rfl
@[simp] theorem Core.setLevel_pc (c : Core) (k : Nat) (x : Level) :
    (c.setLevel k x).pc = c.pc := rfl
@[simp] theorem Core.setLevel_xfer (c : Core) (k : Nat) (x : Level) :
    (c.setLevel k x).xfer = c.xfer := rfl
@[simp] theorem Core.setLevel_fromTrap (c : Core) (k : Nat) (x : Level) :
    (c.setLevel k x).fromTrap = c.fromTrap := rfl
@[simp] theorem Core.setLevel_run (c : Core) (k : Nat) (x : Level) :
    (c.setLevel k x).run = c.run := rfl
@[simp] theorem Core.setLevel_stop (c : Core) (k : Nat) (x : Level) :
    (c.setLevel k x).stop = c.stop := rfl
@[simp] theorem Core.setLevel_after (c : Core) (k : Nat) (x : Level) :
    (c.setLevel k x).after = c.after := rfl
@[simp] theorem Core.setLevel_num (c : Core) (k : Nat) (x : Level) :
    (c.setLevel k x).num = c.num := rfl
@[simp] theorem Core.setLevel_steward (c : Core) (k : Nat) (x : Level) :
    (c.setLevel k x).steward = c.steward := rfl
@[simp] theorem Core.setLevel_ctx (c : Core) (k : Nat) (x : Level) :
    (c.setLevel k x).ctx = c.ctx := rfl
@[simp] theorem Core.setLevel_part (c : Core) (k : Nat) (x : Level) :
    (c.setLevel k x).part = c.part := rfl
@[simp] theorem Core.setLevel_rank (c : Core) (k : Nat) (x : Level) :
    (c.setLevel k x).rank = c.rank := rfl
@[simp] theorem Core.setLevel_ncl (c : Core) (k : Nat) (x : Level) :
    (c.setLevel k x).ncl = c.ncl := rfl
@[simp] theorem Core.setLevel_utlb (c : Core) (k : Nat) (x : Level) :
    (c.setLevel k x).utlb = c.utlb := rfl
@[simp] theorem Core.setLevel_walk (c : Core) (k : Nat) (x : Level) :
    (c.setLevel k x).walk = c.walk := rfl
@[simp] theorem Core.setLevel_leave (c : Core) (k : Nat) (x : Level) :
    (c.setLevel k x).leave = c.leave := rfl
@[simp] theorem Core.setLevel_grants (c : Core) (k : Nat) (x : Level) :
    (c.setLevel k x).grants = c.grants := rfl
@[simp] theorem Core.setLevel_ckpt (c : Core) (k : Nat) (x : Level) :
    (c.setLevel k x).ckpt = c.ckpt := rfl
@[simp] theorem Core.setLevel_kept (c : Core) (k : Nat) (x : Level) :
    (c.setLevel k x).kept = c.kept := rfl
@[simp] theorem Core.setLevel_fault (c : Core) (k : Nat) (x : Level) :
    (c.setLevel k x).fault = c.fault := rfl
@[simp] theorem Core.setLevel_since (c : Core) (k : Nat) (x : Level) :
    (c.setLevel k x).since = c.since := rfl
@[simp] theorem Core.setLevel_served (c : Core) (k : Nat) (x : Level) :
    (c.setLevel k x).served = c.served := rfl
@[simp] theorem Core.setLevel_iss (c : Core) (k : Nat) (x : Level) :
    (c.setLevel k x).iss = c.iss := rfl

@[simp] theorem Core.setLsd_regs (c : Core) (n : BitVec 3) :
    (c.setLsd n).regs = c.regs := rfl
@[simp] theorem Core.setLsd_loops (c : Core) (n : BitVec 3) :
    (c.setLsd n).loops = { c.loops with lsd := n } := rfl
@[simp] theorem Core.setLsd_spec (c : Core) (n : BitVec 3) :
    (c.setLsd n).spec = c.spec := rfl
@[simp] theorem Core.setLsd_store (c : Core) (n : BitVec 3) :
    (c.setLsd n).store = c.store := rfl
@[simp] theorem Core.setLsd_eng (c : Core) (n : BitVec 3) :
    (c.setLsd n).eng = c.eng := rfl
@[simp] theorem Core.setLsd_flight (c : Core) (n : BitVec 3) :
    (c.setLsd n).flight = c.flight := rfl
@[simp] theorem Core.setLsd_pc (c : Core) (n : BitVec 3) :
    (c.setLsd n).pc = c.pc := rfl
@[simp] theorem Core.setLsd_xfer (c : Core) (n : BitVec 3) :
    (c.setLsd n).xfer = c.xfer := rfl
@[simp] theorem Core.setLsd_fromTrap (c : Core) (n : BitVec 3) :
    (c.setLsd n).fromTrap = c.fromTrap := rfl
@[simp] theorem Core.setLsd_run (c : Core) (n : BitVec 3) :
    (c.setLsd n).run = c.run := rfl
@[simp] theorem Core.setLsd_stop (c : Core) (n : BitVec 3) :
    (c.setLsd n).stop = c.stop := rfl
@[simp] theorem Core.setLsd_after (c : Core) (n : BitVec 3) :
    (c.setLsd n).after = c.after := rfl
@[simp] theorem Core.setLsd_num (c : Core) (n : BitVec 3) :
    (c.setLsd n).num = c.num := rfl
@[simp] theorem Core.setLsd_steward (c : Core) (n : BitVec 3) :
    (c.setLsd n).steward = c.steward := rfl
@[simp] theorem Core.setLsd_ctx (c : Core) (n : BitVec 3) :
    (c.setLsd n).ctx = c.ctx := rfl
@[simp] theorem Core.setLsd_part (c : Core) (n : BitVec 3) :
    (c.setLsd n).part = c.part := rfl
@[simp] theorem Core.setLsd_rank (c : Core) (n : BitVec 3) :
    (c.setLsd n).rank = c.rank := rfl
@[simp] theorem Core.setLsd_ncl (c : Core) (n : BitVec 3) :
    (c.setLsd n).ncl = c.ncl := rfl
@[simp] theorem Core.setLsd_utlb (c : Core) (n : BitVec 3) :
    (c.setLsd n).utlb = c.utlb := rfl
@[simp] theorem Core.setLsd_walk (c : Core) (n : BitVec 3) :
    (c.setLsd n).walk = c.walk := rfl
@[simp] theorem Core.setLsd_leave (c : Core) (n : BitVec 3) :
    (c.setLsd n).leave = c.leave := rfl
@[simp] theorem Core.setLsd_grants (c : Core) (n : BitVec 3) :
    (c.setLsd n).grants = c.grants := rfl
@[simp] theorem Core.setLsd_ckpt (c : Core) (n : BitVec 3) :
    (c.setLsd n).ckpt = c.ckpt := rfl
@[simp] theorem Core.setLsd_kept (c : Core) (n : BitVec 3) :
    (c.setLsd n).kept = c.kept := rfl
@[simp] theorem Core.setLsd_fault (c : Core) (n : BitVec 3) :
    (c.setLsd n).fault = c.fault := rfl
@[simp] theorem Core.setLsd_since (c : Core) (n : BitVec 3) :
    (c.setLsd n).since = c.since := rfl
@[simp] theorem Core.setLsd_served (c : Core) (n : BitVec 3) :
    (c.setLsd n).served = c.served := rfl
@[simp] theorem Core.setLsd_iss (c : Core) (n : BitVec 3) :
    (c.setLsd n).iss = c.iss := rfl

@[simp] theorem Core.push_regs (c : Core) (l : Nat) (w : Landing) :
    (c.push l w).regs = c.regs := rfl
@[simp] theorem Core.push_loops (c : Core) (l : Nat) (w : Landing) :
    (c.push l w).loops = c.loops := rfl
@[simp] theorem Core.push_spec (c : Core) (l : Nat) (w : Landing) :
    (c.push l w).spec = c.spec := rfl
@[simp] theorem Core.push_store (c : Core) (l : Nat) (w : Landing) :
    (c.push l w).store = c.store := rfl
@[simp] theorem Core.push_eng (c : Core) (l : Nat) (w : Landing) :
    (c.push l w).eng = c.eng := rfl
@[simp] theorem Core.push_flight (c : Core) (l : Nat) (w : Landing) :
    (c.push l w).flight = c.flight ++ [{ remain := l, past := 0, declared := 0, await := .no, what := w }] := rfl
@[simp] theorem Core.push_pc (c : Core) (l : Nat) (w : Landing) :
    (c.push l w).pc = c.pc := rfl
@[simp] theorem Core.push_xfer (c : Core) (l : Nat) (w : Landing) :
    (c.push l w).xfer = c.xfer := rfl
@[simp] theorem Core.push_fromTrap (c : Core) (l : Nat) (w : Landing) :
    (c.push l w).fromTrap = c.fromTrap := rfl
@[simp] theorem Core.push_run (c : Core) (l : Nat) (w : Landing) :
    (c.push l w).run = c.run := rfl
@[simp] theorem Core.push_stop (c : Core) (l : Nat) (w : Landing) :
    (c.push l w).stop = c.stop := rfl
@[simp] theorem Core.push_after (c : Core) (l : Nat) (w : Landing) :
    (c.push l w).after = c.after := rfl
@[simp] theorem Core.push_num (c : Core) (l : Nat) (w : Landing) :
    (c.push l w).num = c.num := rfl
@[simp] theorem Core.push_steward (c : Core) (l : Nat) (w : Landing) :
    (c.push l w).steward = c.steward := rfl
@[simp] theorem Core.push_ctx (c : Core) (l : Nat) (w : Landing) :
    (c.push l w).ctx = c.ctx := rfl
@[simp] theorem Core.push_part (c : Core) (l : Nat) (w : Landing) :
    (c.push l w).part = c.part := rfl
@[simp] theorem Core.push_rank (c : Core) (l : Nat) (w : Landing) :
    (c.push l w).rank = c.rank := rfl
@[simp] theorem Core.push_ncl (c : Core) (l : Nat) (w : Landing) :
    (c.push l w).ncl = c.ncl := rfl
@[simp] theorem Core.push_utlb (c : Core) (l : Nat) (w : Landing) :
    (c.push l w).utlb = c.utlb := rfl
@[simp] theorem Core.push_walk (c : Core) (l : Nat) (w : Landing) :
    (c.push l w).walk = c.walk := rfl
@[simp] theorem Core.push_leave (c : Core) (l : Nat) (w : Landing) :
    (c.push l w).leave = c.leave := rfl
@[simp] theorem Core.push_grants (c : Core) (l : Nat) (w : Landing) :
    (c.push l w).grants = c.grants := rfl
@[simp] theorem Core.push_ckpt (c : Core) (l : Nat) (w : Landing) :
    (c.push l w).ckpt = c.ckpt := rfl
@[simp] theorem Core.push_kept (c : Core) (l : Nat) (w : Landing) :
    (c.push l w).kept = c.kept := rfl
@[simp] theorem Core.push_fault (c : Core) (l : Nat) (w : Landing) :
    (c.push l w).fault = c.fault := rfl
@[simp] theorem Core.push_since (c : Core) (l : Nat) (w : Landing) :
    (c.push l w).since = c.since := rfl
@[simp] theorem Core.push_served (c : Core) (l : Nat) (w : Landing) :
    (c.push l w).served = c.served := rfl
@[simp] theorem Core.push_iss (c : Core) (l : Nat) (w : Landing) :
    (c.push l w).iss = c.iss := rfl

@[simp] theorem Core.pushAwait_regs (c : Core) (l : Nat) (a : Await) (w : Landing) :
    (c.pushAwait l a w).regs = c.regs := rfl
@[simp] theorem Core.pushAwait_loops (c : Core) (l : Nat) (a : Await) (w : Landing) :
    (c.pushAwait l a w).loops = c.loops := rfl
@[simp] theorem Core.pushAwait_spec (c : Core) (l : Nat) (a : Await) (w : Landing) :
    (c.pushAwait l a w).spec = c.spec := rfl
@[simp] theorem Core.pushAwait_store (c : Core) (l : Nat) (a : Await) (w : Landing) :
    (c.pushAwait l a w).store = c.store := rfl
@[simp] theorem Core.pushAwait_eng (c : Core) (l : Nat) (a : Await) (w : Landing) :
    (c.pushAwait l a w).eng = c.eng := rfl
@[simp] theorem Core.pushAwait_flight (c : Core) (l : Nat) (a : Await) (w : Landing) :
    (c.pushAwait l a w).flight = c.flight ++ [{ remain := l, past := 0, declared := a.declared l, await := a, what := w }] := rfl
@[simp] theorem Core.pushAwait_pc (c : Core) (l : Nat) (a : Await) (w : Landing) :
    (c.pushAwait l a w).pc = c.pc := rfl
@[simp] theorem Core.pushAwait_xfer (c : Core) (l : Nat) (a : Await) (w : Landing) :
    (c.pushAwait l a w).xfer = c.xfer := rfl
@[simp] theorem Core.pushAwait_fromTrap (c : Core) (l : Nat) (a : Await) (w : Landing) :
    (c.pushAwait l a w).fromTrap = c.fromTrap := rfl
@[simp] theorem Core.pushAwait_run (c : Core) (l : Nat) (a : Await) (w : Landing) :
    (c.pushAwait l a w).run = c.run := rfl
@[simp] theorem Core.pushAwait_stop (c : Core) (l : Nat) (a : Await) (w : Landing) :
    (c.pushAwait l a w).stop = c.stop := rfl
@[simp] theorem Core.pushAwait_after (c : Core) (l : Nat) (a : Await) (w : Landing) :
    (c.pushAwait l a w).after = c.after := rfl
@[simp] theorem Core.pushAwait_num (c : Core) (l : Nat) (a : Await) (w : Landing) :
    (c.pushAwait l a w).num = c.num := rfl
@[simp] theorem Core.pushAwait_steward (c : Core) (l : Nat) (a : Await) (w : Landing) :
    (c.pushAwait l a w).steward = c.steward := rfl
@[simp] theorem Core.pushAwait_ctx (c : Core) (l : Nat) (a : Await) (w : Landing) :
    (c.pushAwait l a w).ctx = c.ctx := rfl
@[simp] theorem Core.pushAwait_part (c : Core) (l : Nat) (a : Await) (w : Landing) :
    (c.pushAwait l a w).part = c.part := rfl
@[simp] theorem Core.pushAwait_rank (c : Core) (l : Nat) (a : Await) (w : Landing) :
    (c.pushAwait l a w).rank = c.rank := rfl
@[simp] theorem Core.pushAwait_ncl (c : Core) (l : Nat) (a : Await) (w : Landing) :
    (c.pushAwait l a w).ncl = c.ncl := rfl
@[simp] theorem Core.pushAwait_utlb (c : Core) (l : Nat) (a : Await) (w : Landing) :
    (c.pushAwait l a w).utlb = c.utlb := rfl
@[simp] theorem Core.pushAwait_walk (c : Core) (l : Nat) (a : Await) (w : Landing) :
    (c.pushAwait l a w).walk = c.walk := rfl
@[simp] theorem Core.pushAwait_leave (c : Core) (l : Nat) (a : Await) (w : Landing) :
    (c.pushAwait l a w).leave = c.leave := rfl
@[simp] theorem Core.pushAwait_grants (c : Core) (l : Nat) (a : Await) (w : Landing) :
    (c.pushAwait l a w).grants = c.grants := rfl
@[simp] theorem Core.pushAwait_ckpt (c : Core) (l : Nat) (a : Await) (w : Landing) :
    (c.pushAwait l a w).ckpt = c.ckpt := rfl
@[simp] theorem Core.pushAwait_kept (c : Core) (l : Nat) (a : Await) (w : Landing) :
    (c.pushAwait l a w).kept = c.kept := rfl
@[simp] theorem Core.pushAwait_fault (c : Core) (l : Nat) (a : Await) (w : Landing) :
    (c.pushAwait l a w).fault = c.fault := rfl
@[simp] theorem Core.pushAwait_since (c : Core) (l : Nat) (a : Await) (w : Landing) :
    (c.pushAwait l a w).since = c.since := rfl
@[simp] theorem Core.pushAwait_served (c : Core) (l : Nat) (a : Await) (w : Landing) :
    (c.pushAwait l a w).served = c.served := rfl
@[simp] theorem Core.pushAwait_iss (c : Core) (l : Nat) (a : Await) (w : Landing) :
    (c.pushAwait l a w).iss = c.iss := rfl

@[simp] theorem Core.issued_regs (c : Core)  :
    (c.issued).regs = c.regs := rfl
@[simp] theorem Core.issued_loops (c : Core)  :
    (c.issued).loops = c.loops := rfl
@[simp] theorem Core.issued_spec (c : Core)  :
    (c.issued).spec = c.spec := rfl
@[simp] theorem Core.issued_store (c : Core)  :
    (c.issued).store = c.store := rfl
@[simp] theorem Core.issued_eng (c : Core)  :
    (c.issued).eng = c.eng := rfl
@[simp] theorem Core.issued_flight (c : Core)  :
    (c.issued).flight = c.flight := rfl
@[simp] theorem Core.issued_pc (c : Core)  :
    (c.issued).pc = c.pc := rfl
@[simp] theorem Core.issued_xfer (c : Core)  :
    (c.issued).xfer = c.xfer := rfl
@[simp] theorem Core.issued_fromTrap (c : Core)  :
    (c.issued).fromTrap = c.fromTrap := rfl
@[simp] theorem Core.issued_run (c : Core)  :
    (c.issued).run = c.run := rfl
@[simp] theorem Core.issued_stop (c : Core)  :
    (c.issued).stop = c.stop := rfl
@[simp] theorem Core.issued_after (c : Core)  :
    (c.issued).after = c.after := rfl
@[simp] theorem Core.issued_num (c : Core)  :
    (c.issued).num = c.num := rfl
@[simp] theorem Core.issued_steward (c : Core)  :
    (c.issued).steward = c.steward := rfl
@[simp] theorem Core.issued_ctx (c : Core)  :
    (c.issued).ctx = c.ctx := rfl
@[simp] theorem Core.issued_part (c : Core)  :
    (c.issued).part = c.part := rfl
@[simp] theorem Core.issued_rank (c : Core)  :
    (c.issued).rank = c.rank := rfl
@[simp] theorem Core.issued_ncl (c : Core)  :
    (c.issued).ncl = c.ncl := rfl
@[simp] theorem Core.issued_utlb (c : Core)  :
    (c.issued).utlb = c.utlb := rfl
@[simp] theorem Core.issued_walk (c : Core)  :
    (c.issued).walk = c.walk := rfl
@[simp] theorem Core.issued_leave (c : Core)  :
    (c.issued).leave = c.leave := rfl
@[simp] theorem Core.issued_grants (c : Core)  :
    (c.issued).grants = c.grants := rfl
@[simp] theorem Core.issued_ckpt (c : Core)  :
    (c.issued).ckpt = c.ckpt := rfl
@[simp] theorem Core.issued_kept (c : Core)  :
    (c.issued).kept = c.kept := rfl
@[simp] theorem Core.issued_fault (c : Core)  :
    (c.issued).fault = c.fault := rfl
@[simp] theorem Core.issued_since (c : Core)  :
    (c.issued).since = c.since := rfl
@[simp] theorem Core.issued_served (c : Core)  :
    (c.issued).served = c.served := rfl
@[simp] theorem Core.issued_iss (c : Core)  :
    (c.issued).iss = { c.iss with verdict := .issued } := rfl

@[simp] theorem Core.jump_regs (c : Core) (t : IAddr) :
    (c.jump t).regs = c.regs := rfl
@[simp] theorem Core.jump_loops (c : Core) (t : IAddr) :
    (c.jump t).loops = c.loops := rfl
@[simp] theorem Core.jump_spec (c : Core) (t : IAddr) :
    (c.jump t).spec = c.spec := rfl
@[simp] theorem Core.jump_store (c : Core) (t : IAddr) :
    (c.jump t).store = c.store := rfl
@[simp] theorem Core.jump_eng (c : Core) (t : IAddr) :
    (c.jump t).eng = c.eng := rfl
@[simp] theorem Core.jump_flight (c : Core) (t : IAddr) :
    (c.jump t).flight = c.flight := rfl
@[simp] theorem Core.jump_pc (c : Core) (t : IAddr) :
    (c.jump t).pc = c.pc := rfl
@[simp] theorem Core.jump_xfer (c : Core) (t : IAddr) :
    (c.jump t).xfer = c.xfer := rfl
@[simp] theorem Core.jump_fromTrap (c : Core) (t : IAddr) :
    (c.jump t).fromTrap = c.fromTrap := rfl
@[simp] theorem Core.jump_run (c : Core) (t : IAddr) :
    (c.jump t).run = c.run := rfl
@[simp] theorem Core.jump_stop (c : Core) (t : IAddr) :
    (c.jump t).stop = c.stop := rfl
@[simp] theorem Core.jump_after (c : Core) (t : IAddr) :
    (c.jump t).after = c.after := rfl
@[simp] theorem Core.jump_num (c : Core) (t : IAddr) :
    (c.jump t).num = c.num := rfl
@[simp] theorem Core.jump_steward (c : Core) (t : IAddr) :
    (c.jump t).steward = c.steward := rfl
@[simp] theorem Core.jump_ctx (c : Core) (t : IAddr) :
    (c.jump t).ctx = c.ctx := rfl
@[simp] theorem Core.jump_part (c : Core) (t : IAddr) :
    (c.jump t).part = c.part := rfl
@[simp] theorem Core.jump_rank (c : Core) (t : IAddr) :
    (c.jump t).rank = c.rank := rfl
@[simp] theorem Core.jump_ncl (c : Core) (t : IAddr) :
    (c.jump t).ncl = c.ncl := rfl
@[simp] theorem Core.jump_utlb (c : Core) (t : IAddr) :
    (c.jump t).utlb = c.utlb := rfl
@[simp] theorem Core.jump_walk (c : Core) (t : IAddr) :
    (c.jump t).walk = c.walk := rfl
@[simp] theorem Core.jump_leave (c : Core) (t : IAddr) :
    (c.jump t).leave = c.leave := rfl
@[simp] theorem Core.jump_grants (c : Core) (t : IAddr) :
    (c.jump t).grants = c.grants := rfl
@[simp] theorem Core.jump_ckpt (c : Core) (t : IAddr) :
    (c.jump t).ckpt = c.ckpt := rfl
@[simp] theorem Core.jump_kept (c : Core) (t : IAddr) :
    (c.jump t).kept = c.kept := rfl
@[simp] theorem Core.jump_fault (c : Core) (t : IAddr) :
    (c.jump t).fault = c.fault := rfl
@[simp] theorem Core.jump_since (c : Core) (t : IAddr) :
    (c.jump t).since = c.since := rfl
@[simp] theorem Core.jump_served (c : Core) (t : IAddr) :
    (c.jump t).served = c.served := rfl
@[simp] theorem Core.jump_iss (c : Core) (t : IAddr) :
    (c.jump t).iss = { c.iss with next := some t, skip := true } := rfl

@[simp] theorem Core.delivered_regs (c : Core) (k : Bool) (sp : BSpace) (w : List (Nat × Byte)) :
    (c.delivered k sp w).regs = c.regs := rfl
@[simp] theorem Core.delivered_loops (c : Core) (k : Bool) (sp : BSpace) (w : List (Nat × Byte)) :
    (c.delivered k sp w).loops = c.loops := rfl
@[simp] theorem Core.delivered_spec (c : Core) (k : Bool) (sp : BSpace) (w : List (Nat × Byte)) :
    (c.delivered k sp w).spec = c.spec := rfl
@[simp] theorem Core.delivered_store (c : Core) (k : Bool) (sp : BSpace) (w : List (Nat × Byte)) :
    (c.delivered k sp w).store = c.store := rfl
@[simp] theorem Core.delivered_flight (c : Core) (k : Bool) (sp : BSpace) (w : List (Nat × Byte)) :
    (c.delivered k sp w).flight = c.flight := rfl
@[simp] theorem Core.delivered_pc (c : Core) (k : Bool) (sp : BSpace) (w : List (Nat × Byte)) :
    (c.delivered k sp w).pc = c.pc := rfl
@[simp] theorem Core.delivered_run (c : Core) (k : Bool) (sp : BSpace) (w : List (Nat × Byte)) :
    (c.delivered k sp w).run = c.run := rfl
@[simp] theorem Core.delivered_stop (c : Core) (k : Bool) (sp : BSpace) (w : List (Nat × Byte)) :
    (c.delivered k sp w).stop = c.stop := rfl
@[simp] theorem Core.delivered_num (c : Core) (k : Bool) (sp : BSpace) (w : List (Nat × Byte)) :
    (c.delivered k sp w).num = c.num := rfl
@[simp] theorem Core.delivered_ctx (c : Core) (k : Bool) (sp : BSpace) (w : List (Nat × Byte)) :
    (c.delivered k sp w).ctx = c.ctx := rfl
@[simp] theorem Core.delivered_part (c : Core) (k : Bool) (sp : BSpace) (w : List (Nat × Byte)) :
    (c.delivered k sp w).part = c.part := rfl
@[simp] theorem Core.delivered_rank (c : Core) (k : Bool) (sp : BSpace) (w : List (Nat × Byte)) :
    (c.delivered k sp w).rank = c.rank := rfl
@[simp] theorem Core.delivered_fault (c : Core) (k : Bool) (sp : BSpace) (w : List (Nat × Byte)) :
    (c.delivered k sp w).fault = c.fault := rfl
@[simp] theorem Core.delivered_iss (c : Core) (k : Bool) (sp : BSpace) (w : List (Nat × Byte)) :
    (c.delivered k sp w).iss = c.iss := rfl
@[simp] theorem Core.delivered_inq (c : Core) (k : Bool) (sp : BSpace) (w : List (Nat × Byte)) :
    (c.delivered k sp w).eng.inq = c.eng.inq ++ [{ copy := k, space := sp, bytes := w }] := rfl

end Sys2Proof.Machine
end

