-- ==== Sys2Proof/Laws/Vector.lean ====
section
/-! SUPPORT. What the shared operations of vector words answer when no lane they read is poisoned: every lane gets its value,
the poison bits and the flags are those of the lanes themselves. -/

namespace Sys2Proof.Machine

open Sys2Proof

theorem firstDep_none {pois : Dep → Bool} {l : List Dep} (h : ∀ p ∈ l, pois p = false) : firstDep pois l = none := by
  unfold firstDep
  induction l with
  | nil => rfl
  | cons a r ih =>
    simp only [List.foldl_cons]
    rw [h a (by simp)]
    exact ih fun p hp => h p (by simp [hp])

/-- The vector a list of lanes makes: values, poison bits, flags. -/
def packLanes (l : List LaneOut) : VWord × BitVec 64 × Fl :=
  (BitVec.ofNat 2048 (packW 32 (l.map LaneOut.val)), BitVec.ofNat 64 (packW 1 (l.map fun x => x.bad.toNat)),
    l.foldl (fun f x => f ||| x.fl) 0)

theorem laneReg_clear {o : VOps} {k : Bool} {l : List LaneOut} (h : ∀ x ∈ l, ∀ p ∈ x.deps, o.pois p = false) :
    laneReg o k l = packLanes l := by
  unfold laneReg packLanes
  dsimp only
  rw [List.map_congr_left (g := fun x : LaneOut => (x.val, x.bad, x.fl)) fun x hx => by rw [firstDep_none (h x hx)]]
  simp only [List.map_map, Function.comp_def, List.foldl_map]

theorem vector_clear {s : State} {lat : Nat} {sp k : Bool} {o : VOps} {d : Reg} {l : List LaneOut}
    (h : ∀ x ∈ l, ∀ p ∈ x.deps, o.pois p = false) :
    s.vector lat sp k o d l =
      s.done fun c => c.push lat (.vreg d (packLanes l).1 (packLanes l).2.1 (packLanes l).2.2) := by
  unfold State.vector
  have : firstDep o.pois (l.flatMap LaneOut.deps) = none :=
    firstDep_none (by simp only [List.mem_flatMap]; rintro p ⟨x, hx, hp⟩; exact h x hx p hp)
  rw [this, laneReg_clear h]
  simp

/-- A floating-point word draws `n` blocks of the rounding stream where it rounds stochastically (R143). -/
theorem vectorFp_clear {s : State} {lat : Nat} {sp sr : Bool} {n : Nat} {o : VOps} {d : Reg} {l : List LaneOut}
    (h : ∀ x ∈ l, ∀ p ∈ x.deps, o.pois p = false) :
    s.vectorFp lat sp sr n o d l =
      s.done fun c => (if sr = true then c.advance n else c).push lat
        (.vreg d (packLanes l).1 (packLanes l).2.1 (packLanes l).2.2) := by
  unfold State.vectorFp
  have : firstDep o.pois (l.flatMap LaneOut.deps) = none :=
    firstDep_none (by simp only [List.mem_flatMap]; rintro p ⟨x, hx, hp⟩; exact h x hx p hp)
  rw [this, laneReg_clear h]
  cases sr <;> simp

end Sys2Proof.Machine
end

