-- ==== Sys2Proof/Tests/Slice0.lean ====
section
/-! SUPPORT. Tests: words refused by the well-formedness checks, words decoded, one step of small states, and for every
statement with hypotheses a state and operands that meet them. Expected results are the spec's own, or worked out from it. -/

namespace Sys2Proof.Tests

open Sys2Proof Sys2Proof.Machine Sys2Proof.Claims

-- One test after another: side by side, each takes a thread and its stack.
set_option Elab.async false

/-! ### Small states -/

/-- Tile 0 runs a bundle of context 1. -/
def tile : State := State.reset.onMe fun c => { c with run := .running, ctx := 1 }

/-- The primary steward runs a bundle. -/
def steward : State := { State.reset with me := { State.resetCore 256 with run := .running } }

/-- Scalar registers set, clear. -/
def regs (l : List (Reg × W64)) (s : State) : State :=
  s.onMe fun c => l.foldl (fun c e => c.setS e.1 { val := e.2, poison := false }) c

/-- A scalar register poisoned with a value. -/
def bad (r : Reg) (v : W64) (s : State) : State := s.onMe fun c => c.setS r { val := v, poison := true }

/-- A vector register with one poisoned lane. -/
def vbad (r : Reg) (j : Nat) (s : State) : State := s.onMe fun c => c.setV r { val := 9, poison := 1 <<< j }

/-- A steer register set. -/
def steer (g : GIdx) (c p : Bool) (t : IAddr) (s : State) : State := s.onMe fun x => x.setG g { c := c, cp := p, t := t }

/-- The loop stack at a depth. -/
def depth (n : BitVec 3) (s : State) : State := s.onMe fun c => c.setLsd n

/-- The word follows by an XT word. -/
def ext (e : BitVec 27) (s : State) : State := s.onMe fun c => c.onIss fun i => { i with ext := some e }

/-- Stamped by a held SW. -/
def held (g : BitVec 26) (s : State) : State := s.onMe fun c => c.onIss fun i => { i with held := some g }

/-! ### Words that are not well formed -/

theorem test_refuses_steer_register_12 : (Instr.prep 12 0).wf = false := by decide
theorem test_refuses_loop_end_slot_3 : (Instr.loopi 1 false 0 3).wf = false := by decide
theorem test_refuses_odd_pair : (Instr.vld .a 3 1 .d 0).wf = false := by decide
theorem test_refuses_gather_of_size_d : (Instr.vgat .a 2 1 .d 3 false).wf = false := by decide
theorem test_refuses_broadcast_from_k : (Instr.vldb .k 2 1 .w 0).wf = false := by decide
theorem test_refuses_abs_unsigned : (Instr.vabs 1 2 .n32 false 0).wf = false := by decide
theorem test_refuses_integer_mode_2 : (Instr.vadd 1 2 3 .i32 false 2).wf = false := by decide
theorem test_refuses_dot_of_f32 : (Instr.vdot4 1 2 3 .f32 false 0).wf = false := by decide
theorem test_refuses_conversion_of_ax_to_integer : (Instr.vcvt 1 3 2 9 false true).wf = false := by decide
theorem test_refuses_block_format_12 : (Instr.vbq 1 2 3 12 false false).wf = false := by decide
theorem test_refuses_fadd_of_8_bytes : (Instr.amo 1 2 false 1 .die .faddF32).wf = false := by decide
theorem test_refuses_cas_of_odd_register : (Instr.amo 1 2 true 1 .die .cas).wf = false := by decide
theorem test_refuses_reduction_by_swap : (Instr.red 2 2 true 1 .die .swap).wf = false := by decide

/-! ### Words of the encoding tables -/

theorem test_word_add : decode false 0x800A52C0 = .ok (.add 10 10 11 false false) := by decide
theorem test_word_addi : decode false 0x88020345 = .ok (.addi false 1 0 0x345) := by decide
theorem test_word_csel : decode false 0x03A410C4 = .ok (.csel 4 2 3 4) := by decide
theorem test_word_cmpi : decode false 0x18480603 = .ok (.cmpi 2 3 .eq 3) := by decide
theorem test_word_loopi : decode false 0x1B802820 = .ok (.loopi 5 false 8 0) := by decide
theorem test_word_prep : decode false 0x9A040025 = .ok (.prep 1 0x25) := by decide
theorem test_word_lbrk : decode false 0x1BC40001 = .ok (.lbrk 1 1) := by decide
theorem test_word_xt : decode false 0x58000012 = .ok (.xt 0x12) := by decide
theorem test_word_vadd : decode false 0x20021141 = .ok (.vadd 2 2 5 .i32 false 1) := by decide
theorem test_word_vtunp : decode false 0x29481000 = .ok (.vtunp 4 1 0 false) := by decide
theorem test_word_vtacc : decode false 0x24482174 = .ok (.vtacc 8 4 5 .i8x4 true) := by decide
theorem test_word_vcvt : decode false 0x284C5008 = .ok (.vcvt 6 5 0 2 false false) := by decide
theorem test_word_st : decode false 0xB116C800 = .ok (.st .a 11 12 .w 0) := by decide
theorem test_word_vsct : decode false 0x35041820 = .ok (.vsct .a 2 1 .w 1) := by decide
theorem test_word_mmul : decode false 0x38E84AA2 = .ok (.mmul 8 9 10 true 2) := by decide
theorem test_word_rcv : decode false 0x39653014 = .ok (.rcv 5 6 20) := by decide
theorem test_word_ldg : decode false 0x40083081 = .ok (.ldg 4 3 false 1 1) := by decide
theorem test_word_amo : decode false 0x410A3120 = .ok (.amo 5 3 false 2 .die .add) := by decide
theorem test_word_fence : decode false 0x42C00042 = .ok (.fenceSc .module) := by decide
theorem test_word_wrsr : decode false 0x48270032 = .ok (.wrsr 7 0x32) := by decide
theorem test_word_trap : decode false 0x48400007 = .ok (.trap 7) := by decide
theorem test_word_xrd : decodeMsq 0x0220C00100100400 = .ok (.xrd 2 0 2 3 4 0x20 1) := by decide
theorem test_word_xend : decodeMsq 0x6000000000000000 = .ok .xend := by decide
theorem test_link_bit : link 0x88020345 = true ∧ link 0x18480603 = false := by decide

/-! ### States that meet the hypotheses: scalar and control words -/

/-- Sources at the ends of their range. -/
def ends : State := regs [(1, 0x8000000000000000), (2, 0xFFFFFFFFFFFFFFFF)] tile

theorem test_meets_arithmetic : (∀ i ∈ [Instr.add 3 1 2 false false, .sub 3 1 2 true true, .mul 3 1 2 true false,
    .mulh 3 1 2 false true, .mulhn 0 1 2 true true], Ready i ends) ∧ Clear ends [1, 2] := by
  simp only [Ready, Clear]; decide

theorem test_meets_division : (∀ s ∈ [ends, regs [(2, 0)] ends], (∀ i ∈ [Instr.div 3 1 2 false false, .rem 3 1 2 true true,
    .divn 3 1 2 true false, .remn 3 1 2 false true], Ready i s) ∧ Clear s [1, 2]) ∧ val (regs [(2, 0)] ends) 2 = 0 := by
  simp only [Ready, Clear]; decide

theorem test_meets_logic : (∀ i ∈ [Instr.and 3 1 2 false false, .or 3 1 2 true false, .xor 3 1 2 false true,
    .andn 3 1 2 true true, .orn 3 1 2 false false, .shl 3 1 2 true false, .shr 3 1 2 false false, .sar 3 1 2 true true,
    .rol 3 1 2 true false, .ror 3 1 2 false false], Ready i ends) ∧ Clear ends [1, 2] := by
  simp only [Ready, Clear]; decide

theorem test_meets_extrema_and_counts : (∀ i ∈ [Instr.min 3 1 2 false false, .max 3 1 2 true false, .minn 3 1 2 false true,
    .maxn 3 1 2 true true, .clz 3 1 false false, .ctz 3 0 true false, .popc 3 2 true true], Ready i ends) ∧
    Clear ends [0, 1, 2] := by
  simp only [Ready, Clear]; decide

theorem test_meets_fields_and_select : (∀ i ∈ [Instr.bfx 3 1 2 false false, .bfxn 3 1 2 true false, .bfi 3 1 2 true true],
    Ready i ends) ∧ Clear ends [1, 2, 3] ∧ Ready (.csel 4 2 3 4) (bad 3 7 (steer 4 true false 0 tile)) ∧
    ((bad 3 7 (steer 4 true false 0 tile)).me.s 2).poison = false ∧ Ready (.csel 4 2 3 4) (steer 4 true true 0 tile) ∧
    Ready (.csel 4 2 3 4) (bad 3 7 tile) := by
  simp only [Ready, Clear]; decide

theorem test_meets_immediates : (∀ i ∈ [Instr.addi false 1 2 0x800, .andi true 1 2 0x7FF, .ori false 1 2 0, .xori true 1 2 0xFFF,
    .muli false 1 2 0x800, .lui 1 0x80000, .aup 1 0x3FFFE], Ready i ends ∧ Ready i (ext 0x4000000 ends)) ∧
    (∀ i ∈ [Instr.shli false 1 2 0, .shri true 1 2 63, .sari false 1 2 32], Ready i ends) ∧ Clear ends [2] ∧
    Clear (ext 0x4000000 ends) [2] := by
  simp only [Ready, Clear]; decide

theorem test_meets_poisoned_sources :
    scalarWord (.add 3 1 2 false true) = some (true, 1, 3, [1, 2]) ∧ Ready (.add 3 1 2 false true) (bad 2 9 tile) ∧
    (([1, 2].map (bad 2 9 tile).me.s).find? fun x => x.poison) = some { val := 9, poison := true } ∧
    scalarWord (.bfi 3 1 2 true false) = some (false, 1, 3, [1, 2, 3]) ∧ Ready (.bfi 3 1 2 true false) (bad 3 9 tile) ∧
    (([1, 2, 3].map (bad 3 9 tile).me.s).find? fun x => x.poison) = some { val := 9, poison := true } := by
  simp only [Ready]; decide

theorem test_meets_consumers : ∀ i ∈ [Instr.prepr 0 1, .loop 1 false 0 0, .wrsr 1 2, .tagwa 1, .coll 1, .lsv 1 0, .lrs 1 0,
    .msq 1, .waitt 2 1, .mclr 1 2, .rcv 2 1 0, .ld .a 3 1 .w 0, .st .k 1 2 .d 0, .vgat .w 3 1 .b 2 true, .cbdef 2 3 1 true 15,
    .cp 2 1 3 0, .mmul 2 1 3 true 2, .cbadvPW 1 0, .vldg 2 1 true 0 7, .stg 1 2 .b 0, .amo 4 5 false 0 .pod .cas,
    .red 1 2 true 0 .tile .min, .snd 2 1 3, .mmulc 2 1 3 true 2],
    Ready i (bad 5 9 (bad 1 9 tile)) ∧ (bad 5 9 (bad 1 9 tile)).me.delta.toNat < 2 ^ 26 ∧
      ((consumes (bad 5 9 (bad 1 9 tile)) i).find? fun x => x.poison) = some { val := 9, poison := true } := by
  simp only [Ready]; decide

theorem test_meets_vector_consumers : ∀ i ∈ [Instr.vst .a 2 1 .w 0, .vst .k 2 1 .d 0, .vstg 2 1 0],
    Ready i (vbad 3 0 (bad 1 9 tile)) ∧
      (((consumes (vbad 3 0 (bad 1 9 tile)) i).find? fun x => x.poison).map fun x => x.poison) = some true := by
  simp only [Ready]; decide

theorem test_meets_compares : ∀ i ∈ [Instr.cmp 11 1 2 .lt true, .cmpi 0 0x100 .gtn 1, .tst 3 1 2 true false, .gand 0 11 0,
    .gor 1 2 3, .gxor 4 4 4, .gnot 11 0, .ptst 0 1], Ready i ends ∧ Ready i (bad 1 5 ends) := by
  simp only [Ready]; decide

theorem test_meets_branches : (∀ i ∈ [Instr.prep 11 0x7FFE, .prepr 0 1, .br 4, .brf 4, .brA 4, .brl 4],
    ∀ s ∈ [tile, steer 4 true false 8 tile, steer 4 true true 8 tile], Ready i s ∧ Clear s [1]) := by
  simp only [Ready, Clear]; decide

theorem test_meets_loops : (∀ i ∈ [Instr.loop 1 true 255 2, .loopi 0 false 1 0, .loopi 127 true 0 0, .lbrk 4 1, .lbrk 4 6],
    ∀ s ∈ [tile, depth 6 (regs [(1, 2)] tile), steer 4 true false 8 (depth 1 tile), steer 4 true true 8 tile],
    Ready i s ∧ Clear s [1]) := by
  simp only [Ready, Clear]; decide

theorem test_meets_loop_end_check : (depth 6 tile).me.loops.lsd.toNat ≤ 6 ∧ (depth 6 tile).me.run = .running ∧
    (depth 6 tile).me.iss.skip = false ∧ (tile.me.jump 8).run = .running ∧ (tile.me.jump 8).iss.skip = true ∧
    (tile.me.jump 8).loops.lsd.toNat ≤ 6 := by decide

theorem test_meets_wait_barrier_halt : (∀ i ∈ [Instr.frame, .waitt 1 2, .nop, .sync .die, .halt], Ready i ends ∧
    Ready i (held 5 tile)) ∧ Clear ends [1, 2] ∧ ends.me.iss.held = none ∧ (held 5 tile).me.iss.held ≠ none ∧
    chainCheck (held 5 tile) = some true := by
  simp only [Ready, Clear]; decide

/-- Tile 1 of a cluster whose tile 0 has used the chain in this leg; tile 0's log of it. -/
def chaining (l : List (Nat × W64 × W64 × Nat)) : State :=
  held 5 ((tile.onCore 0 fun c => c.onEng fun e => { e with arr := { e.arr with nchain := 1, log := l } }).focus 1)

theorem test_meets_chain_checks : (∀ l ∈ [[], [(0, 0, 0, 0)]], Ready (.sync .die) (chaining l) ∧ Ready .halt (chaining l) ∧
      (chaining l).me.iss.held ≠ none) ∧
    chainCheck (chaining []) = none ∧ chainCheck (chaining [(0, 0, 0, 0)]) = some false ∧
    (let s := (held 5 tile).onMe fun c => { c with leave := .asked }
     Ready (.sync .die) s ∧ Ready .halt s ∧ s.me.iss.held ≠ none ∧ chainCheck s = some true) := by
  simp only [Ready]; decide

theorem test_meets_stamps : (Ready (.stampAt 0) tile ∧ Ready (.stampHold 0x3FFFFFF) tile) ∧
    (Ready (.stampAt 5) tile ∧ Ready (.stampHold 0) (tile.onMe fun c => c.onSpec fun p => { p with lt := 1 })) := by
  simp only [Ready]; decide

/-! ### States that meet the hypotheses: vector and buffer words -/

/-- Vector registers 1 and 2 hold numbers, register 3 a mask of ones in its lower half. -/
def vecs : State := tile.onMe fun c => ((c.setV 1 { val := 0x80000000, poison := 0 }).setV 2 { val := BitVec.allOnes 2048, poison := 0 }).setV 3
  { val := 2 ^ 1024 - 1, poison := 0 }

theorem test_meets_vector_words : ∀ i ∈ [Instr.vadd 3 1 2 .f32 false 1, .vfma 3 1 2 .bf16x2 true 0, .vrsum 3 1 .f16x2 false 2,
    .vcvt 3 1 0 2 false false, .vtunp 3 0 4 false, .vrng 3 1 0 false true],
    Ready i tile ∧ ∃ r, vectorWord tile i = some r ∧ r.lanes.all (fun x => x.deps.all fun p => !r.ops.pois p) = true := by
  intro i hi
  simp only [List.mem_cons, List.not_mem_nil, or_false] at hi
  obtain rfl | rfl | rfl | rfl | rfl | rfl := hi <;>
    exact ⟨⟨by decide, by decide⟩, _, rfl, by decide +kernel⟩

theorem test_meets_vector_poison : Ready (.vadd 3 1 2 .i32 false 0) (vbad 1 63 tile) ∧ Ready (.vtunp 3 1 0 true) (vbad 1 0 tile) ∧
    ∀ i ∈ [Instr.vadd 3 1 2 .i32 false 0, .vadd 3 1 2 .i32 true 0],
      ((vectorWord (vbad 1 63 tile) i).map fun r => (r.lanes.flatMap LaneOut.deps).filter r.ops.pois) = some [(0, 63)] := by
  simp only [Ready]; decide +kernel

/-- Small numbers in two registers, of every floating-point type. -/
theorem test_meets_floating_point : VClear vecs [1, 2, 3] ∧ (∀ ty ∈ [VTy.f32, .f16x2, .bf16x2], ty.isFp = true ∧
    ∀ md : BitVec 2, ∀ i ∈ [Instr.vadd 3 1 2 ty false md, .vsub 3 1 2 ty true md, .vmul 3 1 2 ty false md, .vfma 3 1 2 ty true md,
      .vfms 3 1 2 ty false md, .vfnma 3 1 2 ty false md, .vmin 3 1 2 ty false, .vmax 3 1 2 ty true, .vabs 3 1 ty false 0,
      .vneg 3 1 ty false 0, .vcmp 3 1 2 ty false .le, .vrsum 3 1 ty false md, .vrmax 3 1 ty false, .vrmin 3 1 ty false,
      .vrcp 3 1 ty false, .vrsq 3 1 ty false, .vex2 3 1 ty false, .vlg2 3 1 ty false], Ready i vecs) ∧
    (∀ i ∈ [Instr.vdot4 3 1 2 .bf16x2 false 0, .vcvt 3 1 0 2 false false, .vcvt 3 1 0 9 true false, .vbdq 3 1 15 false true, .vbscl 3 1 2 13 false false,
      .vbq 3 1 2 19 true false], Ready i vecs) := by
  simp only [Ready, VClear]; decide

theorem test_meets_operands : Reads fp32 true 0x3F800000 (.num (numberOf fp32 0x3F800000) false) ∧ Reads fp32 false 1 (.num 0 false) ∧
    Reads fp32 true 0xFF800000 (.inf true) ∧ Reads fp32 true 0x7FA00000 (.nan true) ∧ Reads e4m3 true 0x7F (.nan false) := by
  refine ⟨.number ?_ (.inl rfl), .flushed rfl ?_, .infinity rfl ?_ ?_, .nan ?_ ?_, .nan ?_ ?_⟩
  all_goals try simp only [reservedCode, subnormal]
  all_goals decide

theorem test_meets_vector_integers : (∀ i ∈ [Instr.vadd 3 1 2 .i32 false 1, .vsub 3 1 2 .i8x4 true 0, .vmul 3 1 2 .i8x4 false 1,
    .vmulh 3 1 2 .n32 false, .vmin 3 1 2 .i16x2 true, .vmax 3 1 2 .i32 false, .vabs 3 1 .ax false 1, .vneg 3 1 .i8x4 true 1,
    .vcmp 3 1 2 .n32 false .lt, .vlid 3 .i16x2 true, .vpopc 3 1 .i8x4 false, .vclz 3 1 .i32 false, .vrsum 3 1 .i32 false 0,
    .vrmax 3 1 .i8x4 false, .vdot4 3 1 2 .i8x4 false 0, .vtacc 3 1 2 .i8x4 true], Ready i vecs) ∧ VClear vecs [1, 2, 3] ∧
    Ready (.vneg 3 1 .ax false 1) (vbad 2 5 vecs) ∧ VClear (vbad 2 5 vecs) [1] ∧
    (∀ ty ∈ [VTy.i32, .n32, .i16x2, .i8x4, .ax], ty.isFp = false) := by
  simp only [Ready, VClear]; decide

theorem test_meets_vector_logic_and_moves : (∀ i ∈ [Instr.vand 3 1 2 false, .vor 3 1 2 true, .vxor 3 1 2 false, .vandn 3 1 2 true,
    .vshl 3 1 31 .i32 false true, .vshr 3 1 2 .i8x4 true false, .vsar 3 1 2 .i16x2 false false, .vbc 3 1 31 .i8x4 false true,
    .vxt 3 1 2 .i32 false false, .vrot 3 1 0 .i16x2 true true, .vperm 3 1 2 .i8x4 false], Ready i vecs) ∧
    VClear vecs [0, 1, 2, 31] := by
  simp only [Ready, VClear]; decide

theorem test_meets_selects : (∀ s ∈ [vecs, vbad 1 0 vecs, vbad 2 63 vecs, vbad 3 5 vecs], Ready (.vsel 4 1 2 3) s ∧
    Ready (.vselB 4 1 2 3) s ∧ Ready (.vptst 4 1) s) ∧ (vecs.me.v 1).poison = 0 ∧ (vecs.me.v 2).poison = 0 ∧
    (vecs.me.v 3).poison = 0 ∧ (vecs.me.v 3).val.extractLsb' 0 32 = BitVec.allOnes 32 ∧
    (vecs.me.v 3).val.extractLsb' (32 * 63) 32 = 0 ∧ (vbad 3 5 vecs).me.v 3 = { val := 9, poison := 32 } := by
  simp only [Ready]; decide +kernel

/-- Bases at the last place of A, W and C for an access of 8 and of 256 bytes. -/
def lastA : State := regs [(1, 0x3FFFF8), (2, 0x3FFF00), (3, 0x3FFFFC), (5, 0x3FFE00)] tile

theorem test_meets_loads : bufOf .a = some .a ∧ Clear lastA [1, 2, 5] ∧
    (Ready (.ld .a 4 1 .d 0) lastA ∧ bufAddr lastA 1 0 8 8 + 8 = BSpace.size .a) ∧
    (Ready (.vld .a 4 2 .w 0) lastA ∧ bufAddr lastA 2 0 256 4 + 256 = BSpace.size .a) ∧
    (Ready (.vld .a 4 5 .d 0) lastA ∧ bufAddr lastA 5 0 512 4 + 512 = BSpace.size .a) ∧
    (Ready (.vldb .a 4 1 .d 0) lastA ∧ bufAddr lastA 1 0 512 4 + 8 = BSpace.size .a) ∧ bufOf .k = none ∧
    (Ready (.ld .k 4 1 .d 0) lastA ∧ Ready (.vld .k 4 2 .w 0) lastA ∧ Ready (.vld .k 4 5 .d 0) lastA) ∧
    bufAddr lastA 1 0 8 8 + 8 ≤ 2 ^ 24 ∧ bufAddr lastA 2 0 256 4 + 256 ≤ 2 ^ 24 ∧ bufAddr lastA 5 0 512 4 + 512 ≤ 2 ^ 24 := by
  simp only [Ready, Clear, bufAddr, val]; decide

theorem test_meets_stores : Clear lastA [4, 1, 2] ∧ VClear lastA [4, 5] ∧ bufOf .a = some .a ∧
    (Ready (.st .a 4 1 .d 0) lastA ∧ bufAddr lastA 1 0 8 8 + 8 = BSpace.size .a) ∧
    (Ready (.vst .a 4 2 .w 0) lastA ∧ bufAddr lastA 2 0 256 4 + 256 = BSpace.size .a) ∧
    (Ready (.st .k 4 1 .b 7) lastA ∧ Ready (.vst .k 4 2 .d 0) lastA ∧ Ready (.ld .k 4 1 .h 0) lastA) ∧
    bufAddr lastA 1 7 1 1 + 1 ≤ 2 ^ 24 ∧ bufAddr lastA 2 0 512 4 + 512 ≤ 2 ^ 24 := by
  simp only [Ready, Clear, VClear, bufAddr, val]; decide

theorem test_meets_accesses_past_the_end : Clear lastA [4, 1, 3] ∧ VClear lastA [4, 5] ∧
    (Ready (.ld .a 4 1 .d 1) lastA ∧ Ready (.st .a 4 1 .d 1) lastA ∧ spaceSize .a < bufAddr lastA 1 1 8 8 + 8) ∧
    (Ready (.vld .a 4 3 .b 0) lastA ∧ Ready (.vst .a 4 3 .b 0) lastA ∧ spaceSize .a < bufAddr lastA 3 0 64 1 + 64) ∧
    (Ready (.vldb .a 4 1 .d 1) lastA ∧ spaceSize .a < bufAddr lastA 1 1 512 4 + 8) := by
  simp only [Ready, Clear, VClear, bufAddr, val]; decide

theorem test_meets_gathers : Clear tile [1] ∧ VClear tile [2, 3] ∧ (∀ j < 64, idxAddr tile 1 2 4 j + 4 ≤ BSpace.size .a) ∧
    Ready (.vgat .a 3 1 .w 2 true) tile ∧ Ready (.vsct .a 3 1 .w 2) tile ∧ bufOf .a = some .a ∧
    Ready (.vgat .a 3 3 .w 4 false) (regs [(3, 0x400000)] tile) ∧ BSpace.size .a < idxAddr (regs [(3, 0x400000)] tile) 3 4 4 63 + 4 ∧
    Ready (.vsct .a 3 3 .w 4) (regs [(3, 0x400000)] tile) ∧ VClear (regs [(3, 0x400000)] tile) [4, 3] ∧
    Ready (.vgat .c 3 1 .w 2 false) lastA ∧ BSpace.size .c < idxAddr lastA 1 2 4 0 + 4 ∧
    (let s := vbad 2 5 (regs [(1, 0x3FFFFC)] tile)
     Ready (.vgat .a 3 1 .w 2 true) s ∧ Clear s [1] ∧ (s.me.v 2).poison.getLsbD 5 = true ∧ (s.me.v 2).poison.getLsbD 0 = false ∧
       BSpace.size .a < idxAddr s 1 2 4 0 + 4 ∧ (s.me.v 2).poison.getLsbD 1 = false ∧ idxAddr s 1 2 4 1 + 4 ≤ BSpace.size .a) := by
  simp only [Ready, Clear, VClear, idxAddr, val]; decide +kernel

/-! ### States that meet the hypotheses: engines -/

/-- Circular buffer 2 of two elements of 128 bytes, one of them produced. -/
def rings : State := regs [(1, 0x80), (2, 256), (3, 128), (4, 1), (5, 2)] (tile.onMe fun c =>
  c.setCb 2 (some { inC := false, base := 0, size := 256, elem := 128, prod := 128, cons := 0 }))

theorem test_meets_circular_buffers : Clear rings [1, 2, 3] ∧ Ready (.cbdef 1 2 3 true 2) rings ∧ Ready (.cbdef 3 2 1 false 15) rings ∧
    (val rings 1).toNat % 128 = 0 ∧ (val rings 3).toNat ∣ (val rings 2).toNat ∧ rings.me.cbBusy 2 = false ∧
    rings.me.cb 2 = some { inC := false, base := 0, size := 256, elem := 128, prod := 128, cons := 0 } ∧
    Clear rings [4, 5, 0] ∧ (val rings 5).toNat ≤ 256 / 128 ∧ rings.me.cb 3 = none ∧
    256 / 128 < (val rings 2).toNat := by
  simp only [Ready, Clear, val]; decide

theorem test_meets_pointers : ∀ a ∈ [(4 : Reg), 5, 2], ∀ n ∈ [(2 : BitVec 4), 3],
    ∀ i ∈ [Instr.cbadvP a n, .cbadvC a n, .cbadvPW a n, .cbadvCW a n], Ready i rings := by
  simp only [Ready]; decide

/-- Sixteen copies queued. -/
def sixteenCopies (s : State) : State := (List.range 16).foldl (fun s _ => s.onMe fun c =>
  c.addCopy 0x02 (.buf (.at .a 0)) (.buf (.at .a 0)) 0 0 []) s

/-- A record for `cpm` stands at A 0x100: no bytes follow their copy, a stream of one row of 24 INT8 elements. -/
def record : State := regs [(1, 0), (2, 0), (3, 0x100), (4, 0x100000000000000), (5, 16777215), (6, 16777216)] (tile.onMe fun c =>
  { c.writeBuf .a (place 0x108 (leBytes 8 (24 * 2 ^ 23 + 0x89 * 2 ^ 48))) with leave := .granted })

theorem test_meets_copies : Clear record [1, 2, 3, 4, 5, 6] ∧ bufPlace (val record 1) = some (.at .a 0) ∧
    bufPlace (val record 2) = some (.at .a 0) ∧
    (∀ s ∈ [record, sixteenCopies record], ∀ i ∈ [Instr.cp 1 2 5 63, .cpg 1 4 3 0], Ready i s) ∧ Ready (.cp 1 2 6 0) record ∧
    (val record 5).toNat < 2 ^ 24 ∧ 2 ^ 24 ≤ (val record 6).toNat ∧ placeFault record.me true (.at .k 0) 16777215 = none ∧
    globPlace (val record 2) = some (false, 0, 0) ∧ globPlace 0xF000000000000010 = some (true, 7, 16) ∧
    placeFault record.me true (.at .a 0) 0x100 = none ∧ 16 ≤ (sixteenCopies record).me.eng.copies.length ∧
    spaceSize .a < 0 + (val record 5).toNat ∧ spaceSize .k < 2 + (val record 5).toNat := by
  simp only [Ready, Clear, val]; decide

theorem test_meets_cpm : Ready (.cpm 1 2 3 5) record ∧ (val record 3).toNat + 32 ≤ 4194304 ∧
    (let r := record.me.bytes .a 0x100 32
     field r 0 8 < 2 ^ 24 ∧ placeFault record.me true (.at .a 0) (field r 0 8) = none ∧
       ∃ st, cpmStream r = some st ∧ StreamMayIssue record true st.1 st.2.1 st.2.2.1 st.2.2.2) ∧
    record.me.eng.copies.length < 16 ∧ record.me.leave = .granted := by
  refine ⟨⟨by decide, by decide⟩, by decide, ⟨by decide, by decide, _, rfl, by unfold StreamMayIssue; decide +kernel⟩, by decide, by decide⟩

/-- Places that a copy may not have: in C, in W, an undefined circular buffer, one in C and one in A whose elements do not divide 100
bytes, a bit that must be 0, a global place with one. -/
def places : State := regs [(1, 0x2000000), (2, 0x1000000), (3, 0x80000003), (4, 0x80000002), (5, 0x80000001), (6, 0x100000000),
  (7, 100), (8, 0xF00000000000000), (9, 0x8000000000000000)] (tile.onMe fun c => (c.setCb 2 (some {
    inC := true, base := 0, size := 256, elem := 128, prod := 0, cons := 0 })).setCb 1 (some {
    inC := false, base := 0, size := 256, elem := 128, prod := 0, cons := 0 }))

theorem test_meets_bad_places : Clear places [0, 1, 2, 3, 4, 5, 6, 7, 8, 9] ∧
    (∀ a ∈ [(0 : Reg), 1, 3, 4, 5, 6], ∀ b ∈ [(0 : Reg), 2, 3, 5, 6], Ready (.cp a b 7 0) places ∧ Ready (.cpm a b 7 0) places) ∧
    (∀ a ∈ [(0 : Reg), 1, 2, 3, 5, 6], ∀ b ∈ [(0 : Reg), 8, 9], Ready (.cpg a b 7 0) places) ∧
    bufPlace (val places 6) = none ∧ globPlace (val places 8) = none ∧ globPlace (val places 9) = some (true, 0, 0) ∧
    (val places 7).toNat = 100 ∧ placeFault places.me true (.at .a 0) 100 = none ∧ bufPlace (val places 0) = some (.at .a 0) ∧
    (bufPlace (val places 1) = some (.at .c 0) ∧ PlaceBad places true (.at .c 0) 100 .perm) ∧
    (bufPlace (val places 2) = some (.at .w 0) ∧ PlaceBad places false (.at .w 0) 100 .perm) ∧
    (bufPlace (val places 4) = some (.cb 2) ∧ PlaceBad places true (.cb 2) 100 .perm) ∧
    (bufPlace (val places 3) = some (.cb 3) ∧ ∀ d, PlaceBad places d (.cb 3) 100 .cberr) ∧
    (bufPlace (val places 5) = some (.cb 1) ∧ ∀ d, PlaceBad places d (.cb 1) 100 .cberr) := by
  refine ⟨?_, ?_, ?_, by decide, by decide, by decide, by decide, by decide, by decide, ⟨by decide, .inl ⟨_, _, rfl, .inr rfl⟩⟩,
    ⟨by decide, .inl ⟨_, _, rfl, .inr rfl⟩⟩, ⟨by decide, .inr ⟨_, _, rfl, rfl, rfl, rfl⟩⟩, ⟨by decide, fun _ => ⟨_, rfl, .inl rfl⟩⟩,
    ⟨by decide, fun d => ⟨_, rfl, .inr ⟨_, rfl, ?_, .inl (by decide)⟩⟩⟩⟩
  · simp only [Clear]; decide
  · simp only [Ready]; decide
  · simp only [Ready]; decide
  · cases d <;> rfl

/-- A record for `cpm` at A 0x100 with a length and a last byte. -/
def lengths (m : Nat) (b : Byte) : State := regs [(1, 0), (2, 0), (3, 0x100), (4, 0x3FFFF0), (5, 0x1000000), (6, 0x2000000)]
  (tile.onMe fun c => c.writeBuf .a (place 0x100 (leBytes 8 m) ++ [(0x11F, b)]))

theorem test_meets_bad_records : (∀ m ∈ [16777216, 8], ∀ b ∈ [(0 : Byte), 1], Clear (lengths m b) [1, 2, 3, 4, 5, 6] ∧
      field ((lengths m b).me.bytes .a 0x100 32) 0 8 = m ∧
      ∀ r ∈ [(1 : Reg), 6], ∀ q ∈ [(2 : Reg), 5], ∀ c ∈ [(3 : Reg), 4], Ready (.cpm r q c 0) (lengths m b)) ∧
    (val (lengths 8 0) 3).toNat = 0x100 ∧ 4194304 < (val (lengths 8 0) 4).toNat + 32 ∧
    placeFault (lengths 8 0).me true (.at .a 0) 8 = none ∧ placeFault (lengths 8 1).me false (.at .a 0) 8 = none ∧
    cpmStream ((lengths 8 1).me.bytes .a 0x100 32) = none ∧
    (bufPlace (val (lengths 8 0) 6) = some (.at .c 0) ∧ PlaceBad (lengths 8 0) true (.at .c 0) 8 .perm) ∧
    (bufPlace (val (lengths 8 0) 5) = some (.at .w 0) ∧ PlaceBad (lengths 8 0) false (.at .w 0) 8 .perm) := by
  refine ⟨?_, by decide, by decide, by decide, by decide, by decide, ⟨by decide, .inl ⟨_, _, rfl, .inr rfl⟩⟩,
    ⟨by decide, .inl ⟨_, _, rfl, .inr rfl⟩⟩⟩
  simp only [Clear, Ready]; decide

/-- Descriptors: a stream of one row of 24 INT8 elements, weights of one column of 24 INT8 elements. -/
def arrays (l : Leave) : State := regs [(1, 24 * 2 ^ 23 + 0x89 * 2 ^ 48), (2, 0), (3, 0), (4, 24 * 2 ^ 8 + 0x89)]
  (tile.onMe fun c => { c with leave := l })

theorem test_meets_array_commands : ∀ l ∈ [Leave.granted, .none, .asked], Clear (arrays l) [1, 2, 3, 4] ∧ (arrays l).me.leave = l ∧
    (Ready (.mlds 2 3 4) (arrays l) ∧ wOk (val (arrays l) 4) = true ∧
      wFits (val (arrays l) 4) 0 0 = true ∧ (arrays l).me.arrayRoom 0 = true) ∧
    (Ready (.mmul 1 2 3 false 0) (arrays l) ∧ Ready (.mmulc 1 2 3 false 0) (arrays l) ∧
      StreamMayIssue (arrays l) true (val (arrays l) 1) 0 0 none) ∧
    (Ready .mswap tile ∧ Ready (.mclr 2 3) (arrays l) ∧ Ready (.mclr 0 1) (regs [(1, 127100)] tile) ∧
      8 * 127100 + (127100 + 3) / 4 ≤ 1048576) := by
  simp only [Ready, Clear, val, StreamMayIssue]; decide +kernel

/-- Die 0 with a budget and with requests that wait. -/
def governed (w : BitVec 32) (l : List (Nat × BitVec 32)) : State :=
  { arrays .none with dies := [{ State.resetDie 0 with pwrbud := w, leaves := l }] }

theorem test_meets_leave (w z : BitVec 32) (h : z.toNat ≤ w.toNat) : (governed w []).me.leave = .none ∧ (governed w []).me.die = 0 ∧
    ((governed w []).die 0).leaves = [] ∧ ((governed w []).die 0).pwruse.toNat + z.toNat ≤ ((governed w []).die 0).pwrbud.toNat ∧
    ((governed w [(1, 5)]).die 0).leaves ≠ [] := by
  refine ⟨rfl, show (arrays .none).me.die = 0 by decide, rfl, ?_, List.cons_ne_nil _ _⟩
  show (0 : BitVec 32).toNat + z.toNat ≤ w.toNat
  simpa using h

/-- Partition 0 is cluster 0 and runs context 1; an untaken message of tile 1 with stamp 5 waits; a program region of two
words. -/
def pair : State :=
  { regs [(1, 1), (2, 0), (3, 4096)] (tile.onMe fun c => c.onEng fun e => { e with
      skid := [{ src := 1, far := false, stamp := 5, bytes := [7] }] }) with
    parts := [(0, { (default : Part) with mask := 1, ctx := 1 })]
    dies := State.reset.dies.map fun d => { d with msq := { d.msq with regions := [(1, 0, 2)] } } }

theorem test_meets_messages : Clear pair [1, 2, 3] ∧ Ready (.snd 1 2 3) pair ∧ pair.me.delta.toNat < 2 ^ 26 ∧
    pair.peer pair.me (val pair 1) = some false ∧ (val pair 3).toNat ≤ 4096 ∧
    Ready (.snd 1 2 3) (pair.onMe fun c => c.onSpec fun p => { p with lt := 0x4000000 }) ∧
    2 ^ 26 ≤ (pair.onMe fun c => c.onSpec fun p => { p with lt := 0x4000000 }).me.delta.toNat ∧
    (∀ g ∈ [(5 : BitVec 6), 6], Ready (.rcv 1 2 g) pair) ∧
    pair.me.eng.skid.find? (fun m => m.src == 1) = some { src := 1, far := false, stamp := 5, bytes := [7] } ∧
    pair.me.eng.skid.find? (fun m => m.src == 0) = none ∧ Ready (.rcv 2 2 0) pair ∧ pair.peer pair.me 0 = some false ∧
    Ready (.msq 1) pair ∧ (val pair 1).toNat < ((pair.die 0).msq.region 1).2 ∧ (pair.die 0).msq.wait.length < 16 := by
  simp only [Ready, Clear, val]; decide

/-! ### States that meet the hypotheses: global memory, tags, system -/

/-- Window 1 covers 64 KiB from virtual address 0, and its page is translated for reads and writes. -/
def mapped : State := regs [(1, 0xFFF8), (2, 0xFF00), (3, 0x10000)] (tile.onMe fun c => { c with
  regs := { c.regs with win := c.regs.win.set 1 { base := 0, limit := 0x10000, key := 0 } }
  utlb := [{ ctx := 1, vpn := 0, bits := 16, leaf := 0xF }] })

/-- The same window with no page translated. -/
def unmapped : State := mapped.onMe fun c => { c with utlb := [] }

/-- The same window with a page walk that has ended in a fault. -/
def faulted : State := mapped.onMe fun c => { c with utlb := [], walk := .fault 0 true false }

/-- The same window mapped to group 0, which drains. -/
def draining : State :=
  { mapped.onMe fun c => { c with utlb := [{ ctx := 1, vpn := 0, bits := 16, leaf := 0x800000000000004F }] } with
    groups := State.reset.groups }

theorem test_meets_global_accesses : Clear mapped [1, 2, 4] ∧ VClear mapped [4] ∧
    (Ready (.ldg 4 1 true 1 7) mapped ∧ Within (mapped.me.win 1) 0xFFF8 8 0xFFF8 ∧
      translated mapped 0xFFF8 8 true false = .ok [{ pa := 0xFFF8, n := 8 }]) ∧
    (Ready (.vldg 4 2 false 1 0) mapped ∧ Within (mapped.me.win 1) 0xFF00 256 0xFF00 ∧
      translated mapped 0xFF00 256 true false = .ok [{ pa := 0xFF00, n := 256 }]) ∧
    (Ready (.stg 4 1 .d 1) mapped ∧ translated mapped 0xFFF8 8 false true = .ok [{ pa := 0xFFF8, n := 8 }]) ∧
    (Ready (.vstg 4 2 1) mapped ∧ translated mapped 0xFF00 256 false true = .ok [{ pa := 0xFF00, n := 256 }]) := by
  simp only [Ready, Clear, VClear, Within, translated]; decide

theorem test_meets_accesses_outside : Clear mapped [3, 4] ∧ VClear mapped [4] ∧
    (∀ i ∈ [Instr.ldg 4 3 false 1 0, .ldg 4 3 true 1 0, .stg 4 3 .b 1, .vldg 4 3 true 1 7, .vstg 4 3 1], Ready i mapped) ∧
    Outside (mapped.me.win 1) 0x10000 1 ∧ Outside (mapped.me.win 1) 0x10000 8 ∧ Outside (mapped.me.win 1) 0x10000 256 := by
  refine ⟨?_, ?_, ?_, ?_, ?_, ?_⟩
  · simp only [Clear]; decide
  · simp only [VClear]; decide
  · simp only [Ready]; decide
  all_goals
    intro va h
    have : (mapped.me.win 1).limit.toNat = 0x10000 := by decide
    have := h.2.1
    omega

theorem test_meets_untranslated : Clear unmapped [1] ∧ Within (unmapped.me.win 1) 0xFFF8 8 0xFFF8 ∧
    (Ready (.ldg 4 1 false 1 0) unmapped ∧ translated unmapped 0xFFF8 8 true false = .no .miss 0xFFF8) ∧
    (Ready (.ldg 4 1 true 1 0) faulted ∧ translated faulted 0xFFF8 8 true false = .no .xlate 0xFFF8) := by
  simp only [Ready, Clear, Within, translated]; decide

/-- Sixteen entries of the load queue. -/
def lqFull (s : State) : State := s.onMe fun c => c.onEng fun e => { e with
  lq := List.replicate 16 { id := 0, remain := 0, here := true, val := 7, fl := 0 } }

/-- One entry of the load queue. -/
def lqOne (n : Nat) (here : Bool) : State := tile.onMe fun c => c.onEng fun e => { e with
  lq := [{ id := 0, remain := n, here := here, val := 7, fl := 0 }] }

theorem test_meets_atomics : Clear mapped [1, 4, 5] ∧ Ready (.amo 4 1 false 1 .pod .cas) mapped ∧
    Ready (.amo 4 1 true 1 .tile .faddF32) (lqFull mapped) ∧ 16 ≤ (lqFull mapped).me.eng.lq.length ∧
    mapped.me.eng.lq.length < 16 ∧ translated mapped 0xFFF8 8 true true = .ok [{ pa := 0xFFF8, n := 8 }] ∧
    Ready (.red 4 1 false 1 .die .add) mapped ∧ (∀ s ∈ [tile, lqOne 1 false, lqOne 0 false, lqOne 0 true], Ready (.lqpop 4) s) ∧
    tile.me.eng.lq = [] := by
  simp only [Ready, Clear, translated]; decide

/-- Tags 5 and 63 set. -/
def tagged : State := regs [(1, 0x8000000000000020), (2, 0x30)] (tile.onMe fun c => c.onSpec fun p => { p with tagmap := 0x8000000000000020 })

theorem test_meets_tags : Clear tagged [1, 2] ∧ (∀ i ∈ [Instr.tagw 5, .tagw 6, .tagwa 1, .tagwa 2, .tagff 63, .tagclr 0], Ready i tagged) ∧
    (∀ k : BitVec 6, (val tagged 1).getLsbD k.toNat = true → tagged.me.spec.tagmap.getLsbD k.toNat = true) ∧
    (val tagged 2).getLsbD 4 = true ∧ tagged.me.spec.tagmap.getLsbD 4 = false := by
  simp only [Ready, Clear, val]; decide

/-- A store of the core has not performed, and an atomic has no result. -/
def busy : State := tile.onMe fun c => (c.request (.gstore [] 0 0 [])).request (.amo [] 0 0 .add false 0 0)

theorem test_meets_fences : (∀ s ∈ [tile, busy], ∀ i ∈ [Instr.drain .module, .drain .tile, .fenceAcq .die, .fenceRel .pod,
    .fenceSc .cluster, .trig], Ready i s) ∧ AllDone tile tile.me ∧ ¬ StoresDone busy busy.me ∧ ¬ LoadsDone busy.me := by
  simp only [Ready, AllDone, StoresDone, LoadsDone]; decide

/-- A legal record at A 0 that names group 0, and one that names no operation at A 64. -/
def collRecord (g : List CGroup) : State :=
  { regs [(1, 0), (2, 64), (3, 0x400000)] (tile.onMe fun c => c.writeBuf .a [(64, 9)]) with cgroups := g }

/-- The entry of a core of rank 0 of partition 0 of this module, and a group of it alone. -/
def selfEntry : W64 := Config.accel.setWidth 64 <<< 30

def alone : CGroup := { num := 0, ctx := 1, entries := [selfEntry], need := [0], dead := false }

theorem test_meets_collectives : Clear (collRecord []) [1, 2, 3] ∧ (∀ r ∈ [(1 : Reg), 2, 3], Ready (.coll r) (collRecord [])) ∧
    (val (collRecord []) 3).toNat / 64 * 64 + 64 > 4194304 ∧ collOk ((collRecord []).me.bytes .a 64 64) = false ∧
    collOk ((collRecord []).me.bytes .a 0 64) = true ∧ (collRecord []).cgroups = [] := by
  refine ⟨by simp only [Clear]; decide, by simp only [Ready]; decide, by simp only [val]; decide, by decide, by decide, rfl⟩

theorem entry_fields (x : BitVec 10) : let n := (x.setWidth 64 <<< 30 : BitVec 64).toNat
    n / 2 ^ 30 % 1024 = x.toNat ∧ n / 2 ^ 24 % 64 = 0 ∧ n / 2 ^ 16 % 256 = 0 := by
  have h := x.isLt
  have e : (x.setWidth 64 <<< 30 : BitVec 64).toNat = x.toNat * 1073741824 := by
    simp [BitVec.toNat_shiftLeft, Nat.shiftLeft_eq]
    omega
  simp only [e]
  omega

theorem test_meets_own_group : selfEntry ∈ alone.entries ∧ isSelf tile.me selfEntry = true ∧
    (collRecord [alone]).me.part = tile.me.part ∧ (collRecord [alone]).me.rank = tile.me.rank := by
  obtain ⟨h1, h2, h3⟩ := entry_fields Config.accel
  refine ⟨List.mem_singleton_self _, ?_, rfl, rfl⟩
  unfold isSelf selfEntry
  rw [h1, h2, h3]
  simp [show tile.me.part = 0 from rfl, show tile.me.rank = 0 from rfl]

theorem test_meets_group : Ready (.coll 1) (collRecord [alone]) ∧
    (collRecord [alone]).collGroup ((collRecord [alone]).me.bytes .a 0 64) = some alone := by
  refine ⟨⟨by decide, by decide⟩, ?_⟩
  have h : field ((collRecord [alone]).me.bytes .a 0 64) 4 4 = 0 := by decide
  unfold State.collGroup
  rw [h]; rfl

/-- The entry of a core of rank 1 of partition 0 of a module: not the executing core's. -/
def stranger (x : BitVec 10) : W64 := (x.setWidth 64 <<< 30) + 0x10000

theorem stranger_rank (x : BitVec 10) : (stranger x).toNat / 2 ^ 16 % 256 = 1 := by
  unfold stranger
  have h := x.isLt
  have e : (x.setWidth 64 <<< 30 : BitVec 64).toNat = x.toNat * 1073741824 := by
    simp [BitVec.toNat_shiftLeft, Nat.shiftLeft_eq]
    omega
  rw [BitVec.toNat_add, e, show (0x10000 : BitVec 64).toNat = 65536 from rfl]
  omega

def strange : State := collRecord [{ alone with entries := [stranger Config.accel] }]

theorem test_meets_strange_group : Ready (.coll 1) strange ∧
    strange.collGroup (strange.me.bytes .a 0 64) = some { alone with entries := [stranger Config.accel] } ∧
    isSelf strange.me (stranger Config.accel) = false := by
  refine ⟨⟨by decide, by decide⟩, ?_, ?_⟩
  · have h : field (strange.me.bytes .a 0 64) 4 4 = 0 := by decide
    unfold State.collGroup
    rw [h]; rfl
  · have r : strange.me.rank = 0 := rfl
    unfold isSelf
    rw [r, stranger_rank]
    simp

theorem test_meets_carried : (collRecord [alone]).carried alone = true ∧ (collRecord [alone]).me.eng.colls.length < 16 := by
  refine ⟨?_, by decide⟩
  obtain ⟨h1, -, -⟩ := entry_fields Config.accel
  show (_ && true) = true
  have h : (collRecord [alone]).carrierOk selfEntry 0 = true := by
    unfold State.carrierOk selfEntry
    rw [h1]
    simp
  rw [Bool.and_true]
  exact h

/-- The same with 16 collectives queued. -/
theorem test_meets_full_queue : 16 ≤ ((collRecord [alone]).onMe fun c => c.onEng fun e => { e with
    colls := List.replicate 16 { id := 0, record := [], steps := 0, fl := 0, gone := false, told := false } }).me.eng.colls.length := by
  decide

theorem test_meets_special_reads : Ready (.rdsr 4 0x00) tile ∧ Ready (.rdsr 4 0x19) tile ∧ Ready (.rdsr 4 0x97) tile ∧
    (special tile)[0]? = some (0x00, 0) ∧ ((special tile)[11]?.map Prod.fst) = some 0x25 :=
  ⟨⟨by decide, by decide⟩, ⟨by decide, by decide⟩, ⟨by decide, by decide⟩, rfl, rfl⟩

theorem test_meets_special_writes : (Ready (.wrsr 1 0x02) ends ∧ Ready (.wrsr 1 0x50) ends ∧ Ready (.wrsr 0 0x50) ends ∧
    Ready (.wrsr 1 0x5D) ends ∧ Ready (.wrsr 1 0x75) ends) ∧ Clear ends [0, 1] ∧ 6 < (val ends 1).toNat := by
  refine ⟨⟨⟨by decide, by decide⟩, ⟨by decide, by decide⟩, ⟨by decide, by decide⟩, ⟨by decide, by decide⟩,
    ⟨by decide, by decide⟩⟩, ?_, ?_⟩
  · simp only [Clear]; decide
  · simp only [val]; decide

theorem test_meets_illegal_words : steward.me.steward = true ∧ tile.me.steward = false ∧ tile.me.num ≠ 256 ∧
    legal (.vadd 1 2 3 .i32 false 0) steward.me = false ∧ coreWord (.add 1 2 3 false false) = true ∧
    legal (.add 1 2 3 false false) tile.me = true ∧
    hazard (.add 1 2 3 false false) (tile.me.onEng id |> fun c => { c with
      flight := [{ remain := 0, past := 1, declared := 64, await := .reply 1, what := .sreg 2 0 false 0 }] }) = true := by decide

theorem test_meets_traps_and_stops : (∀ i ∈ [Instr.trap 255, .tret, .stop 0xFFFF, .swap], Ready i tile) ∧
    Ready (.swapSteward 1) (regs [(1, 63)] steward) ∧ Ready (.swapSteward 1) (regs [(1, 64)] steward) ∧
    Clear (regs [(1, 64)] steward) [1] ∧ tile.me.spec.trapv.toNat % 4 = 3 := by
  simp only [Ready, Clear]; decide

theorem test_meets_causes : pair.me.steward = false ∧ (∃ q, pair.part pair.me.part = some q) ∧ steward.me.steward = true :=
  ⟨by decide, ⟨_, rfl⟩, by decide⟩

theorem test_meets_images : Clear tile [1] ∧ Ready (.ckpt 63) tile ∧ (Ready (.lsv 1 0) tile ∧ Ready (.lrs 1 0) tile) ∧
    (imgAddr tile 1 0 + 384 ≤ 4194304 ∧ ∀ y ∈ tile.me.store.a.bad, y < imgAddr tile 1 0 ∨ imgAddr tile 1 0 + 384 ≤ y) ∧
    (Ready (.lsv 1 0) (regs [(1, 0x3FFEC0)] tile) ∧ Ready (.lrs 1 0) (regs [(1, 0x3FFEC0)] tile) ∧
      4194304 < imgAddr (regs [(1, 0x3FFEC0)] tile) 1 0 + 384) := by
  simp only [Ready, Clear, imgAddr, val]; decide

/-! ### States that meet the hypotheses: the memory sequencer -/

/-- Slot 0 of die 0 runs a program that tile 0 of partition 0 started; its address register 2 and its window name window 1,
64 KiB long; its mask 1 names tile 0, its mask 2 tile 0 and tile 31. -/
def seq : State :=
  { pair.onMe fun c => { c with regs := { c.regs with win := c.regs.win.set 1 { base := 0, limit := 0x10000, key := 0 } } } with
    dies := State.reset.dies.map fun d => { d with msq := { d.msq with
      regions := [(1, 0, 2)]
      slots := d.msq.slots.set 0 { State.freeSlot with
        busy := true, num := 1, tile := 0, ctx := 1, pc := 1
        ma := State.freeSlot.ma.set 2 (BitVec.ofNat 54 (2 ^ 51)), mm := (State.freeSlot.mm.set 1 1).set 2 0x80000001 } } } }

theorem test_meets_sequencer_words : Mine seq 0 0 ∧ (∀ n, ¬ Mine seq 31 n) ∧ seq.slotNow.pc < seq.slotNow.first + 2 ∧
    seq.slotNow.first + 1 ≤ seq.slotNow.pc ∧ (0 : BitVec 4).toNat < 8 := by
  refine ⟨⟨rfl, by decide⟩, ?_, by decide, by decide, by decide⟩
  intro n h
  have h2 := h.2
  rw [h.1] at h2
  exact absurd h2 (by decide)

theorem test_meets_transfers : seq.slotNow.ma[2].toNat / 2 ^ 51 = 1 ∧ Within ((seq.core 0).win 1) 0 (128 * 512) 0 ∧
    (∀ va, ¬ Within ((seq.core 0).win 1) 0 (128 * 513) va) ∧ (∀ va, ¬ Within ((seq.core 0).win 0) 0 1 va) ∧
    (∀ t ∈ (List.range 32).filter fun t => (1 : BitVec 32).getLsbD t, Mine seq t 0) ∧
    (128 * (2 ^ 15 - 512) + seqSpan 0 0 512 ≤ BSpace.size .a ∧ ¬ 128 * (2 ^ 15 - 512) + seqSpan 0 0 513 ≤ BSpace.size .a) ∧
    32 % 32 = 0 ∧ 33 % 32 ≠ 0 ∧ 64 % 64 = 0 ∧ 96 % 64 ≠ 0 ∧ rbOk (seq.slotNow.ms[15]) 0 = false := by
  refine ⟨by decide, ⟨by decide, by decide, by decide, rfl⟩, ?_, ?_, ?_, ⟨by decide, by decide⟩, by decide, by decide, by decide,
    by decide, by decide⟩
  · intro va h
    have := h.2.1
    rw [show ((seq.core 0).win 1).limit.toNat = 65536 from by decide] at this
    omega
  · intro va h
    exact h.1 (by decide)
  · intro t ht
    have : t = 0 := by revert t; decide
    subst this
    exact ⟨rfl, by decide⟩

/-! ### States that meet the hypotheses: the other steps -/

/-- A result of tile 0 is due, with a flag; FPCTL enables the traps of a mask. -/
def dueFlag (te : W64) : State := tile.onMe fun c => { c with
  flight := [{ remain := 0, past := 0, declared := 0, await := .no, what := .sreg 2 7 false 4 }]
  spec := { c.spec with fpctl := te <<< 16 } }

/-- The executing tile meets a bundle of one word. -/
def meets (i : Instr) (s : State) : State := s.onMe fun c => c.putWord c.pc (encode i false)

/-- A result of tile 0 is due and has not come. -/
def missing : State := tile.onMe fun c => { c with
  flight := [{ remain := 0, past := 0, declared := 0, await := .net 1, what := .sreg 2 7 false 4 }] }

set_option maxRecDepth 10000 in
theorem test_meets_cycles :
    ((meets (.tagw 5) tile).me.run = .running ∧ (meets (.tagw 5) tile).mayPerform = false ∧
      (meets (.tagw 5) tile).me.fault = none ∧ ∃ u, (meets (.tagw 5) tile).tryCycle = .stall .sync u) ∧
    ((dueFlag 0).mayPerform = true ∧ (dueFlag 0).performDue.1.me.enabled (dueFlag 0).performDue.2 = 0) ∧
    ((dueFlag 4).mayPerform = true ∧ (dueFlag 4).performDue.1.me.run = .running ∧
      (dueFlag 4).performDue.1.me.enabled (dueFlag 4).performDue.2 = 4 ∧ (4 : BitVec 9).getLsbD 2 = true ∧
      ∀ j < 2, (4 : BitVec 9).getLsbD j = false) ∧
    (∃ u, (meets (.stampHold 5) tile).tryCycle = .commit u ∧ u.me.iss.verdict = .held ∧ (meets (.stampHold 5) tile).me.fault = none) ∧
    ((meets (.tagw 5) missing).me.run = .running ∧ (meets (.tagw 5) missing).me.fault = none ∧
      (meets (.tagw 5) missing).dueStall = some .fabric ∧ ∃ u, (meets (.tagw 5) missing).tryCycle = .stall .sync u) :=
  ⟨⟨rfl, rfl, rfl, _, rfl⟩, ⟨rfl, rfl⟩, ⟨rfl, rfl, rfl, rfl, by decide⟩, ⟨_, rfl, rfl, rfl⟩, ⟨rfl, rfl, rfl, _, rfl⟩⟩

/-- Requests of tile 0: a global load, an atomic, a contribution, a message to tile 1, a trigger, and the answers of a load and of
an atomic under way, numbered from 1 on. -/
def requests : State :=
  { pair.onMe fun c => ((((((c.request (.gload [{ pa := 0, n := 8 }] 1 0 false false)).request
      (.amo [{ pa := 0, n := 8 }] 1 0 .add false 1 0)).request (.red [{ pa := 0, n := 8 }] 1 0 .add false 1)).request
      (.snd 1 false 5 [7])).request (.trig [3] false)).request (.back [1] 0 false (.gload [] 1 0 false false))).request
      (.back [1] 0 true (.amo [] 1 0 .add false 1 0)) with
    rwins := [{ base := 0, size := 1, count := 1, part := 0, ctx := 1, flagw := 0, pset := 1 }] }

theorem test_meets_replies :
    Reaches requests 0 1 { id := 1, kind := .gload [{ pa := 0, n := 8 }] 1 0 false false, fault := none } [{ pa := 0, n := 8 }] ∧
    Reaches requests 0 2 { id := 2, kind := .amo [{ pa := 0, n := 8 }] 1 0 .add false 1 0, fault := none } [{ pa := 0, n := 8 }] ∧
    Reaches requests 0 3 { id := 3, kind := .red [{ pa := 0, n := 8 }] 1 0 .add false 1, fault := none } [{ pa := 0, n := 8 }] ∧
    ((requests.core 0).req 6 = some { id := 6, kind := .back [1] 0 false (.gload [] 1 0 false false), fault := none } ∧
      (requests.core 0).req 7 = some { id := 7, kind := .back [1] 0 true (.amo [] 1 0 .add false 1 0), fault := none } ∧
      requests.inRing (requests.core 0) 6 = false ∧ requests.inRing (requests.core 0) 7 = false) := by
  simp only [Reaches, Arrived]; decide

/-- Cores of the first cluster changed, with partition 0 at hand. -/
def cluster (f : Nat → Core → Core) (s : State) : State := [0, 1, 2, 3].foldl (fun s n => s.onCore n (f n)) s

/-- The halt line of partition 0 is driven, and the tiles from `n` on have stopped or are stopping. -/
def halting (n : Nat) : State :=
  let s := cluster (fun k c => { c with ctx := 1, run := if n ≤ k then .stopping else .running, stop := some (mkStop .halted 0 0) }) pair
  { s with parts := [(0, { (default : Part) with mask := 1, ctx := 1, halt := true })] }

theorem test_meets_halts : (∃ p, (halting 1).part ((halting 1).core 0).part = some p ∧ p.halt = true ∧ p.ctx = ((halting 1).core 0).ctx) ∧
    ((halting 1).core 0).ctx ≠ 0 ∧ ((halting 1).core 0).steward = false ∧ ((halting 1).core 0).run = .running ∧
    ((halting 1).core 1).run = .stopping ∧ ((halting 1).core 1).stop = some (mkStop .halted 0 0) ∧
    ((halting 1).core 1).steward = false ∧ (∃ k ∈ (halting 1).tiles ((halting 1).core 1).part, ((halting 1).core k).quiet = false) ∧
    (∀ k ∈ (halting 0).tiles ((halting 0).core 1).part, ((halting 0).core k).quiet = true ∧ (halting 0).seqQuiet k = true) ∧
    ((halting 0).core 1).steward = false ∧ ((halting 0).core 1).run = .stopping ∧ steward.me.settled = true := by
  refine ⟨⟨_, rfl, rfl, by decide⟩, ?_⟩
  decide

/-- A context of partition 0 whose release is under way. -/
def released : State := { pair with
  ctxs := [{ (default : Ctx) with id := 1, state := .halted }]
  host := { State.resetHost with task := .resume 3 1 } }

theorem test_meets_release : released.host.task = .resume 3 1 ∧ (∃ x, released.ctx 1 = some x) ∧
    ((halting 0).core 1).stop = some (mkStop .halted 0 0) ∧ ((halting 0).core 1).eng.colls = [] ∧ (mkStop .halted 0 0).done = false ∧
    (mkStop .halted 0 0).syncw = false := ⟨rfl, ⟨_, rfl⟩, by decide, by decide, by decide, by decide⟩

/-- All tiles of the cluster stand at a barrier of their cluster, tile 3 in a state of its own at its own release time. -/
def atBarrier (posted : Bool) (since : Nat) (r : Run) (lt : W64) : State :=
  cluster (fun k c => { c with
    run := if k = 3 then r else .barrier posted .cluster, since := since
    spec := { c.spec with lt := if k = 3 then lt else 8 } }) pair

/-- The tile of a barrier that has an access open. -/
def openBarrier : State := (atBarrier false 0 (.barrier false .cluster) 8).onCore 0 fun c => c.request (.gstore [] 0 0 [])

theorem test_meets_posts :
    (let s := atBarrier false 0 (.barrier false .cluster) 8; (s.core 0).run = .barrier false .cluster ∧ AllDone s (s.core 0)) ∧
    (openBarrier.core 0).run = .barrier false .cluster ∧ ¬ AllDone openBarrier (openBarrier.core 0) := by
  simp only [AllDone, LoadsDone, StoresDone]; decide

theorem atBarrier_covered (n : Nat) (r : Run) (t : W64) :
    (atBarrier true n r t).covered ((atBarrier true n r t).core 0) .cluster = [0, 1, 2, 3] := by
  have h : ∀ k, (atBarrier true n r t).covers ((atBarrier true n r t).core 0) .cluster k =
      ((decide (k < 256) && inMask 1 k && !false) && k / 4 == 0 / 4) := fun _ => rfl
  show (tilesOf 1).filter _ = _
  rw [List.filter_congr fun k _ => h k]
  decide +kernel

theorem test_meets_barriers (n : Nat) (r : Run) (t : W64) : let s := atBarrier true n r t
    (s.core 0).run = .barrier true .cluster ∧ s.covered (s.core 0) .cluster = [0, 1, 2, 3] ∧
    (s.core 1).run = .barrier true .cluster ∧ (s.core 2).run = .barrier true .cluster ∧ (s.core 3).run = r ∧
    (s.core 0).since = n ∧ (s.core 1).since = n ∧ (s.core 2).since = n ∧ (s.core 3).since = n ∧
    (s.core 0).release = 7 ∧ (s.core 1).release = 7 ∧ (s.core 2).release = 7 ∧ (s.core 3).release = t.toNat - 1 ∧
    ∃ p, s.part (s.core 0).part = some p ∧ p.halt = false :=
  ⟨rfl, atBarrier_covered n r t, rfl, rfl, rfl, rfl, rfl, rfl, rfl, rfl, rfl, rfl, rfl, _, rfl, rfl⟩

/-- Partition 0 with one leg of both planes, in a state. -/
def leg (st : LegState) : State := { cluster (fun _ c => { c with ctx := 1, run := .halted }) pair with
  parts := [(0, { (default : Part) with
    mask := 1, ctx := 1, swp := true, shi := true, sht := true
    trav := { (default : Trav) with
      bound := true, bind := padTo 32 [0, 0, 2, 1, 1], state := st, img0 := [{ w0 := 0, w1 := 0 }], img1 := [{ w0 := 0, w1 := 0 }]
      arriving := [{ fwd := true, ret := false, bytes := [7], via := none }, { fwd := false, ret := true, bytes := [], via := none }] } })] }

theorem test_meets_legs : (∀ st ∈ [LegState.wait, .ready, .run, .done, .fin], ∃ q, (leg st).part 0 = some q ∧
      (leg st).legsGo q = true ∧ q.live = true ∧ q.trav.state = st ∧ q.trav.cur = some { w0 := 0, w1 := 0 } ∧
      q.swp = true ∧ q.shi = true ∧ q.sht = true ∧ q.trav.inf < q.trav.fins) ∧
    (∀ n ∈ (leg .run).tiles 0, (leg .run).tileDone n = true) ∧
    (∀ q ∈ (leg .run).part 0, (leg .run).sendRoom 0 ((leg .run).doneSends 0 q.trav { w0 := 0, w1 := 0 }) = true) ∧
    (∃ u, ((leg .done).flip 0).trav (.part 0) = some u ∧ u.cur = some { w0 := 0, w1 := 0 }) ∧
    Head (leg .run) 0 true false (.part 0) { fwd := true, ret := false, bytes := [7], via := none } [{ fwd := false, ret := true, bytes := [], via := none }] ∧
    Head (leg .run) 0 false true (.part 0) { fwd := false, ret := true, bytes := [], via := none } [{ fwd := true, ret := false, bytes := [7], via := none }] ∧
    (leg .run).viaOut none = false ∧ (∀ u, (leg .run).findTrav 0 (fun t => (leg .run).fromFar t u) = none) := by
  refine ⟨?_, by decide, by decide, ⟨_, rfl, by decide⟩, ⟨by decide, _, rfl, by decide⟩, ⟨by decide, _, rfl, by decide⟩, rfl, ?_⟩
  · intro st hst
    refine ⟨_, rfl, ?_⟩
    revert st
    decide
  · intro u
    cases u <;> rfl

/-- A leg whose traverse has ended its plane, whose inbox is full, whose neighbours are on other modules that have bound it, whose
message is on its way in cells from die 1; every group it may go over carries UALink. -/
def farLeg : State :=
  { leg .done with
    parts := [(0, { (default : Part) with
      mask := 1, ctx := 1
      trav := { (default : Trav) with
        bound := true, bind := padTo 32 [0, 15, 2, 1, 1], state := .done, inf := 1, upMet := true, dnMet := true
        arriving := [{ fwd := true, ret := false, bytes := [7], via := some (1, 5) }, { fwd := false, ret := true, bytes := [], via := some (1, 5) }] } })]
    groups := List.replicate (Config.route 0 + 1) { State.resetGroup with pers := 2, role := 1, state := .active }
    dies := State.reset.dies.map fun d => { d with station := { d.station with
      egress := [(false, 0, { (default : RCell) with sdie := 1, sunit := 38, dunit := 38, dstr := 1, kind := 7, tid := 5 })] } } }

theorem test_meets_far_legs : (∃ u, (farLeg.flip 0).trav (.part 0) = some u ∧ u.cur = none ∧ u.fins ≤ u.inf) ∧
    Head farLeg 0 true false (.part 0) { fwd := true, ret := false, bytes := [7], via := some (1, 5) } [{ fwd := false, ret := true, bytes := [], via := some (1, 5) }] ∧
    Head farLeg 0 false true (.part 0) { fwd := false, ret := true, bytes := [], via := some (1, 5) } [{ fwd := true, ret := false, bytes := [7], via := some (1, 5) }] ∧
    farLeg.viaOut (some (1, 5)) = true ∧ (∃ u, farLeg.trav (.part 0) = some u) ∧
    (∀ u, farLeg.findTrav 0 (fun t => farLeg.fromFar t u) = some (.part 0)) := by
  have open' : farLeg.ualOpen (Config.route 0) = true := by
    have : farLeg.group (Config.route 0) = { State.resetGroup with pers := 2, role := 1, state := .active } := by
      unfold State.group farLeg
      simp
    unfold State.ualOpen
    rw [this]
    rfl
  refine ⟨⟨_, rfl, rfl, by decide⟩, ⟨by decide, _, rfl, by decide⟩, ⟨by decide, _, rfl, by decide⟩, by decide, ⟨_, rfl⟩, ?_⟩
  intro u
  have h : ∃ t, farLeg.trav (.part 0) = some t ∧ farLeg.fromFar t u = true := by
    refine ⟨_, rfl, ?_⟩
    cases u <;> (unfold State.fromFar; rw [Bool.and_eq_true]; exact ⟨by decide, open'⟩)
  obtain ⟨t, h1, h2⟩ := h
  unfold State.findTrav
  rw [h1]
  simp [h2]

/-- A trigger of tile 0 that nothing keeps. -/
def triggered : State := { leg .run with me := ((leg .run).me).request (.trig [3] false) }

theorem test_meets_triggers : (triggered.core 0).part = 0 ∧ (∃ r, (triggered.core 0).eng.reqs.find? (fun r => match r.kind with
      | .trig .. => true
      | _ => false) = some r ∧ r.kind = .trig [3] false ∧ triggered.trigReady (triggered.core 0) r.id false = true) ∧
    (∃ q, triggered.part 0 = some q ∧ (q.trav.cur.map LegW.early).getD false = false) :=
  ⟨rfl, ⟨_, rfl, rfl, by decide⟩, _, rfl, rfl⟩

/-- A core of the first cluster with a copy all of whose bytes are written, a stream that waits for its circular buffer, a
checkpoint taken. -/
def engines : State := { pair.onMe fun c => { c.onEng fun e => { e with
      copies := [{ (default : Copy) with len := 2, done := 2, got := some [1, 2] }]
      cbs := e.cbs.set 2 (some { inC := false, base := 0, size := 256, elem := 128, prod := 128, cons := 0 })
      arr := { e.arr with streams := [{ (default : Stream) with id := 9, desc := 0, cb := some 2 }] } } with
    ckpt := [{ tag := 1, image := some c.toArch, saved := [] }] } with
  ctxs := [{ (default : Ctx) with id := 1 }] }

theorem test_meets_engines : (∃ k, engines.me.eng.copies = [k] ∧ k.read = true ∧ k.len ≤ k.done ∧ k.way = .home) ∧ engines.me.engines = true ∧
    (∀ q ∈ engines.me.eng.inq, q.copy = false) ∧
    (∃ x b, engines.me.nextStream = some x ∧ x.cb = some 2 ∧ engines.me.cb 2 = some b ∧
      engines.me.reserved 2 b.elem + descM x.desc * b.elem ≤ b.occ) ∧
    (∃ k a, engines.me.ckpt = [k] ∧ k.image = some a ∧ engines.me.run ≠ .stopped) ∧ (∃ x, engines.ctx engines.me.ctx = some x) ∧
    (∃ k a, (engines.onMe fun c => { c with run := .stopped }).me.ckpt = [k] ∧ k.image = some a) ∧
    (tile.me.ctx ≠ 0 ∧ tile.me.steward = false ∧ tile.me.kept = false ∧ tile.me.ckpt = [] ∧ tile.me.run ≠ .stopped) :=
  ⟨⟨_, rfl, rfl, by decide, rfl⟩, rfl, by decide, ⟨_, _, rfl, rfl, rfl, by decide⟩, ⟨_, _, rfl, rfl, by decide⟩, ⟨_, rfl⟩, ⟨_, _, rfl, rfl⟩, by decide⟩

/-- A result of the array is due on tile 0. -/
def arrayDue (w : Landing) : State := tile.onMe fun c => { c with flight := [{ remain := 0, past := 0, declared := 0, await := .no, what := w }] }

theorem test_meets_array_results : (∃ t, t = ((arrayDue (.plane 3)).focus 0).meetChain ∧ OnlyDue t 0 fun w => ∃ l, w = .plane l) := by
  refine ⟨_, rfl, by decide, rfl, ⟨_, List.mem_singleton_self _, rfl⟩, ?_⟩
  intro f hf _
  exact ⟨3, by rw [List.mem_singleton.1 hf]⟩

/-- A read and a write of one burst of the sequencer are under way, of which some are moved and some converted; deliveries wait. -/
def transfers (layout : BitVec 2) (done : Nat) (out : Option (List (List (Nat × Byte)))) (q : List Deliv) : State :=
  let x : Xfer := { (default : Xfer) with
    id := 4, owner := 0, cores := [0], len := 1, win := 1, layout := layout, way := .home, done := done, out := out }
  { mapped.onMe fun c => c.onEng fun e => { e with inq := q } with dies := State.reset.dies.map fun d => { d with
      msq := { d.msq with xfers := [x, { x with id := 5, write := true }] }
      tlb := [{ ctx := 1, vpn := 0, bits := 16, leaf := 0xF }] } }

theorem test_meets_transfer_completions : ∀ l ∈ [(0 : BitVec 2), 1], ∀ n ∈ [0, 1], ∀ o ∈ [none, some []], ∀ id ∈ [4, 5], ∃ x,
    ((transfers l n o []).die 0).msq.xfers.find? (fun x => x.id == id) = some x ∧ x.layout = l ∧ x.done = n ∧ x.out = o ∧ x.len = 1 ∧
    x.write = decide (id = 5) ∧ (transfers l n o []).seqLive x = true ∧ x.way = .home ∧
    (transfers l n o []).restOf x (min 1 (x.len - x.done)) = .ok (if n = 0 then [0] else []) := by
  intro l hl n hn o ho id hid
  simp only [List.mem_cons, List.not_mem_nil, or_false] at hl hn ho hid
  obtain rfl | rfl := hl <;> obtain rfl | rfl := hn <;> obtain rfl | rfl := ho <;> obtain rfl | rfl := hid <;>
    exact ⟨_, rfl, rfl, rfl, rfl, rfl, rfl, rfl, rfl, rfl⟩

theorem test_meets_transfer_ends : ∀ q ∈ [[], [{ copy := false, space := BSpace.a, bytes := [(0, (1 : Byte))] }]], ∃ x w,
    ((transfers 1 1 (some [[(0, 1)]]) q).die 0).msq.xfers.find? (fun x => x.id == 4) = some x ∧ x.out = some [w] ∧ x.write = false ∧
    x.cores = [0] ∧ (0 = (transfers 1 1 (some [[(0, 1)]]) q).me.num) ∧ 0 < (transfers 1 1 (some [[(0, 1)]]) q).dies.length ∧
    (((transfers 1 1 (some [[(0, 1)]]) q).core 0).eng.inq.any fun d => !d.copy) = decide (q ≠ []) := by
  intro q hq
  simp only [List.mem_cons, List.not_mem_nil, or_false] at hq
  obtain rfl | rfl := hq <;> exact ⟨_, _, rfl, rfl, rfl, rfl, rfl, by decide, rfl⟩

/-- Every station holds its 1,024 rounds. -/
def fullStations : State := { requests with dies := requests.dies.map fun d => { d with
  rounds := List.replicate 1024 { win := 1, pa := 1, op := .add, w4 := false, mixed := false, got := [] } } }

theorem test_meets_messages_arriving : (∃ r, (requests.core 0).req 4 = some r ∧ r.kind = .snd 1 false 5 [7]) ∧
    ((requests.core 0).firstSend 1 false).map Req.id = some 4 ∧ requests.inRing (requests.core 0) 4 = false ∧
    (∃ y, requests.rwinAt 0 = some y ∧ y.pset.getLsbD 0 = true ∧ y.pset.getLsbD 1 = false ∧ y.part = requests.me.part ∧ y.ctx = requests.me.ctx) ∧
    requests.cellsOf (requests.core 0) { id := 3, kind := .red [{ pa := 0, n := 8 }] 1 0 .add false 1, fault := none } = [] ∧
    requests.mayOpen 0 0 = true :=
  ⟨⟨_, rfl, rfl⟩, rfl, by decide, ⟨_, rfl, by decide, by decide, by decide, by decide⟩, by decide, by decide⟩

set_option maxRecDepth 10000 in
theorem test_meets_full_station : fullStations.mayOpen 0 0 = false ∧
    fullStations.cellsOf (fullStations.core 0) { id := 3, kind := .red [{ pa := 0, n := 8 }] 1 0 .add false 1, fault := none } = [] ∧
    (fullStations.core 0).req 3 = some { id := 3, kind := .red [{ pa := 0, n := 8 }] 1 0 .add false 1, fault := none } ∧
    fullStations.inRing (fullStations.core 0) 3 = false ∧ fullStations.chansHold [{ pa := 0, n := 8 }] = false ∧
    fullStations.ringRoom (replies (fullStations.core 0) { id := 3, kind := .red [{ pa := 0, n := 8 }] 1 0 .add false 1, fault := none }
      [{ pa := 0, n := 8 }] []) = true ∧
    (∃ y, fullStations.rwinAt 0 = some y ∧ y.pset.getLsbD 0 = true ∧ y.part = (fullStations.core 0).part ∧ y.ctx = (fullStations.core 0).ctx) :=
  ⟨by decide +kernel, rfl, rfl, by decide +kernel, rfl, rfl, _, rfl, by decide, by decide, by decide⟩

/-- Far-tile number 200 is an entry of partition 0, over group 0 in UALink; a collective has exchanged; leave is asked for. -/
def outside (k : List Coll) (m : List Msg) (st : GState) : State :=
  { (pair.onMe fun c => { c with run := .running, eng := { c.eng with colls := k, skid := m } }).onGroup 0 fun g => { g with
      pers := 2, state := st } with
    parts := [(0, { (default : Part) with mask := 1, ctx := 1, far := [200] })]
    dies := State.reset.dies.map fun d => { d with leaves := [(0, 5)] } }

theorem test_meets_fabric : (∃ q, (outside [] [] .active).part 0 = some q ∧ farFrom q.far 0 = some 200 ∧ (outside [] [] .draining).part 0 = some q) ∧
    ((outside [] [] .active).tiles 0)[0]? = some 0 ∧ (outside [] [] .active).farReaches 200 = true ∧
    (outside [] [] .off).farReaches 200 = false ∧
    (∀ l ∈ [[], List.replicate 32 ({ src := 200, far := true, stamp := 0, bytes := [] } : Msg)],
      (((outside [] l .active).core 0).eng.skid.filter fun m => m.far && m.src == 200).length = l.length) ∧
    ((outside [{ id := 6, record := [], steps := 1, fl := 0, gone := false, told := false }] [] .off).core 0).eng.colls.find? (fun k => k.id == 6) =
      some { id := 6, record := [], steps := 1, fl := 0, gone := false, told := false } ∧
    ((outside [{ id := 6, record := [], steps := 1, fl := 0, gone := false, told := false }] [] .off).core 0).run ≠ .stopped ∧
    ((outside [] [] .off).die 0).leaves = [(0, 5)] := by
  refine ⟨⟨_, rfl, by decide, rfl⟩, ?_⟩
  decide +kernel

theorem test_meets_far_messages : (outside [] [] .active).farFor 0 0 1 = none ∧ (outside [] [] .active).farFor 0 0 0 = some 200 ∧
    ((outside [] [] .active).farLand 0 0 0 5 [7]).isSome = true ∧
    (outside [] (List.replicate 32 ({ src := 200, far := true, stamp := 0, bytes := [] } : Msg)) .active).farLand 0 0 0 5 [7] = none ∧
    (∀ u, farLeg.findTrav 0 (fun t => t.meets u) = some (.part 0)) ∧
    (5 : Nat) < 2 ^ 32 ∧ amoBytes true = 4 ∧ amoBytes false = 8 ∧
    ((outside [{ id := 6, record := [], steps := 0, fl := 0, gone := false, told := false }] [] .off).core 0).ctx ≠ 0 := by
  refine ⟨by decide, by decide, by decide +kernel, by decide +kernel, ?_, by decide, by decide, by decide, by decide⟩
  intro u
  cases u <;> rfl

/-- Group 3 serves a host, UALink, or nothing, in a state. -/
def group (p r : BitVec 2) (st : GState) : State :=
  State.reset.onGroup 3 fun g => { g with pers := p, role := r, state := st }

/-- Group 3 is draining, and tile 0 has a load from its range open. -/
def opened : State := (group 2 0 .draining).onMe fun c => c.request (.gload [{ pa := 4 * 2 ^ 48, n := 8 }] 1 0 false false)

theorem test_meets_drain_timeout : (opened.group 3).state = .draining ∧ opened.drainDone 3 = false ∧ 3 ∈ opened.moving 3 ∧
    opened.opens 3 = true ∧ ((group 2 0 .draining).group 3).state = .draining ∧ (∀ k ∈ (group 2 0 .draining).moving 3,
      (group 2 0 .draining).opens k = false) ∧
    opened.me.fault = none ∧ (∃ r ∈ opened.me.eng.reqs, r.ends 3 = true) ∧ (opened.onMe fun c => { c with run := .running }).me.run = .running :=
  ⟨rfl, rfl, by decide, rfl, rfl, by decide +kernel, rfl, ⟨_, List.mem_cons_self .., rfl⟩, rfl⟩

/-- The same group secured, with a key for each direction under identifier 1. -/
def keyed : State := (group 2 0 .active).onGroup 3 fun g => { g with secure := true, tx := State.noKey.rotate [1], rx := State.noKey.rotate [1] }

/-- A write of a peer over group 3 to die 1, where its bridge stands, and to die 0. -/
def write1 : Inbound := .ualWrite (2 ^ 37) [7] [true]
def write0 : Inbound := .ualWrite 0 [7] [true]

/-- The item that a write becomes. -/
def item (s : State) (r : Inbound) : InItem := { grp := 3, tid := 0, die := (s.inUnit 3 (.req r)).1, unit := (s.inUnit 3 (.req r)).2, back := none, what := .req r }

/-- The station of the bridge holds 32 cells of the flow of such a write. -/
def fullFlow : State := (List.range 32).foldl (fun s _ => s.queueCells (item keyed write0).ask) (group 2 0 .active)

set_option maxRecDepth 10000 in
theorem test_meets_entries : (keyed.group 3).secure = true ∧ (keyed.group 3).rx.knows 1 = true ∧ (keyed.group 3).rx.knows 5 = false ∧
    (keyed.group 3).keyless = false ∧ (keyed.group 3).pers = 2 ∧ (keyed.group 3).state = .active ∧
    ((group 2 0 .active).group 3).secure = false ∧ ((group 3 0 .active).group 3).pers = 3 ∧
    (∀ s ∈ [keyed, group 2 0 .active], (item s write1).ask = [] ∧ s.inbound = [] ∧ s.under (item s write1).trip = false ∧
      s.chansHold (item s write1).what.pieces = false ∧ s.ringRoom ((item s write1).answer [] ++ (item s write1).acks) = true ∧
      (item s write1).answer (s.performIn write1).2 = []) := by decide +kernel

set_option maxRecDepth 10000 in
theorem test_meets_full_flow : (fullFlow.group 3).secure = false ∧ fullFlow.ring.tids = 0 ∧
    fullFlow.ringRoom (item fullFlow write0).ask = false := by decide +kernel

theorem test_meets_inbound : ((group 1 0 .active).group 3).secure = false ∧ ((group 1 0 .active).group 3).upstream = true ∧ ((group 1 1 .active).group 3).upstream = false ∧
    ((group 2 0 .active).group 3).pers = 2 ∧ ((group 2 0 .active).group 3).state = .active ∧
    ((group 2 0 .draining).group 3).state ≠ .active ∧ ((group 1 0 .active).group 3).keyless = false ∧
    ((group 2 0 .active).group 3).keyless = false ∧ ((group 1 0 .draining).group 3).pers = 1 ∧
    ((group 1 0 .draining).group 3).role = 0 ∧ ((group 1 0 .draining).group 3).state = .draining := by decide

/-- Context 1 has one page, virtual page 0, at a physical address; its root is at 0x100000; tile 0 walks to the page. -/
def paged (leaf : W64) (walks : List (BitVec 16 × Nat)) : State :=
  let m := State.reset.mem
  { tile.onMe fun c => { c with walk := .wait 0 true false } with
    ctxs := [{ (default : Ctx) with id := 1, root := 0x100000, win := Vector.replicate 8 default }]
    mem := ((((m.setEntry 0x100000 0x110001).setEntry 0x110000 0x120001).setEntry 0x120000 0x130001).setEntry 0x130000 0x140001).setEntry
      0x140000 leaf
    dies := State.reset.dies.map fun d => { d with walks := walks, mig := [⟨1, 0, 0x200000, 0⟩] } }

theorem test_meets_walks : (∀ w ∈ [[], [(1, 0)]], (paged 0x150007 w).walkOf 0 = some (1, 0) ∧
      (((1 : BitVec 16), 0) ∈ ((paged 0x150007 w).die 0).walks.take 64 ↔ w ≠ [])) ∧
    (let s := paged 0x150007 [(1, 0)]; s.lookup 0 1 0 = some (0x150007, 16) ∧ s.dieTlb 0 1 0 = none ∧
      s.chansHold (s.walkReads 0 (1, 0)) = false) ∧
    pteMig 0x150007 = false ∧ pteMig 0x150027 = true ∧
    (let s := paged 0x150027 [(1, 0)]; s.lookup 0 1 0 = some (0x150027, 16)) ∧
    (let s := paged 0 [(1, 0)]; s.lookup 0 1 0 = none) ∧
    (let s := (paged 0 [(1, 0)]).onDie 0 fun d => { d with chans := d.chans.setIfInBounds 0 .lend }
     s.walkOf 0 = some (1, 0) ∧ s.chansHold (s.walkReads 0 (1, 0)) = true) := by decide +kernel

theorem test_meets_migrations : (∃ x, (paged 0x150007 []).ctx 1 = some x ∧ (paged 0x150007 []).mem.leafAt 0 5 0 x.root = some 0x140000) ∧
    (paged 0x150007 []).mem.entry 0x140000 = 0x150007 ∧ (paged 0x150007 []).pinned (ptePa 0x150007) = false ∧ 0x200000 % 65536 = 0 ∧
    (paged 0x150007 []).frameTier 0x200000 = some 0 ∧ ptePa 0x150007 ≠ 0x200000 ∧
    (paged 0x150007 []).moving64 1 0 = some ⟨1, 0, 0x200000, 0⟩ ∧
    (paged 0x150007 []).openIn 1 0 65536 = false ∧ mapped.openIn 1 0 65536 = false ∧
    (mapped.onMe fun c => c.request (.gload [{ pa := 0, n := 8 }] 1 0 false false)).openIn 1 0 65536 = true :=
  ⟨⟨_, rfl, by decide +kernel⟩, by decide +kernel, by decide +kernel, rfl, rfl, by decide, rfl, by decide +kernel, by decide +kernel,
    by decide +kernel⟩

/-- Channel 2 of the stack of die 0 in a state; where `work`, tile 0 has a load there open. -/
def channel (v : Chan) (work : Bool) : State :=
  (if work then State.reset.onMe fun c => c.request (.gload [{ pa := 2048, n := 8 }] 1 0 false false) else State.reset).onDie 0 fun d =>
    { d with chans := d.chans.setIfInBounds 2 v }

theorem test_meets_channels : (∀ v ∈ [Chan.normal, .lend, .lending, .reclaim], ((channel v false).die 0).chan 2 = v ∧
      ((channel v false).die 0).chan 3 = .normal) ∧
    (channel .lend false).chansHold (InAct.req (.ualRead 2048 8)).pieces = true ∧ (channel .normal false).chanWork 0 2 = false ∧ (channel .normal true).chanWork 0 2 = true := by decide +kernel

theorem test_meets_errors : (0 : Nat) < 2 ^ 15 ∧ 0 ∉ State.reset.mem.dead ∧ State.reset.mem.wf = true ∧
    State.reset.eccDead (.hbm 0) = false ∧ ({ State.reset with mem := { State.reset.mem with dead := [0] } } : State).eccDead (.hbm 0) = true ∧
    State.reset.eccOwner (.hbm 0) (State.reset.core 0).ctx = (State.reset.core 0).ctx.toNat ∧ (tile.core 0).run = .running ∧
    tile.eccOwner (.sram 0 .a 0) (tile.core 0).ctx ≠ (tile.core 0).ctx.toNat := by decide

set_option maxRecDepth 10000 in
theorem test_meets_late_accesses : (∃ u, ((meets (.tagw 5) tile).focus 0).tryCycle = .stall .sync u) ∧
    (∃ u, ((meets (.stampHold 5) tile).focus 0).tryCycle = .commit u) ∧
    ∀ i ∈ [Instr.tagw 5, .stampHold 5], ((meets i tile).focus 0).me.run = .running ∧ ((meets i tile).focus 0).me.fault = none ∧
      ((meets i tile).focus 0).timedAccess (.iplane 0 0) = true ∧ ((meets i tile).focus 0).timedAccess (.iplane 1 0) = false := by
  refine ⟨⟨_, rfl⟩, ⟨_, rfl⟩, ?_⟩
  intro i hi
  simp only [List.mem_cons, List.not_mem_nil, or_false] at hi
  obtain rfl | rfl := hi <;> exact ⟨rfl, rfl, rfl, rfl⟩

/-- A cell from die 0 to a die, inserted in cycle 0, and a ring in cycle 64 that holds it in the slot that passes die 0 now, or
has it queued or unconfirmed there. -/
def cell (dst : BitVec 8) (again : Bool) : RCell := { (default : RCell) with dstr := dst, dstr0 := dst, again := again }

def ringed (c : Option RCell) (q : List RCell) (rsv : W64) : State :=
  let s : State := { State.reset with wall := 64 }
  { s with
    ring := { s.ring with rsvm := s.ring.rsvm.set 16 rsv, live := s.ring.live.set 16 rsv }.setCell false 0 (s.slotAt false 0) c
    dies := s.dies.map fun d => { d with station := { d.station with
      egress := q.map fun x => (false, 0, x), unconf := c.toList.map fun x => ((false, 0, s.slotAt false 0), x) } } }

/-- A cell queued; a cell in its slot. -/
def queued : State := ringed none [cell 2 false] 0

def circling (a : Bool) : State := ringed (some (cell 1 a)) [] 0

theorem test_meets_ring : queued.slotAt false 0 = 0 ∧ queued.ring.cell false 0 0 = none ∧ (false, 0, 0) ∉ queued.ring.freed ∧
    (queued.ring.live[rsvIdx 1 false 0]?.getD 0).getLsbD 0 = false ∧
    slotOwner 0 64 = some 1 ∧ queued.ring.mayUse false 0 0 64 = false ∧
    (({ queued with wall := 0 } : State).slotAt false 0 = 0 ∧ queued.ring.mayUse false 0 0 0 = true) ∧
    takeCell (fun c => !false || (queued.ring.livef[0]?.getD 0).getLsbD c.sunit.toNat) false 0 (queued.die 0).station.egress =
      some (cell 2 false, []) ∧
    ((ringed none [] 1).ring.live[rsvIdx 1 false 0]?.getD 0).getLsbD 0 = true ∧ (cell 2 false).dstr.getLsbD 0 = false ∧
    (cell 2 false).reserved = false ∧ (ringed (some { cell 1 false with kind := 10 }) [] 0).ring.cell false 0 0 =
      some { cell 1 false with kind := 10 } ∧ ({ cell 1 false with kind := 10 } : RCell).reserved = true := by decide +kernel

theorem test_meets_passing_cells : ∀ a ∈ [true, false], (circling a).ring.cell false 0 0 = some (cell 1 a) ∧
    (cell 1 a).dstr.getLsbD 0 = true ∧ (cell 1 a).reserved = false ∧ (cell 1 a).sdie.toNat = 0 ∧
    (cell 1 a).born < (circling a).wall ∧ (circling a).tidy 0 = [] ∧
    flowGet ((circling a).die 0).station.expect ((cell 1 a).flow false 0) = (cell 1 a).seq ∧
    (circling a).roundsFull 0 (cell 1 a) = false ∧ ((false, 0, 0), cell 1 a) ∈ ((circling a).die 0).station.unconf := by
  decide +kernel

theorem test_meets_masks : (∃ e < 8, 16 * e + (0 : BitVec 7).toNat % 16 ≠ (0 : BitVec 7).toNat ∧
    ((ringed none [] 1).ring.rsvm[16 * e + (0 : BitVec 7).toNat % 16]?.getD 0) &&& 1 ≠ 0) ∧
    (∀ e < 8, 16 * e + (0 : BitVec 7).toNat % 16 ≠ (0 : BitVec 7).toNat →
      ((ringed none [] 1).ring.rsvm[16 * e + (0 : BitVec 7).toNat % 16]?.getD 0) &&& 2 = 0) := by decide

theorem test_meets_port_groups : (23 : BitVec 5).toNat < 24 ∧ (0x90 : W64).getLsbD 7 = true ∧ State.reset.goBad 23 0x90 = false ∧
    State.reset.goBad 23 0x91 = true ∧ ctlBond 0x90 = false ∧ ((group 2 0 .draining).group 3).bond = false ∧
    (∀ k ∈ (group 2 0 .draining).moving 3, ((group 2 0 .draining).group k).state = .draining ∧ (group 2 0 .draining).drainDone k = true) ∧
    ((group 2 0 .retraining).group 3).state = .retraining ∧ ((group 2 0 .retraining).moving 3) = [3] ∧ 3 < (group 2 0 .retraining).groups.length ∧
    (((group 2 0 .active).onGroup 3 fun g => { g with retrain := true }).group 3).retrain = true ∧
    ((State.reset.onGroup 3 fun g => { g with tgt := 0x90 + 0x10 }).group 3).tgt.extractLsb' 4 2 = 2 ∧
    (∀ k < 24, ((group 2 0 .mapping).group k).state ≠ .quiesced) ∧ ((group 2 0 .mapping).group 3).state = .mapping := by decide +kernel

theorem test_meets_keys : State.noKey.old = [] ∧
    (let k := (State.noKey.rotate [1]).rotate [2];
      k.old = [1] ∧ k.pend = [] ∧ ∀ f ∈ k.flits, f.1 = k.curId) ∧
    (let k := ((State.noKey.rotate [1]).rotate [2]).rotate [3];
      k.old = [1] ∧ k.pend = [[3]] ∧ ∀ f ∈ k.flits, f.1 = k.curId) ∧
    (let k : LinkKey := { State.noKey with curId := 1, flits := [(0, [])] };
      ∃ f ∈ k.flits, f.1 ≠ k.curId) := by decide

/-- The servo runs, slave to domain 0 on port 6, whose group serves Ultra Ethernet. -/
def clocked : State := { group 3 0 .active with
  servo := { on := true, cfg := { port := some 6, domain := 0, master := false, asym := [] } } }

theorem test_meets_clocks : State.reset.servo.on = false ∧ clocked.servo.on = true ∧ clocked.servo.cfg.port = some 6 ∧
    clocked.servo.cfg.domain = 0 ∧ clocked.servo.cfg.master = false ∧ clocked.ptpPort 6 = true ∧ clocked.ptpPort 8 = false ∧
    (∀ e ∈ State.reset.parts, e.2.ctx = 0) ∧ (999999999 : BitVec 32).toNat < 1000000000 ∧
    (∀ d ∈ tile.dies, ptcReached d.ptc 1 0 = false) := by decide

/-- The firmware runs, a host is connected over group 3, and a context in a state exists, in partition 0. -/
def served (st : CtxState) : State := { group 1 0 .active with
  host := { State.resetHost with fw := .running, pending := [{ bytes := [] }] }
  ctxs := [{ (default : Ctx) with id := 1, state := st, ncl := 1, lgrp := 5, lgsz := 1 }]
  parts := [(0, { (default : Part) with mask := 1, ctx := 1 })] }

/-- The same with a task under way, or with the firmware in another state. -/
def busyHost (t : Task) (f : FwState) : State := (served .running).onHost fun h => { h with task := t, fw := f }

theorem test_meets_boot : State.reset.host.fw = .reset ∧ bootSlot [] 0 = none := by simp [bootSlot]; rfl

/-- The one slot of a flash verifies: what `verify` says is the part's own. -/
theorem test_meets_boot_slot (x : FwSlot) (h : Config.verify 0 (Config.shake256 x.image 64) x.signature = true) :
    bootSlot [x] 0 = some x := by
  simp [bootSlot, h]

theorem test_meets_events : Served (served .running) ∧
    (served .running).host.pending = [{ bytes := [] }] ∧ (served .running).host.fw ≠ .unpowered ∧ (served .running).host.fw ≠ .reset ∧
    ((served .running).host.evhead - (served .running).host.evtail).toNat < 126 ∧ State.reset.host.aux = true ∧
    (State.reset.onHost fun h => { h with aux := false }).host.aux = false ∧
    (∀ f ∈ [FwState.unpowered, .reset, .recovery, .running, .evicting, .unlatched], (busyHost .none f).host.fw = f) := by
  simp only [Served]; decide

/-- A doorbell with nothing beside its sequence number. -/
def bell : Doorbell := { seq := 7, addr := 0, len := 0, arg := 0 }

/-- A record for partition `p` with one section of 8 zero bytes, of a type, and no signature; cluster 1. -/
def recordOf (p typ : Byte) : List Byte :=
  [1, 0, p, 0, 0, 0, 1, 0] ++ leBytes 8 2 ++ leBytes 4 56 ++ leBytes 4 0 ++ leBytes 8 0 ++
  [typ, 0, 0, 0] ++ leBytes 4 8 ++ leBytes 8 48 ++ leBytes 8 0

theorem test_meets_commands : (∀ st ∈ [CtxState.running, .halted, .waiting], Served (served st) ∧
      ∃ x, (served st).live 1 = some x ∧ x.state = st) ∧ launchOk [] = false ∧ (served .running).live 2 = none ∧
    (served .running).ctx 2 = none ∧ State.reset.mailboxOpen = false ∧
    ((busyHost .none .evicting).mailboxOpen = true ∧ (busyHost .none .evicting).host.fw = .evicting) ∧
    ((busyHost (.preempt 1 1) .running).mailboxOpen = true ∧ (busyHost (.preempt 1 1) .running).host.task ≠ .none) ∧
    ((busyHost .none .recovery).mailboxOpen = true ∧ (busyHost .none .recovery).host.fw = .recovery ∧ (busyHost .none .recovery).host.task = .none) ∧
    (∃ x, ((served .waiting).ctxs.filter fun c => c.state == .waiting && c.lgrp == 5 && (5 : BitVec 16) != 0) = [x] ∧ x.lgsz = 1 ∧
      x.lgdead = false) ∧
    (∃ x, ((served .waiting).onCtx 1 fun x => { x with lgsz := 2 }).ctxs = [x] ∧ x.state = .waiting ∧ x.lgrp = 5 ∧ x.lgsz = 2 ∧
      x.lgdead = false) ∧
    (∃ x, (served .halted).live 1 = some x ∧
      (taken (served .halted) bell 5 16 1).resumeBad x 0 1 = none ∧ (taken (served .halted) bell 5 16 1).resumeBad x 0 3 = some 4) ∧
    ((List.replicate 16 (0 : Byte)).length = 16 ∧ field (List.replicate 16 0) 0 1 < 64 ∧ field (List.replicate 16 0) 1 7 = 0) ∧
    (served .running).evictable 0 = false := by
  refine ⟨?_, by decide, by decide, by decide, by decide, by decide, by decide, by decide, ⟨_, rfl, rfl, rfl⟩, ⟨_, rfl, rfl, rfl, rfl, rfl⟩,
    ⟨_, rfl, by decide, by decide⟩,
    by decide, ?_⟩
  · intro st hst
    simp only [List.mem_cons, List.not_mem_nil, or_false] at hst
    obtain rfl | rfl | rfl := hst <;> exact ⟨⟨by decide, by decide, by decide, by decide⟩, _, rfl, rfl⟩
  · have h : ∀ n, (((served .running).group n).pers == 2) = false := by
      intro n
      by_cases h : n < 24
      · revert n; decide
      · have : (served .running).group n = State.resetGroup := by
          unfold State.group; rw [List.getD_eq_default]; simp only [not_lt] at h; exact h
        rw [this]; rfl
    unfold State.evictable
    simp only [h, Bool.false_and]
    rfl

/-- A record that is in order, and one whose traverse image the loader rejects; whether its signature verifies is the part's own. -/
theorem test_meets_launch : (∀ k ∈ [(8 : Byte), 3], launchOk (recordOf 1 k) = true ∧ (recordOf 1 k).length ≤ 2 ^ 31 ∧
      (served .running).clustersFree (recordOf 1 k) = true ∧ field (recordOf 1 k) 4 2 = 0) ∧
    (served .running).newId = some 2 ∧ (served .running).clustersFree (recordOf 0 8) = false ∧
    (∃ t, (taken (served .running) bell 1 56 0).create (recordOf 1 8) 2 = .ok t) ∧
    (taken (served .running) bell 1 56 0).create (recordOf 1 3) 2 = .error 2 := by
  refine ⟨by decide +kernel, by decide +kernel, by decide +kernel, ⟨_, rfl⟩, rfl⟩

/-- The record of a launch group of two members. -/
def groupRecord : List Byte :=
  [1, 0, 1, 0, 5, 0, 1, 0] ++ leBytes 8 2 ++ leBytes 4 56 ++ [2, 0, 0, 0] ++ leBytes 8 0 ++
  [8, 0, 0, 0] ++ leBytes 4 8 ++ leBytes 8 48 ++ leBytes 8 0

theorem test_meets_launch_groups : launchOk groupRecord = true ∧ field groupRecord 4 2 ≠ 0 ∧
    (served .running).groupSizeOk groupRecord = true ∧ (served .waiting).groupSizeOk groupRecord = false ∧
    (∀ st ∈ [CtxState.running, .waiting], (served st).clustersFree groupRecord = true) ∧
    (∃ t, (taken (served .waiting) bell 1 56 0).create groupRecord 2 = .ok t) := by
  refine ⟨by decide +kernel, by decide +kernel, by decide +kernel, by decide +kernel, by decide +kernel, _, rfl⟩

theorem test_meets_reload : (1 : BitVec 32).setWidth 16 = (1 : BitVec 16) ∧ (1 : BitVec 32).extractLsb' 17 15 = 0 ∧
    (0x20001 : BitVec 32).extractLsb' 17 15 ≠ 0 ∧ headerOk (recordOf 0 4) = true ∧ (∃ x q t, (served .halted).live 1 = some x ∧
      (served .halted).part x.part = some q ∧ q.ctx = x.id ∧ field (recordOf 0 4) 2 1 = x.part.toNat ∧
      reloadSecs (recordOf 0 4) q ((served .halted).tiles x.part).length = true ∧
      (taken (served .halted) bell 8 56 1).reloadSeq x q.mask (recordOf 0 4) = some t) :=
  ⟨rfl, by decide, by decide, by decide +kernel, _, _, _, rfl, rfl, rfl, by decide, by decide +kernel, rfl⟩

/-- The steps of an eviction, with a context that runs, and with none. -/
def evicting (n : Nat) (l : List Ctx) : State := { busyHost (.evict 7 n) .evicting with ctxs := l }

theorem test_meets_evictions : (evicting 1 (served .running).ctxs).host.task = .evict bell.seq 1 ∧
    (∃ c ∈ (evicting 1 (served .running).ctxs).ctxs, c.state = .running) ∧ (∀ c ∈ (evicting 1 []).ctxs, c.state ≠ .running) ∧
    (evicting 2 []).host.task = .evict bell.seq 2 ∧ (evicting 3 []).host.task = .evict bell.seq 3 ∧ (evicting 3 []).ring.slots = [] ∧
    (∀ x ∈ ({ evicting 3 [] with groups := State.reset.groups } : State).groups, x.state = .off) ∧
    (∃ x q, x ∈ (evicting 1 (served .running).ctxs).ctxs ∧ x.state = .running ∧ (evicting 1 (served .running).ctxs).part x.part = some q) ∧
    (∃ x ∈ (evicting 3 []).groups, x.state ≠ .off) :=
  ⟨rfl, ⟨_, List.mem_cons_self .., rfl⟩, by decide, rfl, rfl, rfl, by decide, ⟨_, _, List.mem_cons_self .., rfl, rfl⟩, by decide⟩

/-- Group 3 serves UALink in the pod; that it reaches the neighbour is the part's own. -/
theorem test_meets_evictable (h : Config.links 0 3 = true) : ({ served .running with groups := (group 2 1 .active).groups } : State).evictable 0 = true := by
  unfold State.evictable
  rw [List.any_eq_true]
  exact ⟨3, by decide, by rw [Bool.and_eq_true]; exact ⟨by decide, h⟩⟩

/-! ### A step -/

theorem test_meets_fetch : ∃ a v b, Fetches (State.reset.withFetchWord 32 0x000A52C0) [] 0 0x000A52C0 (.add 10 10 11 false false) a v b ∧
    v.me.landCount ≤ 48 := by
  refine ⟨_, _, _, ⟨rfl, by decide, rfl, ?_, ?_, ?_, rfl, ?_, ?_, rfl, ?_, by decide, ?_, by decide, by decide, ?_, ?_⟩, le_of_eq_of_le (b := 0) rfl (by decide)⟩ <;>
    first | rfl | decide

/-! ### One step of the spec's worked examples -/

/-- The landing the step adds. -/
def lands : Host.Outcome State Fault Refusal → Option Landing
  | .next s => s.me.flight.getLast?.map Flight.what
  | _ => none

/-- The tile after the step. -/
def after : Host.Outcome State Fault Refusal → Option Core
  | .next s => some s.me
  | _ => none

/-- A vector register whose first lanes hold words, the rest 0. -/
def lanesOf (r : Reg) (l : List (BitVec 32)) (s : State) : State :=
  s.onMe fun c => c.setV r { val := BitVec.ofNat 2048 (l.foldr (fun x n => x.toNat + n * 2 ^ 32) 0), poison := 0 }

/-- The first lanes, their poison and the flags of the vector a step writes. -/
def lanesIn (n : Nat) (o : Host.Outcome State Fault Refusal) : Option (List (BitVec 32) × BitVec 64 × BitVec 9) :=
  match lands o with
  | some (.vreg _ v p fl) => some ((List.range n).map fun j => v.extractLsb' (32 * j) 32, p, fl)
  | _ => none

/-- R72's table: −7 and 2, 7 and 0, the 32-bit overflow, and an unsigned quotient. -/
theorem test_div_truncates : lands (exec (.div 3 1 2 false false) (regs [(1, -7), (2, 2)] tile)) = some (.sreg 3 (-3) false 0) := by rfl
theorem test_rem_of_negative : lands (exec (.rem 3 1 2 false false) (regs [(1, -7), (2, 2)] tile)) = some (.sreg 3 (-1) false 0) := by rfl
theorem test_div_by_zero : lands (exec (.div 3 1 2 false false) (regs [(1, 7)] tile)) = some (.sreg 3 (-1) false 0) := by rfl
theorem test_remn_by_zero : lands (exec (.remn 3 1 2 false false) (regs [(1, 7)] tile)) = some (.sreg 3 7 false 0) := by rfl
theorem test_div_w_overflow : lands (exec (.div 3 1 2 true false) (regs [(1, 0x180000000), (2, 0xFFFFFFFFFFFFFFFF)] tile)) =
    some (.sreg 3 0xFFFFFFFF80000000 false 0) := by rfl
theorem test_divn_w : lands (exec (.divn 3 1 2 true false) (regs [(1, 0x80000000), (2, 2)] tile)) =
    some (.sreg 3 0x40000000 false 0) := by rfl

/-- R76's example. -/
theorem test_lui : lands (exec (.lui 6 0x4000) tile) = some (.sreg 6 0x04000000 false 0) := by rfl

/-- `s0` discards writes (R50). -/
theorem test_s0_is_zero : (tile.me.setS 0 { val := 5, poison := true }).s 0 = { val := 0, poison := false } := by rfl

/-- `brl` writes the bundle's sequential successor to `s31` and jumps to the target (R82). -/
theorem test_brl : lands (exec (.brl 4) (steer 4 true false 8 tile)) = some (.sreg 31 (tile.me.iss.seq.setWidth 64) false 0) ∧
    (after (exec (.brl 4) (steer 4 true false 8 tile))).map (fun c => c.iss.next) = some (tile.me.jump 8).iss.next := by
  refine ⟨by rfl, by rfl⟩

/-- `trap 7` with a handler at packet 2 (R93, R96): the cause and the argument in TRAPC, the pc at the handler. -/
theorem test_trap : (after (exec (.trap 7) (tile.onMe fun c => c.onSpec fun p => { p with trapv := 8 }))).map
    (fun c => (c.spec.trapc, c.spec.trappc, c.iss.next)) = some (0x0701, tile.me.iss.seq, (tile.me.jump 8).iss.next) := by rfl

/-- R155's example, with and without `.sat`. -/
def bytes4 : State := lanesOf 1 [0x807F1001] (lanesOf 2 [0xFF01F0FF] tile)

theorem test_vadd_sat : lanesIn 1 (exec (.vadd 3 1 2 .i8x4 false 1) bytes4) = some ([0x807F0000], 0, 0) := by decide +kernel
theorem test_vadd_wraps : lanesIn 1 (exec (.vadd 3 1 2 .i8x4 false 0) bytes4) = some ([0x7F800000], 0, 0) := by decide +kernel

/-- R160's example: lane 63 receives lane 0. -/
theorem test_vrot : (lanesIn 64 (exec (.vrot 2 1 1 .i32 false true) (lanesOf 1 [5, 6] tile))).map
    (fun x => (x.1.getLast?, x.1.head?)) = some (some 5, some 6) := by decide +kernel

/-- R161's example: 2^−24 twice and 1.0 sum to 0x3F80_0001 in every lane, NX clear. -/
theorem test_vrsum : lanesIn 2 (exec (.vrsum 3 1 .f32 false 1) (lanesOf 1 [0x33800000, 0x33800000, 0x3F800000] tile)) =
    some ([0x3F800001, 0x3F800001], 0, 0) := by decide +kernel

/-- R123's examples: byte 100 four times, group 1; a byte of 250 poisons its lane. -/
theorem test_vtunp : lanesIn 1 (exec (.vtunp 3 1 1 true) (lanesOf 1 [0x64646464] tile)) = some ([0x01FF0000], 0, 0) := by decide +kernel
theorem test_vtunp_illegal : (lanesIn 1 (exec (.vtunp 3 1 1 true) (lanesOf 1 [0x79FA7979] tile))).map
    (fun x => (x.1, x.2.1)) = some ([0], 1) := by decide +kernel

/-- R170's example: 1.25 and 7.0 into E2M1 under RNE: 1.0 and 6.0, with OF and NX. -/
theorem test_vcvt : lanesIn 2 (exec (.vcvt 3 1 0 7 false false) (lanesOf 1 [0x3FA00000, 0x40E00000] tile)) =
    some ([2, 7], 0, 0x14) := by decide +kernel

/-- R142's table: 0x3F80_8000 into BF16 under RNE. -/
theorem test_vcvt_tie : (lanesIn 1 (exec (.vcvt 3 1 0 2 false false) (lanesOf 1 [0x3F808000] tile))).map (fun x => x.1) =
    some [0x3F80] := by decide +kernel

/-! ### Reset, and the word a test places -/

theorem test_reset_memory : State.reset.mem.wf = true := by rfl

/-- The first step after reset and a placed word runs it: `add s10, s10, s11` with the link bit clear. -/
theorem test_first_step_runs : lands (step (State.reset.withFetchWord 32 0x000A52C0)) = some (.sreg 10 0 false 0) := by rfl

end Sys2Proof.Tests
end

section
/-! PROOFS. What `rdsr` reads: each bank of the register space by its number, and the fields of the packed registers. -/

namespace Sys2Proof.Proofs

open Sys2Proof Sys2Proof.Machine Sys2Proof.Claims

/-- A bank at a multiple of its size: the low bits of a register's number are its place in the bank. -/
theorem ofNat_bank {w b k : Nat} (h : 2 ^ w ∣ b) : BitVec.ofNat w (b + k) = BitVec.ofNat w k := by
  obtain ⟨m, rfl⟩ := h
  apply BitVec.eq_of_toNat_eq
  simp

/-! ### Special registers by their number (R52) -/

section
variable {s : State} {k : Nat}

/-- A register of a bank reads as its place in the number space does. -/
theorem readSr_ofNat {b : Nat} {v : W64} (h : b + k < 65536) (hv : s.readSr (b + k) = v) :
    s.readSr (BitVec.ofNat 16 (b + k)).toNat = v := by
  rw [BitVec.toNat_ofNat, Nat.mod_eq_of_lt h, hv]

/-- STALLC (R52). -/
theorem readSr_stallc (h : k < 8) : s.readSr (0x08 + k) = s.me.spec.stallc[k]?.getD 0 := by
  simp (disch := omega) only [State.readSr, if_neg, if_pos, Nat.add_sub_cancel_left]

/-- The loop registers (R52, R83). -/
theorem readSr_loopReg {n : Nat} (h : 0x58 ≤ n ∧ n ≤ 0x75) : s.readSr n = s.me.loopReg n := by
  simp (disch := omega) only [State.readSr, if_neg, if_pos]

theorem readSr_count (h : k < 6) : s.readSr (0x58 + k) = (s.me.level k).cnt := by
  rw [readSr_loopReg (by omega)]
  simp (disch := omega) only [Arch.loopReg, if_neg, if_pos, Nat.add_sub_cancel_left]

theorem readSr_index (h : k < 6) : s.readSr (0x60 + k) = (s.me.level k).idx := by
  rw [readSr_loopReg (by omega)]
  simp (disch := omega) only [Arch.loopReg, if_neg, if_pos, Nat.add_sub_cancel_left]

theorem readSr_begin (h : k < 6) : s.readSr (0x68 + k) = (s.me.level k).beg.setWidth 64 := by
  rw [readSr_loopReg (by omega)]
  simp (disch := omega) only [Arch.loopReg, if_neg, if_pos, Nat.add_sub_cancel_left]

theorem readSr_end (h : k < 6) : s.readSr (0x70 + k) = (s.me.level k).fin.setWidth 64 := by
  rw [readSr_loopReg (by omega)]
  simp (disch := omega) only [Arch.loopReg, if_neg, Nat.add_sub_cancel_left]

theorem readSr_windowBase (h : k < 8) :
    s.readSr (0x80 + k) = (s.me.win (BitVec.ofNat 3 k)).base.extractLsb' 16 64 := by
  simp (disch := omega) only [State.readSr, if_neg, if_pos]
  rw [ofNat_bank (by decide)]

theorem readSr_windowLimit (h : k < 8) :
    s.readSr (0x88 + k) = (s.me.win (BitVec.ofNat 3 k)).limit.setWidth 64 := by
  simp (disch := omega) only [State.readSr, if_neg, if_pos]
  rw [ofNat_bank (by decide)]

theorem readSr_windowKey (h : k < 8) :
    s.readSr (0x90 + k) = (s.me.win (BitVec.ofNat 3 k)).key.setWidth 64 := by
  simp (disch := omega) only [State.readSr, if_neg, if_pos]
  rw [ofNat_bank (by decide)]

/-- Above the windows stand the system registers (R343). -/
theorem readSr_system {n : Nat} (h : 0x98 ≤ n) : s.readSr n = s.sysReg n := by
  simp (disch := omega) only [State.readSr, if_neg]

theorem readSr_tstat (h : k < 64) : s.readSr (0x8100 + k) = s.tstat (BitVec.ofNat 6 k) := by
  rw [readSr_system (by omega)]
  simp (disch := omega) only [State.sysReg, if_neg, if_pos]
  rw [ofNat_bank (by decide)]

theorem readSr_trctl (h : k < 64) : s.readSr (0x8140 + k) = s.trctlOf (BitVec.ofNat 6 k) := by
  rw [readSr_system (by omega)]
  simp (disch := omega) only [State.sysReg, if_neg, if_pos]
  rw [ofNat_bank (by decide)]

theorem readSr_rsvm (h : k < 128) : s.readSr (0x8200 + k) = s.ring.rsvm[k]?.getD 0 := by
  rw [readSr_system (by omega)]
  simp (disch := omega) only [State.sysReg, if_neg, if_pos, Nat.add_sub_cancel_left]

theorem readSr_rsvf (h : k < 8) : s.readSr (0x8280 + k) = s.ring.rsvf[k]?.getD 0 := by
  rw [readSr_system (by omega)]
  simp (disch := omega) only [State.sysReg, if_neg, if_pos, Nat.add_sub_cancel_left]

theorem readSr_pgstat (h : k < 24) : s.readSr (0x8300 + k) = s.pgstat k := by
  rw [readSr_system (by omega)]
  simp (disch := omega) only [State.sysReg, if_neg, if_pos, Nat.add_sub_cancel_left]

/-- PGCTL is write-only and reads 0 (R6). -/
theorem readSr_pgctl (h : k < 24) : s.readSr (0x8320 + k) = 0 := by
  rw [readSr_system (by omega)]
  simp (disch := omega) only [State.sysReg, if_neg, if_pos]

theorem readSr_powerBudget (h : k < 8) : s.readSr (0x8400 + k) = (s.die k).pwrbud.setWidth 64 := by
  rw [readSr_system (by omega)]
  simp (disch := omega) only [State.sysReg, if_neg, if_pos, Nat.add_sub_cancel_left]

theorem readSr_powerUse (h : k < 8) : s.readSr (0x8408 + k) = (s.die k).pwruse.setWidth 64 := by
  rw [readSr_system (by omega)]
  simp (disch := omega) only [State.sysReg, if_neg, Nat.add_sub_cancel_left]

end

/-- The one effect of a legal `rdsr`: the value `readSr` gives, one cycle later, and for PTCN the latch of the seconds (R52). -/
theorem acts_rdsr {s : State} {d : Reg} {n : BitVec 16} (h : Ready (.rdsr d n) s) :
    Acts (.rdsr d n) s fun c =>
      (if n = 0x40 then c.onSpec fun q => { q with ptcs := (s.die c.die).ptc.sec } else c).push 1
        (.sreg d (s.readSr n.toNat) false 0) := by
  obtain ⟨hl, hh⟩ := h
  exact issue_ready hl hh

/-! ### The registers with their values -/

/-- Every special register reads as listed (R52, R94, R114). -/
theorem readSr_special (s : State) : ∀ p ∈ special s, s.readSr p.1.toNat = p.2 := by
  simp only [special, List.forall_mem_append, List.forall_mem_flatMap, List.forall_mem_map, List.forall_mem_cons,
    List.mem_range]
  refine ⟨⟨⟨?fixed, ?stallc⟩, ?loops⟩, ?windows⟩
  case fixed =>
    exact ⟨rfl, rfl, rfl, rfl, rfl, rfl, rfl, rfl, rfl, rfl, rfl, rfl, rfl, rfl, rfl, rfl, rfl, rfl, rfl, rfl, rfl, rfl, rfl,
      rfl, rfl, rfl, List.forall_mem_nil _⟩
  case stallc => exact fun k hk => readSr_ofNat (by omega) (readSr_stallc hk)
  case loops =>
    exact fun k hk => ⟨readSr_ofNat (by omega) (readSr_count hk), readSr_ofNat (by omega) (readSr_index hk),
      readSr_ofNat (by omega) (readSr_begin hk), readSr_ofNat (by omega) (readSr_end hk), List.forall_mem_nil _⟩
  case windows =>
    exact fun k hk => ⟨readSr_ofNat (by omega) (readSr_windowBase hk), readSr_ofNat (by omega) (readSr_windowLimit hk),
      readSr_ofNat (by omega) (readSr_windowKey hk), List.forall_mem_nil _⟩

/-- Every system register reads as listed (R6, R343). -/
theorem readSr_stewardRegs (s : State) : ∀ p ∈ stewardRegs s, s.readSr p.1.toNat = p.2 := by
  simp only [stewardRegs, List.forall_mem_append, List.forall_mem_flatMap, List.forall_mem_map, List.forall_mem_cons,
    List.mem_range]
  refine ⟨⟨⟨⟨?mbxseq, ?partitions⟩, ?masks⟩, ?groups⟩, ?dies⟩
  case mbxseq => exact ⟨rfl, List.forall_mem_nil _⟩
  case partitions =>
    exact fun k hk => ⟨readSr_ofNat (by omega) (readSr_tstat hk), readSr_ofNat (by omega) (readSr_trctl hk),
      List.forall_mem_nil _⟩
  case masks => exact fun k hk => readSr_ofNat (by omega) (readSr_rsvm hk)
  case groups =>
    exact fun k hk => ⟨readSr_ofNat (by omega) (readSr_pgstat hk), readSr_ofNat (by omega) (readSr_pgctl hk),
      List.forall_mem_nil _⟩
  case dies =>
    exact fun k hk => ⟨readSr_ofNat (by omega) (readSr_rsvf hk), readSr_ofNat (by omega) (readSr_powerBudget hk),
      readSr_ofNat (by omega) (readSr_powerUse hk), List.forall_mem_nil _⟩

/-- The system registers have numbers from 0x8000 on, so none of them is PTCN (R343). -/
theorem stewardRegs_number (s : State) : ∀ p ∈ stewardRegs s, 0x8000 ≤ p.1.toNat := by
  simp only [stewardRegs, List.forall_mem_append, List.forall_mem_flatMap, List.forall_mem_map, List.forall_mem_cons,
    List.mem_range, List.not_mem_nil, false_imp_iff, implies_true, and_true, BitVec.toNat_ofNat]
  refine ⟨⟨⟨⟨Nat.le_refl 0x8000, fun k hk => ?partitions⟩, fun k hk => ?masks⟩, fun k hk => ?groups⟩,
    fun k hk => ?dies⟩
  all_goals omega

/-! ### Packed registers -/

/-- A field of a register given as a number, against the number it should hold. -/
theorem packed_field_ofNat {n i l m : Nat} (hi : i + l ≤ 64) (h : n / 2 ^ i % 2 ^ l = m % 2 ^ l) :
    (BitVec.ofNat 64 n).extractLsb' i l = BitVec.ofNat l m := by
  have hc : n % 2 ^ 64 / 2 ^ i % 2 ^ l = n / 2 ^ i % 2 ^ l := by
    rw [← Nat.add_sub_cancel' (Nat.le_of_add_right_le hi), Nat.pow_add, Nat.mod_mul_right_div_self,
      Nat.mod_mod_of_dvd _ (Nat.pow_dvd_pow 2 (by omega))]
  apply BitVec.eq_of_toNat_eq
  rw [BitVec.extractLsb'_toNat, BitVec.toNat_ofNat, BitVec.toNat_ofNat, Nat.shiftRight_eq_div_pow, hc, h]

/-- The same against the value it should hold. -/
theorem packed_field {n i l : Nat} {x : BitVec l} (hi : i + l ≤ 64) (h : n / 2 ^ i % 2 ^ l = x.toNat) :
    (BitVec.ofNat 64 n).extractLsb' i l = x := by
  rw [packed_field_ofNat hi (h.trans (Nat.mod_eq_of_lt x.isLt).symm), BitVec.ofNat_toNat, BitVec.setWidth_eq]

/-- A bit of a register given as a number. -/
theorem packed_bit {n i : Nat} {b : Bool} (hi : i < 64) (h : n / 2 ^ i % 2 = b.toNat) :
    (BitVec.ofNat 64 n).getLsbD i = b := by
  rw [BitVec.getLsbD_ofNat, Nat.testBit_eq_decide_div_mod_eq, h]
  cases b <;> simp [hi]

/-! ### TSTAT and PGSTAT (R303, R332) -/

theorem legState_num_lt (x : LegState) : x.num < 8 := by cases x <;> decide

theorem groupState_num_lt (x : GState) : x.num < 8 := by cases x <;> decide

/-- The fields of TSTAT do not overlap, so each is read back as it was packed (R303). -/
theorem tstatOf_fields (q : Part) : TstatIs q (tstatOf q.trav q.swp (q.shi && q.sht)) := by
  have hstate := legState_num_lt q.trav.state
  have hplane := q.trav.plane.toNat_lt
  have hswp := q.swp.toNat_lt
  have hshc := (q.shi && q.sht).toNat_lt
  have herr := q.trav.err.toNat_lt
  unfold TstatIs tstatOf
  refine ⟨packed_field_ofNat (by decide) ?cursor,
    (packed_field_ofNat (m := q.trav.state.num) (by decide) ?state).trans (by cases q.trav.state <;> rfl),
    packed_bit (by decide) ?plane, packed_bit (by decide) ?swp, packed_bit (by decide) ?shc,
    packed_bit (by decide) ?err, packed_field (by decide) ?errc, packed_field_ofNat (by decide) ?lpc,
    packed_field (by decide) ?unmet, packed_field_ofNat (m := 0) (by decide) ?zero⟩
  all_goals omega

/-- The fields of PGSTAT do not overlap, so each is read back as it was packed (R332, R333). -/
theorem pgstat_fields (s : State) (g : Nat) : PgstatIs s (s.group g) (s.pgstat g) := by
  unfold State.pgstat
  generalize s.group g = x
  have hstate := groupState_num_lt x.state
  have hbond := x.bond.toNat_lt
  have herr := x.err.toNat_lt
  unfold PgstatIs
  refine ⟨packed_field_ofNat (m := 0) (by decide) ?zero0, packed_field (by decide) ?pers, packed_field (by decide) ?role,
    packed_field_ofNat (m := 0) (by decide) ?zero9, packed_bit (by decide) ?bond,
    (packed_field_ofNat (m := x.state.num) (by decide) ?state).trans (by cases x.state <;> rfl),
    packed_bit (by decide) ?err, packed_field (by decide) ?errc, packed_field (by decide) ?rate,
    packed_field (by decide) ?peer, packed_field_ofNat (m := 0) (by decide) ?zero29, packed_field (by decide) ?mapgen⟩
  all_goals omega

/-- Settles O35: `rdsr` acts by `readSr`, which reads every listed register as listed; the packed registers have their fields. -/
theorem specialRegistersAreRead : Obligations.SpecialRegistersAreRead := by
  unfold Obligations.SpecialRegistersAreRead
  intro s d
  refine ⟨fun p hp hr => ?_, fun p hp hr => ?_, fun p q hq => ?_, pgstat_fields s⟩
  · rw [← readSr_special s p hp]
    exact acts_rdsr hr
  · have hn : p.1 ≠ 0x40 := fun h => absurd (stewardRegs_number s p hp) (by rw [h]; decide)
    rw [← readSr_stewardRegs s p hp]
    have hacts := acts_rdsr hr
    simp only [if_neg hn] at hacts
    exact hacts
  · have ht : s.tstat p = tstatOf q.trav q.swp (q.shi && q.sht) := by simp only [State.tstat, hq]
    rw [ht]
    exact tstatOf_fields q

end Sys2Proof.Proofs
end

section
/-! PROOFS. The close of a bundle: the loop-end check as the recursion of R86, and what the close leaves as it is. -/

namespace Sys2Proof.Proofs

open Sys2Proof Sys2Proof.Machine Sys2Proof.Claims

/-! ### The loop-end check (R86) -/

/-- Nothing but the loop stack of a core changes in the loop-end check. -/
theorem loopCheck_frame (a : IAddr) (k : Nat) (c : Core) :
    (c.loopCheck a k).1 = { c with loops := (c.loopCheck a k).1.loops } := by
  induction k generalizing c with
  | zero => rfl
  | succ k ih =>
    unfold Core.loopCheck
    dsimp only
    split_ifs
    · rfl
    · rfl
    · rw [ih]
      rfl

/-- With more fuel than live levels the check of the model is that of R86: each pop takes a level off. -/
theorem endCheck_loopCheck (a : IAddr) (k : Nat) (c : Core) (h : c.loops.lsd.toNat < k) :
    EndCheck a c (c.loopCheck a k).1 (c.loopCheck a k).2 := by
  induction k generalizing c with
  | zero => omega
  | succ k ih =>
    unfold Core.loopCheck
    dsimp only
    split_ifs with hstop hagain
    · exact .stop c hstop
    · obtain ⟨hlive, hend⟩ := not_or.mp hstop
      exact .again c _ hlive rfl (not_not.mp hend) hagain
    · obtain ⟨hlive, hend⟩ := not_or.mp hstop
      refine .pop c _ _ _ hlive rfl (not_not.mp hend) hagain (ih _ ?_)
      have hpos : c.loops.lsd.toNat ≠ 0 := fun h0 => hlive (BitVec.eq_of_toNat_eq h0)
      have hpop : (c.loops.lsd - 1).toNat = c.loops.lsd.toNat - 1 := by bv_omega
      exact (hpop.trans_lt (by omega))

/-- The core and the address that the C word and the loop-end check decide for a bundle (R86, R87). -/
def closing (c : Core) : Core × Option IAddr :=
  if c.iss.skip then (c, c.iss.next) else c.loopCheck c.iss.start 7

/-- The close of a bundle of a core that has not halted, by fields. -/
theorem nextBundle_fields (c : Core) (trap : Bool) (h : c.run ≠ .halted) :
    let n := c.nextBundle trap
    n.spec.lt = c.spec.lt + 1 ∧ n.spec.cyc = c.spec.cyc + 1 ∧ n.loops = (closing c).1.loops ∧
    n.pc = (closing c).2.getD c.iss.seq ∧
    n.stop = if c.run = .stopping then c.stop.map fun p => { p with addr := c.iss.seq } else c.stop := by
  have hframe : (closing c).1 = { c with loops := (closing c).1.loops } := by
    unfold closing
    split_ifs
    · rfl
    · exact loopCheck_frame ..
  dsimp only
  unfold Core.nextBundle
  rw [← closing]
  generalize closing c = r at hframe
  have hrun : r.1.run = c.run := by rw [hframe]
  have hspec : r.1.spec = c.spec := by rw [hframe]
  have hiss : r.1.iss = c.iss := by rw [hframe]
  have hstop : r.1.stop = c.stop := by rw [hframe]
  simp [Core.age, h, hrun, hspec, hiss, hstop]

/-- Settles O12: the check of the model is that of R86 (`endCheck_loopCheck`), and a bundle closes by what it decides. -/
theorem bundlesCloseByTheLoopEndCheck : Obligations.BundlesCloseByTheLoopEndCheck := by
  unfold Obligations.BundlesCloseByTheLoopEndCheck
  intro c trap hdepth hrun
  have hgoes : c.run ≠ .halted := by rcases hrun with h | h <;> simp [h]
  obtain ⟨hlt, hcyc, hloops, hpc, hstop⟩ := nextBundle_fields c trap hgoes
  refine ⟨hlt, hcyc, fun hskip => ?checked, fun hskip => ?skipped, fun h => ?running, fun h => ?stopping⟩
  case checked =>
    simp only [closing, hskip] at hloops hpc
    exact ⟨_, _, endCheck_loopCheck c.iss.start 7 c (by omega), hloops, hpc⟩
  case skipped =>
    simp only [closing, hskip, if_true] at hloops hpc
    exact ⟨hloops, hpc⟩
  case running => simpa [h] using hstop
  case stopping => simpa [h] using hstop

end Sys2Proof.Proofs
end

section
/-! PROOFS. Time, barriers, the end of a leg and stamps (R23, R24, R27, R89 to R92, R194). -/

namespace Sys2Proof.Proofs

open Sys2Proof Sys2Proof.Machine Sys2Proof.Claims

/-! ### Words that issue -/

/-- A word whose own effect is `k`, where it is legal and nothing late keeps it. -/
theorem exec_of_ready {i : Instr} {s k : State} (hi : exec i s = issue i s k) (h : Ready i s) : exec i s = .next k := by
  obtain ⟨hlegal, hhazard⟩ := h
  rw [hi, issue_ready hlegal hhazard]

/-- Registers without poison give no source that fires. -/
theorem firstPoison_of_clear {s : State} {rs : List Reg} (h : Clear s rs) : firstPoison (rs.map s.me.s) = none := by
  unfold firstPoison
  rw [List.find?_eq_none]
  intro x hx
  obtain ⟨r, hr, rfl⟩ := List.mem_map.mp hx
  simp [h r hr]

/-- A consumer of registers without poison does what it does. -/
theorem unpoisoned_of_clear {s k : State} {rs : List Reg} (h : Clear s rs) : s.unpoisoned (rs.map s.me.s) k = k :=
  unpoisoned_clear (firstPoison_of_clear h)

/-! ### The chain check (R194) -/

section
variable {s k : State}

theorem chained_passes (h : chainCheck s = some true) (hl : s.me.leave ≠ .asked) : s.chained k = k := by
  simp [State.chained, h, hl]

theorem chained_awaitsLeave (h : chainCheck s = some true) (hl : s.me.leave = .asked) : s.chained k = s.stall .leave := by
  simp [State.chained, h, hl]

theorem chained_mismatch (h : chainCheck s = some false) : s.chained k = s.raise .tsmismatch := by
  simp [State.chained, h]

theorem chained_open (h : chainCheck s = none) : s.chained k = s.stall .engine := by
  simp [State.chained, h]

end

/-! ### Time (R90) -/

/-- PTC has reached a time when its seconds are past, or the same and its nanoseconds no fewer. -/
theorem ptcReached_iff (p : Ptc) (x y : W64) :
    ptcReached p (x.setWidth 48) (y.setWidth 32) = true ↔
      x.toNat % 2 ^ 48 < p.sec.toNat ∨ x.toNat % 2 ^ 48 = p.sec.toNat ∧ y.toNat % 2 ^ 32 ≤ p.ns.toNat := by
  simp only [ptcReached, Bool.or_eq_true, Bool.and_eq_true, decide_eq_true_eq, beq_iff_eq, ← BitVec.toNat_inj,
    BitVec.toNat_setWidth, eq_comm (a := p.sec.toNat)]

/-- `waitt` with clear sources issues from its time on and stalls before. -/
theorem exec_waitt_clear {s : State} {a b : Reg} (h : Ready (.waitt a b) s) (hc : Clear s [a, b]) :
    exec (.waitt a b) s = .next (if ptcReached (s.die s.me.die).ptc ((val s a).setWidth 48) ((val s b).setWidth 32) then
      s.done id else s.stall .sync) := by
  rw [exec_of_ready (exec_waitt a b s) h]
  exact congrArg _ (unpoisoned_of_clear hc)

/-- `sync` behind a held stamp makes the chain check and leaves its tile at the barrier. -/
theorem exec_sync_held {s : State} {sc : Scope} (h : Ready (.sync sc) s) (hh : s.me.iss.held ≠ none) :
    exec (.sync sc) s = .next (s.chained (s.done fun c => { c with run := .barrier false sc })) := by
  rw [exec_of_ready (exec_sync sc s) h, if_neg (by simpa using hh)]

/-- Settles O13: each word by its own effect, behind the chain check where it ends a superstep. -/
theorem datumWaitBarrierAndHalt : Obligations.DatumWaitBarrierAndHalt := by
  unfold Obligations.DatumWaitBarrierAndHalt
  intro s
  refine ⟨fun h => ?frame, fun a b h hc => ?waitt, fun h => ?nop, fun sc h => ?sync, fun h => ?haltStops, fun h => ?halt⟩
  case frame => exact exec_of_ready (exec_frame s) h
  case waitt =>
    have hexec := exec_waitt_clear h hc
    dsimp only
    split_ifs with ht
    · rwa [if_pos ((ptcReached_iff ..).mpr ht)] at hexec
    · rwa [if_neg (mt (ptcReached_iff ..).mp ht)] at hexec
  case nop => exact exec_of_ready (exec_nop s) h
  case sync =>
    refine ⟨fun hh => ?_, fun hh hl hc => ?_, fun hh hl hc => ?_, fun hh hc => ?_, fun hh hc => ?_⟩
    · exact (exec_of_ready (exec_sync sc s) h).trans (by rw [if_pos (by simp [hh])])
    · exact (exec_sync_held h hh).trans (by rw [chained_passes hc hl])
    · exact (exec_sync_held h hh).trans (by rw [chained_awaitsLeave hc hl])
    · exact (exec_sync_held h hh).trans (by rw [chained_mismatch hc])
    · exact (exec_sync_held h hh).trans (by rw [chained_open hc])
  case haltStops =>
    have hexec := exec_of_ready (exec_halt s) h
    refine ⟨fun hl hc => ?_, fun hc => ?_, fun hc => ?_⟩
    · exact hexec.trans (by rw [chained_awaitsLeave hc hl])
    · exact hexec.trans (by rw [chained_mismatch hc])
    · exact hexec.trans (by rw [chained_open hc])
  case halt =>
    intro hl hc
    have hexec := exec_of_ready (exec_halt s) h
    rw [chained_passes hc hl] at hexec
    exact ⟨_, hexec, rfl, rfl, rfl, rfl, rfl, rfl, rfl, rfl, rfl⟩

/-! ### Stamps (R24, R44) -/

section
variable {s : State} {hold : Bool} {g : BitVec 26}

theorem stamp_agrees (h : s.me.delta.toNat = g.toNat) :
    s.stamp hold g = s.done fun c => c.onIss fun i => { i with held := if hold then some g else none } := by
  rw [State.stamp, if_pos h]

theorem stamp_ahead (h : s.me.delta.toNat < g.toNat) : s.stamp true g = s.onMe Core.hold := by
  rw [State.stamp, if_neg (Nat.ne_of_lt h), if_pos (by simpa using h)]

theorem stamp_missed (h : s.me.delta.toNat ≠ g.toNat) (hh : hold = true → ¬ s.me.delta.toNat < g.toNat) :
    s.stamp hold g = s.raise .stamp := by
  rw [State.stamp, if_neg h, if_neg (by simpa using hh)]

end

/-- Settles O14: the three ways of the stamp check. -/
theorem stampsAgreeOrHoldOrStop : Obligations.StampsAgreeOrHoldOrStop := by
  unfold Obligations.StampsAgreeOrHoldOrStop
  intro s g
  refine ⟨fun h => ?issueAt, fun h => ?issueHold, fun e => rfl⟩
  case issueAt =>
    have hexec := exec_of_ready (exec_stampAt g s) h
    change if s.me.delta.toNat = g.toNat then _ else _
    split_ifs with hd
    · exact hexec.trans (by rw [stamp_agrees hd]; rfl)
    · exact hexec.trans (by rw [stamp_missed hd (by simp)])
  case issueHold =>
    have hexec := exec_of_ready (exec_stampHold g s) h
    change if s.me.delta.toNat = g.toNat then _ else if s.me.delta.toNat < g.toNat then _ else _
    split_ifs with hd hlt
    · exact hexec.trans (by rw [stamp_agrees hd]; rfl)
    · rw [stamp_ahead hlt] at hexec
      exact ⟨_, hexec, rfl, rfl, rfl, rfl, rfl⟩
    · exact hexec.trans (by rw [stamp_missed hd fun _ => hlt])

end Sys2Proof.Proofs
end

section
/-! PROOFS. Messages between tiles and requests for the memory sequencer (R25, R26, R216 to R219). -/

namespace Sys2Proof.Proofs

open Sys2Proof Sys2Proof.Machine Sys2Proof.Claims

/-! ### Immediates (R43) -/

/-- An unsigned immediate with or without an XT word, as the signed number of its 64 bits. -/
theorem immZ_toInt {n : Nat} (h : n + 27 ≤ 63) (x : Option (BitVec 27)) (f : BitVec n) :
    (immZ x f).toInt = immNat x f := by
  cases x with
  | none =>
    have hpow : 2 ^ n ≤ 2 ^ 63 := Nat.pow_le_pow_right (by decide) (by omega)
    have hf : f.toNat < 2 ^ 63 := f.isLt.trans_le hpow
    have hnat : (f.setWidth 64).toNat = f.toNat := BitVec.toNat_setWidth_of_le (by omega)
    rw [immZ, immNat, BitVec.toInt_eq_toNat_of_msb (by rw [BitVec.msb_eq_false_iff_two_mul_lt, hnat]; omega), hnat]
  | some e =>
    rw [immZ, immNat, extended, BitVec.toInt_signExtend_of_le (by omega), BitVec.toInt_append, if_neg (by simp), mul_comm]

/-- The check of a word's place is part of its legality (R38). -/
theorem placeOk_of_legal {i : Instr} {c : Core} (h : legal i c = true) : placeOk i c = true := by
  simp only [legal, Bool.and_eq_true] at h
  exact h.2

/-- The stamp of a legal `rcv` is below 2^26, so its 64 bits are its number (R25, R217). -/
theorem rcvStamp_toNat {s : State} {a b : Reg} {g : BitVec 6} (h : Ready (.rcv a b g) s) :
    ((immZ s.me.iss.ext g).toNat : Int) = immNat s.me.iss.ext g := by
  obtain ⟨hlegal, -⟩ := h
  have hlt : (immZ s.me.iss.ext g).toNat < 2 ^ 26 := of_decide_eq_true (placeOk_of_legal hlegal)
  rw [← immZ_toInt (by decide), BitVec.toInt_eq_toNat_of_lt (by omega)]

/-! ### `snd` (R26, R216) -/

/-- `snd` with a relative time that fits and clear sources, to a tile or far tile it may reach. -/
theorem exec_snd_peer {s : State} {a b c : Reg} {far : Bool} (hr : Ready (.snd a b c) s) (hc : Clear s [a, b, c])
    (hd : s.me.delta.toNat < 2 ^ 26) (hp : s.peer s.me (val s a) = some far) (hz : (val s c).toNat ≤ 4096)
    (hy : (val s b).toNat + (val s c).toNat ≤ 4194304) :
    exec (.snd a b c) s = .next (if 32 ≤ s.me.sent (val s a).toNat then s.stall .fabric else s.done fun k =>
      (k.setSent (val s a).toNat (k.sent (val s a).toNat + 1)).request
        (.snd (val s a).toNat far (BitVec.ofNat 26 k.delta.toNat) (k.bytes .a (val s b).toNat (val s c).toNat))) := by
  rw [exec_of_ready (exec_snd a b c s) hr, if_neg (by omega)]
  refine congrArg _ ((unpoisoned_of_clear hc).trans ?_)
  unfold val at hp hz hy
  have hfits : ¬ (4096 < (s.me.s c).val.toNat ∨ BSpace.a.size < (s.me.s b).val.toNat + (s.me.s c).val.toNat) := by
    rw [BSpace.size]
    omega
  simp only [hp, if_neg hfits]
  rfl

/-- `snd` checks its stamp before all else (R216). -/
theorem exec_snd_late {s : State} {a b c : Reg} (hr : Ready (.snd a b c) s) (hd : 2 ^ 26 ≤ s.me.delta.toNat) :
    exec (.snd a b c) s = .next (s.raise .stamp) := by
  rw [exec_of_ready (exec_snd a b c s) hr, if_pos hd]

/-! ### `rcv` (R217) -/

section
variable {s : State} {a b : Reg} {g : BitVec 6} {far : Bool}

/-- `rcv` without a message of its source waits. -/
theorem exec_rcv_none (hr : Ready (.rcv a b g) s) (hc : Clear s [a, b]) (hp : s.peer s.me (val s a) = some far)
    (hm : s.me.eng.skid.find? (fun m => m.src == (val s a).toNat) = none) :
    exec (.rcv a b g) s = .next (s.stall .recv) := by
  rw [exec_of_ready (exec_rcv a b g s) hr]
  refine congrArg _ ((unpoisoned_of_clear hc).trans ?_)
  unfold val at hp hm
  simp only [hp, hm]

/-- `rcv` with a message: its stamp, its area, or the message taken. -/
theorem exec_rcv_some {m : Msg} (hr : Ready (.rcv a b g) s) (hc : Clear s [a, b]) (hp : s.peer s.me (val s a) = some far)
    (hm : s.me.eng.skid.find? (fun m => m.src == (val s a).toNat) = some m) :
    exec (.rcv a b g) s = .next (
      if m.stamp.toNat ≠ (immZ s.me.iss.ext g).toNat then s.raise .tsmismatch
      else if 4194304 < (val s b).toNat + m.bytes.length then s.raise .perm
      else
        let t := s.done fun k =>
          ((k.onEng fun e => { e with skid := takeMsg (val s a).toNat e.skid }).push 4
            (.rcvdata k.eng.nextId (leBytes 8 (val s a).toNat ++ leBytes 8 (val s b).toNat)
              (place (val s b).toNat m.bytes))).fresh
        if far then t else t.onCore (val s a).toNat fun k => k.setSent s.me.num (k.sent s.me.num - 1)) := by
  rw [exec_of_ready (exec_rcv a b g s) hr]
  refine congrArg _ ((unpoisoned_of_clear hc).trans ?_)
  unfold val at hp hm
  simp only [hp, hm]
  rfl

end

/-! ### `msq` (R218, R219) -/

/-- The bits that `msq` reserves are clear where its index is below 2^13. -/
theorem reserved_eq_zero_iff (x : W64) : x.extractLsb' 13 51 = 0 ↔ x.toNat < 2 ^ 13 := by
  rw [← BitVec.toNat_inj, BitVec.extractLsb'_toNat, Nat.shiftRight_eq_div_pow]
  have hx := x.isLt
  change x.toNat / 2 ^ 13 % 2 ^ 51 = 0 ↔ _
  omega

/-- `msq` with a clear source, by the checks of its index, its region and the requests that wait. -/
theorem exec_msq_clear {s : State} {a : Reg} (hr : Ready (.msq a) s) (hc : Clear s [a]) :
    exec (.msq a) s = .next (
      if 2 ^ 13 ≤ (val s a).toNat then s.raise .illop
      else if ((s.die s.me.die).msq.region s.me.ctx).2 ≤ (val s a).toNat then s.raise .perm
      else if 16 ≤ (s.die s.me.die).msq.wait.length then s.stall .engine
      else (s.onDie s.me.die fun q => { q with
        msq := q.msq.ask s.me.num s.me.ctx (val s a).toNat s.me.eng.nextId }).done Core.fresh) := by
  rw [exec_of_ready (exec_msq a s) hr]
  refine congrArg _ ((unpoisoned_of_clear hc).trans ?_)
  have hreserved : ((s.me.s a).val.extractLsb' 13 51 != 0) = true ↔ 2 ^ 13 ≤ (val s a).toNat := by
    rw [bne_iff_ne, ne_eq, reserved_eq_zero_iff, not_lt]
    rfl
  rw [if_congr hreserved rfl rfl]
  rfl

/-- The slot that `Msq.begin` gives a program (R219). -/
def newSlot (num tile : Nat) (ctx : BitVec 16) (first key : Nat) : Slot :=
  { busy := true, num := num, key := key, tile := tile, ctx := ctx, first := first, pc := first
    ma := Vector.replicate 16 0, ms := Vector.replicate 16 0, mm := Vector.replicate 8 0, cnt := Vector.replicate 4 0 }

section
variable {m : Msq} {tile first key : Nat} {ctx : BitVec 16}

/-- A request leaves the transfers, the signals, the regions and the programs of the sequencer as they are. -/
theorem ask_frame : (m.ask tile ctx first key).xfers = m.xfers ∧ (m.ask tile ctx first key).signals = m.signals ∧
    (m.ask tile ctx first key).regions = m.regions ∧ (m.ask tile ctx first key).prog = m.prog := by
  unfold Msq.ask
  split <;> exact ⟨rfl, rfl, rfl, rfl⟩

/-- Behind no waiting request, a request takes the lowest free slot. -/
theorem ask_begins (hw : m.wait = []) (hfree : ∃ p ∈ m.slots.toList, p.busy = false) :
    (m.ask tile ctx first key).wait = [] ∧ ∃ (k : Nat) (p : Slot), m.slots[k]? = some p ∧ p.busy = false ∧
      (∀ j < k, ∀ q, m.slots[j]? = some q → q.busy = true) ∧
      (m.ask tile ctx first key).slots = m.slots.setIfInBounds k (newSlot m.nextId tile ctx first key) := by
  obtain ⟨p, hp, hbusy⟩ := hfree
  cases hk : m.slots.toList.findIdx? fun p => !p.busy with
  | none =>
    have hnone := List.findIdx?_eq_none_iff.mp hk p hp
    simp [hbusy] at hnone
  | some k =>
    have hask : m.ask tile ctx first key = m.begin k tile ctx first key := by simp only [Msq.ask, hw, hk]
    obtain ⟨hlt, hfirst, hbefore⟩ := List.findIdx?_eq_some_iff_getElem.mp hk
    rw [hask]
    refine ⟨hw, k, m.slots.toList[k], ?_, by simpa using hfirst, fun j hj q hq => ?_, rfl⟩
    · rw [← Vector.getElem?_toList, List.getElem?_eq_getElem hlt]
    · rw [← Vector.getElem?_toList, List.getElem?_eq_getElem (hj.trans hlt)] at hq
      obtain rfl := Option.some.inj hq
      simpa using hbefore j hj

/-- Else it waits behind the others. -/
theorem ask_waits (h : ¬ (m.wait = [] ∧ ∃ p ∈ m.slots.toList, p.busy = false)) :
    (m.ask tile ctx first key).slots = m.slots ∧ (m.ask tile ctx first key).wait = m.wait ++ [(tile, first, key)] := by
  unfold Msq.ask
  split
  next k hw hk =>
    obtain ⟨hlt, hfirst, -⟩ := List.findIdx?_eq_some_iff_getElem.mp hk
    exact absurd ⟨hw, _, List.getElem_mem hlt, by simpa using hfirst⟩ h
  next => exact ⟨rfl, rfl⟩

end

/-- Settles O28: `snd` and `rcv` by what they meet, `msq` by the request it makes. -/
theorem messagesAndSequencerRequests : Obligations.MessagesAndSequencerRequests := by
  unfold Obligations.MessagesAndSequencerRequests
  intro s a b c hc
  have hab : Clear s [a, b] := fun r hr => hc r (by simp at hr ⊢; tauto)
  have ha : Clear s [a] := fun r hr => hc r (by simp at hr ⊢; tauto)
  dsimp only
  refine ⟨fun far hr hd hp hz hy => ?snd, fun hr hd => exec_snd_late hr hd, fun g far hr hp => ⟨fun hm => ?rcvWaits,
    fun m hm => ?rcvTakes⟩, ?msq⟩
  case snd =>
    have hexec := exec_snd_peer hr hc hd hp hz hy
    split_ifs with hfull
    · rwa [if_pos hfull] at hexec
    · rwa [if_neg hfull] at hexec
  case rcvWaits => exact exec_rcv_none hr hab hp hm
  case rcvTakes =>
    have hexec := exec_rcv_some hr hab hp hm
    have hne : (m.stamp.toNat : Int) ≠ immNat s.me.iss.ext g ↔ m.stamp.toNat ≠ (immZ s.me.iss.ext g).toNat := by
      rw [← rcvStamp_toNat hr, ne_eq, Nat.cast_inj]
    split_ifs with hstamp harea hfar
    · rwa [if_pos (hne.mp hstamp)] at hexec
    · rwa [if_neg (mt hne.mpr hstamp), if_pos harea] at hexec
    · rw [if_neg (mt hne.mpr hstamp), if_neg harea] at hexec
      exact hexec.trans (congrArg _ (if_pos hfar))
    · rw [if_neg (mt hne.mpr hstamp), if_neg harea] at hexec
      exact hexec.trans (congrArg _ (if_neg hfar))
  case msq =>
    refine ⟨fun hr hx => ?_, fun hr hx hreg => ?_, fun hr hx hreg hw => ?_, fun hr hx hreg hw => ?_⟩ <;>
      have hexec := exec_msq_clear hr ha
    · rwa [if_pos hx] at hexec
    · rwa [if_neg (by omega), if_pos (by omega)] at hexec
    · rwa [if_neg (by omega), if_neg (by omega), if_pos hw] at hexec
    · rw [if_neg (by omega), if_neg (by omega), if_neg (by omega)] at hexec
      obtain ⟨hxfers, hsignals, hregions, hprog⟩ := ask_frame (m := (s.die s.me.die).msq)
        (tile := s.me.num) (ctx := s.me.ctx) (first := (val s a).toNat) (key := s.me.eng.nextId)
      refine ⟨_, hexec, hxfers, hsignals, hregions, hprog, ?_⟩
      split_ifs with hfree
      · exact ask_begins hfree.1 hfree.2
      · exact ask_waits hfree

end Sys2Proof.Proofs
end

section
/-! PROOFS. Where words stop: every word of a bundle issues through `issue`, and where that finds a word illegal (R38, R42, R46,
R52, R95, R233, R343). -/

namespace Sys2Proof.Proofs

open Sys2Proof Sys2Proof.Machine Sys2Proof.Claims

/-- Every word of a bundle makes the checks of `issue` before its own effect. -/
theorem exec_issues (s : State) (i : Instr) (h : coreWord i = true) : ∃ k, exec i s = issue i s k := by
  cases i
  case xt | xrd | xwr | xset | xlp | xwt | xsg | xend => nomatch h
  case hold | resultPerforms | variableLatencyReply | elasticStall | haltLine | stopRecord | syncPost | barrierRelease
    | legEvaluation | run | done | traverseMessage | slotReturn | triggerPost | planeFlip | copyComplete | streamFire | planeReady
    | axUpdate | msqTransferComplete | collComplete | ckptComplete | messageArrival | atomicOperation | reductionContribution
    | pageWalk | invalidation | migration | migrationRelease | channelLending | reclaim | scrub | ueccRetry | refreshElision
    | cellInsert | cellDelivery | cellReturn | rsvmWrite | tstatErrClear | pgctlGo | pgctlClear | quiesced | drainTimeout
    | retraining | keyRotation | oldKeyRelease | ptpSync | syncLoss | ptcStep | leaveGrant | thermalLimit | boot | launch
    | launchGroupRelease | attest | evict | preempt | resume | contextRelease | endContext | status | reload | eventPost
    | mainRailsOff | inboundRequest | trickleCheckpoint | auxiliaryRail | collectiveAbandoned => nomatch h
  all_goals exact ⟨_, rfl⟩

section
variable {s : State} {i : Instr}

/-- A word of a bundle that is not legal where it stands raises ILLOP (R38). -/
theorem stops_of_illegal (hi : coreWord i = true) (h : legal i s.me = false) : Stops i s .illop := by
  obtain ⟨k, hk⟩ := exec_issues s i hi
  exact hk.trans (issue_illegal h)

/-- One that touches a register whose reply is late stalls (R28). -/
theorem waits_of_hazard (hi : coreWord i = true) (h : legal i s.me = true) (hh : hazard i s.me = true) :
    Waits i s .land := by
  obtain ⟨k, hk⟩ := exec_issues s i hi
  exact hk.trans (issue_hazard h hh)

/-- A word whose check of its place fails is not legal there (R38). -/
theorem legal_of_badPlace {c : Core} (h : placeOk i c = false) : legal i c = false := by
  rw [legal, h, Bool.and_false]

end

/-! ### Words of tiles on a steward (R46, R233) -/

/-- The words that no steward issues, as the manual lists them, are those that the model keeps from it. -/
theorem offSteward_eq_not_onSteward (i : Instr) : offSteward i = !onSteward i := by cases i <;> rfl

/-- They are words of bundles. -/
theorem coreWord_of_offSteward {i : Instr} (h : offSteward i = true) : coreWord i = true := by
  have himp : (!offSteward i || coreWord i) = true := by cases i <;> rfl
  simpa [h] using himp

theorem legal_offSteward {i : Instr} {c : Core} (hi : offSteward i = true) (hc : c.steward = true) : legal i c = false := by
  have hon : onSteward i = false := by simpa [offSteward_eq_not_onSteward] using hi
  simp [legal, hon, hc]

/-! ### Special registers by number (R52, R95, R343) -/

/-- A register that is read has a number up to 0x97, or is a system register on a steward. -/
theorem srRead_range {st : Bool} {n : Nat} (h : srRead st n = true) : n ≤ 0x97 ∨ st = true ∧ 0x8000 ≤ n := by
  cases st <;> simp only [srRead, Bool.or_eq_true, Bool.and_eq_true, decide_eq_true_eq, Bool.false_eq_true, false_and,
    true_and, or_false] at h ⊢ <;> omega

/-- A register that is written has a number below 0x80, or is a window or a system register on a steward; those of the module
are written by the primary steward alone. -/
theorem srWrite_range {st pr : Bool} {n : Nat} (h : srWrite st pr n = true) :
    n < 0x80 ∨ st = true ∧ (n ≤ 0x97 ∨ 0x8100 ≤ n ∧ n < 0x8140) ∨ pr = true ∧ 0x8140 ≤ n := by
  cases st <;> cases pr <;> simp only [srWrite, Bool.or_eq_true, Bool.and_eq_true, decide_eq_true_eq, Bool.false_eq_true,
    false_and, true_and, or_false] at h ⊢ <;> omega

/-- The registers that are read only below the windows (R52, R95). -/
theorem srWrite_readOnly : ∀ n ∈ [0x00, 0x01, 0x18, 0x19, 0x28, 0x29, 0x2A, 0x30, 0x38, 0x39, 0x40, 0x41, 0x48, 0x49, 0x4A],
    ∀ st pr : Bool, srWrite st pr n = false := by decide

section
variable {s : State} {r : Reg} {n : BitVec 16}

theorem rdsr_stops (h : srRead s.me.steward n.toNat ≠ true) : Stops (.rdsr r n) s .illop :=
  stops_of_illegal rfl (legal_of_badPlace (Bool.eq_false_iff.mpr h))

theorem wrsr_stops (h : srWrite s.me.steward s.me.primary n.toNat ≠ true) : Stops (.wrsr r n) s .illop :=
  stops_of_illegal rfl (legal_of_badPlace (Bool.eq_false_iff.mpr h))

end

/-- The primary steward is a steward. -/
theorem primary_eq_true {c : Core} (h : c.primary = true) : c.steward = true ∧ c.num = 256 := by
  simpa [Core.primary] using h

/-- Settles O37: each word stops because `issue` finds it illegal, or waits because a late result blocks it. -/
theorem wordsThatMayNotIssue : Obligations.WordsThatMayNotIssue := by
  unfold Obligations.WordsThatMayNotIssue
  intro s r n
  refine ⟨fun i hi => ⟨stops_of_illegal hi, waits_of_hazard hi⟩,
    fun i hi hs => stops_of_illegal (coreWord_of_offSteward hi) (legal_offSteward hi hs), fun hs hn => ?system,
    fun hs hlo hhi => ?windows, fun hn => ?readOnly, fun hs hn => ?module, fun hlo hhi => ?unassigned,
    fun hs => stops_of_illegal rfl (legal_of_badPlace (congrArg Bool.not hs)),
    fun hs => stops_of_illegal rfl (legal_of_badPlace hs)⟩
  case system =>
    have hp : s.me.primary ≠ true := fun h => by simp [(primary_eq_true h).1] at hs
    refine ⟨rdsr_stops fun h => ?_, wrsr_stops fun h => ?_⟩
    · have := srRead_range h
      simp only [hs, Bool.false_eq_true, false_and, or_false] at this
      omega
    · have := srWrite_range h
      simp only [hs, hp, Bool.false_eq_true, false_and, or_false] at this
      omega
  case windows =>
    have hp : s.me.primary ≠ true := fun h => by simp [(primary_eq_true h).1] at hs
    refine wrsr_stops fun h => ?_
    have := srWrite_range h
    simp only [hs, hp, Bool.false_eq_true, false_and, or_false] at this
    omega
  case readOnly => exact wrsr_stops (by rw [srWrite_readOnly _ hn]; exact Bool.false_ne_true)
  case module =>
    have hp : s.me.primary ≠ true := fun h => hs (primary_eq_true h).2
    refine wrsr_stops fun h => ?_
    have := srWrite_range h
    simp only [hp, Bool.false_eq_true, false_and, or_false] at this
    omega
  case unassigned =>
    refine ⟨rdsr_stops fun h => ?_, wrsr_stops fun h => ?_⟩
    · have := srRead_range h
      omega
    · have := srWrite_range h
      omega

end Sys2Proof.Proofs
end

section
/-! PROOFS. A step runs the word that is decoded at the program counter (R17, R36, R38, R48). -/

namespace Sys2Proof.Proofs

open Sys2Proof Sys2Proof.Machine Sys2Proof.Claims

/-! ### What the decoder of bundles gives is a word of bundles (R38, R45) -/

/-- What a decoder may give is a word of a bundle. -/
def GivesWords (o : Option Instr) : Prop := ∀ i, o = some i → bundleWord i = true

theorem givesWords_none : GivesWords none ↔ True := ⟨fun _ => trivial, fun _ _ h => nomatch h⟩

theorem givesWords_some {i : Instr} : GivesWords (some i) ↔ bundleWord i = true :=
  ⟨fun h => h i rfl, fun h _ hj => Option.some.inj hj ▸ h⟩

theorem givesWords_ite {c : Prop} [Decidable c] {a b : Option Instr} :
    GivesWords (if c then a else b) ↔ (c → GivesWords a) ∧ (¬ c → GivesWords b) := by
  split_ifs with h <;> simp [h]

theorem givesWords_bind {α : Type} {o : Option α} {f : α → Option Instr} :
    GivesWords (o.bind f) ↔ ∀ x, o = some x → GivesWords (f x) := by
  cases o <;> simp [givesWords_none]

theorem decodeSR_words (w : Nat) : GivesWords (decodeSR w) := by
  unfold decodeSR
  split <;> simp only [givesWords_ite, givesWords_some, givesWords_none, imp_true_iff, and_true] <;> exact fun _ => rfl

theorem decodeSI_words (w : Nat) : GivesWords (decodeSI w) := by
  unfold decodeSI
  split <;> simp only [givesWords_ite, givesWords_some, givesWords_none, imp_true_iff, and_true] <;> intros <;> rfl

theorem decodeSU_words (w : Nat) : GivesWords (decodeSU w) := by
  unfold decodeSU
  split <;> simp only [givesWords_some, givesWords_none] <;> rfl

theorem decodeCT_words (w : Nat) : GivesWords (decodeCT w) := by
  unfold decodeCT
  split <;> simp only [givesWords_ite, givesWords_bind, givesWords_some, givesWords_none, imp_true_iff, and_true] <;>
    and_intros <;> intros <;> rfl

theorem decodeVR_words (w : Nat) : GivesWords (decodeVR w) := by
  unfold decodeVR
  split <;> simp only [givesWords_ite, givesWords_bind, givesWords_some, givesWords_none, imp_true_iff, and_true] <;>
    intros <;> rfl

theorem decodeVX_words (w : Nat) : GivesWords (decodeVX w) := by
  unfold decodeVX
  split <;> simp only [givesWords_ite, givesWords_some, givesWords_none, imp_true_iff, and_true] <;>
    and_intros <;> intros <;> rfl

theorem decodeMB_words (w : Nat) : GivesWords (decodeMB w) := by
  unfold decodeMB
  split <;> simp only [givesWords_ite, givesWords_bind, givesWords_some, givesWords_none, imp_true_iff, and_true] <;>
    intros <;> rfl

theorem decodeEX_words (w : Nat) : GivesWords (decodeEX w) := by
  unfold decodeEX
  split <;> simp only [givesWords_ite, givesWords_some, givesWords_none, imp_true_iff, and_true] <;>
    and_intros <;> intros <;> and_intros <;> intros <;> and_intros <;> intros <;> rfl

theorem decodeGL_words (w : Nat) : GivesWords (decodeGL w) := by
  unfold decodeGL
  split <;> simp only [givesWords_ite, givesWords_bind, givesWords_some, givesWords_none, imp_true_iff, and_true] <;>
    and_intros <;> intros <;> and_intros <;> intros <;> rfl

theorem decodeSY_words (st : Bool) (w : Nat) : GivesWords (decodeSY st w) := by
  unfold decodeSY
  split <;> simp only [givesWords_ite, givesWords_some, givesWords_none, imp_true_iff, and_true] <;>
    and_intros <;> intros <;> rfl

theorem decodeSW_words (w : Nat) : GivesWords (decodeSW w) := by
  unfold decodeSW
  split <;> simp only [givesWords_some, givesWords_none] <;> rfl

/-- A word decodes to a word of bundles, never to a word of the memory sequencer or an event. -/
theorem bundleWord_of_decode {st : Bool} {w : Word} {i : Instr} (h : decode st w = .ok i) : bundleWord i = true := by
  have hfields : GivesWords (decodeFields st w.toNat) := by
    unfold decodeFields
    split
    · exact decodeSR_words _
    · exact decodeSI_words _
    · exact decodeSU_words _
    · exact decodeCT_words _
    · exact decodeVR_words _
    · exact decodeVX_words _
    · exact decodeMB_words _
    · exact decodeEX_words _
    · exact decodeGL_words _
    · exact decodeSY_words st _
    · exact decodeSW_words _
    · exact givesWords_some.mpr rfl
    · exact givesWords_none.mpr trivial
  unfold decode at h
  split at h
  next j hj =>
    split at h
    · exact Except.ok.inj h ▸ hfields j hj
    · cases h
  next => split at h <;> cases h

/-! ### The turn of a core up to its cycle -/

/-- The core that is made the executing one is the one of that number. -/
theorem focus_me (s : State) (n : Nat) : (s.focus n).me = s.core n := by
  unfold State.focus State.core
  split_ifs <;> rfl

/-- A stream that meets tile 0's command does not change where its core stands in its leg. -/
theorem meetChain_run (s : State) : s.meetChain.me.run = s.me.run := by
  unfold State.meetChain
  dsimp only
  split
  · rfl
  · split
    · rfl
    · split_ifs
      · rfl
      · change (Core.async ..).run = _
        unfold Core.async
        split_ifs <;> rfl

/-- A core that runs waits at no barrier. -/
theorem barrier_of_running {s : State} {n : Nat} (h : (s.core n).run = .running) : s.barrier n = s := by
  simp only [State.barrier, h]

/-- The turn of a running core is its cycle, after what its stream meets. -/
theorem coreTurn_running {s a : State} {n : Nat} (hn : n < 264) (ha : a = ((s.focus n).onMe Core.capture).meetChain)
    (hrun : a.me.run = .running) : s.coreTurn n = a.cycle := by
  have hcore : (s.core n).run = .running := by
    rw [← focus_me, ← hrun, ha, meetChain_run]
    rfl
  unfold State.coreTurn
  rw [if_neg (by omega), barrier_of_running hcore]
  dsimp only
  rw [← ha, hrun]

/-! ### A bundle of one word (R36 to R38) -/

/-- A word without its link bit is a bundle by itself (R33). -/
theorem bundle_single {c : Core} {a : IAddr} (h : link (c.word a) = false) (n : Nat) :
    (c.bundle (n + 1) a).1 = [(a, c.word a)] := by
  simp [Arch.bundle, h]

/-- The operation of a word that no XT word extends. -/
def opAt (c : Core) (w : Word) (i : Instr) : Op := { addr := c.pc, ext := none, cls := classOf w, instr := i }

/-- A legal word of the pipes decodes to the one operation of its bundle. -/
theorem ops_single {c : Core} {w : Word} {i : Instr} (hcls : classOf w < 10) (hd : decode c.steward w = .ok i)
    (hl : legal i (c.atWord c.pc none) = true) : c.ops [(c.pc, w)] = some [opAt c w i] := by
  have hxt : classOf w ≠ 11 := by omega
  simp [Core.ops, hxt, hd, xtValue, hl, opAt]

/-- A word of one of the pipes stands once in the order of the pipes. -/
theorem pipeOrder_single {o : Op} (h : o.cls < 10) : pipeOrder [o] = [o] := by
  unfold pipeOrder
  generalize hk : o.cls = k at h
  interval_cases k <;> simp [hk]

/-- The attempt of a bundle of one legal word of the pipes comes to what its word comes to. -/
theorem attempt_single {v : State} {w : Word} {i : Instr} (hbad : v.me.badTarget = false) (hw : w = v.me.word v.me.pc)
    (hlink : link w = false) (hcomp : composed (v.me.pc.toNat % 4) [w] = true) (hcls : classOf w < 10)
    (hd : decode v.me.steward w = .ok i) (hl : legal i ((v.onMe Core.beginIss).me.atWord v.me.pc none) = true) :
    v.attempt = (v.onMe Core.beginIss).words [opAt v.me w i] := by
  have hbundle : ((v.onMe Core.beginIss).me.bundle 7 v.me.pc).1 = [(v.me.pc, w)] := by
    have hword : (v.onMe Core.beginIss).me.word v.me.pc = w := hw.symm
    rw [← hword] at hlink ⊢
    exact bundle_single hlink 6
  have hops : (v.onMe Core.beginIss).me.ops [(v.me.pc, w)] = some [opAt v.me w i] := ops_single hcls hd hl
  have htarget : (v.onMe Core.beginIss).me.badTarget = false := hbad
  have hpc : (v.onMe Core.beginIss).me.pc = v.me.pc := rfl
  have hstamp : [opAt v.me w i].find? (fun o => o.cls == 10) = none := by
    simp [opAt, Nat.ne_of_lt hcls]
  unfold State.attempt
  simp only [htarget, hpc, hbundle, List.map_cons, List.map_nil, hcomp, hops, hstamp, Bool.not_true, Bool.false_eq_true,
    if_false]

section
variable {t u : State} {o : Op}

/-- The words of a bundle of one word, by the verdict its word leaves. -/
theorem tryWords_single (hx : execWord o.instr (t.onMe fun c => c.atWord o.addr o.ext) = .next u) (w : Machine.Waits) :
    tryWords [o] t w = match u.me.iss.verdict with
      | .raised => if w.blind then .going t w else .raised u
      | .stall k => .going (t.keepAsk u) (w.add k)
      | .held => .going t { w with held := true }
      | _ => .going u w := by
  rw [tryWords, hx]
  dsimp only
  cases u.me.iss.verdict <;> rfl

variable (hcls : o.cls < 10) (hx : execWord o.instr (t.onMe fun c => c.atWord o.addr o.ext) = .next u)
include hcls hx

/-- A word that issues closes its bundle, where the results in flight and the ring have room. -/
theorem words_issued (hv : u.me.iss.verdict = .issued) (hland : u.me.landCount ≤ 48)
    (hring : u.ringFull t.me.eng.nextId = false) : t.words [o] = .commit (u.close [o] t.me.eng.nextId) := by
  have hfull : ¬ 48 < u.me.landCount := by omega
  simp only [State.words, pipeOrder_single hcls, tryWords_single hx, hv, hring, hfull, Bool.false_eq_true, if_false]

/-- A word that stalls makes the cycle a stall, and what its bundle waits to be granted stays asked. -/
theorem words_stalled {k : StallCause} (hv : u.me.iss.verdict = .stall k)
    (hring : (t.keepAsk u).ringFull t.me.eng.nextId = false) : t.words [o] = .stall k
      (if k = .xlat ∨ k = .fabric ∨ k = .leave ∨ k = .sync then t.keepAsk u else t) := by
  simp only [State.words, pipeOrder_single hcls, tryWords_single hx, hv, hring, Waits.add, lowerCause, Bool.false_eq_true,
    if_false, Bool.true_and, Bool.or_eq_true, beq_iff_eq, or_assoc]

/-- A word that raises a cause leaves the state before the words, with the cause. -/
theorem words_raised (hv : u.me.iss.verdict = .raised) : t.words [o] = .commit (t.adopt u) := by
  simp only [State.words, pipeOrder_single hcls, tryWords_single hx, hv, Bool.false_eq_true, if_false]

end

/-! ### The cycle that tries it -/

section
variable {a : State} (hfault : a.me.fault = none) (hdue : a.dueStall = none) (hports : ∀ q, a.portNeed q ≤ a.me.served + 1)
include hfault hdue hports

/-- A cycle that nothing keeps commits its bundle where no enabled flag is raised. -/
theorem tryCycle_commit {u : State} (hflags : a.performDue.1.me.enabled a.performDue.2 = 0)
    (ht : a.performDue.1.attempt = .commit u) (hu : a.performDue.1.me.enabled u.me.iss.fl = 0) : a.tryCycle = .commit u := by
  have hfree : ¬ a.me.served + 1 < a.portNeed (u.me.iss.verdict == .issued) := Nat.not_lt.mpr (hports _)
  simp only [State.tryCycle, hfault, hdue, ht, hfree, hflags, hu, ne_eq, not_true_eq_false, if_false]

/-- A stall of the bundle is the stall of the cycle. -/
theorem tryCycle_stall {k : StallCause} {u : State} (ht : a.performDue.1.attempt = .stall k u) : a.tryCycle = .stall k u := by
  have hfree : ¬ a.me.served + 1 < a.portNeed (decide (stallNum .engine < stallNum k)) := Nat.not_lt.mpr (hports _)
  simp only [State.tryCycle, hfault, hdue, ht, hfree, if_false]

end

/-! ### The close of a bundle keeps the flags it has observed -/

theorem nextBundle_iss (c : Core) (trap : Bool) : (c.nextBundle trap).iss = c.iss := by
  have hcheck : (closing c).1.iss = c.iss := by
    unfold closing
    split_ifs
    · rfl
    · rw [loopCheck_frame]
  rw [← hcheck]
  rfl

theorem queueCells_me (l : List (Nat × RCell)) (s : State) : (s.queueCells l).me = s.me := by
  unfold State.queueCells
  induction l generalizing s with
  | nil => rfl
  | cons e l ih =>
    rw [List.foldl_cons, ih]
    simp only [List.foldl_cons, List.foldl_nil]
    split_ifs <;> rfl

theorem sendNew_me (s : State) (n : Nat) : (s.sendNew n).me = s.me := by
  unfold State.sendNew
  generalize s.me.newReqs n = l
  induction l generalizing s with
  | nil => rfl
  | cons r l ih => exact (ih _).trans (queueCells_me _ s)

theorem returnLeave_iss (s : State) : s.returnLeave.me.iss = s.me.iss := by
  unfold State.returnLeave
  dsimp only
  split_ifs <;> rfl

theorem close_iss (u : State) (ops : List Op) (n : Nat) : (u.close ops n).me.iss = u.me.iss := by
  unfold State.close
  rw [returnLeave_iss, sendNew_me, State.onMe_me, nextBundle_iss]

/-! ### The step -/

/-- The step of a running core, by the attempt that its cycle tries. -/
theorem step_coreTurn {s a : State} {n : Nat} {r : List Turn} (hagenda : s.agenda = .core n :: r) (hn : n < 264)
    (ha : a = (((begun s r).focus n).onMe Core.capture).meetChain) (hrun : a.me.run = .running) : step s = a.cycle := by
  unfold step
  rw [hagenda]
  exact coreTurn_running hn ha hrun

/-- Settles O57: the fetched word is the one word of the attempt, whose outcome is that of the cycle and of the step. -/
theorem stepsRunWhatIsDecoded : Obligations.StepsRunWhatIsDecoded := by
  unfold Obligations.StepsRunWhatIsDecoded
  intro s r
  refine ⟨fun n w i a v b u hf hexec => ?core, fun d k i hagenda hk => ?slot, fun i hagenda hi => ?event⟩
  case core =>
    obtain ⟨hagenda, hn, ha, hrun, hfault, hdue, rfl, hports, hflags, rfl, hbad, hlink, hw, hcomp, hcls, hd, hl⟩ := hf
    have hstep : step s = a.cycle := step_coreTurn hagenda hn ha hrun
    have hattempt := attempt_single hbad hw hlink hcomp hcls hd hl
    have hword := (execWord_exec _ i (bundleWord_of_decode hd)).trans hexec
    dsimp only
    refine ⟨fun hv hland hring hfl => ?issued, fun k hv hring => ?stalled, fun hv => ?raised⟩
    case issued =>
      have hcycle := tryCycle_commit hfault hdue hports hflags
        (hattempt.trans (words_issued (o := opAt a.performDue.1.me w i) hcls hword hv hland hring)) (by rwa [close_iss])
      rw [hstep, State.cycle, hcycle]
      rfl
    case stalled =>
      have hcycle := tryCycle_stall hfault hdue hports
        (hattempt.trans (words_stalled (o := opAt a.performDue.1.me w i) hcls hword hv hring))
      rw [hstep, State.cycle, hcycle]
    case raised =>
      have hcycle := tryCycle_commit hfault hdue hports hflags
        (hattempt.trans (words_raised (o := opAt a.performDue.1.me w i) hcls hword hv)) BitVec.zero_and
      rw [hstep, State.cycle, hcycle]
  case slot =>
    intro a p m hbusy hruns hpc hdecode
    unfold step
    rw [hagenda]
    change State.seqTurn (begun s r) d.toNat k = exec i a
    unfold State.seqTurn
    have hregion : ¬ (m.region p.ctx).2 ≤ p.pc := Nat.not_le.mpr hpc
    rw [if_neg (by omega), if_neg (by simpa using hbusy), if_neg (by simpa using hruns)]
    dsimp only
    rw [if_neg hregion, hdecode]
  case event =>
    unfold step
    rw [hagenda]
    exact if_pos hi

end Sys2Proof.Proofs
end

section
/-! PROOFS. Steps of logical time: due results, held and stalled cycles, replies (R17 to R24, R28, R103, R145, R222). -/

namespace Sys2Proof.Proofs

open Sys2Proof Sys2Proof.Machine Sys2Proof.Claims

/-! ### Accesses at their place (R222, R250, R319) -/

/-- An access that reaches its place with its pieces translated performs there (R222). -/
theorem atPlace_of_reaches {s : State} {n id : Nat} {r : Req} {p : Piece} {ps : List Piece} (h : Reaches s n id r (p :: ps))
    (hpieces : r.kind.pieces = p :: ps) (k : List Piece → State) :
    s.atPlace n r k = (k (p :: ps)).overGroups (p :: ps) r.kind.sends := by
  obtain ⟨⟨-, hfault, hring⟩, hchans, hroom⟩ := h
  have hagain : r.again = false := by simp [Req.again, hpieces]
  have hwaits : s.waits (s.core n) r = false := by simp [State.waits, hring, hfault, hagain]
  have hplaced : s.placed (s.core n) r.kind = .ok (p :: ps) := by simp [State.placed, hpieces]
  simp only [State.atPlace, hwaits, hplaced, hchans, hagain, hroom, Bool.false_and, Bool.not_true, Bool.false_eq_true, if_false]

/-! ### Due results and flags (R19, R103, R145) -/

/-- The lowest flag of a set, by what is below it. -/
theorem lowFlag_eq {fl : Fl} {k : Nat} (hk : k < 9) (hon : fl.getLsbD k = true) (hlow : ∀ j < k, fl.getLsbD j = false) :
    lowFlag fl = k := by
  have hfind : (List.range 9).find? (fun j => fl.getLsbD j) = some k := by
    rw [List.find?_range_eq_some]
    exact ⟨hon, List.mem_range.mpr hk, fun j hj => by simp [hlow j hj]⟩
  rw [lowFlag, hfind, Option.getD_some]

section
variable {s : State}

theorem performFpx_none (h : s.performDue.1.me.enabled s.performDue.2 = 0) : s.performFpx = s.performDue.1 := by
  simp [State.performFpx, State.fpx, h]

theorem performFpx_lowest {k : Nat} (hk : k < 9) (hon : (s.performDue.1.me.enabled s.performDue.2).getLsbD k = true)
    (hlow : ∀ j < k, (s.performDue.1.me.enabled s.performDue.2).getLsbD j = false) (hrun : s.performDue.1.me.run = .running) :
    s.performFpx = (s.performDue.1.onMe fun c => c.onIss fun i => { i with start := c.pc }).raiseLocal .fpx
      (BitVec.ofNat 8 k) := by
  have hne : s.performDue.1.me.enabled s.performDue.2 ≠ 0 := fun h => by simp [h] at hon
  rw [State.performFpx, State.fpx, if_pos ⟨hne, hrun⟩, lowFlag_eq hk hon hlow]

/-- The due results of a running core perform where its cycle commits (R19). -/
theorem mayPerform_running (hrun : s.me.run = .running) :
    s.mayPerform = true ↔ s.me.fault = none ∧ ∃ u, s.tryCycle = .commit u := by
  simp only [State.mayPerform, hrun, Bool.and_eq_true, Option.isNone_iff_eq_none]
  refine and_congr_right fun _ => ?_
  cases s.tryCycle <;> simp

/-! ### Stalled cycles (R21, R22) -/

/-- The lower of two causes is no higher than the first. -/
theorem lowerCause_le (k j : StallCause) : stallNum (lowerCause (some k) j) ≤ stallNum k := by
  change stallNum (if stallNum j < stallNum k then j else k) ≤ _
  split_ifs <;> omega

/-- Where due results are kept, the cycle is a stall of their cause or a lower one (R22). -/
theorem tryCycle_of_dueStall {j : StallCause} (hfault : s.me.fault = none) (hdue : s.dueStall = some j) :
    ∃ k u, s.tryCycle = .stall k u ∧ stallNum k ≤ stallNum j := by
  unfold State.tryCycle
  simp only [hfault, hdue]
  cases s.performDue.1.attempt with
  | stall k u => exact ⟨_, _, rfl, lowerCause_le j k⟩
  | commit u => exact ⟨_, _, rfl, le_refl _⟩
  | stop o => exact ⟨_, _, rfl, le_refl _⟩

/-- A stall cycle adds one to the counter of its cause alone (R22). -/
theorem stalled_stallc (s : State) (k : StallCause) (u : State) {j : Nat} (hj : j < 8) :
    (s.stalled k u).me.spec.stallc[j]? =
      if j = stallNum k then (s.me.spec.stallc[j]?).map (· + 1) else s.me.spec.stallc[j]? := by
  change (s.me.spec.stallc.setIfInBounds (stallNum k) (s.me.spec.stallc[stallNum k]?.getD 0 + 1))[j]? = _
  split_ifs with h
  · subst h
    simp [hj]
  · exact Vector.getElem?_setIfInBounds_ne (Ne.symm h)

end

/-! ### Replies (R28, R222) -/

/-- A reply gives its bytes to the results that wait for it. -/
theorem reply_flight (c : Core) (id : Nat) (bs : List Byte) (fl : Fl) :
    (c.reply id bs fl).flight = c.flight.map fun f => if f.await = .reply id then
      { f with await := .no, what := match f.what with
        | .sreg d _ _ _ => .sreg d (BitVec.ofNat 64 (leNat bs)) false fl
        | .vreg d _ _ _ => .vreg d (vldVal 4 bs) 0 fl
        | x => x } else f := by
  refine List.map_congr_left fun f _ => if_congr beq_iff_eq ?_ rfl
  cases f.what <;> rfl

/-- Settles O44: each step by what the cycle it belongs to comes to. -/
theorem cyclesResultsAndReplies : Obligations.CyclesResultsAndReplies := by
  unfold Obligations.CyclesResultsAndReplies
  refine ⟨fun s hrun => ?cycles, fun c => ⟨rfl, rfl, rfl, rfl⟩, fun s n id r => ?replies,
    fun c id bs fl => ⟨rfl, reply_flight c id bs fl⟩⟩
  case cycles =>
    refine ⟨mayPerform_running hrun, fun h => ?kept, fun h => ?performs, fun u ht hheld => ?hold,
      fun j hfault hdue => tryCycle_of_dueStall hfault hdue, fun k u ht => ?stall, fun u ht hfault => ?free, fun k u => ?frame⟩
    case kept => simp [Happens, execResultPerforms, h]
    case performs =>
      refine ⟨fun hon => ?_, fun k hk hon hlow hr => ?_⟩
      · simp [Happens, execResultPerforms, h, performFpx_none hon]
      · simp [Happens, execResultPerforms, h, performFpx_lowest hk hon hlow hr]
    case hold => simp [Happens, execHold, hrun, ht, hheld, State.rested, State.onMe]
    case stall =>
      refine ⟨by simp [Happens, execElasticStall, hrun, ht], fun j hj => ?_⟩
      simp [Happens, execElasticStall, hrun, ht, Ne.symm hj]
    case free =>
      refine ⟨by simp [Happens, execElasticStall, hrun, ht, hfault, Arch.mayStall], fun k hmisc hengine => ?_⟩
      simp [Happens, execElasticStall, hrun, ht, Arch.mayStall, hmisc, hengine]
    case frame =>
      exact ⟨rfl, rfl, rfl, rfl, rfl, rfl, rfl, rfl, rfl, rfl, fun j hj => stalled_stallc s k u hj, rfl⟩
  case replies =>
    refine ⟨fun p ps w o sp v hreach hkind => ?load, fun bs fl w hreq hkind hring => ?back⟩
    case load =>
      have hplace := atPlace_of_reaches hreach (by rw [hkind]; rfl)
      obtain ⟨⟨hreq, -, -⟩, -, -⟩ := hreach
      simp only [Happens, exec_variableLatencyReply, execVariableLatencyReply, hreq, hplace, List.isEmpty_iff]
      simp only [hkind]
    case back => simp only [Happens, exec_variableLatencyReply, execVariableLatencyReply, hreq, hkind, hring, Bool.false_eq_true, if_false]

end Sys2Proof.Proofs
end

section
/-! PROOFS. Halt lines, stop records, releases and barriers (R27, R92, R106 to R111, R115). -/

namespace Sys2Proof.Proofs

open Sys2Proof Sys2Proof.Machine Sys2Proof.Claims

/-! ### Little-endian fields of a record (R111) -/

@[simp] theorem length_leBytes (n x : Nat) : (leBytes n x).length = n := by
  induction n generalizing x with
  | zero => rfl
  | succ n ih => rw [leBytes, List.length_cons, ih]

theorem leNat_leBytes (n x : Nat) : leNat (leBytes n x) = x % 256 ^ n := by
  induction n generalizing x with
  | zero => rw [pow_zero, Nat.mod_one]; rfl
  | succ n ih =>
    rw [leBytes, leNat, ih, BitVec.toNat_ofNat, pow_succ' 256, Nat.mod_mul]

/-- A field past the first block stands in the rest. -/
theorem drop_block {m o x : Nat} {l : List Byte} (h : m ≤ o) : (leBytes m x ++ l).drop o = l.drop (o - m) := by
  rw [List.drop_append, length_leBytes, List.drop_eq_nil_of_le (by rw [length_leBytes]; exact h), List.nil_append]

/-- The first block read back. -/
theorem leNat_take_block {n x : Nat} {l : List Byte} : leNat ((leBytes n x ++ l).take n) = x % 256 ^ n := by
  rw [List.take_left' (length_leBytes n x), leNat_leBytes]

/-- The bits of a byte of flags. -/
theorem getLsbD_bitsNat (l : List Bool) (k : Nat) : (bitsNat l).testBit k = l.getD k false := by
  induction l generalizing k with
  | nil => simp [bitsNat, packW]
  | cons b l ih =>
    have hcons : bitsNat (b :: l) = 2 * bitsNat l + b.toNat := by
      cases b <;> simp [bitsNat, packW, Nat.add_comm]
    cases k with
    | zero => cases b <;> simp [hcons]
    | succ k =>
      rw [hcons, Nat.testBit_succ, List.getD_cons_succ, ← ih]
      congr 1
      cases b
      · simp
      · simp only [Bool.toNat_true]; omega

section
variable (s : State) (c : Core) (p : Stop)

theorem headD_block (x : Nat) (l : List Byte) : (leBytes 1 x ++ l).headD 0 = BitVec.ofNat 8 x := rfl

theorem getD_one_blocks (x y : Nat) (l : List Byte) : (leBytes 1 x ++ (leBytes 1 y ++ l)).getD 1 0 = BitVec.ofNat 8 y := rfl

/-- The header of a stop record, by its blocks (R111). -/
theorem record_header : ∃ nland neng rest, (s.record c p).1 = leBytes 1 p.cause.num ++ (leBytes 1 p.flags ++
    (leBytes 2 p.code.toNat ++ (leBytes 1 nland ++ (leBytes 1 neng ++ (leBytes 1 c.eng.lq.length ++
    (leBytes 1 c.loops.lsd.toNat ++ (leBytes 8 p.addr.toNat ++ (leBytes 8 c.spec.lt.toNat ++
    (leBytes 8 c.spec.cyc.toNat ++ (leBytes 8 c.spec.frame.toNat ++ (leBytes 8 p.finfo0.toNat ++
    (leBytes 8 p.finfo1.toNat ++ (leBytes 8 p.syncst.toNat ++ rest))))))))))))) := by
  unfold State.record
  extract_lets land es eng more skid
  clear_value land es eng more skid
  simp only [List.append_assoc]
  exact ⟨_, _, _, rfl⟩

theorem record_cause : (s.record c p).1.headD 0 = BitVec.ofNat 8 p.cause.num := by
  obtain ⟨_, _, _, h⟩ := record_header s c p
  rw [h, headD_block]

theorem record_flags (k : Nat) (hk : k < 8) : ((s.record c p).1.getD 1 0).getLsbD k =
    [p.faulting, p.escalated, p.async, p.msq, p.done, p.syncw, p.final].getD k false := by
  obtain ⟨_, _, _, h⟩ := record_header s c p
  rw [h, getD_one_blocks, BitVec.getLsbD_ofNat, Stop.flags, getLsbD_bitsNat]
  simp [hk]

/-- The fields of a stop record, by the offsets R111 gives them. -/
theorem record_fields : let b := (s.record c p).1
    let at' := fun o n => leNat ((b.drop o).take n)
    at' 2 2 = p.code.toNat ∧ at' 6 1 = c.eng.lq.length % 256 ∧ at' 7 1 = c.loops.lsd.toNat ∧ at' 8 8 = p.addr.toNat ∧
    at' 16 8 = c.spec.lt.toNat ∧ at' 24 8 = c.spec.cyc.toNat ∧ at' 32 8 = c.spec.frame.toNat ∧
    at' 40 8 = p.finfo0.toNat ∧ at' 48 8 = p.finfo1.toNat ∧ at' 56 8 = p.syncst.toNat := by
  obtain ⟨_, _, _, h⟩ := record_header s c p
  simp only [h, drop_block, Nat.reduceLeDiff, Nat.reduceSub, List.drop_zero, leNat_take_block]
  refine ⟨?_, rfl, ?_, ?_, ?_, ?_, ?_, ?_, ?_, ?_⟩ <;> bv_omega
end

/-! ### Halt lines and stop records (R106 to R108) -/

section
variable {s : State} {n : Nat}

theorem haltLine_driven {p : Part} (hpart : s.part (s.core n).part = some p) (hhalt : p.halt = true)
    (hctx : p.ctx = (s.core n).ctx) (hlive : (s.core n).ctx ≠ 0) (htile : (s.core n).steward = false)
    (hstopping : (s.core n).run ≠ .stopping) (hstopped : (s.core n).run ≠ .stopped) :
    Happens (.haltLine n) s ((s.stopDue n).onCore n fun c =>
      { c with run := .stopping, stop := some (c.lineStop p.haltPre), fault := none, iss := State.resetIss }) := by
  show execHaltLine n s = _
  simp only [execHaltLine, hpart]
  rw [if_pos ⟨hhalt, hctx, hlive, by rw [htile]; rfl, hstopping, hstopped⟩]

variable {p : Stop} (hrun : (s.core n).run = .stopping) (hstop : (s.core n).stop = some p)
include hrun hstop

theorem stopRecord_steward (hst : (s.core n).steward = true) (hsettled : (s.core n).settled = true) :
    Happens (.stopRecord n) s (s.setCore n { s.core n with
      run := .stopped, stop := some (s.finalStop (s.core n) p), walk := .none, leave := .none }) := by
  show execStopRecord n s = _
  simp only [execStopRecord, hrun, hstop, hst, hsettled, if_true]

theorem stopRecord_waits (hst : (s.core n).steward = false)
    (hbusy : ¬ ∀ k ∈ s.tiles (s.core n).part, (s.core k).quiet = true ∧ s.seqQuiet k = true) :
    Happens (.stopRecord n) s s := by
  have hall : (s.tiles (s.core n).part).all (fun k => (s.core k).quiet && s.seqQuiet k) = false := by
    rw [Bool.eq_false_iff]
    simpa only [ne_eq, List.all_eq_true, Bool.and_eq_true] using hbusy
  show execStopRecord n s = _
  simp only [execStopRecord, hrun, hstop, hst, hall, Bool.false_eq_true, if_false, Bool.not_false, if_true]

theorem stopRecord_quiet (hst : (s.core n).steward = false)
    (hquiet : ∀ k ∈ s.tiles (s.core n).part, (s.core k).quiet = true ∧ s.seqQuiet k = true) :
    let q := s.finalStop (s.core n) p
    let d := { s.core n with run := .stopped, stop := some q, walk := .none, leave := .none }
    Happens (.stopRecord n) s ((((s.setCore n d).onDie (s.core n).die fun y =>
      { y with leaves := y.leaves.filter fun z => z.1 != n }).tileImage d q).ctxHalted (s.core n).part (s.core n).ctx) := by
  have hall : (s.tiles (s.core n).part).all (fun k => (s.core k).quiet && s.seqQuiet k) = true := by
    simpa only [List.all_eq_true, Bool.and_eq_true] using hquiet
  show execStopRecord n s = _
  simp only [execStopRecord, hrun, hstop, hst, hall, Bool.false_eq_true, if_false, Bool.not_true]

end

/-! ### Releases (R115) -/

/-- A released context whose resume waits is answered OK (R115). -/
theorem contextRelease_resumes {s : State} {seq : BitVec 32} {i : BitVec 16} {x : Ctx} (htask : s.host.task = .resume seq i)
    (hctx : s.ctx i = some x) :
    Happens (.contextRelease i) s (((s.release x.part x).setTask .none).answer seq 0 []) := by
  show execContextRelease i s = _
  simp only [execContextRelease, htask, hctx, if_true]
  rfl

/-- A released tile with no collective under way only takes its stop back (R115). -/
theorem released_of_noColls {k : Core} {p : Stop} (hstop : k.stop = some p) (hcolls : k.eng.colls = []) (inRun : Bool) :
    k.released inRun [] = { k with
      run := if p.done then (if inRun then .halted else .idle)
        else if p.syncw then .barrier false (scopeOf (p.syncst.toNat / 2 ^ 32 % 8))
        else .running
      pc := p.addr, stop := none, iss := State.resetIss, kept := false
      eng := { k.eng with
        reqs := k.eng.reqs.map fun r => if r.fault.isSome then { r with fault := none, kind := r.kind.setPieces [] } else r
        copies := k.eng.copies.map fun k => { k with faulted := false } } } := by
  simp only [Core.released, hstop, Core.onEng, hcolls, List.filter_nil, List.foldl_nil, List.find?_nil]

/-! ### Posts (R27, R267) -/

theorem covered_iff (r : Req) : r.covered = false ↔ isLoad r.kind = true := by
  cases h : r.kind <;> simp [Req.covered, isLoad, h]

theorem outbound_iff (k : Copy) : k.outbound = isRemote k.dst := rfl

theorem remote_iff (k : Copy) : k.remote = (isRemote k.dst || isRemote k.src) := rfl

theorem loadsHere_iff (c : Core) : c.loadsHere = true ↔ LoadsDone c := by
  have hany : c.loadsHere = !(c.eng.reqs.any fun r => answers r.kind) := rfl
  simp [hany, LoadsDone]

theorem drained_iff (s : State) (c : Core) : s.drained c = true ↔ StoresDone s c := by
  simp only [State.drained, Arch.drained, StoresDone, outbound_iff, Bool.and_eq_true, Bool.not_eq_true', List.any_eq_false,
    Bool.or_eq_true, beq_iff_eq, not_or, Bool.not_eq_true, covered_iff, not_and, ne_eq, and_assoc]

theorem enginesHere_iff (s : State) (c : Core) : s.enginesHere c = true ↔
    (∀ k ∈ c.eng.copies, isRemote k.dst = false ∧ isRemote k.src = false) ∧
      ∀ x ∈ (s.die c.die).msq.xfers, x.owner ≠ c.num := by
  simp only [State.enginesHere, remote_iff, Bool.and_eq_true, Bool.not_eq_true', List.any_eq_false, Bool.or_eq_true, beq_iff_eq,
    not_or, Bool.not_eq_true, ne_eq]

/-- A tile's remote accesses are ordered exactly where all of them have performed (R267, R270). -/
theorem ordered_iff (s : State) (c : Core) : s.ordered c = true ↔ AllDone s c := by
  rw [State.ordered, Bool.and_eq_true, Bool.and_eq_true, loadsHere_iff, drained_iff, enginesHere_iff, and_assoc, AllDone]

section
variable {s : State} {n : Nat} {sc : Scope} (hrun : (s.core n).run = .barrier false sc)
include hrun

theorem syncPost_posts (h : AllDone s (s.core n)) :
    Happens (.syncPost n) s (s.onCore n fun c => { c.mergeRed sc with run := .barrier true sc, since := 0 }) := by
  show execSyncPost n s = _
  simp only [execSyncPost, hrun, (ordered_iff s _).mpr h, if_true]

theorem syncPost_waits (h : ¬ AllDone s (s.core n)) : Happens (.syncPost n) s s := by
  show execSyncPost n s = _
  rw [← ordered_iff] at h
  simp only [execSyncPost, hrun, h, Bool.false_eq_true, if_false]

end

/-! ### Barriers (R27, R92, R321) -/

theorem postWait_eq (l : List Nat) : postWait l = if ∀ k ∈ l, k / 32 = l.headD 0 / 32 then 5 else 37 := by
  simp only [postWait, List.all_eq_true, beq_iff_eq]

theorem postedAt_iff (c : Core) (sc : Scope) : c.postedAt sc = true ↔ c.run = .barrier true sc := by
  rw [Arch.postedAt, beq_iff_eq]

/-- No element has two predicates that exclude each other, so their counts add up to all exactly where each element has one. -/
theorem length_filters_eq_iff {α : Type} (a b : α → Bool) (hab : ∀ x, a x = true → b x = false) (l : List α) :
    (l.filter a).length + (l.filter b).length = l.length ↔ ∀ x ∈ l, a x = true ∨ b x = true := by
  have hrest : l.filter b = (l.filter fun x => !a x).filter b := by
    rw [List.filter_filter]
    refine List.filter_congr fun x _ => ?_
    cases ha : a x
    · simp
    · simp [hab x ha]
  rw [hrest, List.length_eq_length_filter_add (l := l) a, Nat.add_left_cancel_iff, List.length_filter_eq_length_iff]
  simp only [List.mem_filter, Bool.not_eq_true', and_imp]
  refine forall₂_congr fun x _ => ?_
  cases a x <;> simp

/-- A tile that has posted has not halted. -/
theorem not_halted_of_posted {c : Core} {sc : Scope} (h : c.postedAt sc = true) : (c.run == .halted) = false := by
  rw [(postedAt_iff c sc).mp h]; rfl

section
variable {s : State} {n : Nat} {sc : Scope} {p : Part}

/-- Where every covered tile has posted or halted. -/
theorem allHere_iff (s : State) (c : Core) (sc : Scope) :
    ((s.covered c sc).filter fun k => (s.core k).postedAt sc).length +
      ((s.covered c sc).filter fun k => (s.core k).run == .halted).length = (s.covered c sc).length ↔
    ∀ k ∈ s.covered c sc, (s.core k).run = .barrier true sc ∨ (s.core k).run = .halted := by
  rw [length_filters_eq_iff _ _ fun k hk => not_halted_of_posted hk]
  simp only [postedAt_iff, beq_iff_eq]

/-- Whether a tile that has posted waits still for its cycles. -/
theorem early_iff (s : State) (l : List Nat) (sc : Scope) :
    ((l.filter fun k => (s.core k).postedAt sc).any fun k => decide ((s.core k).since < postWait l)) = true ↔
    ∃ k ∈ l, (s.core k).run = .barrier true sc ∧ (s.core k).since < postWait l := by
  simp only [List.any_filter, List.any_eq_true, Bool.and_eq_true, postedAt_iff, decide_eq_true_eq]

variable (hrun : (s.core n).run = .barrier true sc) (hpart : s.part (s.core n).part = some p)
include hrun hpart

/-- A barrier by its covered tiles: it waits, stops all that wait for a halted tile, or compares the release times (R27, R92). -/
theorem barrier_eq : let l := s.covered (s.core n) sc
    let t := (s.core (l.headD n)).release
    s.barrier n =
      if p.halt = true ∨ (∃ k ∈ l, ¬ (s.core k).run = .barrier true sc ∧ (s.core k).run ≠ .halted) ∨
          (∃ k ∈ l, (s.core k).run = .barrier true sc ∧ (s.core k).since < postWait l) then s
      else if ∃ k ∈ l, (s.core k).run = .halted then
        (l.filter fun k => (s.core k).postedAt sc).foldl (fun s k => s.stampAt k) s
      else if ∀ k ∈ l, (s.core k).release = t then l.foldl (fun s k => s.onCore k fun c => { c with run := .running }) s
      else (l.filter fun k => (s.core k).release != t).foldl (fun s k => s.stampAt k) s := by
  extract_lets l t
  have hgone : (!(l.filter fun k => (s.core k).run == .halted).isEmpty) = true ↔ ∃ k ∈ l, (s.core k).run = .halted := by
    simp [List.filter_eq_nil_iff]
  have hbad : (l.filter fun k => (s.core k).release != t).isEmpty = true ↔ ∀ k ∈ l, (s.core k).release = t := by
    simp [List.filter_eq_nil_iff]
  have hmissing : ((l.filter fun k => (s.core k).postedAt sc).length +
      (l.filter fun k => (s.core k).run == .halted).length ≠ l.length) ↔
      ∃ k ∈ l, ¬ (s.core k).run = .barrier true sc ∧ (s.core k).run ≠ .halted := by
    rw [ne_eq, allHere_iff]
    push Not
    rfl
  simp only [State.barrier, hrun, hpart, ← early_iff, ← hmissing, ← hgone, ← hbad]
  rfl

end

section
variable {s : State} {n : Nat} {sc : Scope} {p : Part}

theorem filter_posted {l : List Nat} (hl : ∀ k ∈ l, (s.core k).run = .barrier true sc ∨ (s.core k).run = .halted) :
    (l.filter fun k => (s.core k).postedAt sc) = l.filter fun k => (s.core k).run != .halted := by
  refine List.filter_congr fun k hk => ?_
  rcases hl k hk with h | h <;> rw [Arch.postedAt, h] <;> simp

variable (hrun : (s.core n).run = .barrier true sc) (hpart : s.part (s.core n).part = some p)
include hrun hpart

/-- What becomes of a barrier at which a tile has posted (R27, R92, R107). -/
theorem barrierRelease_cases : let l := s.covered (s.core n) sc
    let posted := fun k => (s.core k).run = .barrier true sc
    let t := (s.core (l.headD n)).release
    (p.halt = true ∨ (∃ k ∈ l, ¬ posted k ∧ (s.core k).run ≠ .halted) ∨ (∃ k ∈ l, posted k ∧ (s.core k).since < postWait l) →
      Happens (.barrierRelease n) s s) ∧
    (p.halt = false → (∀ k ∈ l, posted k ∧ postWait l ≤ (s.core k).since) →
      ((∀ k ∈ l, (s.core k).release = t) →
        Happens (.barrierRelease n) s (l.foldl (fun s k => s.onCore k fun c => { c with run := .running }) s)) ∧
      ((∃ k ∈ l, (s.core k).release ≠ t) → Happens (.barrierRelease n) s
        ((l.filter fun k => (s.core k).release != t).foldl (fun s k => s.stampAt k) s))) ∧
    (p.halt = false → (∀ k ∈ l, (posted k ∧ postWait l ≤ (s.core k).since) ∨ (s.core k).run = .halted) →
      (∃ k ∈ l, (s.core k).run = .halted) → Happens (.barrierRelease n) s
        ((l.filter fun k => (s.core k).run != .halted).foldl (fun s k => s.stampAt k) s)) := by
  intro l posted t
  have hexec : exec (.barrierRelease n) s = .next (s.barrier n) := rfl
  simp only [Happens, hexec, barrier_eq hrun hpart]
  refine ⟨fun hwait => by rw [if_pos hwait], fun hhalt hposted => ?_, fun hhalt hall hhalted => ?_⟩
  · have hgo : ¬ (p.halt = true ∨ (∃ k ∈ l, ¬ posted k ∧ (s.core k).run ≠ .halted) ∨
        (∃ k ∈ l, posted k ∧ (s.core k).since < postWait l)) := by
      rintro (h | ⟨k, hk, hnot, -⟩ | ⟨k, hk, -, hearly⟩)
      · simp [hhalt] at h
      · exact hnot (hposted k hk).1
      · exact absurd (hposted k hk).2 (Nat.not_le.mpr hearly)
    have hnone : ¬ ∃ k ∈ l, (s.core k).run = .halted := by
      rintro ⟨k, hk, hhalted⟩
      exact nomatch (hposted k hk).1.symm.trans hhalted
    rw [if_neg hgo, if_neg hnone]
    refine ⟨fun hsame => by rw [if_pos hsame], fun ⟨k, hk, hother⟩ => by rw [if_neg fun hsame => hother (hsame k hk)]⟩
  · have hgo : ¬ (p.halt = true ∨ (∃ k ∈ l, ¬ posted k ∧ (s.core k).run ≠ .halted) ∨
        (∃ k ∈ l, posted k ∧ (s.core k).since < postWait l)) := by
      rintro (h | ⟨k, hk, hnot, hlive⟩ | ⟨k, hk, hpost, hearly⟩)
      · simp [hhalt] at h
      · exact (hall k hk).elim (fun h => hnot h.1) hlive
      · rcases hall k hk with ⟨-, hlate⟩ | hhalted
        · exact absurd hlate (Nat.not_le.mpr hearly)
        · exact nomatch hpost.symm.trans hhalted
    rw [if_neg hgo, if_pos hhalted, filter_posted fun k hk => (hall k hk).imp_left And.left]

end

/-- Settles O45: each clause by its event, the fields of the record by their offsets in its header, the barrier by what
its covered tiles have done. -/
theorem haltLinesRecordsAndBarriers : Obligations.HaltLinesRecordsAndBarriers := by
  intro s n
  refine ⟨?_, ?_, ?_, ?_, ?_, ?_, ?_⟩
  · intro p hpart hhalt hctx hlive htile hstopping hstopped
    exact haltLine_driven hpart hhalt hctx hlive htile hstopping hstopped
  · intro p hrun hstop
    exact ⟨stopRecord_steward hrun hstop, stopRecord_waits hrun hstop, stopRecord_quiet hrun hstop⟩
  · intro p
    exact ⟨record_cause s _ p, record_flags s _ p, record_fields s _ p⟩
  · intro seq i x htask hctx
    exact contextRelease_resumes htask hctx
  · intro k p inRun hstop hcolls
    rw [released_of_noColls hstop hcolls]
    refine ⟨rfl, rfl, rfl, rfl, rfl, rfl, rfl, fun hdone hsync => ?_, fun hdone => ?_⟩
    · simp only [hdone, hsync, Bool.false_eq_true, if_false]
    · simp only [hdone, if_true]
  · intro sc hrun
    exact ⟨syncPost_posts hrun, syncPost_waits hrun⟩
  · intro sc p hrun hpart
    simp only [← postWait_eq]
    exact barrierRelease_cases hrun hpart

end Sys2Proof.Proofs
end

section
/-! PROOFS. The traverse: evaluation, start and end of legs, flips, messages, slot returns and triggers (R287 to R304). -/

namespace Sys2Proof.Proofs

open Sys2Proof Sys2Proof.Machine Sys2Proof.Claims

/-! ### Partitions and their traverses -/

section
variable {s : State} {p : BitVec 6} {q : Part}

theorem part_onPart (s : State) (p : BitVec 6) (f : Part → Part) : (s.onPart p f).part p = (s.part p).map f := by
  simp only [State.part, State.onPart]
  induction s.parts with
  | nil => rfl
  | cons e l ih =>
    by_cases h : e.1 = p
    · simp [h]
    · simpa [h] using ih

theorem part_onPart_ne (s : State) {p r : BitVec 6} (h : r ≠ p) (f : Part → Part) : (s.onPart p f).part r = s.part r := by
  simp only [State.part, State.onPart]
  induction s.parts with
  | nil => rfl
  | cons e l ih =>
    by_cases he : e.1 = p
    · have hr : e.1 ≠ r := fun hr => h (hr.symm.trans he)
      simpa [he, Ne.symm h] using ih
    · by_cases hr : e.1 = r
      · simp [hr, h]
      · simpa [he, hr] using ih

theorem part_onCore (s : State) (n : Nat) (f : Core → Core) : (s.onCore n f).part p = s.part p := by
  unfold State.onCore State.setCore
  split <;> rfl

theorem part_onCores (l : List Nat) (f : State → Core → Core) (s : State) :
    (l.foldl (fun s n => s.onCore n (f s)) s).part p = s.part p := by
  induction l generalizing s with
  | nil => rfl
  | cons n l ih => rw [List.foldl_cons, ih, part_onCore]

theorem trav_of_part (h : s.part p = some q) : s.trav (.part p) = some q.trav := by
  simp [State.trav, h]

theorem part_onTrav (h : s.part p = some q) (f : Trav → Trav) :
    (s.onTrav (.part p) f).part p = some { q with trav := f q.trav } := by
  rw [State.onTrav, part_onPart, h, Option.map_some]

/-- The tiles of a partition are those of its mask (R11). -/
theorem tiles_congr {s t : State} (h : (t.part p).map Part.mask = (s.part p).map Part.mask) : t.tiles p = s.tiles p := by
  unfold State.tiles
  cases hs : s.part p <;> cases ht : t.part p <;> simp_all

/-! ### Evaluation (R293, R294) -/

theorem evalLeg_eq {l : LegW} (hpart : s.part p = some q) (hcur : q.trav.cur = some l) :
    s.evalLeg p = s.onTrav (.part p) fun t => { t.evalErr l with
      unmet := s.unmetOf p q.trav l, state := if s.unmetOf p q.trav l = 0 then .ready else .wait } := by
  simp only [State.evalLeg, trav_of_part hpart, hcur]

/-- The groups of the preconditions that fail, by their bits (R293). -/
theorem unmetOf_bits (s : State) (p : BitVec 6) (t : Trav) (l : LegW) : let u := s.unmetOf p t l
    u.getLsbD 1 = decide (l.w1 &&& ~~~(s.core (s.anchor p)).spec.tagmap ≠ 0) ∧
    u.getLsbD 3 = (l.push && decide (t.stlim ≤ t.stash.length)) ∧
    u.getLsbD 4 = (l.pop && decide (t.stash.head? ≠ some ((l.mb + t.lpc * l.step) % 1024))) := by
  simp only [State.unmetOf, BitVec.getLsbD_ofNat, getLsbD_bitsNat]
  simp [bne, beq_eq_decide, Trav.mbOf]

theorem legEvaluation_waits (hpart : s.part p = some q) (hgo : s.legsGo q = true) (hstate : q.trav.state = .wait) :
    Happens (.legEvaluation p) s ((s.onTrav (.part p) Trav.charge).evalLeg p) := by
  show execLegEvaluation p s = _
  simp only [execLegEvaluation, hpart, hgo, hstate, Bool.not_true, Bool.false_eq_true, if_false]

theorem legEvaluation_done (hpart : s.part p = some q) (hgo : s.legsGo q = true) (hstate : q.trav.state = .done) {u : Trav}
    (htrav : (s.flip p).trav (.part p) = some u) :
    (∀ l, u.cur = some l → Happens (.legEvaluation p) s ((s.flip p).evalLeg p)) ∧
    (u.cur = none → Happens (.legEvaluation p) s
      (((s.flip p).onTrav (.part p) fun t => { t with state := .fin }).endEvent p q.ctx)) := by
  have hexec : exec (.legEvaluation p) s = execLegEvaluation p s := rfl
  simp only [Happens, hexec, execLegEvaluation, hpart, hgo, hstate, htrav, Bool.not_true, Bool.false_eq_true, if_false,
    Option.bind_some]
  exact ⟨fun l h => by rw [h], fun h => by rw [h]⟩

/-! ### Flips (R302) -/

theorem flip_unready (hpart : s.part p = some q) (h : q.swp = false ∨ q.shi = false ∨ q.sht = false) : s.flip p = s := by
  have hno : (q.swp && q.shi && q.sht) = false := by
    rcases h with h | h | h <;> simp [h]
  simp only [State.flip, hpart, hno, Bool.not_false, if_true]

theorem part_flip (hpart : s.part p = some q) (hswp : q.swp = true) (hshi : q.shi = true) (hsht : q.sht = true) :
    (s.flip p).part p = some { q with
      swp := false, shi := false, sht := false, trav := { q.trav with plane := !q.trav.plane, cursor := 0, lpc := 0 } } := by
  simp only [State.flip, hpart, hswp, hshi, hsht, Bool.and_self, Bool.not_true, Bool.false_eq_true, if_false]
  exact (part_onCores _ (fun _ c => { c with store := { c.store with plane := !c.store.plane } }) _).trans
    ((part_onPart s p _).trans (by rw [hpart]; rfl))

theorem planeFlip_pending (hpart : s.part p = some q) (hgo : s.legsGo q = true)
    (hstate : q.trav.state = .done ∨ q.trav.state = .fin) (hswp : q.swp = true) (hshi : q.shi = true) (hsht : q.sht = true) :
    Happens (.planeFlip p) s ((s.flip p).evalLeg p) := by
  show execPlaneFlip p s = _
  simp only [execPlaneFlip, hpart]
  rw [if_pos ⟨hgo, hstate, hswp, hshi, hsht⟩]

/-! ### The start of a leg (R14, R292, R295, R301) -/

theorem part_writeTrace (t : Trav) (l : LegW) : (s.writeTrace p t l).part p = s.part p := by
  unfold State.writeTrace
  dsimp only
  split_ifs <;> rfl

theorem run_starts {l : LegW} (hpart : s.part p = some q) (hcur : q.trav.cur = some l) (hlive : q.live = true)
    (hstate : q.trav.state = .ready) :
    Happens (.run p) s ((s.tiles p).foldl (fun s n => s.onCore n fun c => c.startLeg l.entry q.trav)
      ((s.writeTrace p q.trav l).onTrav (.part p) fun t => t.startLeg l)) := by
  have htiles : ((s.writeTrace p q.trav l).onTrav (.part p) fun t => t.startLeg l).tiles p = s.tiles p := by
    refine tiles_congr ?_
    rw [part_onTrav (by rw [part_writeTrace, hpart]), hpart]
    rfl
  show execRun p s = _
  simp only [execRun, hpart, hcur, hlive, hstate, Bool.not_true, Bool.false_eq_true, ne_eq, not_true_eq_false, or_self, if_false,
    htiles]

/-! ### The end of a leg (R289, R296) -/

/-- The ring's queues are all that cells change. -/
theorem queueCells_eq (l : List (Nat × RCell)) (s : State) : ∃ ds, s.queueCells l = { s with dies := ds } := by
  unfold State.queueCells
  induction l generalizing s with
  | nil => exact ⟨_, rfl⟩
  | cons e l ih =>
    obtain ⟨ds, h⟩ := ih ([false, true].foldl (fun s w =>
      let m := ringPart e.2.sdie.toNat w e.2.dstr
      if m = 0 then s
      else s.onDie e.2.sdie.toNat fun d => { d with
        station := d.station.queue w (BitVec.ofNat 3 e.1) { e.2 with dstr := m, dstr0 := m } }) s)
    refine ⟨ds, h.trans ?_⟩
    simp only [List.foldl_cons, List.foldl_nil]
    split_ifs <;> rfl

theorem part_queueCells (l : List (Nat × RCell)) (s : State) : (s.queueCells l).part p = s.part p := by
  obtain ⟨ds, h⟩ := queueCells_eq l s
  rw [h]; rfl

theorem part_viaRing (r : BitVec 6) (at' : Nat × Nat) (ret : Bool) (bs : List Byte) :
    (s.viaRing r at' ret bs).1.part p = s.part p := by
  unfold State.viaRing
  dsimp only
  split_ifs
  · rfl
  · exact part_queueCells _ _

/-- A traverse with other queues: what it sends over groups, and what has come for it. -/
def withQueues (t : Trav) (o : List TOut) (a : List TMsg) : Trav := { t with out := o, arriving := a }

/-- The partition `p` of `s'` is that of `s` but for the queues of its traverse. -/
def KeepsLegs (p : BitVec 6) (s s' : State) : Prop :=
  ∀ q, s.part p = some q → ∃ o a, s'.part p = some { q with trav := withQueues q.trav o a }

theorem KeepsLegs.of_part_eq {s s' : State} (h : s'.part p = s.part p) : KeepsLegs p s s' :=
  fun q hq => ⟨q.trav.out, q.trav.arriving, h.trans hq⟩

theorem KeepsLegs.refl (p : BitVec 6) (s : State) : KeepsLegs p s s := KeepsLegs.of_part_eq rfl

theorem KeepsLegs.trans {s1 s2 s3 : State} (h : KeepsLegs p s1 s2) (h' : KeepsLegs p s2 s3) : KeepsLegs p s1 s3 := by
  intro q hq
  obtain ⟨o, a, h2⟩ := h q hq
  obtain ⟨o', a', h3⟩ := h' _ h2
  exact ⟨o', a', h3⟩

/-- A change of a traverse's queues, wherever it is held. -/
theorem keepsLegs_onTrav (s : State) (l : TLoc) (o : Trav → List TOut) (a : Trav → List TMsg) :
    KeepsLegs p s (s.onTrav l fun t => withQueues t (o t) (a t)) := by
  cases l with
  | ctx i => exact KeepsLegs.of_part_eq rfl
  | part r =>
    by_cases hr : p = r
    · subst hr
      exact fun q hq => ⟨_, _, part_onTrav hq _⟩
    · exact KeepsLegs.of_part_eq (part_onPart_ne s hr _)

theorem keepsLegs_sendTo (s : State) (r : BitVec 6) (t : Trav) (up ret : Bool) (bs : List Byte) :
    KeepsLegs p s (s.sendTo r t up ret bs) := by
  have hring : ∀ at', KeepsLegs p s (s.viaRing r at' ret bs).1 := fun at' => KeepsLegs.of_part_eq (part_viaRing r at' ret bs)
  unfold State.sendTo
  by_cases hfar : t.isFar up = true
  · rw [if_pos hfar]
    by_cases hgone : (if up then t.upGone else t.dnGone) = true
    · rw [if_pos hgone]
      exact KeepsLegs.refl p s
    · rw [if_neg hgone]
      exact (hring _).trans (keepsLegs_onTrav _ _ _ Trav.arriving)
  · rw [if_neg hfar]
    split
    · exact KeepsLegs.refl p s
    · exact (hring _).trans (keepsLegs_onTrav _ _ Trav.out _)

/-- The traverse of a leg that is done (R289, R296). -/
def finished (t : Trav) (l : LegW) (cyc : W64) (drops : Nat) : Trav :=
  { (t.stashed l).move l with state := .done, doneCyc := cyc, drop := t.drop + drops }

theorem done_happens {l : LegW} (hpart : s.part p = some q) (hcur : q.trav.cur = some l) (hlive : q.live = true)
    (hstate : q.trav.state = .run) (htiles : ∀ n ∈ s.tiles p, s.tileDone n = true)
    (hroom : s.sendRoom p (s.doneSends p q.trav l) = true) :
    ∃ x r o a, Happens (.done p) s x ∧ x.part p = some r ∧
      r.trav = finished (withQueues q.trav o a) l (s.core (s.anchor p)).spec.cyc (s.untaken p) := by
  have hall : (s.tiles p).all s.tileDone = true := List.all_eq_true.mpr htiles
  have hexec : exec (.done p) s = execDone p s := rfl
  simp only [Happens, hexec, execDone, hpart, hcur, hlive, hstate, hall, hroom, Bool.not_true, Bool.false_eq_true, ne_eq,
    not_true_eq_false, or_self, if_false]
  generalize hsent : (if l.out && !q.trav.early then s.sendTo p q.trav l.back false (s.readBox p q.trav l) else s) = s1
  have h1 : KeepsLegs p s s1 := by
    subst hsent
    split
    · exact keepsLegs_sendTo s _ _ _ _ _
    · exact KeepsLegs.refl p s
  have h2 : KeepsLegs p s (if l.ret then s1.sendTo p q.trav (!l.back) true [] else s1) := by
    split
    · exact h1.trans (keepsLegs_sendTo s1 _ _ _ _ _)
    · exact h1
  obtain ⟨o, a, hkept⟩ := h2 q hpart
  refine ⟨_, { q with trav := finished (withQueues q.trav o a) l (s.core (s.anchor p)).spec.cyc (s.untaken p) }, o, a, rfl,
    ?_, rfl⟩
  rw [part_onCores _ fun s => s.keepFar q, part_onTrav hkept]
  rfl

theorem finished_state (t : Trav) (l : LegW) (cyc : W64) (k : Nat) : (finished t l cyc k).state = .done := rfl

theorem finished_doneCyc (t : Trav) (l : LegW) (cyc : W64) (k : Nat) : (finished t l cyc k).doneCyc = cyc := rfl

theorem move_stash (t : Trav) (l : LegW) : (t.move l).stash = t.stash := by
  unfold Trav.move
  split_ifs <;> rfl

theorem finished_stash (t : Trav) (l : LegW) (cyc : W64) (k : Nat) : (finished t l cyc k).stash =
    (if l.pop then (if l.push then t.stash ++ [t.mbOf l] else t.stash).drop 1
      else if l.push then t.stash ++ [t.mbOf l] else t.stash) := by
  show ((t.stashed l).move l).stash = _
  rw [move_stash]
  unfold Trav.stashed
  split_ifs <;> rfl

theorem stashed_cursor (t : Trav) (l : LegW) : (t.stashed l).cursor = t.cursor ∧ (t.stashed l).lpc = t.lpc := by
  unfold Trav.stashed
  split_ifs <;> exact ⟨rfl, rfl⟩

/-- Where the cursor stands after a leg, and the loop count (R289). -/
theorem move_cursor (t : Trav) (l : LegW) :
    (l.rep = 0 → (t.move l).cursor = t.cursor + 1 ∧ (t.move l).lpc = t.lpc) ∧
    (l.rep ≠ 0 → t.lpc < l.rep → (t.move l).cursor = l.loopTo ∧ (t.move l).lpc = t.lpc + 1) ∧
    (l.rep ≠ 0 → l.rep ≤ t.lpc → (t.move l).cursor = t.cursor + 1 ∧ (t.move l).lpc = 0) := by
  unfold Trav.move
  refine ⟨fun h => ?_, fun h hlt => ?_, fun h hle => ?_⟩
  · rw [if_pos h]
    exact ⟨rfl, rfl⟩
  · rw [if_neg h, if_pos hlt]
    exact ⟨rfl, rfl⟩
  · rw [if_neg h, if_neg (Nat.not_lt.mpr hle)]
    exact ⟨rfl, rfl⟩

theorem finished_cursor (t : Trav) (l : LegW) (cyc : W64) (k : Nat) : let r := finished t l cyc k
    (l.rep = 0 → r.cursor = t.cursor + 1 ∧ r.lpc = t.lpc) ∧
    (l.rep ≠ 0 → t.lpc < l.rep → r.cursor = l.loopTo ∧ r.lpc = t.lpc + 1) ∧
    (l.rep ≠ 0 → l.rep ≤ t.lpc → r.cursor = t.cursor + 1 ∧ r.lpc = 0) := by
  obtain ⟨hcursor, hlpc⟩ := stashed_cursor t l
  rw [← hcursor, ← hlpc]
  exact move_cursor (t.stashed l) l

/-! ### Messages and slot returns (R292, R299) -/

variable {l : TLoc} {m : TMsg} {r : List TMsg}

theorem arrive_forward (bs : List Byte) {u : Trav} (htrav : s.trav l = some u) :
    (u.inf < u.fins → s.arrive l true bs = (s.inboxWrite l (u.fibase + 128 * u.wrf) bs).onTrav l fun t =>
      { t with inf := t.inf + 1, wrf := (t.wrf + 1) % t.fins }) ∧
    (u.fins ≤ u.inf → s.arrive l true bs = s.onTrav l fun t => { t with err := true, errc := 2 }) := by
  simp only [State.arrive, htrav, if_true]
  exact ⟨fun h => if_neg (Nat.not_le.mpr h), fun h => if_pos h⟩

theorem traverseMessage_near {fwd : Bool} (h : Head s p fwd false l m r) :
    (s.viaOut m.via = true → Happens (.traverseMessage p fwd none) s s) ∧
    (s.viaOut m.via = false → Happens (.traverseMessage p fwd none) s
      (((s.viaTake m.via).onTrav l fun t => { t with arriving := r }).arrive l fwd m.bytes)) := by
  obtain ⟨hitem, t, htrav, htake⟩ := h
  have hexec : exec (.traverseMessage p fwd none) s = execTraverseMessage p fwd none s := rfl
  simp only [Happens, hexec, execTraverseMessage, State.nearMessage, hitem, htrav, htake, Option.bind_some]
  exact ⟨fun hout => by rw [if_pos hout], fun hin => by rw [hin]; rfl⟩

theorem slotReturn_near {down : Bool} (h : Head s p (!down) true l m r) :
    (s.viaOut m.via = true → Happens (.slotReturn p down none) s s) ∧
    (s.viaOut m.via = false → Happens (.slotReturn p down none) s ((s.viaTake m.via).onTrav l fun t =>
      if down then { t with arriving := r, freedn := t.freedn + 1 }
      else { t with arriving := r, freeup := t.freeup + 1 })) := by
  obtain ⟨hitem, t, htrav, htake⟩ := h
  have hexec : exec (.slotReturn p down none) s = execSlotReturn p down none s := rfl
  simp only [Happens, hexec, execSlotReturn, State.nearReturn, hitem, htrav, htake, Option.bind_some]
  exact ⟨fun hout => by rw [if_pos hout], fun hin => by rw [hin]; rfl⟩

theorem fromFar_parts {u : Trav} {up : Bool} (h : s.fromFar u up = true) : u.isFar up = true ∧ s.ualOpen (u.carrier up) = true ∧
    if up then u.upMet = true ∧ u.upGone = false else u.dnMet = true ∧ u.dnGone = false := by
  simp only [State.fromFar, Trav.meets, Bool.and_eq_true] at h
  obtain ⟨⟨hfar, hmet⟩, hopen⟩ := h
  refine ⟨hfar, hopen, ?_⟩
  cases up <;> simpa using hmet

/-! ### Triggers (R231, R297) -/

/-- Where the leg that runs does not launch early, a trigger needs no room on the ring (R298). -/
theorem postRoom_of_late {t : Trav} (htrav : s.trav (.part p) = some t) (hlate : (t.cur.map LegW.early).getD false = false) :
    s.postRoom p = true := by
  simp only [State.postRoom, htrav]
  cases hcur : t.cur with
  | none => rfl
  | some l =>
    have hearly : l.early = false := by simpa [hcur] using hlate
    simp [hearly]

theorem triggerPost_counts {n : Nat} {r : Req} {b : List Byte} {a : Bool} (hpart : s.part p = some q) (hin : (s.core n).part = p)
    (hfind : (s.core n).eng.reqs.find? (fun r => match r.kind with | .trig .. => true | _ => false) = some r)
    (hkind : r.kind = .trig b a) (hready : s.trigReady (s.core n) r.id a = true)
    (hlate : (q.trav.cur.map LegW.early).getD false = false) :
    Happens (.triggerPost n) s ((s.onCore n fun c => c.dropReq r.id).onTrav (.part p) fun u =>
      { u with ntrig := u.ntrig + 1, box := if (s.core n).rank = 0 then (if a then s.boxNow (s.core n) else b) else u.box }) := by
  subst hin
  have hroom : s.postRoom (s.core n).part = true := postRoom_of_late (trav_of_part hpart) hlate
  have hkept : (s.onCore n fun c => c.dropReq r.id).part (s.core n).part = some q := by rw [part_onCore, hpart]
  show execTriggerPost n s = _
  simp only [execTriggerPost]
  split
  next h => exact nomatch h.symm.trans hfind
  next r' h =>
    obtain rfl : r' = r := Option.some.inj (h.symm.trans hfind)
    rw [hkind, if_neg (by cases a <;> simp [hready, hroom]), trav_of_part (part_onTrav hkept _)]
    dsimp only
    split
    next => rfl
    next l hcur =>
      have hearly : l.early = false := by
        rw [show q.trav.cur = some l from hcur] at hlate
        exact hlate
      rw [hearly]
      rfl

end

/-- Settles O46, clause by clause: each event by what it does to the traverse it finds, the end of a leg by the traverse
that sends leave to it. -/
theorem legsOfTheTraverse : Obligations.LegsOfTheTraverse := by
  intro s p q hpart t
  refine ⟨legEvaluation_waits hpart, ?_, ?_, ?_, ?_, ?_, ?_, flip_unready hpart, ?_, ?_, ?_, ?_, ?_, ?_, ?_, ?_, ?_, rfl⟩
  · intro hgo hstate l u htrav
    obtain ⟨hnext, hend⟩ := legEvaluation_done hpart hgo hstate htrav
    exact ⟨hnext l, hend⟩
  · intro l hcur
    exact ⟨evalLeg_eq hpart hcur, unmetOf_bits s p t l⟩
  · intro l hcur hlive hstate
    exact run_starts hpart hcur hlive hstate
  · intro c a
    exact ⟨rfl, rfl, rfl, rfl, rfl, rfl, rfl, rfl, rfl, rfl, rfl⟩
  · intro l hcur hlive hstate htiles hroom
    obtain ⟨x, r, o, a, hx, hr, htrav⟩ := done_happens hpart hcur hlive hstate htiles hroom
    refine ⟨x, r, hx, hr, ?_⟩
    rw [htrav]
    exact ⟨rfl, rfl, finished_stash _ _ _ _, finished_cursor _ _ _ _⟩
  · intro hgo hstate hswp hshi hsht
    exact ⟨planeFlip_pending hpart hgo hstate hswp hshi hsht, part_flip hpart hswp hshi hsht⟩
  · intro fwd l m r h
    exact traverseMessage_near h
  · intro fwd l f u hfind htrav
    show execTraverseMessage p fwd (some f) s = _
    simp only [execTraverseMessage, hfind, Option.bind_some, htrav]
  · intro fwd f hfind
    show execTraverseMessage p fwd (some f) s = _
    simp only [execTraverseMessage, hfind, Option.bind_none]
  · intro u up h
    exact fromFar_parts h
  · intro l bs u htrav
    exact arrive_forward bs htrav
  · intro down l m r h
    exact slotReturn_near h
  · intro down l f u hfind htrav
    show execSlotReturn p down (some f) s = _
    simp only [execSlotReturn, hfind, Option.bind_some, htrav]
  · intro down f hfind
    show execSlotReturn p down (some f) s = _
    simp only [execSlotReturn, hfind, Option.bind_none]
  · intro n r b a hin hfind hkind hready hlate
    exact triggerPost_counts hpart hin hfind hkind hready hlate

end Sys2Proof.Proofs
end

section
/-! PROOFS. The commands of the mailbox (R12, R13, R99, R115, R120, R344 to R347, R356). -/

namespace Sys2Proof.Proofs

open Sys2Proof Sys2Proof.Machine Sys2Proof.Claims

/-! ### A command meets the steward (R344, R349) -/

section
variable {s : State} {b : Doorbell} {cmd len arg : Nat} {bad : Bool} {k : State → State}

theorem taken_eq (s : State) (b : Doorbell) (cmd len arg : Nat) : (s.onHost fun h => { h with
    mbxseq := b.seq, mbox := memWrite h.mbox 0 (commandBytes b cmd len arg) }) = taken s b cmd len arg := rfl

theorem taken_fw (s : State) (b : Doorbell) (cmd len arg : Nat) : (taken s b cmd len arg).host.fw = s.host.fw := by
  simp only [taken, State.onHost_host]

theorem taken_task (s : State) (b : Doorbell) (cmd len arg : Nat) : (taken s b cmd len arg).host.task = s.host.task := by
  simp only [taken, State.onHost_host]

/-- What the steward does with a command that reaches it. -/
theorem serve_open (hopen : s.mailboxOpen = true) : s.serve b cmd len arg bad k =
    let u := taken s b cmd len arg
    if s.host.fw = .evicting then u.answer b.seq stEvicting []
    else if s.host.task ≠ .none then u.answer b.seq stBusy []
    else if s.host.fw = .recovery then u.answer b.seq stRefused []
    else if bad ∨ 2 ^ 31 < len then u.answer b.seq stFormat []
    else k u := by
  simp only [State.serve, hopen, Bool.not_true, Bool.false_eq_true, if_false, taken_eq, taken_fw, taken_task]

theorem serve_closed (hclosed : s.mailboxOpen = false) : s.serve b cmd len arg bad k = s := by
  rw [State.serve, hclosed]
  rfl

theorem serve_bad (h : Served s) (hbad : bad = true ∨ 2 ^ 31 < len) :
    s.serve b cmd len arg bad k = (taken s b cmd len arg).answer b.seq 2 [] := by
  obtain ⟨hopen, hevict, hrec, htask⟩ := h
  rw [serve_open hopen]
  dsimp only
  rw [if_neg hevict, if_neg (not_not.mpr htask), if_neg hrec, if_pos hbad]
  rfl

theorem serve_good (h : Served s) (hbad : bad = false) (hlen : len ≤ 2 ^ 31) :
    s.serve b cmd len arg bad k = k (taken s b cmd len arg) := by
  obtain ⟨hopen, hevict, hrec, htask⟩ := h
  rw [serve_open hopen]
  dsimp only
  rw [if_neg hevict, if_neg (not_not.mpr htask), if_neg hrec, if_neg]
  simp only [hbad, Bool.false_eq_true, false_or]
  omega

theorem argBad_zero (b : Doorbell) : argBad b 0 = decide (b.arg ≠ 0) := by
  simp only [argBad, pow_zero, Nat.div_one, bne, beq_eq_decide, ne_eq, decide_not, BitVec.toNat_eq]
  rfl

theorem argBad_of_zero {b : Doorbell} (h : b.arg = 0) (n : Nat) : argBad b n = false := by
  simp [argBad, h]

theorem argWith_of_zero {b : Doorbell} (h : b.arg = 0) (n x : Nat) : argWith b n x = x := by
  simp [argWith, h]

end

/-! ### What the host's side does not change -/

section
variable (s : State) (b : Doorbell) (cmd len arg : Nat)

theorem taken_onHost : ∃ g, taken s b cmd len arg = s.onHost g := ⟨_, rfl⟩

theorem ctx_taken (i : BitVec 16) : (taken s b cmd len arg).ctx i = s.ctx i := by
  obtain ⟨g, h⟩ := taken_onHost s b cmd len arg
  rw [h]; rfl

theorem live_taken (i : BitVec 16) : (taken s b cmd len arg).live i = s.live i := by
  obtain ⟨g, h⟩ := taken_onHost s b cmd len arg
  rw [h]; rfl

theorem part_taken (p : BitVec 6) : (taken s b cmd len arg).part p = s.part p := by
  obtain ⟨g, h⟩ := taken_onHost s b cmd len arg
  rw [h]; rfl

theorem tiles_taken (p : BitVec 6) : (taken s b cmd len arg).tiles p = s.tiles p := by
  obtain ⟨g, h⟩ := taken_onHost s b cmd len arg
  rw [h]; rfl

theorem newId_taken : (taken s b cmd len arg).newId = s.newId := by
  obtain ⟨g, h⟩ := taken_onHost s b cmd len arg
  rw [h]; rfl

theorem clustersFree_taken (r : List Byte) : (taken s b cmd len arg).clustersFree r = s.clustersFree r := by
  obtain ⟨g, h⟩ := taken_onHost s b cmd len arg
  rw [h]; rfl

theorem groupSizeOk_taken (r : List Byte) : (taken s b cmd len arg).groupSizeOk r = s.groupSizeOk r := by
  obtain ⟨g, h⟩ := taken_onHost s b cmd len arg
  rw [h]; rfl

theorem evictable_taken (a : BitVec 10) : (taken s b cmd len arg).evictable a = s.evictable a := by
  obtain ⟨g, h⟩ := taken_onHost s b cmd len arg
  rw [h]; rfl

end

/-! ### LAUNCH (R346) -/

/-- LAUNCH from the state in which it is taken. -/
def launched (b : Doorbell) (r : List Byte) (s : State) : State :=
  let seq := b.seq
  if !launchOk r then s.answer seq stFormat []
  else if !recSigned r then s.answer seq stSignature []
  else
    match s.clustersFree r, s.newId with
    | true, some id =>
      match s.create r id with
      | .error k => s.answer seq k []
      | .ok t =>
        if field r 4 2 ≠ 0 ∧ !s.groupSizeOk r then s.answer seq stFormat []
        else
          let p : BitVec 6 := BitVec.ofNat 6 (field r 2 1)
          let t := t.onHost fun h => { h with ldig := Config.shake256 r 64 }
          let t := if field r 4 2 = 0 then t.evalLeg p else t
          t.answer seq stOk [(0x20, leBytes 2 id.toNat)]
    | _, _ => s.answer seq stResource []

theorem exec_launch (b : Doorbell) (r : List Byte) (s : State) :
    exec (.launch b r) s = .next (s.serve b 1 r.length b.arg.toNat (argBad b 0) (launched b r)) := by
  show execLaunch b r s = _
  unfold execLaunch launched
  rfl

section
variable {s u : State} {b : Doorbell} {r : List Byte}

theorem launched_format (hok : launchOk r = false) : launched b r u = u.answer b.seq 2 [] := by
  simp only [launched, hok, Bool.not_false, if_true, stFormat]

theorem launched_signature (hok : launchOk r = true) (hsigned : recSigned r = false) :
    launched b r u = u.answer b.seq 3 [] := by
  simp only [launched, hok, hsigned, Bool.not_true, Bool.false_eq_true, if_false, Bool.not_false, if_true, stSignature]

variable (hok : launchOk r = true) (hsigned : recSigned r = true)
include hok hsigned

theorem launched_resource (hfree : u.clustersFree r = false) : launched b r u = u.answer b.seq 4 [] := by
  simp only [launched, hok, hsigned, hfree, Bool.not_true, Bool.false_eq_true, if_false, stResource]

variable {id : BitVec 16} (hfree : u.clustersFree r = true) (hid : u.newId = some id)
include hfree hid

theorem launched_error {k : Nat} (hcreate : u.create r id = .error k) : launched b r u = u.answer b.seq k [] := by
  simp only [launched, hok, hsigned, hfree, hid, hcreate, Bool.not_true, Bool.false_eq_true, if_false]

theorem launched_created {t : State} (hcreate : u.create r id = .ok t) :
    let v := t.onHost fun h => { h with ldig := Config.shake256 r 64 }
    (field r 4 2 ≠ 0 → u.groupSizeOk r = false → launched b r u = u.answer b.seq 2 []) ∧
    (field r 4 2 ≠ 0 → u.groupSizeOk r = true → launched b r u = v.answer b.seq 0 [(0x20, leBytes 2 id.toNat)]) ∧
    (field r 4 2 = 0 → launched b r u =
      (v.evalLeg (BitVec.ofNat 6 (field r 2 1))).answer b.seq 0 [(0x20, leBytes 2 id.toNat)]) := by
  simp only [launched, hok, hsigned, hfree, hid, hcreate, Bool.not_true, Bool.false_eq_true, if_false]
  refine ⟨fun hgroup hsize => ?_, fun hgroup hsize => ?_, fun hgroup => ?_⟩
  · rw [if_pos ⟨hgroup, by rw [hsize]; rfl⟩]; rfl
  · rw [if_neg fun h => by simp [hsize] at h, if_neg hgroup]; rfl
  · rw [if_neg fun h => h.1 hgroup, if_pos hgroup]; rfl

end

/-! ### The other commands (R99, R115, R120, R347, R356) -/

section
variable {s : State} {b : Doorbell} {i : BitVec 16} {r : List Byte} (hserved : Served s) (harg : b.arg = 0)

section
variable (hlen : b.len = 0)
include harg hlen

theorem fieldsClear (n : Nat) : (argBad b n || b.len != 0) = false := by
  simp [argBad_of_zero harg, hlen]

include hserved

theorem preempt_served : exec (.preempt b i) s = .next (let u := taken s b 4 0 i.toNat
    match s.live i with
    | none => u.answer b.seq 8 []
    | some x => if x.state = .running then (u.drive x).setTask (.preempt b.seq i) else u.answer b.seq 7 []) := by
  show execPreempt b i s = _
  simp only [execPreempt]
  rw [serve_good hserved (fieldsClear harg hlen 16) (by simp [hlen]), argWith_of_zero harg, live_taken, hlen]
  rfl

theorem endContext_served : exec (.endContext b i) s = .next (let u := taken s b 6 0 i.toNat
    match s.live i with
    | none => u.answer b.seq 8 []
    | some x => if x.state = .running then (u.drive x).setTask (.finish b.seq i) else (u.endCtx x).answer b.seq 0 []) := by
  show execEndContext b i s = _
  simp only [execEndContext]
  rw [serve_good hserved (fieldsClear harg hlen 16) (by simp [hlen]), argWith_of_zero harg, live_taken, hlen]
  rfl

theorem evict_served (a : BitVec 10) (y : Bool) : exec (.evict b a y) s = .next (let u := taken s b 3 0 a.toNat
    if s.evictable a = false ∨ y = false then u.answer b.seq 7 []
    else ((u.onHost fun h => { h with fw := .evicting }).setTask (.evict b.seq 1)).evictAll) := by
  have htask : s.host.task = .none := hserved.2.2.2
  show execEvict b a y s = _
  simp only [execEvict, htask]
  rw [serve_good hserved (argBad_of_zero harg 10) (by simp [hlen]), argWith_of_zero harg, evictable_taken, hlen]
  simp only [Bool.not_eq_true']
  rfl

end

include hserved harg

theorem resume_served (hr : r.length ≤ 2 ^ 31) : exec (.resume b i r) s = .next (let u := taken s b 5 r.length i.toNat
    let p : BitVec 6 := BitVec.ofNat 6 (field r 0 1)
    let m : BitVec 64 := BitVec.ofNat 64 (field r 8 8)
    match s.live i with
    | none => u.answer b.seq 8 []
    | some x =>
      if r.length ≠ 16 ∨ 64 ≤ field r 0 1 ∨ field r 1 7 ≠ 0 then u.answer b.seq 2 []
      else
        match u.resumeBad x p m with
        | some k => u.answer b.seq k []
        | none => u.resumeOn b.seq x p m) := by
  show execResume b i r s = _
  simp only [execResume]
  rw [serve_good hserved (argBad_of_zero harg 16) hr, argWith_of_zero harg, live_taken]
  rfl

theorem status_served {n : BitVec 32} (hn : n.toNat ≤ 2 ^ 31) (a : W64) : exec (.status b i a n) s = .next (
    let u := taken s { b with addr := a } 7 n.toNat i.toNat
    match s.ctx i with
    | none => u.answer b.seq 8 []
    | some x => (u.onHost fun h => { h with
        dump := h.dump ++ if 2048 * (4 * x.ncl) ≤ n.toNat then [(a, x.records)] else [] }).answer b.seq 0
          [(0x20, u.statusBytes x)]) := by
  show execStatus b i a n s = _
  simp only [execStatus]
  rw [serve_good hserved (argBad_of_zero harg 16) hn, argWith_of_zero harg, ctx_taken]
  rfl

omit harg in
theorem reload_served (a : BitVec 32) (hr : r.length ≤ 2 ^ 31) : exec (.reload b a r) s = .next (
    let u := taken s b 8 r.length a.toNat
    match s.live (a.setWidth 16) with
    | none => u.answer b.seq 8 []
    | some x =>
      match s.part x.part with
      | none => u.answer b.seq 8 []
      | some q =>
        if q.ctx ≠ x.id ∨ (x.state ≠ .running ∧ x.state ≠ .halted) then u.answer b.seq 8 []
        else if a.extractLsb' 17 15 != 0 ∨ !headerOk r ∨ field r 2 1 ≠ x.part.toNat ∨
            !reloadSecs r q (s.tiles x.part).length then u.answer b.seq 2 []
        else if !recSigned r then u.answer b.seq 3 []
        else
          match u.reloadSeq x q.mask r with
          | none => u.answer b.seq 4 []
          | some t =>
            let f := t.fillShadow x.part r
            (if a.getLsbD 16 ∧ f.2 then f.1.onPart x.part fun q => { q with swp := true } else f.1).answer b.seq
              (if f.2 then 0 else 2) []) := by
  show execReload b a r s = _
  simp only [execReload]
  rw [serve_good hserved rfl hr, live_taken]
  simp only [part_taken, tiles_taken]
  rfl

end

/-! ### Launch groups and evictions (R346, R356) -/

section
variable {s : State}

theorem launchGroupRelease_cases (s : State) (g : BitVec 16) {x : Ctx} {k : List Ctx}
    (hl : (s.ctxs.filter fun c => c.state == .waiting && c.lgrp == g && g != 0) = x :: k)
    (hlive : ∀ y ∈ x :: k, y.lgdead = false) :
    ((x :: k).length < x.lgsz → Happens (.launchGroupRelease g) s s) ∧
    (x.lgsz ≤ (x :: k).length → Happens (.launchGroupRelease g) s
      (((x :: k).take x.lgsz).foldl (fun s c => (s.onCtx c.id fun y => { y with state := .running }).evalLeg c.part) s)) := by
  have hdead : (x :: k).any (fun c => c.lgdead) = false := by
    rw [List.any_eq_false]
    exact fun y hy => by simp [hlive y hy]
  have hexec : exec (.launchGroupRelease g) s = execLaunchGroupRelease g s := rfl
  simp only [Happens, hexec, execLaunchGroupRelease, hl, hdead, List.isEmpty_cons, List.head?_cons, Option.map_some,
    Option.getD_some, Bool.false_eq_true, false_or]
  exact ⟨fun h => by rw [if_pos h], fun h => by rw [if_neg (Nat.not_lt.mpr h)]⟩

theorem part_drive (x : Ctx) (p : BitVec 6) :
    (s.drive x).part p = if p = x.part then (s.part p).map fun q => { q with halt := true, haltPre := !q.halt || q.haltPre }
      else s.part p := by
  split_ifs with h
  · subst h; exact part_onPart s x.part _
  · exact part_onPart_ne s h _

/-- A halt line that is driven stays driven while the others are (R106). -/
theorem drive_keepsHalt (x : Ctx) {p : BitVec 6} (h : ∃ q, s.part p = some q ∧ q.halt = true) :
    ∃ q, (s.drive x).part p = some q ∧ q.halt = true := by
  obtain ⟨q, hq, hhalt⟩ := h
  rw [part_drive, hq]
  split_ifs
  · exact ⟨_, rfl, rfl⟩
  · exact ⟨q, rfl, hhalt⟩

theorem drives_keepHalt (l : List Ctx) {p : BitVec 6} (s : State) (h : ∃ q, s.part p = some q ∧ q.halt = true) :
    ∃ q, (l.foldl (fun s c => s.drive c) s).part p = some q ∧ q.halt = true := by
  induction l generalizing s with
  | nil => exact h
  | cons c l ih => exact ih _ (drive_keepsHalt c h)

theorem drives_halt (l : List Ctx) {x : Ctx} (hx : x ∈ l) (s : State) (h : ∃ q, s.part x.part = some q) :
    ∃ q, (l.foldl (fun s c => s.drive c) s).part x.part = some q ∧ q.halt = true := by
  induction l generalizing s with
  | nil => exact absurd hx List.not_mem_nil
  | cons c l ih =>
    obtain ⟨q, hq⟩ := h
    rw [List.foldl_cons]
    rcases List.mem_cons.mp hx with rfl | hx
    · refine drives_keepHalt l _ ?_
      rw [part_drive, if_pos rfl, hq]
      exact ⟨_, rfl, rfl⟩
    · refine ih hx _ ?_
      rw [part_drive, hq]
      split_ifs <;> exact ⟨_, rfl⟩

/-- Every running context of a partition is driven to a stop (R356 step 1). -/
theorem evictAll_halts {x : Ctx} {q : Part} (hx : x ∈ s.ctxs) (hrun : x.state = .running) (hpart : s.part x.part = some q) :
    ∃ r, s.evictAll.part x.part = some r ∧ r.halt = true :=
  drives_halt _ (List.mem_filter.mpr ⟨hx, by rw [hrun]; rfl⟩) s ⟨q, hpart⟩

/-- The groups are all that a GO changes (R334). -/
theorem pgGo_eq (s : State) (g : Nat) (v : W64) : ∃ gs, s.pgGo g v = { s with groups := gs } := by
  unfold State.pgGo
  split_ifs
  · exact ⟨_, rfl⟩
  · generalize s.goTeam g v = l
    suffices h : ∀ (m : List Nat) (t : State),
        ∃ gs, m.foldl (fun t k => t.onGroup k fun x => x.go l v) t = { t with groups := gs } from h l s
    intro m
    induction m with
    | nil => exact fun t => ⟨t.groups, rfl⟩
    | cons k m ih =>
      intro t
      obtain ⟨gs, h⟩ := ih (t.onGroup k fun x => x.go l v)
      exact ⟨gs, h⟩

theorem allToNone_eq (s : State) : ∃ gs, s.allToNone = { s with groups := gs } := by
  unfold State.allToNone
  generalize List.range 24 = l
  induction l generalizing s with
  | nil => exact ⟨s.groups, rfl⟩
  | cons g l ih =>
    rw [List.foldl_cons]
    split_ifs
    · obtain ⟨gs, h⟩ := pgGo_eq s g 192
      obtain ⟨gs', h'⟩ := ih (s.pgGo g 192)
      exact ⟨gs', by rw [h', h]⟩
    · exact ih s

/-- What is sent away is gone from the module (R356 step 3). -/
theorem sentAway_fields (s : State) : s.sentAway.ctxs = [] ∧ s.sentAway.parts = [] ∧ s.sentAway.host = s.host := by
  unfold State.sentAway
  obtain ⟨gs, h⟩ := allToNone_eq { s with
    ctxs := [], parts := [], rwins := [], cgroups := [], cruns := [], farBinds := [], farGone := []
    dies := s.dies.map fun (d : Die) => ({ d with rounds := [], mig := [], tlb := [] } : Die)
    ring := { s.ring with rsvm := Vector.replicate 128 0 } }
  dsimp only
  rw [h]
  exact ⟨rfl, rfl, rfl⟩

theorem quietModule_iff (s : State) : s.quietModule = true ↔ s.ring.slots = [] ∧ ∀ x ∈ s.groups, x.state = .off := by
  simp [State.quietModule]

variable {b : Doorbell} {a : BitVec 10}

theorem evict_step1 (htask : s.host.task = .evict b.seq 1) (y : Bool) : exec (.evict b a y) s = .next
    (if s.ctxs.any fun c => c.state == .running then s.evictAll else s.allOut.setTask (.evict b.seq 2)) := by
  show execEvict b a y s = _
  simp [execEvict, htask]

theorem evict_step2 (htask : s.host.task = .evict b.seq 2) (y : Bool) : exec (.evict b a y) s = .next
    (if y then s.sendAll.sentAway.setTask (.evict b.seq 3)
      else ((s.onHost fun h => { h with fw := .running }).setTask .none).answer b.seq 7 []) := by
  show execEvict b a y s = _
  simp [execEvict, htask, stRefused]

theorem evict_step3 (htask : s.host.task = .evict b.seq 3) (y : Bool) : exec (.evict b a y) s = .next
    (if s.quietModule then ((s.onHost fun h => { h with fw := .unlatched, ulperm := true }).setTask .none).answer b.seq 0 []
      else s.allToNone) := by
  show execEvict b a y s = _
  simp [execEvict, htask, stOk]

end

/-! ### The obligation, by its parts -/

section
variable {s : State} {b : Doorbell} {r : List Byte}

theorem happens_of_exec {i : Instr} {s t u : State} (h : exec i s = .next t) (htu : t = u) : Happens i s u := htu ▸ h

/-- What LAUNCH is answered before it is served (R344, R349, R356). -/
theorem launch_unserved (hopen : s.mailboxOpen = true) : let u := taken s b 1 r.length b.arg.toNat
    (s.host.fw = .evicting → Answers (.launch b r) s u b.seq 6) ∧
    (s.host.fw ≠ .evicting → s.host.task ≠ .none → Answers (.launch b r) s u b.seq 1) ∧
    (s.host.fw = .recovery → s.host.task = .none → Answers (.launch b r) s u b.seq 7) ∧
    (Served s → (b.arg ≠ 0 ∨ 2 ^ 31 < r.length) → Answers (.launch b r) s u b.seq 2) := by
  refine ⟨fun hevict => ?_, fun hevict htask => ?_, fun hrec htask => ?_, fun hserved hbad => ?_⟩
  · refine happens_of_exec (exec_launch b r s) ?_
    rw [serve_open hopen]
    exact if_pos hevict
  · refine happens_of_exec (exec_launch b r s) ?_
    rw [serve_open hopen]
    exact (if_neg hevict).trans (if_pos htask)
  · refine happens_of_exec (exec_launch b r s) ?_
    rw [serve_open hopen]
    exact (if_neg (by rw [hrec]; decide)).trans ((if_neg (not_not.mpr htask)).trans (if_pos hrec))
  · refine happens_of_exec (exec_launch b r s) (serve_bad hserved ?_)
    rwa [argBad_zero, decide_eq_true_iff]

/-- A mailbox that cannot be reached takes no command (R328, R344). -/
theorem closed_takesNothing (hclosed : s.mailboxOpen = false) (b : Doorbell) (r : List Byte) (i : BitVec 16) (a : BitVec 32) :
    Happens (.launch b r) s s ∧ Happens (.preempt b i) s s ∧ Happens (.resume b i r) s s ∧ Happens (.endContext b i) s s ∧
    Happens (.reload b a r) s s :=
  ⟨congrArg Host.Outcome.next (serve_closed hclosed), congrArg Host.Outcome.next (serve_closed hclosed),
    congrArg Host.Outcome.next (serve_closed hclosed), congrArg Host.Outcome.next (serve_closed hclosed),
    congrArg Host.Outcome.next (serve_closed hclosed)⟩

variable (hserved : Served s) (harg : b.arg = 0)
include hserved harg

/-- A served LAUNCH, by its first check that fails (R346). -/
theorem launch_served (hr : r.length ≤ 2 ^ 31) : let u := taken s b 1 r.length 0
    (launchOk r = false → Answers (.launch b r) s u b.seq 2) ∧
    (launchOk r = true → recSigned r = false → Answers (.launch b r) s u b.seq 3) ∧
    (launchOk r = true → recSigned r = true → s.clustersFree r = false → Answers (.launch b r) s u b.seq 4) ∧
    (∀ id, launchOk r = true → recSigned r = true → s.clustersFree r = true → s.newId = some id →
      (∀ k, u.create r id = .error k → Answers (.launch b r) s u b.seq k) ∧
      ∀ t, u.create r id = .ok t →
        let v := t.onHost fun h => { h with ldig := Config.shake256 r 64 }
        (field r 4 2 ≠ 0 → s.groupSizeOk r = false → Answers (.launch b r) s u b.seq 2) ∧
        (field r 4 2 ≠ 0 → s.groupSizeOk r = true → Happens (.launch b r) s (v.answer b.seq 0 [(0x20, leBytes 2 id.toNat)])) ∧
        (field r 4 2 = 0 → Happens (.launch b r) s
          ((v.evalLeg (BitVec.ofNat 6 (field r 2 1))).answer b.seq 0 [(0x20, leBytes 2 id.toNat)]))) := by
  intro u
  have hexec : exec (.launch b r) s = .next (launched b r u) := by
    rw [exec_launch, serve_good hserved (argBad_of_zero harg 0) hr, harg]
    rfl
  refine ⟨fun hok => happens_of_exec hexec (launched_format hok),
    fun hok hsigned => happens_of_exec hexec (launched_signature hok hsigned), fun hok hsigned hfree => ?_,
    fun id hok hsigned hfree hid => ?_⟩
  · rw [← clustersFree_taken s b 1 r.length 0 r] at hfree
    exact happens_of_exec hexec (launched_resource hok hsigned hfree)
  · rw [← clustersFree_taken s b 1 r.length 0 r] at hfree
    rw [← newId_taken s b 1 r.length 0] at hid
    rw [← groupSizeOk_taken s b 1 r.length 0 r]
    refine ⟨fun k hcreate => happens_of_exec hexec (launched_error hok hsigned hfree hid hcreate), fun t hcreate => ?_⟩
    obtain ⟨hsize, hgroup, halone⟩ := launched_created hok hsigned hfree hid hcreate
    exact ⟨fun h h' => happens_of_exec hexec (hsize h h'), fun h h' => happens_of_exec hexec (hgroup h h'),
      fun h => happens_of_exec hexec (halone h)⟩

theorem evict_refusedOrBegun (hlen : b.len = 0) (a : BitVec 10) : let q := taken s b 3 0 a.toNat
    (s.evictable a = false → ∀ y, Answers (.evict b a y) s q b.seq 7) ∧
    (s.evictable a = true → Answers (.evict b a false) s q b.seq 7 ∧ Happens (.evict b a true) s
      (((q.onHost fun h => { h with fw := .evicting }).setTask (.evict b.seq 1)).evictAll)) := by
  refine ⟨fun hno y => happens_of_exec (evict_served hserved harg hlen a y) (if_pos (.inl hno)), fun hyes =>
    ⟨happens_of_exec (evict_served hserved harg hlen a false) (if_pos (.inr rfl)),
      happens_of_exec (evict_served hserved harg hlen a true) (if_neg ?_)⟩⟩
  simp [hyes]

variable {i : BitVec 16}

theorem unknown_commands (hlen : b.len = 0) (hr : r.length ≤ 2 ^ 31) (hnone : s.live i = none) :
    Answers (.preempt b i) s (taken s b 4 0 i.toNat) b.seq 8 ∧ Answers (.resume b i r) s (taken s b 5 r.length i.toNat) b.seq 8 ∧
    Answers (.endContext b i) s (taken s b 6 0 i.toNat) b.seq 8 ∧
    ∀ a : BitVec 32, a.setWidth 16 = i → Answers (.reload b a r) s (taken s b 8 r.length a.toNat) b.seq 8 := by
  refine ⟨happens_of_exec (preempt_served hserved harg hlen) ?_, happens_of_exec (resume_served hserved harg hr) ?_,
    happens_of_exec (endContext_served hserved harg hlen) ?_, fun a ha => happens_of_exec (reload_served hserved a hr) ?_⟩
  · rw [hnone]
  · rw [hnone]
  · rw [hnone]
  · rw [ha, hnone]

theorem status_cases (a : W64) {n : BitVec 32} (hn : n.toNat ≤ 2 ^ 31) : let q := taken s { b with addr := a } 7 n.toNat i.toNat
    (s.ctx i = none → Answers (.status b i a n) s q b.seq 8) ∧
    ∀ x, s.ctx i = some x → Happens (.status b i a n) s ((q.onHost fun h => { h with
      dump := h.dump ++ if 2048 * (4 * x.ncl) ≤ n.toNat then [(a, x.records)] else [] }).answer b.seq 0
        [(0x20, q.statusBytes x)]) := by
  refine ⟨fun hnone => happens_of_exec (status_served hserved harg hn a) ?_,
    fun x hx => happens_of_exec (status_served hserved harg hn a) ?_⟩
  · rw [hnone]
  · rw [hx]

theorem preempt_end_cases (hlen : b.len = 0) {x : Ctx} (hx : s.live i = some x) :
    (x.state = .running →
      Happens (.preempt b i) s (((taken s b 4 0 i.toNat).drive x).setTask (.preempt b.seq i)) ∧
      Happens (.endContext b i) s (((taken s b 6 0 i.toNat).drive x).setTask (.finish b.seq i))) ∧
    (x.state ≠ .running → Answers (.preempt b i) s (taken s b 4 0 i.toNat) b.seq 7 ∧
      Happens (.endContext b i) s (((taken s b 6 0 i.toNat).endCtx x).answer b.seq 0 [])) := by
  refine ⟨fun hrun => ⟨happens_of_exec (preempt_served hserved harg hlen) ?_,
    happens_of_exec (endContext_served hserved harg hlen) ?_⟩,
    fun hrun => ⟨happens_of_exec (preempt_served hserved harg hlen) ?_, happens_of_exec (endContext_served hserved harg hlen) ?_⟩⟩
  · rw [hx]; exact if_pos hrun
  · rw [hx]; exact if_pos hrun
  · rw [hx]; exact if_neg hrun
  · rw [hx]; exact if_neg hrun

theorem resume_cases {x : Ctx} (hx : s.live i = some x) (hr : r.length = 16) (hpart : field r 0 1 < 64) (hzero : field r 1 7 = 0) :
    let q := taken s b 5 16 i.toNat
    let p : BitVec 6 := BitVec.ofNat 6 (field r 0 1)
    let m : BitVec 64 := BitVec.ofNat 64 (field r 8 8)
    (∀ k, q.resumeBad x p m = some k → Answers (.resume b i r) s q b.seq k) ∧
    (q.resumeBad x p m = none → Happens (.resume b i r) s (q.resumeOn b.seq x p m)) := by
  intro q p m
  have hform : ¬ (r.length ≠ 16 ∨ 64 ≤ field r 0 1 ∨ field r 1 7 ≠ 0) := by omega
  have hexec : exec (.resume b i r) s = .next (match q.resumeBad x p m with
      | some k => q.answer b.seq k []
      | none => q.resumeOn b.seq x p m) := by
    rw [resume_served hserved harg (by rw [hr]; norm_num), hx]
    dsimp only
    rw [if_neg hform, hr]
  exact ⟨fun k h => happens_of_exec hexec (by rw [h]), fun h => happens_of_exec hexec (by rw [h])⟩

omit harg in
theorem reload_cases (hr : r.length ≤ 2 ^ 31) {a : BitVec 32} (ha : a.setWidth 16 = i) {x : Ctx} {q : Part} {t : State}
    (hx : s.live i = some x) (hpart : s.part x.part = some q) (hctx : q.ctx = x.id) : let v := taken s b 8 r.length a.toNat
    (x.state ≠ .running → x.state ≠ .halted → Answers (.reload b a r) s v b.seq 8) ∧
    ((x.state = .running ∨ x.state = .halted) → a.extractLsb' 17 15 ≠ 0 → Answers (.reload b a r) s v b.seq 2) ∧
    ((x.state = .running ∨ x.state = .halted) → a.extractLsb' 17 15 = 0 → headerOk r = true →
      field r 2 1 = x.part.toNat → reloadSecs r q (s.tiles x.part).length = true → recSigned r = true →
      v.reloadSeq x q.mask r = some t →
      let f := t.fillShadow x.part r
      Happens (.reload b a r) s ((if a.getLsbD 16 = true ∧ f.2 = true then f.1.onPart x.part fun q => { q with swp := true }
        else f.1).answer b.seq (if f.2 then 0 else 2) [])) := by
  intro v
  have hgoes : (x.state = .running ∨ x.state = .halted) → ¬ (q.ctx ≠ x.id ∨ (x.state ≠ .running ∧ x.state ≠ .halted)) := by
    rintro hstate (h | ⟨hrun, hhalt⟩)
    · exact h hctx
    · exact hstate.elim hrun hhalt
  refine ⟨fun hrun hhalt => happens_of_exec (reload_served hserved a hr) ?_,
    fun hstate hbits => happens_of_exec (reload_served hserved a hr) ?_,
    fun hstate hbits hheader hfield hsecs hsigned hseq => happens_of_exec (reload_served hserved a hr) ?_⟩
  · rw [ha, hx]
    dsimp only
    rw [hpart]
    exact if_pos (.inr ⟨hrun, hhalt⟩)
  · rw [ha, hx]
    dsimp only
    rw [hpart]
    exact (if_neg (hgoes hstate)).trans (if_pos (.inl (bne_iff_ne.mpr hbits)))
  · have hform : ¬ ((a.extractLsb' 17 15 != 0) = true ∨ (!headerOk r) = true ∨ field r 2 1 ≠ x.part.toNat ∨
        (!reloadSecs r q (s.tiles x.part).length) = true) := by
      simp [hbits, hheader, hfield, hsecs]
    rw [ha, hx]
    dsimp only
    rw [hpart]
    dsimp only
    rw [if_neg (hgoes hstate), if_neg hform, hsigned, hseq]
    rfl

end

theorem setTask_sent (s : State) (t : Task) : (s.setTask t).host.sent = s.host.sent := rfl

theorem setTask_ctxs (s : State) (t : Task) : (s.setTask t).ctxs = s.ctxs := rfl

theorem setTask_parts (s : State) (t : Task) : (s.setTask t).parts = s.parts := rfl

theorem sendAll_sent (s : State) :
    s.sendAll.host.sent = s.host.sent ++ (s.ctxs.filter fun c => c.state != .ended || c.final).map s.sentOf := rfl

/-- The steps of an eviction (R356). -/
theorem evict_steps (s : State) (b : Doorbell) (a : BitVec 10) :
    (s.host.task = .evict b.seq 1 → (∃ c ∈ s.ctxs, c.state = .running) → ∀ y, Happens (.evict b a y) s s.evictAll) ∧
    (s.host.task = .evict b.seq 1 → (∀ c ∈ s.ctxs, c.state ≠ .running) → ∀ y, Happens (.evict b a y) s
      (s.allOut.setTask (.evict b.seq 2))) ∧
    (s.host.task = .evict b.seq 2 → ∃ t, Happens (.evict b a true) s t ∧ t.ctxs = [] ∧ t.parts = [] ∧
      t.host.sent = s.host.sent ++ (s.ctxs.filter fun c => c.state != .ended || c.final).map s.sentOf) ∧
    (s.host.task = .evict b.seq 2 → Happens (.evict b a false) s
      (((s.onHost fun h => { h with fw := .running }).setTask .none).answer b.seq 7 [])) ∧
    (s.host.task = .evict b.seq 3 → s.ring.slots = [] → (∀ x ∈ s.groups, x.state = .off) → ∀ y, Happens (.evict b a y) s
      (((s.onHost fun h => { h with fw := .unlatched, ulperm := true }).setTask .none).answer b.seq 0 [])) ∧
    (s.host.task = .evict b.seq 3 → (s.ring.slots ≠ [] ∨ ∃ x ∈ s.groups, x.state ≠ .off) → ∀ y, Happens (.evict b a y) s
      s.allToNone) := by
  refine ⟨fun htask hrun y => happens_of_exec (evict_step1 htask y) (if_pos ?_),
    fun htask hrun y => happens_of_exec (evict_step1 htask y) (if_neg ?_), fun htask => ?_,
    fun htask => happens_of_exec (evict_step2 htask false) (if_neg Bool.false_ne_true),
    fun htask hring hoff y => happens_of_exec (evict_step3 htask y) (if_pos ((quietModule_iff s).mpr ⟨hring, hoff⟩)),
    fun htask hbusy y => happens_of_exec (evict_step3 htask y) (if_neg ?_)⟩
  · simpa using hrun
  · simpa using hrun
  · obtain ⟨hctxs, hparts, hhost⟩ := sentAway_fields s.sendAll
    refine ⟨s.sendAll.sentAway.setTask (.evict b.seq 3), happens_of_exec (evict_step2 htask true) (if_pos rfl), ?_, ?_, ?_⟩
    · rw [setTask_ctxs, hctxs]
    · rw [setTask_parts, hparts]
    · rw [setTask_sent, hhost, sendAll_sent]
  · rw [quietModule_iff]
    rintro ⟨hring, hoff⟩
    rcases hbusy with h | ⟨x, hx, h⟩
    · exact h hring
    · exact h (hoff x hx)

/-- Settles O53: each command by the equation of what a served steward does with it, an eviction step by step. -/
theorem commandsOfTheMailbox : Obligations.CommandsOfTheMailbox := by
  refine ⟨fun s b r hopen => launch_unserved hopen, fun s b r i a hclosed => closed_takesNothing hclosed b r i a, ?_, ?_⟩
  · intro s b i r hserved harg hlen hr
    obtain ⟨hformat, hsigned, hfree, hcreate⟩ := launch_served (r := r) hserved harg hr
    refine ⟨hformat, hsigned, hfree, hcreate, unknown_commands hserved harg hlen hr,
      fun a n hn => status_cases hserved harg a hn, fun x hx => ?_, fun a x q t ha hx hpart hctx =>
        reload_cases hserved hr ha hx hpart hctx, evict_refusedOrBegun hserved harg hlen⟩
    obtain ⟨hrun, hother⟩ := preempt_end_cases hserved harg hlen hx
    exact ⟨hrun, hother, fun h16 hp hz => resume_cases hserved harg hx h16 hp hz⟩
  · intro s
    refine ⟨fun g x k hl hlive => ?_, fun b a => ?_⟩
    · rw [hl] at hlive ⊢
      exact launchGroupRelease_cases s g hl hlive
    · obtain ⟨hdrive, hout, hsend, hrefused, hquiet, hnone⟩ := evict_steps s b a
      exact ⟨hdrive, fun x q hx hrun hpart => evictAll_halts hx hrun hpart, hout, hsend, hrefused, hquiet, hnone⟩

end Sys2Proof.Proofs
end

section
/-! PROOFS. The frame of every word: what its issue leaves as it is (R19, R38, R54). -/

namespace Sys2Proof.Proofs

open Sys2Proof Sys2Proof.Machine Sys2Proof.Claims

/-! ### What a word may change -/

/-- What a word that issues on the core `c` keeps of it: `lw` frees the loop stack, `cw` logical time and the results in flight. -/
structure CoreKept (lw cw : Bool) (c d : Core) : Prop where
  regs : d.regs = c.regs
  store : d.store = c.store
  frame : d.spec.frame = c.spec.frame
  tagmap : d.spec.tagmap = c.spec.tagmap
  fpctl : d.spec.fpctl = c.spec.fpctl
  fpstat : d.spec.fpstat = c.spec.fpstat
  trapv : d.spec.trapv = c.spec.trapv
  srk0 : d.spec.srk0 = c.spec.srk0
  srk1 : d.spec.srk1 = c.spec.srk1
  stage : d.spec.stage = c.spec.stage
  loops : lw = false → d.loops = c.loops
  time : cw = false → d.spec.lt = c.spec.lt ∧ ∃ l, d.flight = c.flight ++ l

/-- What it keeps of the machine. -/
structure Kept (lw cw : Bool) (s t : State) : Prop where
  me : CoreKept lw cw s.me t.me
  mem : t.mem = s.mem
  ring : t.ring = s.ring
  ctxs : t.ctxs = s.ctxs
  groups : t.groups = s.groups
  host : t.host = s.host
  rwins : t.rwins = s.rwins
  cgroups : t.cgroups = s.cgroups
  trctl : t.trctl = s.trctl
  others : others t = others s

variable {lw cw : Bool}

/-! ### Changes of the core -/

section
variable {c d e : Core}

/-- A change outside registers, buffers, special registers, loop stack and results in flight. -/
theorem CoreKept.of_eq (hregs : d.regs = c.regs) (hstore : d.store = c.store) (hspec : d.spec = c.spec)
    (hloops : d.loops = c.loops) (hflight : d.flight = c.flight) : CoreKept lw cw c d := by
  refine ⟨hregs, hstore, ?_, ?_, ?_, ?_, ?_, ?_, ?_, ?_, fun _ => hloops, fun _ => ⟨?_, [], ?_⟩⟩
  all_goals simp only [hspec, hflight, List.append_nil]

theorem CoreKept.refl (c : Core) : CoreKept lw cw c c := .of_eq rfl rfl rfl rfl rfl

theorem CoreKept.trans (h : CoreKept lw cw c d) (h' : CoreKept lw cw d e) : CoreKept lw cw c e where
  regs := h'.regs.trans h.regs
  store := h'.store.trans h.store
  frame := h'.frame.trans h.frame
  tagmap := h'.tagmap.trans h.tagmap
  fpctl := h'.fpctl.trans h.fpctl
  fpstat := h'.fpstat.trans h.fpstat
  trapv := h'.trapv.trans h.trapv
  srk0 := h'.srk0.trans h.srk0
  srk1 := h'.srk1.trans h.srk1
  stage := h'.stage.trans h.stage
  loops := fun hl => (h'.loops hl).trans (h.loops hl)
  time := fun hc => by
    obtain ⟨hlt, l, hl⟩ := h.time hc
    obtain ⟨hlt', l', hl'⟩ := h'.time hc
    exact ⟨hlt'.trans hlt, l ++ l', by rw [hl', hl, List.append_assoc]⟩

/-- A change of results in flight by new ones alone. -/
theorem CoreKept.of_append (hregs : d.regs = c.regs) (hstore : d.store = c.store) (hspec : d.spec = c.spec)
    (hloops : d.loops = c.loops) (l : List Flight) (hflight : d.flight = c.flight ++ l) : CoreKept lw cw c d := by
  refine ⟨hregs, hstore, ?_, ?_, ?_, ?_, ?_, ?_, ?_, ?_, fun _ => hloops, fun _ => ⟨?_, l, hflight⟩⟩
  all_goals rw [hspec]

/-- A change of the special registers by counts, clocks and trap state alone. -/
theorem CoreKept.of_spec (hregs : d.regs = c.regs) (hstore : d.store = c.store) (hloops : d.loops = c.loops)
    (hflight : d.flight = c.flight) {f : Spec → Spec} (hspec : d.spec = f c.spec)
    (hf : ∀ p, (f p).frame = p.frame ∧ (f p).tagmap = p.tagmap ∧ (f p).fpctl = p.fpctl ∧ (f p).fpstat = p.fpstat ∧
      (f p).trapv = p.trapv ∧ (f p).srk0 = p.srk0 ∧ (f p).srk1 = p.srk1 ∧ (f p).stage = p.stage ∧ (f p).lt = p.lt) :
    CoreKept lw cw c d := by
  obtain ⟨hframe, htagmap, hfpctl, hfpstat, htrapv, hsrk0, hsrk1, hstage, hlt⟩ := hf c.spec
  rw [← hspec] at hframe htagmap hfpctl hfpstat htrapv hsrk0 hsrk1 hstage hlt
  exact ⟨hregs, hstore, hframe, htagmap, hfpctl, hfpstat, htrapv, hsrk0, hsrk1, hstage, fun _ => hloops,
    fun _ => ⟨hlt, [], by rw [hflight, List.append_nil]⟩⟩

theorem kept_push (c : Core) (l : Nat) (w : Landing) : CoreKept lw cw c (c.push l w) := .of_append rfl rfl rfl rfl _ rfl

theorem kept_pushAwait (c : Core) (l : Nat) (a : Await) (w : Landing) : CoreKept lw cw c (c.pushAwait l a w) :=
  .of_append rfl rfl rfl rfl _ rfl

theorem kept_onEng (c : Core) (f : Eng → Eng) : CoreKept lw cw c (c.onEng f) := .of_eq rfl rfl rfl rfl rfl

theorem kept_onIss (c : Core) (f : Iss → Iss) : CoreKept lw cw c (c.onIss f) := .of_eq rfl rfl rfl rfl rfl

theorem kept_request (c : Core) (k : ReqKind) : CoreKept lw cw c (c.request k) := kept_onEng c _

theorem kept_jump (c : Core) (t : IAddr) : CoreKept lw cw c (c.jump t) := kept_onIss c _

theorem kept_issued (c : Core) : CoreKept lw cw c c.issued := kept_onIss c _

theorem kept_foldl {α : Type} {f : Core → α → Core} (hf : ∀ c a, CoreKept lw cw c (f c a)) (l : List α) (c : Core) :
    CoreKept lw cw c (l.foldl f c) := by
  induction l generalizing c with
  | nil => exact .refl c
  | cons a l ih => exact (hf c a).trans (ih _)

theorem kept_ite {p : Prop} [Decidable p] (hd : CoreKept lw cw c d) (he : CoreKept lw cw c e) :
    CoreKept lw cw c (if p then d else e) := by
  split_ifs
  · exact hd
  · exact he

theorem kept_pushAll (c : Core) (l : Nat) (a : Await) (ws : List Landing) : CoreKept lw cw c (c.pushAll l a ws) :=
  kept_foldl (fun c w => kept_pushAwait c l a w) ws c

theorem kept_stall (c : Core) (k : StallCause) : CoreKept lw cw c (c.stall k) :=
  .of_spec rfl rfl rfl rfl (f := fun p => { p with
    cyc := p.cyc + 1
    stallc := p.stallc.setIfInBounds (stallNum k) (p.stallc[stallNum k]?.getD 0 + 1)
    leavec := if k = .leave then p.leavec + 1 else p.leavec }) rfl fun _ => ⟨rfl, rfl, rfl, rfl, rfl, rfl, rfl, rfl, rfl⟩

theorem kept_trapTo (c : Core) (k : Cause) (code : BitVec 8) (ret : IAddr) : CoreKept lw cw c (c.trapTo k code ret) :=
  .of_spec rfl rfl rfl rfl (f := fun p => { p with trapc := trapcOf k code, trappc := ret }) rfl
    fun _ => ⟨rfl, rfl, rfl, rfl, rfl, rfl, rfl, rfl, rfl⟩

theorem kept_hold (c : Core) : CoreKept lw true c c.hold :=
  ⟨rfl, rfl, rfl, rfl, rfl, rfl, rfl, rfl, rfl, rfl, fun _ => rfl, fun h => nomatch h⟩

theorem kept_endLeg (c : Core) (box : List Byte) : CoreKept lw true c (c.endLeg box) :=
  ⟨rfl, rfl, rfl, rfl, rfl, rfl, rfl, rfl, rfl, rfl, fun _ => rfl, fun h => nomatch h⟩

/-- Only the loop stack changes. -/
theorem kept_loops (c : Core) (l : Loops) : CoreKept true cw c { c with loops := l } :=
  ⟨rfl, rfl, rfl, rfl, rfl, rfl, rfl, rfl, rfl, rfl, (fun h => nomatch h), fun _ => ⟨rfl, [], (List.append_nil _).symm⟩⟩

theorem kept_setLoopSr (c : Core) (n : Nat) (v : W64) : CoreKept true cw c (c.setLoopSr n v) := by
  unfold Core.setLoopSr
  split_ifs <;> exact kept_loops c _

theorem kept_advance (c : Core) (n : Nat) : CoreKept lw cw c (c.advance n) := (kept_push c _ _).trans (kept_push _ _ _)

theorem kept_async (c : Core) (p : Stop) : CoreKept lw cw c (c.async p) := by
  unfold Core.async
  split_ifs
  · exact .refl c
  · exact .of_eq rfl rfl rfl rfl rfl

theorem kept_remote (c : Core) (kind : List Piece → ReqKind) (r : Except Cause (List Piece)) (off : W64) (win : BitVec 3) :
    CoreKept lw cw c (c.remote kind r off win) := by
  cases r with
  | ok ps => exact .of_eq rfl rfl rfl rfl rfl
  | error k =>
    unfold Core.remote
    refine CoreKept.trans ?_ (kept_async _ _)
    exact .of_eq rfl rfl rfl rfl rfl

theorem kept_startStream (c : Core) (desc axb act : W64) (cb : Option (BitVec 4)) (gate chain : Option Nat) :
    CoreKept lw cw c (c.startStream desc axb act cb gate chain) := by
  unfold Core.startStream
  extract_lets a d m st0 st c1 c2
  have h1 : CoreKept lw cw c c1 := kept_onEng c _
  have h2 : CoreKept lw cw c1 c2 := kept_ite (kept_push c1 _ _) (kept_foldl (fun c j => kept_push c _ _) _ c1)
  exact (h1.trans h2).trans (kept_foldl (fun c j => kept_push c _ _) _ c2)

theorem kept_startChained (c : Core) (desc axb : W64) : CoreKept lw cw c (c.startChained desc axb) :=
  (kept_onEng c _).trans (kept_push _ _ _)

theorem kept_startLoad (c : Core) (d a b : W64) : CoreKept lw cw c (c.startLoad d a b) := by
  unfold Core.startLoad
  extract_lets
  exact (((kept_onEng c _).trans (kept_foldl (fun c j => kept_push c _ _) _ _))).trans (kept_push _ _ _)

theorem kept_mergeRed (c : Core) (sc : Scope) : CoreKept lw cw c (c.mergeRed sc) :=
  kept_ite ((kept_onEng _ _).trans (kept_push _ _ _)) (.refl c)

theorem kept_observe (c : Core) (m : W64) : CoreKept lw cw c (c.observe m) := .of_eq rfl rfl rfl rfl rfl

end

/-! ### Changes of the machine -/

section
variable {s t u : State}

theorem Kept.refl (s : State) : Kept lw cw s s := ⟨.refl _, rfl, rfl, rfl, rfl, rfl, rfl, rfl, rfl, rfl⟩

theorem Kept.trans (h : Kept lw cw s t) (h' : Kept lw cw t u) : Kept lw cw s u where
  me := h.me.trans h'.me
  mem := h'.mem.trans h.mem
  ring := h'.ring.trans h.ring
  ctxs := h'.ctxs.trans h.ctxs
  groups := h'.groups.trans h.groups
  host := h'.host.trans h.host
  rwins := h'.rwins.trans h.rwins
  cgroups := h'.cgroups.trans h.cgroups
  trctl := h'.trctl.trans h.trctl
  others := h'.others.trans h.others

theorem kept_onMe (s : State) {f : Core → Core} (hf : CoreKept lw cw s.me (f s.me)) : Kept lw cw s (s.onMe f) :=
  ⟨hf, rfl, rfl, rfl, rfl, rfl, rfl, rfl, rfl, rfl⟩

/-- A word that issues with the effect `f` on its core. -/
theorem kept_done (s : State) {f : Core → Core} (hf : CoreKept lw cw s.me (f s.me)) : Kept lw cw s (s.done f) :=
  kept_onMe s (hf.trans (kept_issued _))

theorem kept_push_done (s : State) (l : Nat) (w : Core → Landing) : Kept lw cw s (s.done fun c => c.push l (w c)) :=
  kept_done s (kept_push _ _ _)

theorem kept_pass (s : State) : Kept lw cw s (s.done id) := kept_done s (.refl _)

theorem kept_onDie (s : State) (d : Nat) (f : Die → Die) : Kept lw cw s (s.onDie d f) :=
  ⟨.refl _, rfl, rfl, rfl, rfl, rfl, rfl, rfl, rfl, rfl⟩

theorem kept_onPart (s : State) (p : BitVec 6) (f : Part → Part) : Kept lw cw s (s.onPart p f) :=
  ⟨.refl _, rfl, rfl, rfl, rfl, rfl, rfl, rfl, rfl, rfl⟩

theorem kept_if {p : Prop} [Decidable p] (ht : Kept lw cw s t) (hu : Kept lw cw s u) : Kept lw cw s (if p then t else u) := by
  split_ifs
  · exact ht
  · exact hu

theorem kept_halt (s : State) (p : Stop) : Kept lw cw s (s.halt p) :=
  Kept.trans (kept_onMe s (.of_eq rfl rfl rfl rfl rfl)) (kept_onPart _ _ _)

theorem kept_raise (s : State) (k : Cause) : Kept lw cw s (s.raise k) := kept_halt s _

theorem kept_landfull (s : State) (n : Nat) : Kept lw cw s (s.landfull n) := kept_halt s _

theorem kept_raiseArray (s : State) (k : Cause) : Kept lw cw s (s.raiseArray k) := kept_if (kept_landfull s 4) (kept_raise s k)

theorem kept_raiseLocal (s : State) (k : Cause) (code : BitVec 8) : Kept lw cw s (s.raiseLocal k code) :=
  kept_if (kept_halt s _) (kept_onMe s ((kept_trapTo _ _ _ _).trans (kept_onIss _ _)))

theorem kept_poison (s : State) (v : W64) : Kept lw cw s (s.poison v) := kept_raiseLocal s _ _

theorem kept_stalled (s : State) (k : StallCause) : Kept lw cw s (s.stall k) := kept_onMe s (kept_stall _ k)

theorem kept_held (s : State) : Kept lw true s (s.onMe Core.hold) := kept_onMe s (kept_hold _)

theorem kept_unpoisoned (l : List SReg) (h : Kept lw cw s t) : Kept lw cw s (s.unpoisoned l t) := by
  unfold State.unpoisoned
  split
  · exact kept_poison s _
  · exact h

theorem kept_issue {i : Instr} (h : Kept lw cw s t) (hu : issue i s t = .next u) : Kept lw cw s u := by
  injection hu with hu
  rw [← hu]
  exact kept_if (kept_if (kept_stalled s _) h) (kept_raise s _)

/-! ### The shared operations of words -/

theorem kept_scalar (s : State) (l : Nat) (sp : Bool) (ps : List SReg) (d : Reg) (v : W64) :
    Kept lw cw s (s.scalar l sp ps d v) := by
  unfold State.scalar
  split
  · exact kept_push_done s _ _
  · exact kept_if (kept_push_done s _ _) (kept_poison s _)

theorem kept_alu1 (s : State) (l : Nat) (sp : Bool) (d a : Reg) (f : W64 → W64) : Kept lw cw s (s.alu1 l sp d a f) :=
  kept_scalar s _ _ _ _ _

theorem kept_alu2 (s : State) (l : Nat) (sp : Bool) (d a b : Reg) (f : W64 → W64 → W64) :
    Kept lw cw s (s.alu2 l sp d a b f) := kept_scalar s _ _ _ _ _

theorem kept_setCond (s : State) (g : GIdx) (p v : Bool) : Kept lw cw s (s.setCond g p v) := kept_push_done s _ _

theorem kept_vector (s : State) (l : Nat) (sp k : Bool) (o : VOps) (d : Reg) (r : List LaneOut) :
    Kept lw cw s (s.vector l sp k o d r) := by
  unfold State.vector
  split
  · exact kept_poison s _
  · exact kept_push_done s _ _

theorem kept_vectorFp (s : State) (l : Nat) (sp sr : Bool) (n : Nat) (o : VOps) (d : Reg) (r : List LaneOut) :
    Kept lw cw s (s.vectorFp l sp sr n o d r) := by
  unfold State.vectorFp
  split
  · exact kept_poison s _
  · exact kept_done s ((kept_ite (kept_advance _ _) (.refl _)).trans (kept_push _ _ _))

theorem kept_select (s : State) (bitwise : Bool) (d a b vc : Reg) : Kept lw cw s (s.select bitwise d a b vc) := by
  unfold State.select
  extract_lets
  split
  · exact kept_poison s _
  · exact kept_push_done s _ _

theorem kept_load (s : State) (space : Space) (vec : Bool) (size : Size) (r : Reg) (a lat : Nat) :
    Kept lw cw s (s.load space vec size r a lat) := by
  unfold State.load
  refine kept_if (kept_raise s _) ?_
  split
  · exact kept_done s (kept_pushAll _ _ _ _)
  · exact kept_done s ((kept_pushAll _ _ _ _).trans (kept_request _ _))

theorem kept_storeAt (s : State) (space : Space) (a : Nat) (bs : List Byte) : Kept lw cw s (s.storeAt space a bs) := by
  unfold State.storeAt
  refine kept_if (kept_raise s _) ?_
  split
  · exact kept_push_done s _ _
  · exact kept_done s (kept_request _ _)

theorem kept_laneStop (s : State) (e : LaneErr) : Kept lw cw s (s.laneStop e) := by
  cases e with
  | poison v => exact kept_poison s v
  | perm => exact kept_raise s _

theorem kept_startLoop (s : State) (n : W64) (e : IAddr) (gr : Bool) : Kept true cw s (s.startLoop n e gr) := by
  unfold State.startLoop
  refine kept_if (kept_done s (kept_jump _ _)) (kept_if (kept_raiseLocal s _ _) (kept_done s ?_))
  exact (kept_loops _ _).trans (kept_jump _ _)

theorem kept_chained (h : Kept lw cw s t) : Kept lw cw s (s.chained t) := by
  unfold State.chained
  split
  · exact kept_if (kept_stalled s _) h
  · exact kept_raise s _
  · exact kept_stalled s _

theorem kept_stamp (s : State) (hold : Bool) (sig : BitVec 26) (hcw : hold = true → cw = true) :
    Kept lw cw s (s.stamp hold sig) := by
  unfold State.stamp
  refine kept_if (kept_done s (kept_onIss _ _)) ?_
  cases hold with
  | false => exact kept_raise s _
  | true =>
    obtain rfl := hcw rfl
    exact kept_if (kept_held s) (kept_raise s _)

theorem kept_cbadv (a : Reg) (n : BitVec 4) {k : Cb → Nat → State} (hk : ∀ b m, Kept lw cw s (k b m)) :
    Kept lw cw s (s.cbadv a n k) := by
  refine kept_unpoisoned _ ?_
  split
  · exact kept_raise s _
  · exact kept_if (kept_raise s _) (hk _ _)

theorem kept_withLeave (id : Nat) (size : BitVec 32) (h : Kept lw cw s t) : Kept lw cw s (s.withLeave id size t) := by
  unfold State.withLeave
  extract_lets c held
  have hheld : Kept lw cw s held := h.trans ⟨.of_eq rfl rfl rfl rfl rfl, rfl, rfl, rfl, rfl, rfl, rfl, rfl, rfl, rfl⟩
  split
  · exact hheld
  · refine kept_if (hheld.trans (kept_onDie _ _ _)) (Kept.trans (Kept.trans ?_ (kept_onDie _ _ _)) (kept_stalled _ _))
    exact ⟨.of_eq rfl rfl rfl rfl rfl, rfl, rfl, rfl, rfl, rfl, rfl, rfl, rfl, rfl⟩
  · exact kept_stalled s _

theorem kept_queueCopy (h : Kept lw cw s t) : Kept lw cw s (s.queueCopy t) := kept_if (kept_stalled s _) h

theorem kept_defer (s : State) (sp : Bool) (k : Cause) (l : Nat) (w : W64 → Landing) : Kept lw cw s (s.defer sp k l w) :=
  kept_if (kept_done s (.of_append rfl rfl rfl rfl _ rfl)) (kept_raise s _)

theorem kept_globalIssue (va n : Nat) (rd wr : Bool) {k : Except Cause (List Piece) → State} (hk : ∀ r, Kept lw cw s (k r)) :
    Kept lw cw s (s.globalIssue va n rd wr k) := by
  unfold State.globalIssue
  split
  · exact hk _
  · exact ((kept_onDie s _ _).trans (kept_onMe _ (.of_eq rfl rfl rfl rfl rfl))).trans (kept_stalled _ _)
  · exact kept_stalled s _
  · exact kept_if (kept_stalled s _) (hk _)

theorem kept_loadGlobal (s : State) (vec sp : Bool) (win : BitVec 3) (off : W64) (al n l : Nat) (w : Landing)
    (p : W64 → Landing) : Kept lw cw s (s.loadGlobal vec sp win off al n l w p) := by
  unfold State.loadGlobal
  extract_lets o
  split
  · exact kept_defer s _ _ _ _
  · refine kept_globalIssue _ _ _ _ fun r => ?_
    split
    · exact kept_defer s _ _ _ _
    · exact kept_done s ((kept_pushAwait _ _ _ _).trans (kept_remote _ _ _ _ _))

theorem kept_storeGlobal (s : State) (win : BitVec 3) (off : W64) (al : Nat) (bs : List Byte) :
    Kept lw cw s (s.storeGlobal win off al bs) := by
  unfold State.storeGlobal
  extract_lets o
  split
  · exact kept_raise s _
  · exact kept_globalIssue _ _ _ _ fun r => kept_done s (kept_remote _ _ _ _ _)

end

/-! ### Other cores (R26, R38) -/

section
variable {s : State}

/-- What no word of this core changes of another. -/
def seen (c : Core) : Regs × Loops × Spec × Store × List Flight × IAddr × Run :=
  (c.regs, c.loops, c.spec, c.store, c.flight, c.pc, c.run)

theorem others_eq (s : State) : others s = s.rest.map seen := rfl

theorem others_onCore (s : State) (n : Nat) (f : Core → Core) (hf : ∀ c, seen (f c) = seen c) :
    others (s.onCore n f) = others s := by
  unfold State.onCore State.setCore State.core
  by_cases hn : n = s.me.num
  · rw [if_pos hn]; rfl
  · rw [if_neg hn, if_neg hn, others_eq, others_eq, List.map_set, hf]
    refine List.ext_getElem? fun k => ?_
    rw [List.getElem?_set, List.getElem?_map, List.length_map]
    split_ifs with hk hlt
    · subst hk; simp [hlt]
    · subst hk; simp [Nat.not_lt.mp hlt]
    · rfl

theorem kept_setSent (s : State) (n : Nat) (g : Core → Nat) (k : Nat) :
    Kept lw cw s (s.onCore n fun c => c.setSent k (g c)) := by
  have hme : CoreKept lw cw s.me (s.me.setSent k (g s.me)) := kept_onEng _ _
  have hothers : others (s.onCore n fun c => c.setSent k (g c)) = others s := others_onCore s n _ fun _ => rfl
  unfold State.onCore State.setCore State.core at hothers ⊢
  by_cases hn : n = s.me.num
  · rw [if_pos hn] at hothers ⊢
    exact ⟨by rw [if_pos hn]; exact hme, rfl, rfl, rfl, rfl, rfl, rfl, rfl, rfl, hothers⟩
  · rw [if_neg hn] at hothers ⊢
    exact ⟨.refl _, rfl, rfl, rfl, rfl, rfl, rfl, rfl, rfl, hothers⟩

/-! ### Words with an effect of their own -/

theorem kept_snd (s : State) (a b c : Reg) : ∃ k, exec (.snd a b c) s = issue (.snd a b c) s k ∧ Kept lw cw s k := by
  refine ⟨_, rfl, kept_if (kept_raise s _) (kept_unpoisoned _ ?_)⟩
  split
  · exact kept_raise s _
  · refine kept_if (kept_raise s _) (kept_if (kept_stalled s _) (kept_done s ?_))
    exact (kept_onEng _ _).trans (kept_request _ _)

theorem kept_rcv (s : State) (a b : Reg) (sig : BitVec 6) :
    ∃ k, exec (.rcv a b sig) s = issue (.rcv a b sig) s k ∧ Kept lw cw s k := by
  refine ⟨_, rfl, kept_unpoisoned _ ?_⟩
  split
  · exact kept_raise s _
  · split
    · exact kept_stalled s _
    · refine kept_if (kept_raise s _) (kept_if (kept_raise s _) ?_)
      extract_lets t
      have ht : Kept lw cw s t :=
        kept_done s (((kept_onEng _ _).trans (kept_push _ _ _)).trans (kept_onEng _ _))
      exact kept_if ht (ht.trans (kept_setSent t _ _ _))

theorem kept_lrs (s : State) (b : Reg) (off : BitVec 16) :
    ∃ k, exec (.lrs b off) s = issue (.lrs b off) s k ∧ Kept true cw s k := by
  refine ⟨_, rfl, kept_unpoisoned _ (kept_if (kept_raise s _) ?_)⟩
  split
  · exact kept_poison s _
  · exact kept_if (kept_raiseLocal s _ _) (kept_done s ((kept_loops _ _).trans (kept_onIss _ _)))

theorem kept_trap (s : State) (n : BitVec 8) : ∃ k, exec (.trap n) s = issue (.trap n) s k ∧ Kept lw cw s k := by
  refine ⟨_, rfl, kept_if ((kept_halt s _).trans (kept_done _ (kept_jump _ _))) (kept_done s ?_)⟩
  exact .of_spec rfl rfl rfl rfl (f := fun p => { p with trapc := trapcOf .trapi n, trappc := s.me.iss.seq }) rfl
    fun _ => ⟨rfl, rfl, rfl, rfl, rfl, rfl, rfl, rfl, rfl⟩

theorem kept_rdsr (s : State) (d : Reg) (n : BitVec 16) :
    ∃ k, exec (.rdsr d n) s = issue (.rdsr d n) s k ∧ Kept lw cw s k := by
  refine ⟨_, rfl, kept_done s ((kept_ite ?_ (.refl _)).trans (kept_push _ _ _))⟩
  exact .of_spec rfl rfl rfl rfl (f := fun p => { p with ptcs := (s.die s.me.die).ptc.sec }) rfl
    fun _ => ⟨rfl, rfl, rfl, rfl, rfl, rfl, rfl, rfl, rfl⟩

theorem kept_wrsr (s : State) (a : Reg) (n : BitVec 16) :
    ∃ k, exec (.wrsr a n) s = issue (.wrsr a n) s k ∧ Kept true cw s k :=
  ⟨_, rfl, kept_unpoisoned _ (kept_if (kept_raiseLocal s _ _) (kept_if
    (kept_done s ((kept_setLoopSr _ _ _).trans (kept_onIss _ _))) (kept_push_done s _ _)))⟩

theorem kept_msq (s : State) (a : Reg) : ∃ k, exec (.msq a) s = issue (.msq a) s k ∧ Kept lw cw s k :=
  ⟨_, rfl, kept_unpoisoned _ (kept_if (kept_raise s _) (kept_if (kept_raise s _) (kept_if (kept_stalled s _)
    ((kept_onDie s _ _).trans (kept_done _ (kept_onEng _ _))))))⟩

theorem kept_coll (s : State) (a : Reg) : ∃ k, exec (.coll a) s = issue (.coll a) s k ∧ Kept lw cw s k := by
  refine ⟨_, rfl, kept_unpoisoned _ (kept_if (kept_raise s _) (kept_if (kept_raise s _) ?_))⟩
  split
  · exact kept_raise s _
  · exact kept_if (kept_raise s _) (kept_if (kept_stalled s _) (kept_done s (kept_onEng _ _)))

theorem kept_lqpop (s : State) (d : Reg) : ∃ k, exec (.lqpop d) s = issue (.lqpop d) s k ∧ Kept lw true s k := by
  refine ⟨_, rfl, ?_⟩
  split
  · exact kept_landfull s _
  · exact kept_if (kept_held s) (kept_if (kept_stalled s _) (kept_done s ((kept_onEng _ _).trans (kept_push _ _ _))))

/-! ### Gathers and scatters (R208) -/

theorem kept_vgat (s : State) (space : Space) (r b : Reg) (size : Size) (vi : Reg) (sp : Bool) :
    ∃ k, exec (.vgat space r b size vi sp) s = issue (.vgat space r b size vi sp) s k ∧ Kept lw cw s k := by
  refine ⟨_, rfl, kept_unpoisoned _ ?_⟩
  split
  · exact kept_raise s _
  · split
    · exact kept_laneStop s _
    · exact kept_done s ((kept_push _ _ _).trans (kept_onEng _ _))

theorem kept_vsct (s : State) (space : Space) (r b : Reg) (size : Size) (vi : Reg) :
    ∃ k, exec (.vsct space r b size vi) s = issue (.vsct space r b size vi) s k ∧ Kept lw cw s k := by
  refine ⟨_, rfl, kept_unpoisoned _ ?_⟩
  split
  · exact kept_raise s _
  · split
    · exact kept_laneStop s _
    · exact kept_done s ((kept_foldl (fun c g => kept_push c _ _) _ _).trans (kept_onEng _ _))

theorem kept_vldb (s : State) (space : Space) (r b : Reg) (size : Size) (off : BitVec 10) :
    ∃ k, exec (.vldb space r b size off) s = issue (.vldb space r b size off) s k ∧ Kept lw cw s k := by
  refine ⟨_, rfl, kept_unpoisoned _ ?_⟩
  split
  · exact kept_raise s _
  · exact kept_if (kept_raise s _) (kept_push_done s _ _)

/-! ### Copies and array commands (R181 to R199, R212, R213) -/

theorem kept_addCopy (c : Core) (op : BitVec 8) (dst src : Side) (len : Nat) (tag : BitVec 6) (rec' : List Byte) :
    CoreKept lw cw c (c.addCopy op dst src len tag rec') := kept_onEng c _

theorem kept_cp (s : State) (a b c : Reg) (t : BitVec 6) :
    ∃ k, exec (.cp a b c t) s = issue (.cp a b c t) s k ∧ Kept lw cw s k := by
  refine ⟨_, rfl, kept_unpoisoned _ ?_⟩
  split
  · refine kept_if (kept_raise s _) ?_
    split
    · exact kept_raise s _
    · exact kept_raise s _
    · exact kept_queueCopy (kept_done s (kept_addCopy _ _ _ _ _ _ _))
  · exact kept_raise s _

theorem kept_cpg (s : State) (a b c : Reg) (t : BitVec 6) :
    ∃ k, exec (.cpg a b c t) s = issue (.cpg a b c t) s k ∧ Kept lw cw s k := by
  refine ⟨_, rfl, kept_unpoisoned _ ?_⟩
  split
  · refine kept_if (kept_raise s _) ?_
    split
    · exact kept_raise s _
    · exact kept_queueCopy (kept_done s (kept_ite (kept_addCopy _ _ _ _ _ _ _) (kept_addCopy _ _ _ _ _ _ _)))
  · exact kept_raise s _

theorem kept_cpm (s : State) (a b c : Reg) (t : BitVec 6) :
    ∃ k, exec (.cpm a b c t) s = issue (.cpm a b c t) s k ∧ Kept lw cw s k := by
  refine ⟨_, rfl, kept_unpoisoned _ ?_⟩
  split
  · refine kept_if (kept_raise s _) (kept_if (kept_raise s _) ?_)
    split
    · exact kept_raise s _
    · exact kept_raise s _
    · exact kept_raise s _
    · split
      · exact kept_raiseArray s _
      · exact kept_queueCopy (kept_withLeave _ _ (kept_done s ((kept_addCopy _ _ _ _ _ _ _).trans
          (kept_startStream _ _ _ _ _ _ _))))
  · exact kept_raise s _

theorem kept_mmul (s : State) (a b c : Reg) (cbf : Bool) (n : BitVec 4) :
    ∃ k, exec (.mmul a b c cbf n) s = issue (.mmul a b c cbf n) s k ∧ Kept lw cw s k := by
  refine ⟨_, rfl, kept_unpoisoned _ ?_⟩
  split
  · exact kept_raiseArray s _
  · exact kept_withLeave _ _ (kept_done s (kept_startStream _ _ _ _ _ _ _))

theorem kept_mmulc (s : State) (a b c : Reg) (cbf : Bool) (n : BitVec 4) :
    ∃ k, exec (.mmulc a b c cbf n) s = issue (.mmulc a b c cbf n) s k ∧ Kept lw cw s k := by
  refine ⟨_, rfl, kept_unpoisoned _ ?_⟩
  split
  · exact kept_raiseArray s _
  · exact kept_withLeave _ _ (kept_done s (kept_ite (kept_startStream _ _ _ _ _ _ _) (kept_startChained _ _ _)))

theorem kept_mlds (s : State) (a b c : Reg) : ∃ k, exec (.mlds a b c) s = issue (.mlds a b c) s k ∧ Kept lw cw s k :=
  ⟨_, rfl, kept_unpoisoned _ (kept_if (kept_raise s _) (kept_if (kept_raise s _) (kept_if (kept_landfull s _)
    (kept_withLeave _ _ (kept_done s (kept_startLoad _ _ _ _))))))⟩

/-! ### Atomics and reductions (R223, R226) -/

theorem kept_amo (s : State) (d a : Reg) (w4 : Bool) (win : BitVec 3) (sc : Scope) (op : AmoOp) :
    ∃ k, exec (.amo d a w4 win sc op) s = issue (.amo d a w4 win sc op) s k ∧ Kept lw cw s k := by
  refine ⟨_, rfl, kept_unpoisoned _ (kept_if (kept_landfull s _) ?_)⟩
  split
  · exact kept_raise s _
  · exact kept_globalIssue _ _ _ _ fun r => kept_done s ((kept_onEng _ _).trans (kept_remote _ _ _ _ _))

theorem kept_red (s : State) (d a : Reg) (w4 : Bool) (win : BitVec 3) (sc : Scope) (op : AmoOp) :
    ∃ k, exec (.red d a w4 win sc op) s = issue (.red d a w4 win sc op) s k ∧ Kept lw cw s k := by
  refine ⟨_, rfl, kept_unpoisoned _ ?_⟩
  split
  · exact kept_raise s _
  · exact kept_globalIssue _ _ _ _ fun r => kept_done s (kept_remote _ _ _ _ _)

end

/-! ### Every word -/

/-- Every word of a bundle makes the checks of `issue`, then an effect that keeps what O55 names. -/
theorem word_kept (s : State) (i : Instr) (h : coreWord i = true) :
    ∃ k, exec i s = issue i s k ∧ Kept (loopWord i) (cycleWord i) s k := by
  cases i
  case xt | xrd | xwr | xset | xlp | xwt | xsg | xend => nomatch h
  case hold | resultPerforms | variableLatencyReply | elasticStall | haltLine | stopRecord | syncPost | barrierRelease
    | legEvaluation | run | done | traverseMessage | slotReturn | triggerPost | planeFlip | copyComplete | streamFire | planeReady
    | axUpdate | msqTransferComplete | collComplete | ckptComplete | messageArrival | atomicOperation | reductionContribution
    | pageWalk | invalidation | migration | migrationRelease | channelLending | reclaim | scrub | ueccRetry | refreshElision
    | cellInsert | cellDelivery | cellReturn | rsvmWrite | tstatErrClear | pgctlGo | pgctlClear | quiesced | drainTimeout
    | retraining | keyRotation | oldKeyRelease | ptpSync | syncLoss | ptcStep | leaveGrant | thermalLimit | boot | launch
    | launchGroupRelease | attest | evict | preempt | resume | contextRelease | endContext | status | reload | eventPost
    | mainRailsOff | inboundRequest | trickleCheckpoint | auxiliaryRail | collectiveAbandoned => nomatch h
  -- scalar words
  case add | sub | mul | mulh | mulhn | div | divn | rem | remn | and | or | xor | andn | orn | shl | shr | sar | rol | ror | min
    | max | minn | maxn | bfx | bfxn => exact ⟨_, rfl, kept_alu2 s _ _ _ _ _ _⟩
  case clz | ctz | popc | addi | andi | ori | xori | muli | shli | shri | sari => exact ⟨_, rfl, kept_alu1 s _ _ _ _ _⟩
  case bfi => exact ⟨_, rfl, kept_scalar s _ _ _ _ _⟩
  case csel => exact ⟨_, rfl, kept_if (kept_raiseLocal s _ _) (kept_unpoisoned _ (kept_push_done s _ _))⟩
  case lui | aup | prep | frame | mswap => exact ⟨_, rfl, kept_push_done s _ _⟩
  -- compares, targets, branches, loops
  case cmp | cmpi | tst | gand | gor | gxor | gnot | ptst => exact ⟨_, rfl, kept_setCond s _ _ _⟩
  case prepr => exact ⟨_, rfl, kept_unpoisoned _ (kept_push_done s _ _)⟩
  case br => exact ⟨_, rfl, kept_if (kept_raiseLocal s _ _) (kept_done s (kept_ite (kept_jump _ _) (.refl _)))⟩
  case brf => exact ⟨_, rfl, kept_if (kept_raiseLocal s _ _) (kept_done s (kept_ite (.refl _) (kept_jump _ _)))⟩
  case brA => exact ⟨_, rfl, kept_done s (kept_jump _ _)⟩
  case brl => exact ⟨_, rfl, kept_done s ((kept_push _ _ _).trans (kept_jump _ _))⟩
  case loop => exact ⟨_, rfl, kept_unpoisoned _ (kept_startLoop s _ _ _)⟩
  case loopi => exact ⟨_, rfl, kept_startLoop s _ _ _⟩
  case lbrk =>
    exact ⟨_, rfl, kept_if (kept_raiseLocal s _ _) (kept_if (kept_pass s) (kept_if (kept_raiseLocal s _ _)
      (kept_done s ((kept_loops _ _).trans (kept_jump _ _)))))⟩
  -- time, barriers, the end of a leg
  case nop => exact ⟨_, rfl, kept_pass s⟩
  case waitt => exact ⟨_, rfl, kept_unpoisoned _ (kept_if (kept_pass s) (kept_stalled s _))⟩
  case sync => exact ⟨_, rfl, kept_if (kept_raise s _) (kept_chained (kept_done s (.of_eq rfl rfl rfl rfl rfl)))⟩
  case halt => exact ⟨_, rfl, kept_chained (kept_done s (kept_endLeg _ _))⟩
  case stampAt => exact ⟨_, rfl, kept_stamp s _ _ fun hold => nomatch hold⟩
  case stampHold => exact ⟨_, rfl, kept_stamp s _ _ fun _ => rfl⟩
  -- vector words
  case vadd | vsub | vmul | vfma | vfms | vfnma | vrsum | vdot4 | vcvt | vbdq => exact ⟨_, rfl, kept_vectorFp s _ _ _ _ _ _ _⟩
  case vmulh | vmin | vmax | vabs | vneg | vand | vor | vxor | vandn | vshl | vshr | vsar | vcmp | vbc | vxt | vrot | vlid | vperm
    | vrmax | vrmin | vrcp | vrsq | vex2 | vlg2 | vpopc | vclz | vtacc | vbq | vbscl | vtunp | vpak | vupk | vrng =>
    exact ⟨_, rfl, kept_vector s _ _ _ _ _ _⟩
  case vsel | vselB => exact ⟨_, rfl, kept_select s _ _ _ _ _⟩
  case vptst => exact ⟨_, rfl, kept_push_done s _ _⟩
  -- buffers
  case ld | vld => exact ⟨_, rfl, kept_unpoisoned _ (kept_load s _ _ _ _ _ _)⟩
  case st | vst => exact ⟨_, rfl, kept_unpoisoned _ (kept_storeAt s _ _ _)⟩
  case vldb => exact kept_vldb s _ _ _ _ _
  case vgat => exact kept_vgat s _ _ _ _ _ _
  case vsct => exact kept_vsct s _ _ _ _ _
  -- engines
  case cbdef =>
    exact ⟨_, rfl, kept_unpoisoned _ (kept_if (kept_raise s _) (kept_done s
      (((kept_onEng _ _).trans (kept_push _ _ _)).trans (kept_push _ _ _))))⟩
  case cbadvP | cbadvC => exact ⟨_, rfl, kept_cbadv _ _ fun b m => kept_if (kept_raise s _) (kept_push_done s _ _)⟩
  case cbadvPW | cbadvCW => exact ⟨_, rfl, kept_cbadv _ _ fun b m => kept_if (kept_stalled s _) (kept_pass s)⟩
  case cp => exact kept_cp s _ _ _ _
  case cpg => exact kept_cpg s _ _ _ _
  case cpm => exact kept_cpm s _ _ _ _
  case mlds => exact kept_mlds s _ _ _
  case mmul => exact kept_mmul s _ _ _ _ _
  case mmulc => exact kept_mmulc s _ _ _ _ _
  case mclr =>
    exact ⟨_, rfl, kept_unpoisoned _ (kept_if (kept_raise s _) (kept_if (kept_landfull s _)
      (kept_done s ((kept_push _ _ _).trans (kept_onEng _ _)))))⟩
  case snd => exact kept_snd s _ _ _
  case rcv => exact kept_rcv s _ _ _
  case msq => exact kept_msq s _
  -- global memory, atomics, tags, fences
  case ldg | vldg => exact ⟨_, rfl, kept_unpoisoned _ (kept_loadGlobal s _ _ _ _ _ _ _ _ _)⟩
  case stg | vstg => exact ⟨_, rfl, kept_unpoisoned _ (kept_storeGlobal s _ _ _ _)⟩
  case amo => exact kept_amo s _ _ _ _ _ _
  case red => exact kept_red s _ _ _ _ _ _
  case lqpop => exact kept_lqpop s _
  case tagw => exact ⟨_, rfl, kept_if (kept_done s (kept_observe _ _)) (kept_stalled s _)⟩
  case tagwa => exact ⟨_, rfl, kept_unpoisoned _ (kept_if (kept_done s (kept_observe _ _)) (kept_stalled s _))⟩
  case tagff => exact ⟨_, rfl, kept_if (kept_stalled s _) (kept_push_done s _ _)⟩
  case tagclr => exact ⟨_, rfl, kept_done s ((kept_onEng _ _).trans (kept_push _ _ _))⟩
  case fenceAcq | fenceRel | fenceSc => exact ⟨_, rfl, kept_if (kept_pass s) (kept_stalled s _)⟩
  case drain => exact ⟨_, rfl, kept_if (kept_done s (kept_mergeRed _ _)) (kept_stalled s _)⟩
  case trig => exact ⟨_, rfl, kept_done s (kept_ite (.refl _) ((kept_request _ _).trans (kept_onEng _ _)))⟩
  case coll => exact kept_coll s _
  -- special registers, traps, stops, swaps, checkpoints
  case rdsr => exact kept_rdsr s _ _
  case wrsr => exact kept_wrsr s _ _
  case trap => exact kept_trap s _
  case tret => exact ⟨_, rfl, kept_done s (kept_onIss _ _)⟩
  case stop => exact ⟨_, rfl, (kept_halt s _).trans (kept_pass _)⟩
  case swap => exact ⟨_, rfl, (kept_onPart s _ _).trans (kept_pass _)⟩
  case swapSteward =>
    exact ⟨_, rfl, kept_unpoisoned _ (kept_if (kept_raise s _) ((kept_onPart s _ _).trans (kept_pass _)))⟩
  case ckpt => exact ⟨_, rfl, kept_if (kept_done s (.of_eq rfl rfl rfl rfl rfl)) (kept_stalled s _)⟩
  case lsv => exact ⟨_, rfl, kept_unpoisoned _ (kept_if (kept_raise s _) (kept_push_done s _ _))⟩
  case lrs => exact kept_lrs s _ _

/-- Settles O55: every word answers through `issue`, and its own effect keeps the frame, by the shape of the word. -/
theorem wordsChangeRegistersOnlyByLandings : Obligations.WordsChangeRegistersOnlyByLandings := by
  intro s t i hi hexec
  obtain ⟨k, hk, hkept⟩ := word_kept s i hi
  have h : Kept (loopWord i) (cycleWord i) s t := kept_issue hkept (hk ▸ hexec)
  exact ⟨h.me.regs, h.me.store, h.mem, h.ring, h.ctxs, h.groups, h.host, h.rwins, h.cgroups, h.trctl, h.others, h.me.frame,
    h.me.tagmap, h.me.fpctl, h.me.fpstat, h.me.trapv, h.me.srk0, h.me.srk1, h.me.stage, h.me.loops, h.me.time⟩

end Sys2Proof.Proofs
end

section
/-! PROOFS. Rounding: what the model's rounding of a magnitude makes of it, against the neighbours of R139 and the codes of R128. -/

namespace Sys2Proof.Proofs
open Sys2Proof Sys2Proof.Machine Sys2Proof.Claims

/-! ### The number of bits -/

theorem lt_two_pow_size (k n : Nat) (h : n < 2 ^ 2 ^ k) : n < 2 ^ size k n := by
  induction k generalizing n with
  | zero => unfold size; split <;> simp_all
  | succ k ih =>
    unfold size
    have hpos : 0 < 2 ^ 2 ^ k := by positivity
    split
    case isTrue hz => exact ih n ((Nat.div_eq_zero_iff_lt hpos).mp hz)
    case isFalse =>
      have hq : n / 2 ^ 2 ^ k < 2 ^ 2 ^ k := Nat.div_lt_of_lt_mul (by rwa [← pow_add, ← two_mul, ← pow_succ'])
      rw [pow_add]
      exact Nat.lt_mul_of_div_lt (ih _ hq) hpos |>.trans_eq (Nat.mul_comm _ _)

theorem two_pow_size_le (k n : Nat) (h : n ≠ 0) : 2 ^ size k n ≤ 2 * n := by
  induction k generalizing n with
  | zero => unfold size; simp [h]; omega
  | succ k ih =>
    unfold size
    split
    case isTrue => exact ih n h
    case isFalse hq =>
      calc 2 ^ (2 ^ k + size k (n / 2 ^ 2 ^ k)) = 2 ^ 2 ^ k * 2 ^ size k (n / 2 ^ 2 ^ k) := pow_add ..
        _ ≤ 2 ^ 2 ^ k * (2 * (n / 2 ^ 2 ^ k)) := Nat.mul_le_mul_left _ (ih _ hq)
        _ ≤ 2 * n := by nlinarith [Nat.div_mul_le_self n (2 ^ 2 ^ k)]

/-! ### Codes and their magnitudes (R128) -/

/-- The exponent of the unit of the subnormal codes, the smallest of a format. -/
def unitExp (f : Fmt) : ℤ := 1 - (f.bias : ℤ) - f.mw

/-- The magnitude of a code without its sign, of any exponent. -/
def magnitude (f : Fmt) (c : Nat) : ℚ :=
  if c / 2 ^ f.mw = 0 then ((c % 2 ^ f.mw : ℕ) : ℚ) * 2 ^ unitExp f
  else (2 ^ f.mw + ((c % 2 ^ f.mw : ℕ) : ℚ)) * 2 ^ (((c / 2 ^ f.mw : ℕ) : ℤ) - f.bias - f.mw)

theorem expo_eq_div (f : Fmt) (x : Nat) : expo f x = x % 2 ^ (f.ew + f.mw) / 2 ^ f.mw := by
  rw [expo, Nat.add_comm f.ew, pow_add, Nat.mod_mul_right_div_self]

theorem frac_eq_mod (f : Fmt) (x : Nat) : frac f x = x % 2 ^ (f.ew + f.mw) % 2 ^ f.mw := by
  rw [frac, Nat.mod_mod_of_dvd _ (pow_dvd_pow 2 (Nat.le_add_left f.mw f.ew))]

theorem numberOf_eq (f : Fmt) (x : Nat) :
    numberOf f x = (if minus f x then -1 else 1) * magnitude f (x % 2 ^ (f.ew + f.mw)) := by
  simp only [numberOf, magnitude, expo_eq_div, frac_eq_mod, unitExp]

theorem magnitude_nonneg (f : Fmt) (c : Nat) : 0 ≤ magnitude f c := by
  unfold magnitude; split <;> positivity

theorem abs_numberOf (f : Fmt) (x : Nat) : |numberOf f x| = magnitude f (x % 2 ^ (f.ew + f.mw)) := by
  rw [numberOf_eq, abs_mul, abs_of_nonneg (magnitude_nonneg ..)]
  split <;> simp

/-- The magnitude of a code whose quotient by 2^mw is `e` and whose rest is `r`. -/
theorem magnitude_of_parts (f : Fmt) (e r : Nat) (hr : r < 2 ^ f.mw) : magnitude f (e * 2 ^ f.mw + r) =
    if e = 0 then (r : ℚ) * 2 ^ unitExp f else (2 ^ f.mw + (r : ℚ)) * 2 ^ ((e : ℤ) - 1 + unitExp f) := by
  have hd : (e * 2 ^ f.mw + r) / 2 ^ f.mw = e := by
    rw [Nat.mul_comm, Nat.mul_add_div (by positivity), Nat.div_eq_of_lt hr, Nat.add_zero]
  have hm : (e * 2 ^ f.mw + r) % 2 ^ f.mw = r := by
    rw [Nat.mul_comm, Nat.mul_add_mod, Nat.mod_eq_of_lt hr]
  have he : (e : ℤ) - 1 + unitExp f = e - f.bias - f.mw := by unfold unitExp; ring
  rw [magnitude, hd, hm, he]

theorem magnitude_strictMono (f : Fmt) : StrictMono (magnitude f) := by
  refine strictMono_nat_of_lt_succ fun c => ?_
  have hr : c % 2 ^ f.mw < 2 ^ f.mw := Nat.mod_lt _ (by positivity)
  have hu : (0 : ℚ) < 2 ^ unitExp f := by positivity
  obtain ⟨e, r, hc, hr⟩ : ∃ e r, c = e * 2 ^ f.mw + r ∧ r < 2 ^ f.mw :=
    ⟨_, _, (Nat.div_add_mod' c _).symm, hr⟩
  rw [hc, magnitude_of_parts f e r hr]
  by_cases hn : r + 1 < 2 ^ f.mw
  · rw [Nat.add_assoc, magnitude_of_parts f e (r + 1) hn]
    split <;> push_cast <;> gcongr <;> linarith
  · have hs : e * 2 ^ f.mw + r + 1 = (e + 1) * 2 ^ f.mw + 0 := by rw [Nat.add_mul]; omega
    have hrq : (r : ℚ) < 2 ^ f.mw := by exact_mod_cast hr
    rw [hs, magnitude_of_parts f (e + 1) 0 (by positivity)]
    by_cases he : e = 0
    · simp only [he, ↓reduceIte]
      simpa using mul_lt_mul_of_pos_right hrq hu
    · have hz : (2 : ℚ) ^ ((e + 1 : ℤ) - 1 + unitExp f) = 2 * 2 ^ ((e : ℤ) - 1 + unitExp f) := by
        rw [← zpow_one_add₀ (by norm_num)]; congr 1; ring
      have hp : (0 : ℚ) < 2 ^ ((e : ℤ) - 1 + unitExp f) := by positivity
      simp only [he, Nat.add_eq_zero_iff, false_and, ↓reduceIte]
      push_cast
      rw [hz]
      nlinarith

/-- The code of a count of units has its magnitude (R128). -/
theorem magnitude_codeOf (f : Fmt) (k : Nat) (q : ℤ) (hq : unitExp f ≤ q) (hk : k ≤ 2 ^ (f.mw + 1))
    (hn : q = unitExp f ∨ 2 ^ f.mw ≤ k) : magnitude f (f.codeOf k q) = (k : ℚ) * 2 ^ q := by
  obtain ⟨d, rfl⟩ : ∃ d : ℕ, q = unitExp f + d := ⟨(q - unitExp f).toNat, by omega⟩
  have hd : (unitExp f + d - (1 - (f.bias : ℤ) - f.mw)).toNat = d := by unfold unitExp; omega
  have hd1 : (unitExp f + d - (1 - (f.bias : ℤ) - f.mw) + 1).toNat = d + 1 := by unfold unitExp; omega
  have hpow : 2 ^ (f.mw + 1) = 2 * 2 ^ f.mw := pow_succ' ..
  unfold Fmt.codeOf
  simp only [hd, hd1]
  split
  case isTrue h =>
    have hq0 : d = 0 := by omega
    subst hq0
    simpa using magnitude_of_parts f 0 k h
  case isFalse h =>
    have hp : 0 < 2 ^ f.mw := by positivity
    split
    case isTrue h2 =>
      obtain ⟨j, rfl⟩ : ∃ j, k = 2 ^ f.mw + j := ⟨k - 2 ^ f.mw, by omega⟩
      have hc : d * 2 ^ f.mw + (2 ^ f.mw + j) = (d + 1) * 2 ^ f.mw + j := by ring
      rw [hc, magnitude_of_parts f _ j (by omega), if_neg (by omega)]
      push_cast
      congr 2; ring
    case isFalse h2 =>
      have hk2 : k = 2 * 2 ^ f.mw := by omega
      have hc : (d + 1) * 2 ^ f.mw + k / 2 = (d + 2) * 2 ^ f.mw + 0 := by
        rw [hk2, Nat.mul_div_cancel_left _ (by norm_num)]; ring
      rw [hc, magnitude_of_parts f _ 0 hp, if_neg (by omega), hk2]
      have hz : (2 : ℚ) ^ (((d + 2 : ℕ) : ℤ) - 1 + unitExp f) = 2 * 2 ^ (unitExp f + d) := by
        rw [← zpow_one_add₀ (by norm_num)]; congr 1; push_cast; ring
      rw [hz]; push_cast; ring

/-! ### Rounding to a unit (R139) -/

/-- The units below and above a magnitude, and the one its rounding picks. -/
structure Rounded (mode : RMode) (r : Nat) (neg : Bool) (a : ℚ) (q : ℤ) (x : Nat × Bool) (l h : ℕ) : Prop where
  low : (l : ℚ) * 2 ^ q ≤ a
  high : a ≤ (h : ℚ) * 2 ^ q
  near : h = l + (if x.2 then 1 else 0)
  inexact : x.2 = true → (l : ℚ) * 2 ^ q < a ∧ a < (h : ℚ) * 2 ^ q
  pick : x.1 = l ∨ x.1 = h
  picks : Picks mode r neg a (l * 2 ^ q) (h * 2 ^ q) (x.1 * 2 ^ q)

theorem rounded_of_le (mode : RMode) (r : Nat) (neg : Bool) (m : Nat) (e q : ℤ) (hqe : q ≤ e) :
    Rounded mode r neg (m * 2 ^ e) q (roundInt mode neg r m e q) (m * 2 ^ (e - q).toNat) (m * 2 ^ (e - q).toNat) := by
  have hx : roundInt mode neg r m e q = (m * 2 ^ (e - q).toNat, false) := by rw [roundInt, if_pos hqe]
  have ha : ((m * 2 ^ (e - q).toNat : ℕ) : ℚ) * 2 ^ q = m * 2 ^ e := by
    push_cast
    rw [mul_assoc, ← zpow_natCast, ← zpow_add₀ (by norm_num)]
    congr 2; omega
  rw [hx]
  exact ⟨ha.le, ha.ge, rfl, nofun, .inl rfl, fun _ => rfl, fun h => absurd rfl h⟩

/-- Whether the rounding of a rest of `rem` out of 2^sh above a count `k` goes up, as the model decides it. -/
def goesUp (mode : RMode) (neg : Bool) (r sh k rem : Nat) : Bool :=
  match mode with
  | .rne => decide (2 ^ sh < 2 * rem) || (decide (2 * rem = 2 ^ sh) && k % 2 == 1)
  | .rz => false
  | .ru => !neg && rem != 0
  | .rd => neg && rem != 0
  | .sr => decide (65536 ≤ rem * 65536 / 2 ^ sh + r)

theorem roundInt_of_lt (mode : RMode) (r : Nat) (neg : Bool) (m : Nat) (e q : ℤ) (h : e < q) :
    let sh := (q - e).toNat
    roundInt mode neg r m e q =
      (if goesUp mode neg r sh (m / 2 ^ sh) (m % 2 ^ sh) then m / 2 ^ sh + 1 else m / 2 ^ sh, m % 2 ^ sh != 0) := by
  rw [roundInt, if_neg (by omega)]
  rfl

/-- The model rounds up where R139 says so. -/
theorem goesUp_iff_raises (mode : RMode) (neg : Bool) (r sh k rem : Nat) (q : ℤ) (hrem : rem ≠ 0) :
    goesUp mode neg r sh k rem = true ↔
      raises mode r neg ((k + (rem : ℚ) / 2 ^ sh) * 2 ^ q) (k * 2 ^ q) ((k + 1 : ℕ) * 2 ^ q) := by
  have hu : (0 : ℚ) < 2 ^ q := by positivity
  have hs : (0 : ℚ) < 2 ^ sh := by positivity
  have hdiff : ((k + 1 : ℕ) : ℚ) * 2 ^ q - k * 2 ^ q = 2 ^ q := by push_cast; ring
  cases mode with
  | rz => simp [goesUp, raises]
  | ru => simp [goesUp, raises, hrem]
  | rd => simp [goesUp, raises, hrem]
  | sr =>
    have hx : ((k + (rem : ℚ) / 2 ^ sh) * 2 ^ q - k * 2 ^ q) / 2 ^ q * 65536 = ((rem * 65536 : ℕ) : ℚ) / ((2 ^ sh : ℕ) : ℚ) := by
      push_cast; field_simp; ring
    simp only [goesUp, raises, hdiff, hx, decide_eq_true_eq]
    rw [Rat.floor_natCast_div_natCast]
    norm_cast
  | rne =>
    have hmid : (k : ℚ) * 2 ^ q + (k + 1 : ℕ) * 2 ^ q < 2 * ((k + (rem : ℚ) / 2 ^ sh) * 2 ^ q) ↔ 2 ^ sh < 2 * rem := by
      have hl : (k : ℚ) * 2 ^ q + (k + 1 : ℕ) * 2 ^ q = (2 * k + 1) * 2 ^ q := by push_cast; ring
      have hr : 2 * ((k + (rem : ℚ) / 2 ^ sh) * 2 ^ q) = (2 * k + 2 * rem / 2 ^ sh) * 2 ^ q := by ring
      rw [hl, hr, mul_lt_mul_iff_left₀ hu, add_lt_add_iff_left, one_lt_div hs]
      norm_cast
    have htie : 2 * ((k + (rem : ℚ) / 2 ^ sh) * 2 ^ q) = (k : ℚ) * 2 ^ q + (k + 1 : ℕ) * 2 ^ q ↔ 2 * rem = 2 ^ sh := by
      have hl : (k : ℚ) * 2 ^ q + (k + 1 : ℕ) * 2 ^ q = (2 * k + 1) * 2 ^ q := by push_cast; ring
      have hr : 2 * ((k + (rem : ℚ) / 2 ^ sh) * 2 ^ q) = (2 * k + 2 * rem / 2 ^ sh) * 2 ^ q := by ring
      rw [hl, hr, mul_left_inj' hu.ne', add_right_inj, div_eq_one_iff_eq hs.ne']
      norm_cast
    have heven : (∃ j : ℕ, ((k + 1 : ℕ) : ℚ) * 2 ^ q = 2 * j * 2 ^ q) ↔ k % 2 = 1 := by
      simp only [mul_left_inj' hu.ne']
      norm_cast
      exact ⟨fun ⟨j, hj⟩ => by omega, fun hk => ⟨(k + 1) / 2, by omega⟩⟩
    simp only [goesUp, raises, hdiff, hmid, htie, heven, Bool.or_eq_true, Bool.and_eq_true, decide_eq_true_eq, beq_iff_eq]

/-- What is exact does not go up; the random value of SR has 16 bits. -/
theorem goesUp_zero (mode : RMode) (neg : Bool) (r sh k : Nat) (hr : r < 65536) : goesUp mode neg r sh k 0 = false := by
  cases mode <;> simp [goesUp, hr, (Nat.two_pow_pos sh).ne]

theorem rounded_of_lt (mode : RMode) (r : Nat) (hr : r < 65536) (neg : Bool) (m : Nat) (e q : ℤ) (h : e < q) :
    let x := roundInt mode neg r m e q
    let l := m / 2 ^ (q - e).toNat
    Rounded mode r neg (m * 2 ^ e) q x l (l + if x.2 then 1 else 0) := by
  intro x l
  obtain ⟨sh, rfl⟩ : ∃ sh : ℕ, e = q - sh := ⟨(q - e).toNat, by omega⟩
  have hsh : (q - (q - sh)).toNat = sh := by omega
  have hx : x = _ := roundInt_of_lt mode r neg m (q - sh) q h
  simp only [hsh] at hx
  have hl : l = m / 2 ^ sh := by simp only [l, hsh]
  have hu : (0 : ℚ) < 2 ^ q := by positivity
  have hs : (0 : ℚ) < 2 ^ sh := by positivity
  have ha : (m : ℚ) * 2 ^ (q - sh) = (l + ((m % 2 ^ sh : ℕ) : ℚ) / 2 ^ sh) * 2 ^ q := by
    have hm : (m : ℚ) = 2 ^ sh * l + (m % 2 ^ sh : ℕ) := by rw [hl]; exact_mod_cast (Nat.div_add_mod m (2 ^ sh)).symm
    rw [zpow_sub₀ (by norm_num), zpow_natCast]
    generalize m % 2 ^ sh = rem at hm ⊢
    rw [hm]; field_simp
  have hlt : ((m % 2 ^ sh : ℕ) : ℚ) / 2 ^ sh < 1 := by
    rw [div_lt_one hs]; exact_mod_cast Nat.mod_lt m (by positivity)
  rw [ha, hx, ← hl]
  by_cases hrem : m % 2 ^ sh = 0
  · simp only [hrem, goesUp_zero mode neg r sh l hr]
    simp only [Bool.false_eq_true, ↓reduceIte, bne_self_eq_false, Nat.cast_zero, zero_div, add_zero]
    exact ⟨le_rfl, le_rfl, rfl, nofun, .inl rfl, fun _ => rfl, fun h => absurd rfl h⟩
  · have hb : (m % 2 ^ sh != 0) = true := by simpa using hrem
    have hpos : (0 : ℚ) < ((m % 2 ^ sh : ℕ) : ℚ) / 2 ^ sh := div_pos (by exact_mod_cast Nat.pos_of_ne_zero hrem) hs
    have hlow : (l : ℚ) * 2 ^ q < (l + ((m % 2 ^ sh : ℕ) : ℚ) / 2 ^ sh) * 2 ^ q := by
      gcongr; linarith
    have hhigh : (l + ((m % 2 ^ sh : ℕ) : ℚ) / 2 ^ sh) * 2 ^ q < ((l + 1 : ℕ) : ℚ) * 2 ^ q := by
      gcongr; push_cast; linarith
    have hne : (l : ℚ) * 2 ^ q ≠ ((l + 1 : ℕ) : ℚ) * 2 ^ q := (hlow.trans hhigh).ne
    have hup := goesUp_iff_raises mode neg r sh l (m % 2 ^ sh) q hrem
    simp only [hb, ↓reduceIte]
    refine ⟨hlow.le, hhigh.le, rfl, fun _ => ⟨hlow, hhigh⟩, by dsimp only; split <;> simp, fun h => absurd h hne, fun _ => ⟨?_, ?_⟩⟩
    · intro h; rw [if_pos (hup.mpr h)]
    · intro h; rw [if_neg (fun g => h (hup.mp g))]

/-- Rounding to any unit. -/
theorem exists_rounded (mode : RMode) (r : Nat) (hr : r < 65536) (neg : Bool) (m : Nat) (e q : ℤ) :
    ∃ l h, Rounded mode r neg (m * 2 ^ e) q (roundInt mode neg r m e q) l h := by
  by_cases hqe : q ≤ e
  · exact ⟨_, _, rounded_of_le mode r neg m e q hqe⟩
  · exact ⟨_, _, rounded_of_lt mode r hr neg m e q (by omega)⟩

theorem Rounded.eq_iff {mode r neg a q x l h} (R : Rounded mode r neg a q x l h) : (x.1 : ℚ) * 2 ^ q = a ↔ x.2 = false := by
  obtain ⟨hlow, hhigh, hnear, hin, hpick, -⟩ := R
  cases hx : x.2 with
  | false =>
    have : h = l := by simpa [hx] using hnear
    have hxl : x.1 = l := by omega
    rw [this] at hhigh
    simpa [hxl] using le_antisymm hlow hhigh
  | true =>
    obtain ⟨h1, h2⟩ := hin hx
    rcases hpick with hp | hp <;> rw [hp] <;> simp [h1.ne, h2.ne']

/-- No whole number of units lies between the two that are found. -/
theorem Rounded.high_le {mode r neg a q x l h} (R : Rounded mode r neg a q x l h) (k : ℕ) (ha : a ≤ k * 2 ^ q) : h ≤ k := by
  have hu : (0 : ℚ) < 2 ^ q := by positivity
  have hnear := R.near
  cases hx : x.2 with
  | false =>
    have hlk := R.low.trans ha
    rw [mul_le_mul_iff_left₀ hu, Nat.cast_le] at hlk
    simp only [hx, Bool.false_eq_true, ↓reduceIte] at hnear
    omega
  | true =>
    have hlk := (R.inexact hx).1.trans_le ha
    rw [mul_lt_mul_iff_left₀ hu, Nat.cast_lt] at hlk
    simp only [hx, ↓reduceIte] at hnear
    omega

theorem Rounded.le_low {mode r neg a q x l h} (R : Rounded mode r neg a q x l h) (k : ℕ) (ha : (k : ℚ) * 2 ^ q ≤ a) : k ≤ l := by
  have hu : (0 : ℚ) < 2 ^ q := by positivity
  have hnear := R.near
  cases hx : x.2 with
  | false =>
    have hkh := ha.trans R.high
    rw [mul_le_mul_iff_left₀ hu, Nat.cast_le] at hkh
    simp only [hx, Bool.false_eq_true, ↓reduceIte] at hnear
    omega
  | true =>
    have hkh := ha.trans_lt (R.inexact hx).2
    rw [mul_lt_mul_iff_left₀ hu, Nat.cast_lt] at hkh
    simp only [hx, ↓reduceIte] at hnear
    omega

theorem Rounded.low_le_high {mode r neg a q x l h} (R : Rounded mode r neg a q x l h) : l ≤ h := by
  rw [R.near]; omega

/-! ### The neighbours of a magnitude (R139) -/

/-- The exponent of the unit that a magnitude `m * 2 ^ e` is rounded to, were the exponents of its format unbounded. -/
def freeExp (f : Fmt) (m : Nat) (e : ℤ) : ℤ := e + nbits m - 1 - f.mw

theorem two_pow_le_magnitude (f : Fmt) (m : Nat) (e : ℤ) (hm : m ≠ 0) :
    (2 : ℚ) ^ f.mw * 2 ^ freeExp f m e ≤ m * 2 ^ e := by
  have hsz : (2 : ℚ) ^ nbits m ≤ 2 * m := by exact_mod_cast two_pow_size_le 14 m hm
  have hz : (2 : ℚ) ^ f.mw * 2 ^ freeExp f m e = 2 ^ nbits m * 2 ^ e / 2 := by
    rw [← zpow_natCast, ← zpow_natCast, ← zpow_add₀ (by norm_num), ← zpow_add₀ (by norm_num), div_eq_mul_inv, ← zpow_neg_one,
      ← zpow_add₀ (by norm_num)]
    congr 1; unfold freeExp; ring
  have hu : (0 : ℚ) < 2 ^ e := by positivity
  rw [hz]; nlinarith

theorem magnitude_lt_two_pow (f : Fmt) (m : Nat) (e : ℤ) (hm : m < 2 ^ 2 ^ 14) :
    (m : ℚ) * 2 ^ e < 2 ^ (f.mw + 1) * 2 ^ freeExp f m e := by
  have hsz : (m : ℚ) < 2 ^ nbits m := by exact_mod_cast lt_two_pow_size 14 m hm
  have hz : (2 : ℚ) ^ (f.mw + 1) * 2 ^ freeExp f m e = 2 ^ nbits m * 2 ^ e := by
    rw [← zpow_natCast, ← zpow_natCast, ← zpow_add₀ (by norm_num), ← zpow_add₀ (by norm_num)]
    congr 1; unfold freeExp; push_cast; ring
  rw [hz]; gcongr

/-- The whole numbers of units on both sides of a magnitude are its neighbours on the grid of the format: its unit is that of its
leading bit, or the smallest. -/
theorem Rounded.brackets {f : Fmt} {mode r neg a q x l h} (R : Rounded mode r neg a q x l h) (hq : unitExp f ≤ q)
    (hlt : a < 2 ^ (f.mw + 1) * 2 ^ q) (hlead : q = unitExp f ∨ 2 ^ f.mw * 2 ^ q ≤ a) :
    Brackets (OnGrid f) a (l * 2 ^ q) (h * 2 ^ q) := by
  have hh : h ≤ 2 ^ (f.mw + 1) := R.high_le _ (by exact_mod_cast hlt.le)
  refine ⟨⟨l, q, R.low_le_high.trans hh, hq, rfl⟩, ⟨h, q, hh, hq, rfl⟩, R.low, R.high, ?_⟩
  rintro g ⟨k, p, hk, hp, rfl⟩
  by_cases hpq : q ≤ p
  · obtain ⟨d, rfl⟩ : ∃ d : ℕ, p = q + d := ⟨(p - q).toNat, by omega⟩
    have hg : (k : ℚ) * 2 ^ (q + (d : ℤ)) = ((k * 2 ^ d : ℕ) : ℚ) * 2 ^ q := by
      rw [zpow_add₀ (by norm_num), zpow_natCast]; push_cast; ring
    rw [hg]
    refine ⟨fun h1 => ?_, fun h1 => ?_⟩
    · gcongr; exact_mod_cast R.le_low _ h1
    · gcongr; exact_mod_cast R.high_le _ h1
  · have hlead : (2 : ℚ) ^ f.mw * 2 ^ q ≤ a := hlead.resolve_left (by unfold unitExp; omega)
    have hg : (k : ℚ) * 2 ^ p ≤ 2 ^ f.mw * 2 ^ q := by
      calc (k : ℚ) * 2 ^ p ≤ 2 ^ (f.mw + 1) * 2 ^ (q - 1) := by
            gcongr
            · exact_mod_cast hk
            · norm_num
            · omega
        _ = 2 ^ f.mw * 2 ^ q := by rw [pow_succ, zpow_sub_one₀ (by norm_num)]; ring
    have hl : 2 ^ f.mw ≤ l := R.le_low _ (by exact_mod_cast hlead)
    have hll : (2 : ℚ) ^ f.mw * 2 ^ q ≤ l * 2 ^ q := by gcongr; exact_mod_cast hl
    refine ⟨fun _ => hg.trans hll, fun h1 => ?_⟩
    have ha : a ≤ ((2 ^ f.mw : ℕ) : ℚ) * 2 ^ q := by push_cast; exact h1.trans hg
    calc (h : ℚ) * 2 ^ q ≤ ((2 ^ f.mw : ℕ) : ℚ) * 2 ^ q := by gcongr; exact R.high_le _ ha
      _ ≤ a := by exact_mod_cast hlead
      _ ≤ k * 2 ^ p := h1

/-! ### Tininess (R142) -/

/-- Whether a magnitude, rounded with its exponent unbounded, is below the smallest normal number. -/
def isTiny (f : Fmt) (mode : RMode) (r : Nat) (neg : Bool) (m : Nat) (e : ℤ) : Bool :=
  decide (freeExp f m e < unitExp f) &&
    (decide (freeExp f m e < unitExp f - 1) || decide ((roundInt mode neg r m e (freeExp f m e)).1 < 2 ^ (f.mw + 1)))

theorem least_eq (f : Fmt) : least f = 2 ^ f.mw * 2 ^ unitExp f := by
  rw [least, ← zpow_natCast, ← zpow_add₀ (by norm_num)]
  congr 1; unfold unitExp; ring

theorem below_eq (f : Fmt) : below f = ((2 ^ (f.mw + 1) - 1 : ℕ) : ℚ) * 2 ^ (unitExp f - 1) := by
  have h1 : 1 ≤ 2 ^ (f.mw + 1) := Nat.one_le_two_pow
  rw [below, least_eq, zpow_sub_one₀ (by norm_num), Nat.cast_sub h1, pow_succ]
  push_cast
  field_simp
  ring

theorem below_lt_least (f : Fmt) : below f < least f := by
  have hl : 0 < least f := by unfold least; positivity
  have hp : (0 : ℚ) < 1 / 2 ^ (f.mw + 1) := by positivity
  rw [below]; nlinarith

theorem unitExp_le_freeExp (f : Fmt) (m : Nat) (e : ℤ) (hm : m < 2 ^ 2 ^ 14) (h : least f ≤ m * 2 ^ e) :
    unitExp f ≤ freeExp f m e := by
  have hlt := h.trans_lt (magnitude_lt_two_pow f m e hm)
  rw [least_eq, pow_succ, mul_assoc, ← zpow_one_add₀ (by norm_num), mul_lt_mul_iff_right₀ (by positivity),
    zpow_lt_zpow_iff_right₀ (by norm_num)] at hlt
  omega

theorem freeExp_lt_unitExp (f : Fmt) (m : Nat) (e : ℤ) (h0 : m ≠ 0) (h : (m : ℚ) * 2 ^ e < least f) :
    freeExp f m e < unitExp f := by
  have hlt := (two_pow_le_magnitude f m e h0).trans_lt h
  rwa [least_eq, mul_lt_mul_iff_right₀ (by positivity), zpow_lt_zpow_iff_right₀ (by norm_num)] at hlt

theorem isTiny_of_least_le (f : Fmt) (mode : RMode) (r : Nat) (neg : Bool) (m : Nat) (e : ℤ) (hm : m < 2 ^ 2 ^ 14)
    (h : least f ≤ m * 2 ^ e) : isTiny f mode r neg m e = false := by
  have := unitExp_le_freeExp f m e hm h
  simp [isTiny, Int.not_lt.mpr this]

theorem isTiny_of_le_below (f : Fmt) (mode : RMode) (r : Nat) (hr : r < 65536) (neg : Bool) (m : Nat) (e : ℤ) (h0 : m ≠ 0)
    (h : m * 2 ^ e ≤ below f) : isTiny f mode r neg m e = true := by
  have hlt := freeExp_lt_unitExp f m e h0 (h.trans_lt (below_lt_least f))
  by_cases hp : freeExp f m e < unitExp f - 1
  · simp [isTiny, hlt, hp]
  · have hq : freeExp f m e = unitExp f - 1 := by omega
    obtain ⟨l, g, R⟩ := exists_rounded mode r hr neg m e (freeExp f m e)
    have hg : g ≤ 2 ^ (f.mw + 1) - 1 := R.high_le _ (by rw [hq, ← below_eq]; exact h)
    have hpos : 0 < 2 ^ (f.mw + 1) := by positivity
    have hx : (roundInt mode neg r m e (freeExp f m e)).1 < 2 ^ (f.mw + 1) := by
      have := R.low_le_high
      rcases R.pick with hp | hp <;> omega
    simp [isTiny, hlt, hx]

/-! ### The codes of a format (R128) -/

theorem maxCode_lt (f : Fmt) : f.maxCode < 2 ^ (f.ew + f.mw) := by
  have hp : 0 < 2 ^ (f.ew + f.mw) := by positivity
  unfold Fmt.maxCode
  cases f.sp with
  | ieee =>
    have : (2 ^ f.ew - 1) * 2 ^ f.mw ≤ 2 ^ (f.ew + f.mw) := by rw [pow_add]; gcongr; exact Nat.sub_le ..
    simp only; omega
  | e4m3 => simp only; omega
  | none => simp only; omega

theorem zero_add_mod (f : Fmt) (neg : Bool) (c : Nat) (hc : c < 2 ^ (f.ew + f.mw)) :
    (f.zero neg + c) % 2 ^ (f.ew + f.mw) = c := by
  cases neg <;> simp [Fmt.zero, Nat.mod_eq_of_lt hc]

theorem minus_zero_add (f : Fmt) (neg : Bool) (c : Nat) (hc : c < 2 ^ (f.ew + f.mw)) : minus f (f.zero neg + c) = neg := by
  cases neg <;> simp [minus, Fmt.zero, Nat.div_eq_of_lt hc, Nat.add_div_left]

theorem zero_add_lt (f : Fmt) (neg : Bool) (c : Nat) (hc : c < 2 ^ (f.ew + f.mw)) : f.zero neg + c < 2 ^ f.width := by
  have hw : 2 ^ f.width = 2 * 2 ^ (f.ew + f.mw) := by rw [Fmt.width, Nat.add_assoc, Nat.add_comm, pow_succ']
  cases neg <;> simp only [Fmt.zero, Bool.false_eq_true, ↓reduceIte] <;> omega

/-- No code up to the largest finite one is reserved. -/
theorem not_reservedCode (f : Fmt) (neg : Bool) (c : Nat) (hm : 2 ^ f.mw ≤ f.maxCode) (hc : c ≤ f.maxCode) :
    ¬ reservedCode f (f.zero neg + c) := by
  have hlt := hc.trans_lt (maxCode_lt f)
  have hp : 0 < 2 ^ f.mw := by positivity
  have hdm := Nat.div_add_mod' c (2 ^ f.mw)
  unfold reservedCode
  rw [expo_eq_div, frac_eq_mod, zero_add_mod f neg c hlt]
  rintro (⟨hsp, he⟩ | ⟨hsp, he, hfr⟩)
  · simp only [Fmt.maxCode, hsp] at hc hm
    rw [he] at hdm
    omega
  · simp only [Fmt.maxCode, hsp] at hc hm
    rw [he, hfr, Nat.sub_mul, ← pow_add, one_mul] at hdm
    have : 2 ^ f.mw ≤ 2 ^ (f.ew + f.mw) := Nat.pow_le_pow_right (by norm_num) (by omega)
    omega

theorem numberOf_maxCode (f : Fmt) : numberOf f f.maxCode = magnitude f f.maxCode := by
  have hm : minus f f.maxCode = false := by simpa [Fmt.zero] using minus_zero_add f false f.maxCode (maxCode_lt f)
  rw [numberOf_eq, hm, Nat.mod_eq_of_lt (maxCode_lt f)]; simp

/-! ### One rounding (R139, R140, R142) -/

/-- The unit of a magnitude in a format, and its count of units after rounding. -/
def roundExp (f : Fmt) (m : Nat) (e : ℤ) : ℤ := max (freeExp f m e) (unitExp f)

theorem lt_two_pow_roundExp (f : Fmt) (m : Nat) (e : ℤ) (hm : m < 2 ^ 2 ^ 14) :
    (m : ℚ) * 2 ^ e < 2 ^ (f.mw + 1) * 2 ^ roundExp f m e :=
  (magnitude_lt_two_pow f m e hm).trans_le (by gcongr; exacts [by norm_num, le_max_left ..])

theorem roundExp_eq_or_le (f : Fmt) (m : Nat) (e : ℤ) (h0 : m ≠ 0) :
    roundExp f m e = unitExp f ∨ (2 : ℚ) ^ f.mw * 2 ^ roundExp f m e ≤ m * 2 ^ e := by
  rcases max_choice (freeExp f m e) (unitExp f) with h | h
  · exact .inr (by rw [roundExp, h]; exact two_pow_le_magnitude f m e h0)
  · exact .inl h

/-- The code of a magnitude rounded without regard to overflow. -/
def roundCode (f : Fmt) (mode : RMode) (r : Nat) (neg : Bool) (m : Nat) (e : ℤ) : Nat :=
  f.codeOf (roundInt mode neg r m e (roundExp f m e)).1 (roundExp f m e)

theorem round_eq (f : Fmt) (mode : RMode) (r : Nat) (graded neg : Bool) (m : Nat) (e : ℤ) (h0 : m ≠ 0) :
    f.round mode r graded neg m e =
      if f.maxCode < roundCode f mode r neg m e then (f.overflow mode neg, flOF ||| flNX)
      else if isTiny f mode r neg m e && !graded then (f.zero neg, flFLUSH ||| flUF ||| flNX)
      else (f.zero neg + roundCode f mode r neg m e, flIf (roundInt mode neg r m e (roundExp f m e)).2 flNX |||
        flIf (isTiny f mode r neg m e && (roundInt mode neg r m e (roundExp f m e)).2) flUF) := by
  have hx : (if roundExp f m e = freeExp f m e then roundInt mode neg r m e (freeExp f m e)
      else roundInt mode neg r m e (roundExp f m e)) = roundInt mode neg r m e (roundExp f m e) := by
    split
    case isTrue h => rw [h]
    case isFalse => rfl
  rw [roundCode, ← hx, Fmt.round, if_neg h0]
  rfl

/-- The magnitude rounded, against the code that the model makes of it. -/
theorem magnitude_roundCode (f : Fmt) (mode : RMode) (r : Nat) (hr : r < 65536) (neg : Bool) (m : Nat) (e : ℤ) (h0 : m ≠ 0)
    (hm : m < 2 ^ 2 ^ 14) :
    magnitude f (roundCode f mode r neg m e) = (roundInt mode neg r m e (roundExp f m e)).1 * 2 ^ roundExp f m e := by
  obtain ⟨l, h, R⟩ := exists_rounded mode r hr neg m e (roundExp f m e)
  have hpick := R.pick
  have hlh := R.low_le_high
  have hlt := lt_two_pow_roundExp f m e hm
  have hh : h ≤ 2 ^ (f.mw + 1) := R.high_le _ (by exact_mod_cast hlt.le)
  refine magnitude_codeOf f _ _ (le_max_right ..) (by omega) ?_
  refine (roundExp_eq_or_le f m e h0).imp_right fun hle => ?_
  have := R.le_low (2 ^ f.mw) (by exact_mod_cast hle)
  omega

/-- A magnitude that is tiny is rounded to at most the smallest normal number. -/
theorem roundCode_le_of_le_below (f : Fmt) (mode : RMode) (r : Nat) (hr : r < 65536) (neg : Bool) (m : Nat) (e : ℤ)
    (h0 : m ≠ 0) (hm : m < 2 ^ 2 ^ 14) (h : m * 2 ^ e ≤ below f) : roundCode f mode r neg m e ≤ 2 ^ f.mw := by
  have hlt := h.trans (below_lt_least f).le
  have hq : roundExp f m e = unitExp f := max_eq_right (freeExp_lt_unitExp f m e h0 (h.trans_lt (below_lt_least f))).le
  obtain ⟨l, g, R⟩ := exists_rounded mode r hr neg m e (roundExp f m e)
  have hg : g ≤ 2 ^ f.mw := R.high_le _ (by rw [hq]; exact_mod_cast (least_eq f ▸ hlt))
  have hx : (roundInt mode neg r m e (roundExp f m e)).1 ≤ 2 ^ f.mw := by
    have := R.low_le_high
    rcases R.pick with hp | hp <;> omega
  have hone : magnitude f (2 ^ f.mw) = 2 ^ f.mw * 2 ^ unitExp f := by
    simpa using magnitude_of_parts f 1 0 (by positivity)
  rw [← (magnitude_strictMono f).le_iff_le, magnitude_roundCode f mode r hr neg m e h0 hm, hone, hq]
  have hxq : ((roundInt mode neg r m e (roundExp f m e)).1 : ℚ) ≤ 2 ^ f.mw := by exact_mod_cast hx
  rw [hq] at hxq
  gcongr

theorem flags_of_not_tiny (b : Bool) : flIf b flNX ||| flIf (false && b) flUF = if b then flNX else 0 := by
  cases b <;> rfl

theorem flags_of_tiny (b : Bool) : flIf b flNX ||| flIf (true && b) flUF = if b then flNX ||| flUF else 0 := by
  cases b <;> rfl

theorem overflow_eq (f : Fmt) (mode : RMode) (neg : Bool) :
    f.overflow mode neg = f.zero neg + (if f.sp = .ieee ∧ toInfinity mode neg = true then f.infCode else f.maxCode) := by
  cases mode <;> cases neg <;> simp [Fmt.overflow, toInfinity]

/-- The model rounds a number that is not 0 once, as R139 to R142 say. -/
theorem round_rounds (f : Fmt) (mode : RMode) (r : Nat) (hr : r < 65536) (graded neg : Bool) (m : Nat) (e : ℤ) (h0 : m ≠ 0)
    (hm : m < 2 ^ 2 ^ 14) (hmax : 2 ^ f.mw ≤ f.maxCode) :
    Rounds f mode r graded ((if neg then -1 else 1) * (m * 2 ^ e)) (f.round mode r graded neg m e).1
      (f.round mode r graded neg m e).2 := by
  have hpos : (0 : ℚ) < m * 2 ^ e := mul_pos (by exact_mod_cast Nat.pos_of_ne_zero h0) (by positivity)
  have hneg : decide ((if neg then -1 else 1) * ((m : ℚ) * 2 ^ e) < 0) = neg := by
    cases neg
    · simpa using hpos.le
    · simpa using hpos
  have habs : |(if neg then -1 else 1) * ((m : ℚ) * 2 ^ e)| = m * 2 ^ e := by
    rw [abs_mul, abs_of_pos hpos]; cases neg <;> simp
  have hround := round_eq f mode r graded neg m e h0
  have hmag := magnitude_roundCode f mode r hr neg m e h0 hm
  have htiny := isTiny_of_le_below f mode r hr neg m e h0
  have hnormal := isTiny_of_least_le f mode r neg m e hm
  rw [Rounds, hneg, habs]
  refine ⟨fun hg hb => ?_, fun hg => ?_⟩
  · have hle := (roundCode_le_of_le_below f mode r hr neg m e h0 hm hb).trans hmax
    rw [hround, if_neg (by omega), htiny hb, hg]
    exact ⟨rfl, rfl⟩
  · obtain ⟨l, h, R⟩ := exists_rounded mode r hr neg m e (roundExp f m e)
    have hbr : Brackets (OnGrid f) (m * 2 ^ e) (l * 2 ^ roundExp f m e) (h * 2 ^ roundExp f m e) :=
      R.brackets (le_max_right ..) (lt_two_pow_roundExp f m e hm) (roundExp_eq_or_le f m e h0)
    refine ⟨_, _, _, hbr, R.picks, fun hover => ?_, fun hfit => ?_⟩
    · rw [numberOf_maxCode, ← hmag, (magnitude_strictMono f).lt_iff_lt] at hover
      rw [hround, if_pos hover, overflow_eq]
      exact ⟨rfl, rfl⟩
    · rw [numberOf_maxCode, ← hmag, (magnitude_strictMono f).le_iff_le] at hfit
      have hc := hfit.trans_lt (maxCode_lt f)
      have hflush : (isTiny f mode r neg m e && !graded) = false := by
        rcases hg with hg | hg
        · rw [hg]; simp
        · rw [hnormal hg]; rfl
      have hexact := R.eq_iff
      rw [hround, if_neg (by omega), hflush, if_neg (by simp)]
      refine ⟨zero_add_lt f neg _ hc, not_reservedCode f neg _ hmax hfit, minus_zero_add f neg _ hc, ?_, fun hl => ?_, fun hb => ?_⟩
      · rw [abs_numberOf, zero_add_mod f neg _ hc, hmag]
      · rw [hnormal hl, flags_of_not_tiny]
        cases hx : (roundInt mode neg r m e (roundExp f m e)).2 <;> simp [hexact, hx]
      · rw [htiny hb, flags_of_tiny]
        cases hx : (roundInt mode neg r m e (roundExp f m e)).2 <;> simp [hexact, hx]

/-! ### Operands and their exact sum (R128, R141, R142, R156) -/

/-- The number of a sign, a count and an exponent. -/
def signedNum (neg : Bool) (m : Nat) (e : ℤ) : ℚ := (if neg then -1 else 1) * (m * 2 ^ e)

/-- The operand that a value of the model stands for. -/
def operandOf : FVal → Operand
  | .fin neg m e => .num (signedNum neg m e) neg
  | .inf neg => .inf neg
  | .nan sig => .nan sig

theorem signedNum_eq_zero (neg : Bool) (m : Nat) (e : ℤ) : signedNum neg m e = 0 ↔ m = 0 := by
  cases neg <;> simp [signedNum, zpow_ne_zero]

theorem signedNum_of_le (neg : Bool) (m : Nat) (e q : ℤ) (h : q ≤ e) :
    signedNum neg m e = (signed neg (m * 2 ^ (e - q).toNat) : ℤ) * 2 ^ q := by
  obtain ⟨d, rfl⟩ : ∃ d : ℕ, e = q + d := ⟨(e - q).toNat, by omega⟩
  have hd : (q + d - q).toNat = d := by omega
  rw [signedNum, hd, zpow_add₀ (by norm_num), zpow_natCast]
  cases neg <;> simp only [signed, Bool.false_eq_true, ↓reduceIte] <;> push_cast <;> ring

theorem signed_natAbs (s : ℤ) (q : ℤ) : signedNum (decide (s < 0)) s.natAbs q = s * 2 ^ q := by
  rw [signedNum]
  rcases lt_or_ge s 0 with h | h
  · have : ((s.natAbs : ℤ) : ℚ) = -s := by rw [Int.ofNat_natAbs_of_nonpos h.le]; push_cast; rfl
    rw [← Int.cast_natCast, this]; simp [h]
  · have : ((s.natAbs : ℤ) : ℚ) = s := by rw [Int.natAbs_of_nonneg h]
    rw [← Int.cast_natCast, this]; simp [Int.not_lt.mpr h]

/-- The model's value of a number that no format reserves. -/
theorem value_of_not_reserved (f : Fmt) (x : Nat) (h : ¬ reservedCode f x) : f.value x =
    if expo f x = 0 then .fin (minus f x) (frac f x) (1 - f.bias - f.mw)
    else .fin (minus f x) (2 ^ f.mw + frac f x) ((expo f x : ℤ) - f.bias - f.mw) := by
  simp only [reservedCode, expo, frac, not_or, not_and] at h
  unfold Fmt.value
  cases hsp : f.sp with
  | ieee => simp only [if_neg (h.1 hsp)]; rfl
  | e4m3 => simp only [if_neg (not_and.mpr (h.2 hsp))]; rfl
  | none => rfl

theorem operandOf_value (f : Fmt) (x : Nat) (h : ¬ reservedCode f x) :
    operandOf (f.value x) = .num (numberOf f x) (minus f x) := by
  rw [value_of_not_reserved f x h, numberOf]
  split <;> simp [operandOf, signedNum]

theorem input_of_not_flushed (f : Fmt) (g : Bool) (x : Nat) (h : g = true ∨ ¬ subnormal f x) : f.input g x = (f.value x, 0) := by
  have hs : (!g && f.isSub x) = false := by
    rcases h with rfl | h
    · rfl
    · have : f.isSub x = false := by
        simpa [Fmt.isSub, subnormal, expo, frac] using h
      simp [this]
  rw [Fmt.input, hs]; rfl

theorem not_subnormal_of_reserved (f : Fmt) (x : Nat) (hew : f.ew ≠ 0) (h : reservedCode f x) : ¬ subnormal f x := by
  have hp : 1 < 2 ^ f.ew := Nat.one_lt_two_pow hew
  rintro ⟨he, -⟩
  rcases h with ⟨-, h⟩ | ⟨-, h, -⟩ <;> omega

/-- The model reads a code as the operand it stands for. -/
theorem operandOf_input (f : Fmt) (g : Bool) (x : Nat) (o : Operand) (hew : f.ew ≠ 0) (h : Reads f g x o) :
    operandOf (f.input g x).1 = o := by
  cases h with
  | flushed hg hs =>
    have hi : (!g && f.isSub x) = true := by
      simpa [hg, Fmt.isSub, subnormal, expo, frac] using hs
    rw [Fmt.input, hi]
    simp [operandOf, signedNum, minus]
  | number hr hs => rw [input_of_not_flushed f g x hs, operandOf_value f x hr]
  | infinity hsp he hf =>
    rw [input_of_not_flushed f g x (.inr fun h => h.2 hf)]
    unfold expo at he
    unfold frac at hf
    simp only [Fmt.value, hsp, he, hf, ↓reduceIte]
    rfl
  | nan hr hf =>
    rw [input_of_not_flushed f g x (.inr (not_subnormal_of_reserved f x hew hr))]
    unfold frac at hf
    rcases hr with ⟨hsp, he⟩ | ⟨hsp, he, hfr⟩
    · unfold expo at he
      simp only [Fmt.value, hsp, he, hf, ↓reduceIte]
      rfl
    · unfold expo at he
      unfold frac at hfr
      simp only [Fmt.value, hsp, he, hfr, and_self, ↓reduceIte]
      rfl

theorem input_flags (f : Fmt) (g : Bool) (x : Nat) : (f.input g x).2 = flushFl f g x := by
  cases g with
  | true => rfl
  | false =>
    have hs : f.isSub x = true ↔ expo f x = 0 ∧ frac f x ≠ 0 := by simp [Fmt.isSub, expo, frac]
    by_cases h : f.isSub x = true
    · simp [Fmt.input, flushFl, h, hs.mp h]
    · simp only [Fmt.input, flushFl, Bool.not_false, Bool.true_and, if_neg h, true_and, if_neg (mt hs.mpr h)]

/-- The exact sum of the model is that of R141 and R156, and so is its IV. -/
theorem operandOf_add (rd : Bool) (a b : FVal) :
    operandOf (FVal.add rd a b).1 = (Operand.plus rd (operandOf a) (operandOf b)).1 ∧
    (FVal.add rd a b).2 = ivFl (Operand.plus rd (operandOf a) (operandOf b)).2 := by
  cases a with
  | nan s => cases b <;> exact ⟨rfl, rfl⟩
  | inf n =>
    cases b with
    | nan t => exact ⟨rfl, rfl⟩
    | inf n' => by_cases h : n = n' <;> simp [FVal.add, Operand.plus, operandOf, h, ivFl]
    | fin => exact ⟨rfl, rfl⟩
  | fin n m e =>
    cases b with
    | nan t => exact ⟨rfl, rfl⟩
    | inf n' => exact ⟨rfl, rfl⟩
    | fin n' m' e' =>
      have hx := signedNum_of_le n m e (min e e') (min_le_left ..)
      have hy := signedNum_of_le n' m' e' (min e e') (min_le_right ..)
      have hu : (0 : ℚ) < 2 ^ min e e' := by positivity
      have hsum : signedNum n m e + signedNum n' m' e' =
          ((signed n (m * 2 ^ (e - min e e').toNat) + signed n' (m' * 2 ^ (e' - min e e').toNat) : ℤ) : ℚ) * 2 ^ min e e' := by
        rw [hx, hy]; push_cast; ring
      simp only [FVal.add, Operand.plus, operandOf, hsum, signedNum_eq_zero]
      generalize signed n (m * 2 ^ (e - min e e').toNat) + signed n' (m' * 2 ^ (e' - min e e').toNat) = s
      by_cases hs : s = 0
      · simp [hs, signedNum, ivFl]
      · have hs' : (s : ℚ) * 2 ^ min e e' ≠ 0 := mul_ne_zero (by exact_mod_cast hs) hu.ne'
        have hlt : ((s : ℚ) * 2 ^ min e e' < 0) ↔ s < 0 := by
          rw [← not_le, ← not_le, mul_nonneg_iff_of_pos_right hu]; norm_cast
        simp [hs, hs', signed_natAbs, hlt, ivFl]

/-! ### The result of an operation (R128, R140) -/

/-- A finite value whose count of units the search for its leading bit covers. -/
def InReach (v : FVal) : Prop := ∀ neg m e, v = .fin neg m e → m < 2 ^ 2 ^ 14

/-- What the model writes for an exact result. -/
theorem result_gives (f : Fmt) (mode : RMode) (r : Nat) (hr : r < 65536) (g : Bool) (v : FVal) (hv : InReach v)
    (hmax : 2 ^ f.mw ≤ f.maxCode) :
    Gives f mode r g (operandOf v) (f.result mode r g v).1 (f.result mode r g v).2 := by
  cases v with
  | nan sig => cases hsp : f.sp <;> simp [Gives, operandOf, Fmt.result, hsp, flIf, ivFl]
  | inf neg => cases hsp : f.sp <;> simp [Gives, operandOf, Fmt.result, hsp]
  | fin neg m e =>
    simp only [Gives, operandOf, Fmt.result, signedNum_eq_zero]
    split
    case isTrue h0 => rw [Fmt.round, if_pos h0]; exact ⟨rfl, rfl⟩
    case isFalse h0 => exact round_rounds f mode r hr g neg m e h0 (hv _ _ _ rfl) hmax

theorem not_fin_of_reserved (f : Fmt) (x : Nat) (neg : Bool) (m : Nat) (e : ℤ) (h : reservedCode f x) :
    f.value x ≠ .fin neg m e := by
  unfold Fmt.value
  rcases h with ⟨hsp, he⟩ | ⟨hsp, he, hf⟩
  · unfold expo at he
    simp only [hsp, he, ↓reduceIte]
    split <;> nofun
  · unfold expo at he
    unfold frac at hf
    simp only [hsp, he, hf, and_self, ↓reduceIte]
    nofun

/-- Bounds of the finite values that codes of a format stand for. -/
theorem value_bounds (f : Fmt) (x : Nat) (neg : Bool) (m : Nat) (e : ℤ) (h : f.value x = .fin neg m e) :
    m < 2 ^ (f.mw + 1) ∧ unitExp f ≤ e ∧ e ≤ unitExp f + (2 ^ f.ew : ℕ) := by
  have hr : ¬ reservedCode f x := fun hr => not_fin_of_reserved f x neg m e hr h
  have hf : frac f x < 2 ^ f.mw := Nat.mod_lt _ (by positivity)
  have he : expo f x < 2 ^ f.ew := Nat.mod_lt _ (by positivity)
  have hp : 2 ^ (f.mw + 1) = 2 * 2 ^ f.mw := pow_succ' ..
  rw [value_of_not_reserved f x hr] at h
  split at h
  · obtain ⟨-, rfl, rfl⟩ := FVal.fin.inj h
    exact ⟨by omega, le_rfl, by unfold unitExp; omega⟩
  · obtain ⟨-, rfl, rfl⟩ := FVal.fin.inj h
    exact ⟨by omega, by unfold unitExp; omega, by unfold unitExp; omega⟩

theorem natAbs_signed (neg : Bool) (m : Nat) : (signed neg m).natAbs = m := by
  cases neg <;> simp [signed]

/-- A sum of two values of which these are the bounds stays in reach of the search. -/
theorem add_inReach (rd : Bool) (a b : FVal) (w d : Nat) (q : ℤ) (hd : w + d < 2 ^ 14)
    (ha : ∀ neg m e, a = .fin neg m e → m < 2 ^ w ∧ q ≤ e ∧ e ≤ q + d)
    (hb : ∀ neg m e, b = .fin neg m e → m < 2 ^ w ∧ q ≤ e ∧ e ≤ q + d) : InReach (FVal.add rd a b).1 := by
  intro neg k p hk
  have hadd : ∀ (m : Nat) (e g : ℤ), m < 2 ^ w → (e - g).toNat ≤ d → m * 2 ^ (e - g).toNat < 2 ^ (w + d) := by
    intro m e g hm he
    rw [pow_add]
    exact Nat.mul_lt_mul_of_lt_of_le hm (Nat.pow_le_pow_right (by norm_num) he) (by positivity)
  cases a with
  | nan s => cases b <;> cases hk
  | inf n =>
    cases b with
    | inf n' => simp only [FVal.add] at hk; split at hk <;> cases hk
    | nan | fin => cases hk
  | fin n m e =>
    cases b with
    | nan | inf => cases hk
    | fin n' m' e' =>
      obtain ⟨hm, hqe, heq⟩ := ha n m e rfl
      obtain ⟨hm', hqe', heq'⟩ := hb n' m' e' rfl
      have h1 := hadd m e (min e e') hm (by omega)
      have h2 := hadd m' e' (min e e') hm' (by omega)
      have habs := Int.natAbs_add_le (signed n (m * 2 ^ (e - min e e').toNat)) (signed n' (m' * 2 ^ (e' - min e e').toNat))
      rw [natAbs_signed, natAbs_signed] at habs
      have hle : 2 ^ (w + d + 1) ≤ 2 ^ 2 ^ 14 := Nat.pow_le_pow_right (by norm_num) hd
      have hpow : 2 ^ (w + d + 1) = 2 * 2 ^ (w + d) := pow_succ' ..
      simp only [FVal.add] at hk
      split at hk
      · obtain ⟨-, rfl, -⟩ := FVal.fin.inj hk
        positivity
      · obtain ⟨-, rfl, -⟩ := FVal.fin.inj hk
        omega

/-- An addition with exact subnormals is the exact sum, rounded once (R141, R142, R156). -/
theorem addOp_gives (f : Fmt) (mode : RMode) (r : Nat) (hr : r < 65536) (x y : Nat) (o p : Operand) (hew : f.ew ≠ 0)
    (hreach : f.mw + 1 + 2 ^ f.ew < 2 ^ 14) (hmax : 2 ^ f.mw ≤ f.maxCode) (hx : Reads f true x o) (hy : Reads f true y p) :
    let s := Operand.plus (mode == .rd) o p
    let z := f.addOp { mode := mode, graded := true } r false x y
    ∃ k, Gives f mode r true s.1 z.1 k ∧ z.2 = ivFl s.2 ||| k := by
  intro s z
  have hinput : ∀ x, f.input true x = (f.value x, 0) := fun x => input_of_not_flushed f true x (.inl rfl)
  have hvx := operandOf_input f true x o hew hx
  have hvy := operandOf_input f true y p hew hy
  rw [hinput] at hvx hvy
  obtain ⟨hsum, hiv⟩ := operandOf_add (mode == .rd) (f.value x) (f.value y)
  rw [hvx, hvy] at hsum hiv
  have hin := add_inReach (mode == .rd) (f.value x) (f.value y) _ _ (unitExp f) hreach (value_bounds f x) (value_bounds f y)
  have hres := result_gives f mode r hr true _ hin hmax
  rw [hsum] at hres
  refine ⟨_, hres, ?_⟩
  simp only [z, Fmt.addOp, hinput, Bool.false_eq_true, ↓reduceIte, hiv, s]
  simp

/-- The addition of an atomic unit. -/
theorem fadds_fpAdd (f : Fmt) (hew : f.ew ≠ 0) (hreach : f.mw + 1 + 2 ^ f.ew < 2 ^ 14) (hmax : 2 ^ f.mw ≤ f.maxCode)
    (o v : Nat) : Fadds f o v (fpAdd f o v).1 (fpAdd f o v).2 :=
  fun x y hx hy => addOp_gives f .rne 0 (by norm_num) o v x y hew hreach hmax hx hy

theorem fadds_fp32 (o v : Nat) : Fadds fp32 o v (fpAdd fp32 o v).1 (fpAdd fp32 o v).2 :=
  fadds_fpAdd fp32 (by decide) (by decide) (by decide) o v

theorem fadds_bf16 (o v : Nat) : Fadds bf16 o v (fpAdd bf16 o v).1 (fpAdd bf16 o v).2 :=
  fadds_fpAdd bf16 (by decide) (by decide) (by decide) o v

/-! ### The two halves of a BF16 addition (R224) -/

theorem infCode_lt (f : Fmt) : f.infCode < 2 ^ (f.ew + f.mw) := by
  rw [Fmt.infCode, pow_add]
  exact Nat.mul_lt_mul_of_pos_right (Nat.sub_lt (by positivity) one_pos) (by positivity)

theorem round_lt (f : Fmt) (mode : RMode) (r : Nat) (g neg : Bool) (m : Nat) (e : ℤ) :
    (f.round mode r g neg m e).1 < 2 ^ f.width := by
  have hzero : f.zero neg < 2 ^ f.width := zero_add_lt f neg 0 (by positivity)
  by_cases h0 : m = 0
  · rw [Fmt.round, if_pos h0]; exact hzero
  · rw [round_eq f mode r g neg m e h0]
    split
    case isTrue =>
      rw [overflow_eq]
      exact zero_add_lt f neg _ (by split; exacts [infCode_lt f, maxCode_lt f])
    case isFalse hc =>
      split
      · exact hzero
      · exact zero_add_lt f neg _ ((not_lt.mp hc).trans_lt (maxCode_lt f))

theorem result_bf16_lt (mode : RMode) (r : Nat) (g : Bool) (v : FVal) : (bf16.result mode r g v).1 < 65536 := by
  cases v with
  | nan sig => exact (by decide : bf16.nanCode < 65536)
  | inf neg => exact zero_add_lt bf16 neg _ (infCode_lt bf16)
  | fin neg m e => exact round_lt bf16 mode r g neg m e

theorem fpAdd_bf16_lt (o v : Nat) : (fpAdd bf16 o v).1 < 65536 := result_bf16_lt ..

/-- The floating-point atomics add as R224 says. -/
theorem fadds_amoNew (o v w : Nat) (ho : o < 2 ^ 32) (hv : v < 2 ^ 32) :
    let x := amoNew .faddF32 true o v w
    let y := amoNew .faddBf16x2 true o v w
    Fadds fp32 o v x.1 x.2 ∧ ∃ a b, y.2 = a ||| b ∧ Fadds bf16 (o % 65536) (v % 65536) (y.1 % 65536) a ∧
      Fadds bf16 (o / 65536) (v / 65536) (y.1 / 65536) b := by
  have ho' : o / 65536 % 65536 = o / 65536 := Nat.mod_eq_of_lt (by omega)
  have hv' : v / 65536 % 65536 = v / 65536 := Nat.mod_eq_of_lt (by omega)
  have hlo := fpAdd_bf16_lt (o % 65536) (v % 65536)
  refine ⟨fadds_fp32 o v, _, _, rfl, ?_, ?_⟩
  · have hmod : (amoNew .faddBf16x2 true o v w).1 % 65536 = (fpAdd bf16 (o % 65536) (v % 65536)).1 := by
      rw [amoNew]; omega
    rw [hmod]
    exact fadds_bf16 _ _
  · have hdiv : (amoNew .faddBf16x2 true o v w).1 / 65536 = (fpAdd bf16 (o / 65536) (v / 65536)).1 := by
      rw [amoNew, ho', hv']; omega
    rw [hdiv, ho', hv']
    exact fadds_bf16 _ _

end Sys2Proof.Proofs
end

section
/-! PROOFS. What arrives over the fabric (R26, R110, R223 to R232, R273 to R275, R307, R322 to R330, R335, R338, R354). -/

namespace Sys2Proof.Proofs
open Sys2Proof Sys2Proof.Machine Sys2Proof.Claims

/-! ### Messages (R26, R307, R308) -/

section
variable {s : State} {n id : Nat}

theorem messageArrival_near {r : Req} {dst : Nat} {st : BitVec 26} {bs : List Byte} (hreq : (s.core n).req id = some r)
    (hkind : r.kind = .snd dst false st bs) (hfirst : ((s.core n).firstSend dst false).map Req.id = some id)
    (hring : s.inRing (s.core n) id = false) : Happens (.messageArrival (.sent n id)) s
      (((s.consumeCells (s.core n) id).onCore n fun c => c.dropReq id).intoSkid dst
        { src := n, far := false, stamp := st, bytes := bs }) := by
  show Host.Outcome.next (s.sentArrives n id) = _
  simp [State.sentArrives, hreq, hkind, hfirst, hring]

theorem messageArrival_lost (key : Option Nat) {p : BitVec 6} {rank : BitVec 8} {src : BitVec 24} (st : BitVec 26) (bs : List Byte)
    (h : s.farFor p rank src = none) : Happens (.messageArrival (.far key p rank src st bs)) s (s.farLost p) := by
  show Host.Outcome.next (s.farArrives key p rank src st bs) = _
  simp [State.farArrives, h]

theorem messageArrival_far (key : Option Nat) {p : BitVec 6} {rank : BitVec 8} {src : BitVec 24} (st : BitVec 26) (bs : List Byte)
    {w : Far} (h : s.farFor p rank src = some w) : let g := w.toNat / 2 ^ 43 % 32
    Happens (.messageArrival (.far key p rank src st bs)) s
      (if s.farReaches w then s.enterIn g key (.far p rank src st ((s.group g).plain key bs)) else s) := by
  show Host.Outcome.next (s.farArrives key p rank src st bs) = _
  simp only [State.farArrives, h]
  cases s.farReaches w <;> rfl

theorem farLand_known {p : BitVec 6} {rank : BitVec 8} {src : BitVec 24} (st : BitVec 26) (bs : List Byte) {q : Part} {w : Far}
    {k : Nat} (hpart : s.part p = some q) (hfrom : farFrom q.far src = some w) (htile : (s.tiles p)[rank.toNat]? = some k) :
    let nr := w.toNat % 256
    let here := ((s.core k).eng.skid.filter fun m => m.far && m.src == nr).length
    s.farFor p rank src = some w ∧ s.farLand p rank src st bs = if here < 32 then
      some ((s.intoSkid k { src := nr, far := true, stamp := st, bytes := bs.take 4096 }).imageAgain k) else none := by
  simp [State.farFor, State.farLand, hpart, hfrom, htile, Arch.farRoom]

/-! ### What comes in over a group (R299, R314, R338) -/

theorem keyOk_iff (x : Group) (key : Option Nat) :
    x.keyOk key = true ↔ x.secure = false ∨ ∃ k, key = some k ∧ x.rx.knows k = true := by
  cases key <;> simp [Group.keyOk]

theorem enterIn_unknown {g : Nat} {key : Option Nat} (what : InAct) (h : (s.group g).keyOk key = false) :
    s.enterIn g key what = s.badKey g := by
  simp [State.enterIn, h]

/-- The item that comes in over a group. -/
def incoming (s : State) (g : Nat) (what : InAct) : InItem :=
  { grp := g, tid := s.ring.tids, die := (s.inUnit g what).1, unit := (s.inUnit g what).2, back := none, what := what }

theorem enterIn_full {g : Nat} {key : Option Nat} {what : InAct} (h : (s.group g).keyOk key = true)
    (hroom : s.ringRoom (incoming s g what).ask = false) : s.enterIn g key what = s := by
  unfold incoming at hroom
  simp [State.enterIn, h, hroom]

/-- An item that is alone with its number and its way takes effect in its turn. -/
theorem inTurn_last {t : State} {l : List InItem} {m : InItem} (hin : t.inbound = l ++ [m]) (hback : m.back = none)
    (halone : ∀ y ∈ l, y.tid ≠ m.tid ∧ ¬ (y.grp = m.grp ∧ y.die = m.die ∧ y.unit = m.unit ∧ y.back = none))
    (hunder : t.under m.trip = false) : t.inTurn m.tid = (t.absorb m.trip).inEffect m := by
  have hfind : t.inbound.find? (fun y => y.tid == m.tid) = some m := by
    rw [hin, List.find?_append, List.find?_eq_none.mpr fun y hy => by simpa using (halone y hy).1]
    simp
  have hbefore : t.inbound.takeWhile (fun y => y.tid != m.tid) = l := by
    rw [hin, List.takeWhile_append_of_pos fun y hy => by simpa using (halone y hy).1]
    simp
  have hnone : (l.any fun y => y.grp == m.grp && y.die == m.die && y.unit == m.unit && y.back.isNone) = false := by
    simp only [List.any_eq_false, Bool.and_eq_true, beq_iff_eq, Option.isNone_iff_eq_none, and_assoc]
    exact fun y hy => (halone y hy).2
  simp only [State.inTurn, hfind, hunder, hback, hbefore, hnone, Bool.false_eq_true, if_false]

theorem enterIn_here {g : Nat} {key : Option Nat} {what : InAct} (hkey : (s.group g).keyOk key = true) : let m := incoming s g what
    m.ask = [] → (∀ y ∈ s.inbound, y.tid ≠ m.tid ∧ ¬ (y.grp = g ∧ y.die = m.die ∧ y.unit = m.unit ∧ y.back = none)) →
    s.under m.trip = false → s.enterIn g key what =
      ((({ s with ring := { s.ring with tids := (s.ring.tids + 1) % 65536 }, inbound := s.inbound ++ [m] } : State).onGroup
        g fun x => x.came key).absorb m.trip).inEffect m := by
  intro m hask halone hunder
  have henter : s.enterIn g key what =
      ((({ s with ring := { s.ring with tids := (s.ring.tids + 1) % 65536 }, inbound := s.inbound ++ [m] } : State).onGroup
        g fun x => x.came key).queueCells m.ask).inTurn m.tid := by
    have hroom : s.ringRoom m.ask = true := by rw [hask]; rfl
    simp only [m, incoming] at hroom
    simp only [State.enterIn, hkey, hroom, Bool.not_true, Bool.false_eq_true, if_false]
    rfl
  rw [henter, hask]
  exact inTurn_last rfl rfl halone hunder

theorem badKey_retrains {g : Nat} (hact : (s.group g).state = .active) (hpers : (s.group g).pers = 1 ∨ (s.group g).pers = 2) :
    s.badKey g = s.onGroup g fun x => { x with retrain := true } := by
  exact if_pos ⟨hact, hpers⟩

theorem badKey_drops {g : Nat} (hpers : (s.group g).pers = 3) : s.badKey g = s := by
  simp [State.badKey, hpers]

/-! ### Items that take effect (R250, R292, R299, R307, R328, R329) -/

theorem inEffect_far {m : InItem} {p : BitVec 6} {rank : BitVec 8} {src : BitVec 24} {st : BitVec 26} {bs : List Byte}
    (hwhat : m.what = .far p rank src st bs) :
    (∀ t, s.farLand p rank src st bs = some t → s.inEffect m = t.dropIn m.tid) ∧
    (s.farLand p rank src st bs = none → s.inEffect m = s) :=
  ⟨fun t h => by simp only [State.inEffect, hwhat, h], fun h => by simp only [State.inEffect, hwhat, h]⟩

theorem inEffect_msg {m : InItem} {p : BitVec 6} {fwd : Bool} {bs : List Byte} {l : TLoc} (hwhat : m.what = .msg p fwd bs)
    (hfind : s.findTrav p (fun t => t.meets fwd) = some l) :
    s.inEffect m = (s.dropIn m.tid).arrive l fwd (padTo 128 bs) := by
  simp only [State.inEffect, hwhat, hfind]

theorem inEffect_ret {m : InItem} {p : BitVec 6} {down : Bool} {l : TLoc} (hwhat : m.what = .ret p down)
    (hfind : s.findTrav p (fun t => t.meets (!down)) = some l) :
    s.inEffect m = (s.dropIn m.tid).onTrav l fun t =>
      if down then { t with freedn := t.freedn + 1 } else { t with freeup := t.freeup + 1 } := by
  simp only [State.inEffect, hwhat, hfind]
  rfl

theorem inEffect_held {m : InItem} {r : Inbound} (hwhat : m.what = .req r) (hhold : s.chansHold m.what.pieces = true) :
    s.inEffect m = s.askReclaim m.what.pieces := by
  rw [hwhat] at hhold
  simp only [State.inEffect, hwhat, hhold, if_true]

theorem inEffect_performs {m : InItem} {r : Inbound} (hwhat : m.what = .req r) (hhold : s.chansHold m.what.pieces = false)
    (hroom : s.ringRoom (m.answer [] ++ m.acks) = true) : let y := s.performIn r
    m.answer y.2 = [] → s.inEffect m = ((y.1.dropIn m.tid).queueCells m.acks).replyOut m.grp (some y.2) := by
  intro y hy
  rw [hwhat] at hhold
  simp only [State.inEffect, hwhat, hhold, hroom, Bool.not_true, Bool.false_eq_true, if_false]
  simp only [y] at hy
  rw [hy]
  rfl

/-! ### Atomics (R223, R224, R226) -/

theorem applyAtomic_word (s : State) (k : Core) (w : BitVec 3) (p : Piece) (op : AmoOp) (b : Bool) (v v2 : W64)
    (hn : p.n = if b then 4 else 8) :
    let key := (k.win w).key.toNat
    let old := leNat (s.mem.bytes k.ctx.toNat key (s.encrypted p.pa) p.pa p.n)
    let r := amoNew op b old (v.toNat % 2 ^ (8 * p.n)) (v2.toNat % 2 ^ (8 * p.n))
    s.applyAtomic k w [p] op b v v2 = ({ s with mem := s.mem.write k.ctx.toNat key p.pa (leBytes p.n r.1) }, old,
      r.2 ||| flIf (s.stalePieces [p]) flSTALE) := by
  have hbytes : amoBytes b = p.n := hn.symm
  simp only [State.applyAtomic, State.readPieces, List.flatMap_cons, List.flatMap_nil, List.append_nil, State.writePieces, amoTrunc,
    hbytes, List.take_of_length_le (length_leBytes _ _).le]

theorem sgn_min {m o v : Nat} : sgn m (if sgn m o < sgn m v then o else v) = min (sgn m o) (sgn m v) := by
  split
  · rw [min_eq_left (by omega)]
  · rw [min_eq_right (by omega)]

theorem sgn_max {m o v : Nat} : sgn m (if sgn m o < sgn m v then v else o) = max (sgn m o) (sgn m v) := by
  split
  · rw [max_eq_right (by omega)]
  · rw [max_eq_left (by omega)]

theorem toInt_ofNat_eq_sgn {m o : Nat} (hm : m ≠ 0) (ho : o < 2 ^ m) : (BitVec.ofNat m o).toInt = sgn m o := by
  obtain ⟨k, rfl⟩ : ∃ k, m = k + 1 := ⟨m - 1, by omega⟩
  rw [BitVec.toInt_eq_toNat_cond, BitVec.toNat_ofNat, Nat.mod_eq_of_lt ho, sgn, Nat.add_sub_cancel, pow_succ]
  split <;> split <;> omega

theorem amoOld_signed (b : Bool) (o : Nat) (ho : o < 2 ^ if b then 32 else 64) :
    (amoOld .add b o).toInt = sgn (if b then 32 else 64) o := by
  cases b with
  | false => exact toInt_ofNat_eq_sgn (by norm_num) ho
  | true =>
    have ho : o < 2 ^ 32 := ho
    show ((BitVec.ofNat 32 o).signExtend 64).toInt = sgn 32 o
    rw [BitVec.toInt_signExtend_of_le (by norm_num), toInt_ofNat_eq_sgn (by norm_num) ho]

theorem amoOld_unsigned (b : Bool) (o : Nat) (ho : o < 2 ^ if b then 32 else 64) : (amoOld .maxn b o).toNat = o := by
  have hlt : o < 2 ^ 64 := ho.trans_le (Nat.pow_le_pow_right (by norm_num) (by split <;> norm_num))
  cases b <;> exact (BitVec.toNat_ofNat ..).trans (Nat.mod_eq_of_lt hlt)

theorem amoNew_integer (b : Bool) (o v w : Nat) : let m := if b then 32 else 64
    o < 2 ^ m → v < 2 ^ m → amoNew .add b o v w = ((o + v) % 2 ^ m, 0) ∧ amoNew .swap b o v w = (v, 0) ∧
    amoNew .cas b o v w = (if o = v then w else o, 0) ∧ amoNew .minn b o v w = (min o v, 0) ∧
    amoNew .maxn b o v w = (max o v, 0) ∧ (amoNew .and b o v w).1 = o &&& v ∧ (amoNew .or b o v w).1 = o ||| v ∧
    (amoNew .xor b o v w).1 = o ^^^ v ∧ sgn m (amoNew .min b o v w).1 = min (sgn m o) (sgn m v) ∧
    sgn m (amoNew .max b o v w).1 = max (sgn m o) (sgn m v) ∧
    (amoOld .add b o).toInt = sgn m o ∧ (amoOld .maxn b o).toNat = o := by
  intro m ho hv
  have hm : 8 * amoBytes b = m := by cases b <;> rfl
  have hmin : amoNew .minn b o v w = (min o v, 0) := by
    simp only [amoNew, min_def]; split <;> split <;> simp_all <;> omega
  have hmax : amoNew .maxn b o v w = (max o v, 0) := by
    simp only [amoNew, max_def]; split <;> split <;> simp_all <;> omega
  refine ⟨by simp only [amoNew, hm], rfl, rfl, hmin, hmax, rfl, rfl, rfl, ?_, ?_, amoOld_signed b o ho, amoOld_unsigned b o ho⟩
  · simp only [amoNew, hm]; exact sgn_min
  · simp only [amoNew, hm]; exact sgn_max

theorem atomicOperation_performs {r : Req} {p : Piece} {ps : List Piece} {w : BitVec 3} {o : Nat} {op : AmoOp} {b : Bool}
    {v v2 : W64} (hreach : Reaches s n id r (p :: ps)) (hkind : r.kind = .amo (p :: ps) w o op b v v2) : let c := s.core n
    let x := s.applyAtomic c w (p :: ps) op b v v2
    let old := amoOld op b x.2.1
    let cells := replies c r (p :: ps) (leBytes 8 old.toNat)
    Happens (.atomicOperation n id) s
      ((if cells = [] then (x.1.consumeCells c id).onCore n fun c => (c.dropReq id).fillLq id old x.2.2
        else x.1.sendBack c id cells (leBytes 8 old.toNat) x.2.2 true).overGroups (p :: ps) r.kind.sends) := by
  have hreq : (s.core n).req id = some r := hreach.1.1
  show execAtomicOperation n id s = _
  simp only [execAtomicOperation, hreq, hkind]
  rw [atPlace_of_reaches hreach (by rw [hkind]; rfl), hkind]
  simp only [List.isEmpty_iff]

theorem atomicOperation_returns {r : Req} {bs : List Byte} {fl : Fl} {w : ReqKind} (hreq : (s.core n).req id = some r)
    (hkind : r.kind = .back bs fl true w) (hring : s.inRing (s.core n) id = false) : Happens (.atomicOperation n id) s
      ((s.consumeCells (s.core n) id).onCore n fun c => (c.dropReq id).fillLq id (BitVec.ofNat 64 (leNat bs)) fl) := by
  show execAtomicOperation n id s = _
  simp only [execAtomicOperation, hreq, hkind, hring, Bool.false_eq_true, if_false]

/-! ### Reductions (R226, R322, R323) -/

section
variable {r : Req} {p : Piece} {ps : List Piece} {w : BitVec 3} {o : Nat} {op : AmoOp} {b : Bool} {v : W64} {y : RWin}
  (hreach : Reaches s n id r (p :: ps)) (hkind : r.kind = .red (p :: ps) w o op b v) (hwin : s.rwinAt p.pa = some y)
include hreach hkind hwin

/-- A contribution that has reached its station: from outside its set it is WINDOW; within, it waits for a free station, or for the
channel of the flag word where it is the last, or is entered. -/
theorem reductionContribution_eq : exec (.reductionContribution n id) s = .next (
    (if y.part ≠ (s.core n).part ∨ y.ctx ≠ (s.core n).ctx ∨ !y.pset.getLsbD n then s.onCore n fun c => c.reqFault id .window
     else if s.cellsOf (s.core n) { r with kind := r.kind.setPieces (p :: ps) } = [] ∧ s.mayOpen (p.pa / 2 ^ 37 % 8) p.pa = false then s
     else if s.closes y p.pa = true ∧ s.chansHold [{ pa := y.flagw, n := 8 }] = true then s.askReclaim [{ pa := y.flagw, n := 8 }]
     else s.contribute n id y w o p.pa op b v).overGroups (p :: ps) r.kind.sends) := by
  have hreq : (s.core n).req id = some r := hreach.1.1
  have hhead : headPa (p :: ps) = p.pa := rfl
  show execReductionContribution n id s = _
  simp only [execReductionContribution, hreq, hkind]
  rw [atPlace_of_reaches hreach (by rw [hkind]; rfl), hkind]
  simp only [hhead, hwin, List.isEmpty_iff, paDie, RWin.flagPiece, Bool.not_eq_true']

end

/-! ### Collectives and leave (R110, R232, R354) -/

theorem collComplete_exchanged {k : Coll} (hfind : (s.core n).eng.colls.find? (fun k => k.id == id) = some k) (hsteps : k.steps = 1)
    (hrun : (s.core n).run ≠ .stopped) : Happens (.collComplete n id) s (s.onCore n fun c => c.collDone k) := by
  show execCollComplete n id s = _
  simp [execCollComplete, hfind, hsteps, hrun]

theorem leaveGrant_oldest {d : BitVec 3} {k : Nat} {z : BitVec 32} {r : List (Nat × BitVec 32)}
    (h : (s.die d.toNat).leaves = (k, z) :: r) :
    if (s.die d.toNat).pwruse.toNat + z.toNat ≤ (s.die d.toNat).pwrbud.toNat then
      Happens (.leaveGrant d) s ((s.onDie d.toNat fun d => { d with leaves := r, pwruse := d.pwruse + z }).onCore k fun c =>
        { c with leave := .granted })
    else Happens (.leaveGrant d) s s := by
  have hexec : exec (.leaveGrant d) s = execLeaveGrant d s := rfl
  simp only [Happens, hexec, execLeaveGrant, h]
  split <;> rfl

theorem thermalLimit_lowers {d : BitVec 3} {b : BitVec 32} (h : b.toNat < (s.die d.toNat).pwrbud.toNat) :
    Happens (.thermalLimit d b) s (s.onDie d.toNat fun d => { d with pwrbud := b }) := by
  show execThermalLimit d b s = _
  simp only [execThermalLimit, h, if_true]

end

/-! ### An abandoned collective (R110) -/

theorem core_onCore_ne {n m : Nat} {f : Core → Core} (s : State) (hf : ∀ c, (f c).num = c.num) (h : m ≠ n) :
    (s.onCore n f).core m = s.core m := by
  unfold State.onCore State.setCore
  split
  case isTrue hn =>
    have hme : m ≠ s.me.num := fun hm => h (hm.trans hn.symm)
    simp only [State.core, hf, if_pos hn, if_neg hme]
  case isFalse hn =>
    simp only [State.core]
    split
    · rfl
    · rw [List.getD_eq_getElem?_getD, List.getElem?_set_ne (Ne.symm h), List.getD_eq_getElem?_getD]

theorem core_onCore_self {n : Nat} {f : Core → Core} (s : State) (hf : ∀ c, (f c).num = c.num) (h : (s.core n).ctx ≠ 0) :
    (s.onCore n f).core n = f (s.core n) := by
  unfold State.onCore State.setCore
  split
  case isTrue hn =>
    have hnum : (f (s.core n)).num = s.me.num := by rw [hf, State.core, if_pos hn]
    rw [State.core, hnum, if_pos hn]
  case isFalse hn =>
    have hlen : n < s.rest.length := by
      by_contra hlen
      refine h ?_
      rw [State.core, if_neg hn, List.getD_eq_default _ _ (not_lt.mp hlen)]
      rfl
    simp only [State.core, if_neg hn]
    rw [List.getD_eq_getElem _ _ (by simpa using hlen), List.getElem_set_self]

/-- A collective of a group that has neither exchanged nor been abandoned. -/
def openOf (g : BitVec 32) (k : Coll) : Bool := k.steps == 0 && !k.gone && field k.record 4 4 == g.toNat

/-- What TSMISMATCH of collective `id` makes of its core. -/
def collStopped (id : Nat) (c : Core) : Core :=
  let told := !c.stops
  let d := { c with toArch := c.toArch.onColl id fun x => { x with gone := true, told := told } }
  if told then d.async (asyncStop .tsmismatch 0 0 (.engine id)) else d

theorem collStop_eq (s : State) (n id : Nat) : s.collStop n id = s.onCore n (collStopped id) := rfl

theorem async_fields (c : Core) (p : Stop) : (c.async p).num = c.num ∧ (c.async p).ctx = c.ctx ∧ (c.async p).eng = c.eng := by
  unfold Core.async; split <;> exact ⟨rfl, rfl, rfl⟩

theorem collStopped_fields (id : Nat) (c : Core) : (collStopped id c).num = c.num ∧ (collStopped id c).ctx = c.ctx ∧
    (collStopped id c).eng.colls = c.eng.colls.map fun k => if k.id = id then { k with gone := true, told := !c.stops } else k := by
  unfold collStopped
  dsimp only
  split
  · obtain ⟨hnum, hctx, heng⟩ := async_fields
      { c with toArch := c.toArch.onColl id fun x => { x with gone := true, told := !c.stops } } (asyncStop .tsmismatch 0 0 (.engine id))
    exact ⟨hnum, hctx, by rw [heng]; rfl⟩
  · exact ⟨rfl, rfl, rfl⟩

/-- One collective less is open after its stop. -/
theorem openOf_collStopped {g : BitVec 32} {c : Core} {id : Nat} {k : Coll} (hk : k ∈ (collStopped id c).eng.colls)
    (hopen : openOf g k = true) : k ∈ c.eng.colls ∧ k.id ≠ id := by
  rw [(collStopped_fields id c).2.2, List.mem_map] at hk
  obtain ⟨j, hj, rfl⟩ := hk
  by_cases h : j.id = id
  · simp [openOf, h] at hopen
  · rw [if_neg h]
    exact ⟨hj, h⟩

theorem onCore_frame (s : State) (n : Nat) (f : Core → Core) : (s.onCore n f).mem = s.mem ∧
    (s.onCore n f).cgroups = s.cgroups := by
  unfold State.onCore State.setCore; split <;> exact ⟨rfl, rfl⟩

/-- The open collectives of a core stopped, one after another. -/
def stopColls (s : State) (n : Nat) (l : List Coll) : State := l.foldl (fun s k => s.collStop n k.id) s

theorem stopColls_frame (n : Nat) (l : List Coll) (s : State) :
    (stopColls s n l).mem = s.mem ∧ (stopColls s n l).cgroups = s.cgroups := by
  induction l generalizing s with
  | nil => exact ⟨rfl, rfl⟩
  | cons k l ih =>
    obtain ⟨hmem, hgroups⟩ := ih (s.collStop n k.id)
    obtain ⟨hmem', hgroups'⟩ := onCore_frame s n (collStopped k.id)
    exact ⟨hmem.trans hmem', hgroups.trans hgroups'⟩

theorem core_stopColls_ne {n m : Nat} (h : m ≠ n) (l : List Coll) (s : State) : (stopColls s n l).core m = s.core m := by
  induction l generalizing s with
  | nil => rfl
  | cons k l ih =>
    exact (ih (s.collStop n k.id)).trans (core_onCore_ne s (fun c => (collStopped_fields k.id c).1) h)

theorem core_stopColls_self {g : BitVec 32} {n : Nat} (l : List Coll) (s : State) (hctx : (s.core n).ctx ≠ 0)
    (hl : ∀ k ∈ (s.core n).eng.colls, openOf g k = true → ∃ j ∈ l, j.id = k.id) :
    ((stopColls s n l).core n).ctx = (s.core n).ctx ∧ ∀ k ∈ ((stopColls s n l).core n).eng.colls, openOf g k = false := by
  induction l generalizing s with
  | nil =>
    refine ⟨rfl, fun k hk => ?_⟩
    by_contra hopen
    obtain ⟨j, hj, -⟩ := hl k hk (by simpa using hopen)
    exact absurd hj (List.not_mem_nil)
  | cons a l ih =>
    have hcore : (s.collStop n a.id).core n = collStopped a.id (s.core n) :=
      core_onCore_self s (fun c => (collStopped_fields a.id c).1) hctx
    have hctx' : ((s.collStop n a.id).core n).ctx = (s.core n).ctx := by rw [hcore]; exact (collStopped_fields ..).2.1
    obtain ⟨h1, h2⟩ := ih (s.collStop n a.id) (hctx' ▸ hctx) (fun k hk hopen => by
      rw [hcore] at hk
      obtain ⟨hmem, hid⟩ := openOf_collStopped hk hopen
      obtain ⟨j, hj, hjk⟩ := hl k hmem hopen
      rcases List.mem_cons.mp hj with rfl | hj
      · exact absurd hjk.symm hid
      · exact ⟨j, hj, hjk⟩)
    exact ⟨h1.trans hctx', h2⟩

/-- What the abandonment does at one core. -/
def abandonAt (g : BitVec 32) (s : State) (n : Nat) : State :=
  if (s.core n).ctx = 0 then s else stopColls s n ((s.core n).eng.colls.filter (openOf g))

theorem abandonAt_frame (g : BitVec 32) (s : State) (n : Nat) :
    (abandonAt g s n).mem = s.mem ∧ (abandonAt g s n).cgroups = s.cgroups := by
  unfold abandonAt; split
  · exact ⟨rfl, rfl⟩
  · exact stopColls_frame ..

theorem abandonAt_ctx (g : BitVec 32) (s : State) (n m : Nat) : ((abandonAt g s n).core m).ctx = (s.core m).ctx := by
  unfold abandonAt; split
  · rfl
  case isFalse hctx =>
    by_cases h : m = n
    · subst h
      exact (core_stopColls_self (g := g) _ s hctx fun k hk ho => ⟨k, List.mem_filter.mpr ⟨hk, ho⟩, rfl⟩).1
    · rw [core_stopColls_ne h]

theorem abandonAt_closes (g : BitVec 32) (s : State) (n : Nat) (hctx : (s.core n).ctx ≠ 0) :
    ∀ k ∈ ((abandonAt g s n).core n).eng.colls, openOf g k = false := by
  rw [abandonAt, if_neg hctx]
  exact (core_stopColls_self (g := g) _ s hctx fun k hk ho => ⟨k, List.mem_filter.mpr ⟨hk, ho⟩, rfl⟩).2

theorem abandonAt_keeps (g : BitVec 32) (s : State) (n m : Nat) (h : ∀ k ∈ (s.core m).eng.colls, openOf g k = false) :
    ∀ k ∈ ((abandonAt g s n).core m).eng.colls, openOf g k = false := by
  by_cases hm : m = n
  · subst hm
    have hnone : (s.core m).eng.colls.filter (openOf g) = [] := List.filter_eq_nil_iff.mpr fun k hk => by simp [h k hk]
    rw [abandonAt, hnone]
    split <;> exact h
  · unfold abandonAt; split
    · exact h
    · rwa [core_stopColls_ne hm]

theorem abandonAll_frame (g : BitVec 32) (l : List Nat) (s : State) :
    (l.foldl (abandonAt g) s).mem = s.mem ∧ (l.foldl (abandonAt g) s).cgroups = s.cgroups := by
  induction l generalizing s with
  | nil => exact ⟨rfl, rfl⟩
  | cons n l ih =>
    obtain ⟨hmem, hgroups⟩ := ih (abandonAt g s n)
    obtain ⟨hmem', hgroups'⟩ := abandonAt_frame g s n
    exact ⟨hmem.trans hmem', hgroups.trans hgroups'⟩

theorem abandonAll_keeps (g : BitVec 32) (l : List Nat) (s : State) (m : Nat) (h : ∀ k ∈ (s.core m).eng.colls, openOf g k = false) :
    ∀ k ∈ ((l.foldl (abandonAt g) s).core m).eng.colls, openOf g k = false := by
  induction l generalizing s with
  | nil => exact h
  | cons n l ih => exact ih _ (abandonAt_keeps g s n m h)

theorem abandonAll_closes (g : BitVec 32) (l : List Nat) (s : State) {m : Nat} (hm : m ∈ l) (hctx : (s.core m).ctx ≠ 0) :
    ∀ k ∈ ((l.foldl (abandonAt g) s).core m).eng.colls, openOf g k = false := by
  induction l generalizing s with
  | nil => exact absurd hm List.not_mem_nil
  | cons n l ih =>
    by_cases h : m = n
    · subst h
      exact abandonAll_keeps g l _ m (abandonAt_closes g s m hctx)
    · exact ih _ ((List.mem_cons.mp hm).resolve_left h) (by rwa [abandonAt_ctx])

theorem gone_of_not_open {g : BitVec 32} {k : Coll} (h : openOf g k = false) (hfield : field k.record 4 4 = g.toNat)
    (hsteps : k.steps = 0) : k.gone = true := by
  simpa [openOf, hfield, hsteps] using h

theorem abandon_eq (s : State) (g : BitVec 32) : let s1 := (List.range 256).foldl (abandonAt g) s
    s.abandon g 0 = { s1.setRun g none with
      cgroups := s1.cgroups.map fun y => if y.num = g then { y with dead := true } else y
      ctxs := s1.ctxs.map fun x =>
        if x.id = 0 then x
        else { x with images := x.images.map fun a => { a with eng := { a.eng with
          colls := a.eng.colls.map fun k => if openOf g k then { k with gone := true } else k } } } } := by
  simp only [State.abandon, or_self]
  generalize List.range 256 = l
  rfl

theorem collectiveAbandoned_ends (s : State) (g : BitVec 32) : let t := s.abandon g 0
    Happens (.collectiveAbandoned g) s t ∧ t.mem = s.mem ∧ (∀ x ∈ t.cruns, x.num ≠ g) ∧
    t.cgroups = (s.cgroups.map fun y => if y.num = g then { y with dead := true } else y) ∧
    (∀ m < 256, (s.core m).ctx ≠ 0 → ∀ k ∈ (t.core m).eng.colls, field k.record 4 4 = g.toNat → k.steps = 0 → k.gone = true) ∧
    ∀ x ∈ t.ctxs, x.id ≠ 0 → ∀ a ∈ x.images, ∀ k ∈ a.eng.colls, field k.record 4 4 = g.toNat → k.steps = 0 → k.gone = true := by
  intro t
  obtain ⟨hmem, hgroups⟩ := abandonAll_frame g (List.range 256) s
  have hcloses : ∀ m < 256, (s.core m).ctx ≠ 0 →
      ∀ k ∈ (((List.range 256).foldl (abandonAt g) s).core m).eng.colls, openOf g k = false :=
    fun m hm hctx => abandonAll_closes g _ s (List.mem_range.mpr hm) hctx
  have hhappens : Happens (.collectiveAbandoned g) s t := rfl
  have ht : t = _ := abandon_eq s g
  clear_value t
  generalize (List.range 256).foldl (abandonAt g) s = s1 at hmem hgroups hcloses ht
  subst ht
  refine ⟨hhappens, hmem, fun x hx => ?_, by rw [← hgroups], fun m hm hctx k hk => gone_of_not_open (hcloses m hm hctx k hk), ?_⟩
  · simp only [State.setRun, Option.toList_none, List.append_nil, List.mem_filter, bne_iff_ne, ne_eq] at hx
    exact hx.2
  · intro x hx hid a ha k hk hfield hsteps
    obtain ⟨y, -, rfl⟩ := List.mem_map.mp hx
    by_cases hy : y.id = 0
    · rw [if_pos hy] at hid; exact absurd hy hid
    · rw [if_neg hy] at ha
      obtain ⟨b, -, rfl⟩ := List.mem_map.mp ha
      obtain ⟨j, -, rfl⟩ := List.mem_map.mp hk
      split at hfield
      case isTrue hopen => rw [if_pos hopen]
      case isFalse hopen =>
        rw [if_neg hopen] at hsteps ⊢
        exact gone_of_not_open (by simpa using hopen) hfield hsteps

/-! ### Accesses from outside (R328 to R330, R335, R338) -/

section
variable {s : State} {g : Nat} {r : Inbound}

/-- An access to memory. -/
def toMemory : Inbound → Bool
  | .cxlMemRead .. | .cxlMemWrite .. | .ualRead .. | .ualWrite .. | .ualAtomic .. => true
  | _ => false

theorem inboundRequest_eq (s : State) (g : BitVec 5) (r : Inbound) (h : g.toNat < 24) :
    exec (.inboundRequest g r) s = .next (s.inboundAt g.toNat r) := by
  show execInboundRequest g r s = _
  rw [execInboundRequest, if_neg (by omega)]

theorem plain_none (x : Group) (bs : List Byte) : x.plain none bs = bs := by
  unfold Group.plain; split
  · rename_i h; exact absurd h (by simp)
  · rfl

theorem onGroup_came_none (s : State) (g : Nat) : (s.onGroup g fun x => x.came none) = s := by
  have h : s.groups.set g (s.group g) = s.groups := by
    unfold State.group
    by_cases hg : g < s.groups.length
    · rw [List.getD_eq_getElem _ _ hg, List.set_getElem_self]
    · rw [List.set_eq_of_length_le (by omega)]
  exact congrArg (fun l => { s with groups := l }) h

theorem inboundAt_open (hr : toMemory r = true) (hsec : (s.group g).secure = false) : s.inboundAt g r = (s.inboundMem g none r).getD s := by
  have hkey : (s.group g).keyOk none = true := by simp [Group.keyOk, hsec]
  cases r with
  | cxlMemRead | ualRead | ualAtomic => simp [State.inboundAt, inBody, inKey, inBytes, State.onLink, hkey, State.inboundMem]
  | cxlMemWrite | ualWrite => simp [State.inboundAt, inBody, inKey, inBytes, State.onLink, hkey, State.inboundMem, plain_none]
  | _ => simp [toMemory] at hr

theorem inboundAt_unkeyed (hr : toMemory r = true) (hsec : (s.group g).secure = true) : s.inboundAt g r = s.badKey g := by
  have hkey : (s.group g).keyOk none = false := by simp [Group.keyOk, hsec]
  cases r with
  | cxlMemRead | ualRead | ualAtomic | cxlMemWrite | ualWrite => simp [State.inboundAt, inBody, inKey, State.onLink, hkey]
  | _ => simp [toMemory] at hr

theorem inboundAt_badKey (hr : toMemory r = true) (hsec : (s.group g).secure = true) {k : Nat} (hk : (s.group g).rx.knows k = false) :
    s.inboundAt g (.keyed k r) = s.badKey g := by
  have hkey : (s.group g).keyOk (some k) = false := by simp [Group.keyOk, hsec, hk]
  cases r with
  | cxlMemRead | ualRead | ualAtomic | cxlMemWrite | ualWrite => simp [State.inboundAt, inBody, inKey, State.onLink, hkey]
  | _ => simp [toMemory] at hr

theorem inboundAt_io (hsec : (s.group g).secure = false) (v : Option (BitVec 32)) :
    s.inboundAt g (.cxlIo v) = s.inboundTo g (.cxlIo v) := by
  have hkey : (s.group g).keyOk none = true := by simp [Group.keyOk, hsec]
  simp [State.inboundAt, inBody, inKey, inBytes, State.onLink, hkey, State.inboundMem, onGroup_came_none]

theorem inboundTo_notice (s : State) (g : Nat) (v : BitVec 32) : s.inboundTo g (.cxlIo (some v)) =
    if (s.group g).upstream && (s.group g).carries then
      { s with host := { s.host with evtail := v, mbox := memWrite s.host.mbox 0x1004 (leBytes 4 v.toNat) } }
    else if (s.group g).cxlUp then s.replyOut g none else s := rfl

theorem inboundTo_probe (s : State) (g : Nat) : s.inboundTo g (.cxlIo none) =
    if (s.group g).cxlUp && !(s.group g).carries then s.replyOut g none else s := rfl

theorem upstream_carries (hup : (s.group g).upstream = true) (hkeys : (s.group g).keyless = false) :
    ((s.group g).upstream && (s.group g).carries) = true := by
  simp only [Group.upstream, Bool.and_eq_true, beq_iff_eq] at hup
  simp [Group.upstream, Group.carries, hup, hkeys]

theorem ualOpen_active (hpers : (s.group g).pers = 2) (hact : (s.group g).state = .active) (hkeys : (s.group g).keyless = false) :
    s.ualOpen g = true := by
  simp [State.ualOpen, Group.carries, hpers, hact, hkeys]

theorem ualOpen_inactive (hact : (s.group g).state ≠ .active) : s.ualOpen g = false := by
  simp [State.ualOpen, Group.carries, hact]

/-- A group on its way between personalities, neither carrying traffic nor off. -/
def inBetween (x : Group) : Prop := x.state = .draining ∨ x.state = .quiesced ∨ x.state = .retraining ∨ x.state = .mapping

theorem upstream_inBetween (haway : inBetween (s.group g)) : (s.group g).upstream = false ∧ (s.group g).carries = false := by
  rcases haway with h | h | h | h <;> simp [Group.upstream, Group.carries, h]

theorem cxlUp_inBetween (hpers : (s.group g).pers = 1) (hrole : (s.group g).role = 0) (haway : inBetween (s.group g)) :
    (s.group g).cxlUp = true := by
  rcases haway with h | h | h | h <;> simp [Group.cxlUp, hpers, hrole, h]

/-- An access over CXL.mem, and one over UALink. -/
def ofCxl : Inbound → Bool
  | .cxlMemRead .. | .cxlMemWrite .. => true
  | _ => false

def ofUal : Inbound → Bool
  | .ualRead .. | .ualWrite .. | .ualAtomic .. => true
  | _ => false

theorem toMemory_of_cxl (hr : ofCxl r = true) : toMemory r = true := by cases r <;> simp_all [ofCxl, toMemory]

theorem toMemory_of_ual (hr : ofUal r = true) : toMemory r = true := by cases r <;> simp_all [ofUal, toMemory]

section
variable (hsec : (s.group g).secure = false)
include hsec

theorem cxl_goes (hr : ofCxl r = true) (hup : (s.group g).upstream = true) (hkeys : (s.group g).keyless = false) :
    s.inboundAt g r = s.enterIn g none (.req r) := by
  rw [inboundAt_open (toMemory_of_cxl hr) hsec]
  cases r with
  | cxlMemRead | cxlMemWrite => simp only [State.inboundMem, upstream_carries hup hkeys, if_true, Option.getD_some]
  | _ => simp [ofCxl] at hr

theorem ual_goes (hr : ofUal r = true) (hopen : s.ualOpen g = true) : s.inboundAt g r = s.enterIn g none (.req r) := by
  rw [inboundAt_open (toMemory_of_ual hr) hsec]
  cases r with
  | ualRead | ualWrite | ualAtomic => simp only [State.inboundMem, hopen, if_true, Option.getD_some]
  | _ => simp [ofUal] at hr

theorem ual_left (hr : ofUal r = true) (hopen : s.ualOpen g = false) : s.inboundAt g r = s := by
  rw [inboundAt_open (toMemory_of_ual hr) hsec]
  cases r with
  | ualRead | ualWrite | ualAtomic => simp only [State.inboundMem, hopen, Bool.false_eq_true, if_false, Option.getD_some]
  | _ => simp [ofUal] at hr

theorem cxlWrite_dropped (hup : (s.group g).upstream = false) (pa : Nat) (bs : List Byte) (en : List Bool) :
    s.inboundAt g (.cxlMemWrite pa bs en) = s := by
  rw [inboundAt_open rfl hsec]
  simp only [State.inboundMem, hup, Bool.false_and, Bool.false_eq_true, if_false, Option.getD_some]

theorem cxlIo_served (hup : (s.group g).upstream = true) (hkeys : (s.group g).keyless = false) (v : BitVec 32) :
    s.inboundAt g (.cxlIo (some v)) =
      s.onHost fun h => { h with evtail := v, mbox := memWrite h.mbox 0x1004 (leBytes 4 v.toNat) } := by
  rw [inboundAt_io hsec]
  rw [inboundTo_notice, if_pos (upstream_carries hup hkeys), State.onHost]

theorem cxlRead_refused (hpers : (s.group g).pers = 1) (hrole : (s.group g).role = 0) (haway : inBetween (s.group g)) (pa m : Nat) :
    s.inboundAt g (.cxlMemRead pa m) = s.replyOut g none := by
  rw [inboundAt_open rfl hsec]
  simp only [State.inboundMem, (upstream_inBetween haway).1, cxlUp_inBetween hpers hrole haway, Bool.false_and, Bool.false_eq_true,
    if_false, if_true, Option.getD_some]

theorem cxlIo_refused (hpers : (s.group g).pers = 1) (hrole : (s.group g).role = 0) (haway : inBetween (s.group g))
    (v : Option (BitVec 32)) : s.inboundAt g (.cxlIo v) = s.replyOut g none := by
  obtain ⟨hup, hcarries⟩ := upstream_inBetween haway
  rw [inboundAt_io hsec]
  cases v with
  | none => rw [inboundTo_probe, if_pos (by simp [hcarries, cxlUp_inBetween hpers hrole haway])]
  | some v => rw [inboundTo_notice, if_neg (by simp [hup]), if_pos (cxlUp_inBetween hpers hrole haway)]

end

/-- A write of a peer under a key that the group knows goes on decrypted. -/
theorem inbound_keyed {k : Nat} (pa : Nat) (bs : List Byte) (en : List Bool) (hsec : (s.group g).secure = true)
    (hk : (s.group g).rx.knows k = true) (hpers : (s.group g).pers = 2) (hact : (s.group g).state = .active)
    (hkeys : (s.group g).keyless = false) : s.inboundAt g (.keyed k (.ualWrite pa bs en)) =
      s.enterIn g (some k) (.req (.ualWrite pa (Config.decipher ((s.group g).rx.slot k) k bs) en)) := by
  have hkey : (s.group g).keyOk (some k) = true := by simp [Group.keyOk, hk]
  have hplain : (s.group g).plain (some k) bs = Config.decipher ((s.group g).rx.slot k) k bs := by simp [Group.plain, hsec]
  simp [State.inboundAt, inBody, inKey, inBytes, State.onLink, hkey, hplain, State.inboundMem, ualOpen_active hpers hact hkeys]

end

/-- Settles O48: what the fabric brings, arrival by arrival; the floating-point atomics by the rounding lemmas above. -/
theorem fabricArrivals : Obligations.FabricArrivals := by
  unfold Obligations.FabricArrivals
  intro s n id c
  refine ⟨fun r dst st bs => messageArrival_near, fun key p rank src st bs => ⟨messageArrival_lost key st bs, fun w => messageArrival_far key st bs⟩,
    fun p rank src st bs q w k => farLand_known st bs, fun g key what => ?_, fun m => ?_,
    fun pa n bs en op b v v2 => ⟨rfl, rfl, rfl, rfl, rfl⟩, applyAtomic_word s, fadds_amoNew,
    fun r p ps w o op b v v2 => atomicOperation_performs, fun r bs fl w => atomicOperation_returns, amoNew_integer,
    fun r p ps w o op b v y hreach hkind hwin => ?_, fun k => collComplete_exchanged, collectiveAbandoned_ends s,
    fun d k z r => leaveGrant_oldest, fun d b => thermalLimit_lowers, fun g pa bs en op b v v2 m hg => ?_⟩
  · intro x known m
    have hkey : (s.group g).keyOk key = true ↔ known := keyOk_iff x key
    exact ⟨fun h => enterIn_unknown what (by simpa [← hkey] using h), fun h => enterIn_full (hkey.mpr h),
      fun h => enterIn_here (hkey.mpr h), badKey_retrains, badKey_drops⟩
  · exact ⟨fun p rank src st bs => inEffect_far, fun p fwd bs l => inEffect_msg, fun p down l => inEffect_ret,
      fun r hwhat => ⟨inEffect_held hwhat, inEffect_performs hwhat⟩⟩
  · have hexec := reductionContribution_eq hreach hkind hwin
    refine ⟨fun hset => happens_of_exec hexec ?_, fun hset hpart hctx hopen => happens_of_exec hexec ?_,
      fun hset hpart hctx hnear hopen => happens_of_exec hexec ?_⟩
    · rw [if_pos (by simp [hset])]
    · rw [if_neg (by simp [hset, hpart, hctx, c]), if_neg (fun h => Bool.false_ne_true (h.2.symm.trans (hopen h.1)))]
    · rw [if_neg (by simp [hset, hpart, hctx, c]), if_pos ⟨hnear, hopen⟩]
  · intro x at' goes cxl ual away
    have hat : ∀ r t, s.inboundAt g.toNat r = t → at' r t := fun r t => happens_of_exec (inboundRequest_eq s g r hg)
    have hcxl : ∀ r ∈ cxl, ofCxl r = true := by simp [cxl, ofCxl]
    have hual : ∀ r ∈ ual, ofUal r = true := by simp [ual, ofUal]
    have hmem : ∀ r ∈ cxl ++ ual, toMemory r = true := fun r hr =>
      (List.mem_append.mp hr).elim (fun h => toMemory_of_cxl (hcxl r h)) fun h => toMemory_of_ual (hual r h)
    refine ⟨fun hsec => ⟨fun hup hkeys => ⟨?_, ?_⟩, ?_, fun hpers hrole haway => ⟨?_, ?_⟩, ?_, ?_⟩, fun hsec r hr => ⟨?_, ?_⟩, ?_⟩
    · exact fun r hr => hat _ _ (cxl_goes hsec (hcxl r hr) hup hkeys)
    · exact fun v => hat _ _ (cxlIo_served hsec hup hkeys v)
    · exact fun hup => hat _ _ (cxlWrite_dropped hsec hup pa bs en)
    · exact hat _ _ (cxlRead_refused hsec hpers hrole haway pa m)
    · exact fun v => hat _ _ (cxlIo_refused hsec hpers hrole haway v)
    · exact fun hpers hact hkeys r hr => hat _ _ (ual_goes hsec (hual r hr) (ualOpen_active hpers hact hkeys))
    · exact fun hact r hr => hat _ _ (ual_left hsec (hual r hr) (ualOpen_inactive hact))
    · exact hat _ _ (inboundAt_unkeyed (hmem r hr) hsec)
    · exact fun k hk => hat _ _ (inboundAt_badKey (hmem r hr) hsec hk)
    · exact fun k hsec hk hpers hact hkeys => hat _ _ (inbound_keyed pa bs en hsec hk hpers hact hkeys)

end Sys2Proof.Proofs
end

section
/-! PROOFS. Decoding undoes encoding: the lemmas of the constructors put together (R33, R40 to R48). -/

namespace Sys2Proof.Proofs

open Sys2Proof Sys2Proof.Machine Sys2Proof.Claims Sys2Proof.Laws

/-- A step that is no word has no encoding to read back. -/
theorem encoding_of_event {i : Instr} (h : isEvent i = true) : Encoding.Statement i :=
  fun _ hword => absurd (h.symm.trans hword) nofun

/-- Every constructor by its own layout: the words of bundles by class, those of the memory sequencer, the steps that are no words. -/
theorem encoding_of_instr : ∀ i : Instr, Encoding.Statement i
  | .add .. => Encoding.add _ _ _ _ _
  | .sub .. => Encoding.sub _ _ _ _ _
  | .mul .. => Encoding.mul _ _ _ _ _
  | .mulh .. => Encoding.mulh _ _ _ _ _
  | .mulhn .. => Encoding.mulhn _ _ _ _ _
  | .div .. => Encoding.div _ _ _ _ _
  | .divn .. => Encoding.divn _ _ _ _ _
  | .rem .. => Encoding.rem _ _ _ _ _
  | .remn .. => Encoding.remn _ _ _ _ _
  | .and .. => Encoding.and _ _ _ _ _
  | .or .. => Encoding.or _ _ _ _ _
  | .xor .. => Encoding.xor _ _ _ _ _
  | .andn .. => Encoding.andn _ _ _ _ _
  | .orn .. => Encoding.orn _ _ _ _ _
  | .shl .. => Encoding.shl _ _ _ _ _
  | .shr .. => Encoding.shr _ _ _ _ _
  | .sar .. => Encoding.sar _ _ _ _ _
  | .rol .. => Encoding.rol _ _ _ _ _
  | .ror .. => Encoding.ror _ _ _ _ _
  | .min .. => Encoding.min _ _ _ _ _
  | .max .. => Encoding.max _ _ _ _ _
  | .minn .. => Encoding.minn _ _ _ _ _
  | .maxn .. => Encoding.maxn _ _ _ _ _
  | .clz .. => Encoding.clz _ _ _ _
  | .ctz .. => Encoding.ctz _ _ _ _
  | .popc .. => Encoding.popc _ _ _ _
  | .bfx .. => Encoding.bfx _ _ _ _ _
  | .bfxn .. => Encoding.bfxn _ _ _ _ _
  | .bfi .. => Encoding.bfi _ _ _ _ _
  | .csel .. => Encoding.csel _ _ _ _
  | .addi .. => Encoding.addi _ _ _ _
  | .andi .. => Encoding.andi _ _ _ _
  | .ori .. => Encoding.ori _ _ _ _
  | .xori .. => Encoding.xori _ _ _ _
  | .shli .. => Encoding.shli _ _ _ _
  | .shri .. => Encoding.shri _ _ _ _
  | .sari .. => Encoding.sari _ _ _ _
  | .muli .. => Encoding.muli _ _ _ _
  | .lui .. => Encoding.lui _ _
  | .aup .. => Encoding.aup _ _
  | .cmp .. => Encoding.cmp _ _ _ _ _
  | .cmpi .. => Encoding.cmpi _ _ _ _
  | .tst .. => Encoding.tst _ _ _ _ _
  | .gand .. => Encoding.gand _ _ _
  | .gor .. => Encoding.gor _ _ _
  | .gxor .. => Encoding.gxor _ _ _
  | .gnot .. => Encoding.gnot _ _
  | .ptst .. => Encoding.ptst _ _
  | .prep .. => Encoding.prep _ _
  | .prepr .. => Encoding.prepr _ _
  | .br .. => Encoding.br _
  | .brA .. => Encoding.brA _
  | .brf .. => Encoding.brf _
  | .brl .. => Encoding.brl _
  | .loop .. => Encoding.loop _ _ _ _
  | .loopi .. => Encoding.loopi _ _ _ _
  | .lbrk .. => Encoding.lbrk _ _
  | .sync .. => Encoding.sync _
  | .frame => Encoding.frame
  | .waitt .. => Encoding.waitt _ _
  | .nop => Encoding.nop
  | .halt => Encoding.halt
  | .vadd .. => Encoding.vadd _ _ _ _ _ _
  | .vsub .. => Encoding.vsub _ _ _ _ _ _
  | .vmul .. => Encoding.vmul _ _ _ _ _ _
  | .vmulh .. => Encoding.vmulh _ _ _ _ _
  | .vfma .. => Encoding.vfma _ _ _ _ _ _
  | .vfms .. => Encoding.vfms _ _ _ _ _ _
  | .vfnma .. => Encoding.vfnma _ _ _ _ _ _
  | .vmin .. => Encoding.vmin _ _ _ _ _
  | .vmax .. => Encoding.vmax _ _ _ _ _
  | .vabs .. => Encoding.vabs _ _ _ _ _
  | .vneg .. => Encoding.vneg _ _ _ _ _
  | .vand .. => Encoding.vand _ _ _ _
  | .vor .. => Encoding.vor _ _ _ _
  | .vxor .. => Encoding.vxor _ _ _ _
  | .vandn .. => Encoding.vandn _ _ _ _
  | .vshl .. => Encoding.vshl _ _ _ _ _ _
  | .vshr .. => Encoding.vshr _ _ _ _ _ _
  | .vsar .. => Encoding.vsar _ _ _ _ _ _
  | .vcmp .. => Encoding.vcmp _ _ _ _ _ _
  | .vbc .. => Encoding.vbc _ _ _ _ _ _
  | .vxt .. => Encoding.vxt _ _ _ _ _ _
  | .vlid .. => Encoding.vlid _ _ _
  | .vrot .. => Encoding.vrot _ _ _ _ _ _
  | .vperm .. => Encoding.vperm _ _ _ _ _
  | .vrsum .. => Encoding.vrsum _ _ _ _ _
  | .vrmax .. => Encoding.vrmax _ _ _ _
  | .vrmin .. => Encoding.vrmin _ _ _ _
  | .vrcp .. => Encoding.vrcp _ _ _ _
  | .vrsq .. => Encoding.vrsq _ _ _ _
  | .vex2 .. => Encoding.vex2 _ _ _ _
  | .vlg2 .. => Encoding.vlg2 _ _ _ _
  | .vdot4 .. => Encoding.vdot4 _ _ _ _ _ _
  | .vpopc .. => Encoding.vpopc _ _ _ _
  | .vclz .. => Encoding.vclz _ _ _ _
  | .vtacc .. => Encoding.vtacc _ _ _ _ _
  | .vsel .. => Encoding.vsel _ _ _ _
  | .vselB .. => Encoding.vselB _ _ _ _
  | .vcvt .. => Encoding.vcvt _ _ _ _ _ _
  | .vbq .. => Encoding.vbq _ _ _ _ _ _
  | .vbdq .. => Encoding.vbdq _ _ _ _ _
  | .vbscl .. => Encoding.vbscl _ _ _ _ _ _
  | .vtunp .. => Encoding.vtunp _ _ _ _
  | .vpak .. => Encoding.vpak _ _ _ _ _
  | .vupk .. => Encoding.vupk _ _ _ _ _ _
  | .vrng .. => Encoding.vrng _ _ _ _ _
  | .vptst .. => Encoding.vptst _ _
  | .ld .. => Encoding.ld _ _ _ _ _
  | .st .. => Encoding.st _ _ _ _ _
  | .vld .. => Encoding.vld _ _ _ _ _
  | .vst .. => Encoding.vst _ _ _ _ _
  | .vgat .. => Encoding.vgat _ _ _ _ _ _
  | .vsct .. => Encoding.vsct _ _ _ _ _
  | .vldb .. => Encoding.vldb _ _ _ _ _
  | .cbdef .. => Encoding.cbdef _ _ _ _ _
  | .cbadvP .. => Encoding.cbadvP _ _
  | .cbadvC .. => Encoding.cbadvC _ _
  | .cbadvPW .. => Encoding.cbadvPW _ _
  | .cbadvCW .. => Encoding.cbadvCW _ _
  | .cp .. => Encoding.cp _ _ _ _
  | .cpg .. => Encoding.cpg _ _ _ _
  | .cpm .. => Encoding.cpm _ _ _ _
  | .mlds .. => Encoding.mlds _ _ _
  | .mswap => Encoding.mswap
  | .mmul .. => Encoding.mmul _ _ _ _ _
  | .mmulc .. => Encoding.mmulc _ _ _ _ _
  | .mclr .. => Encoding.mclr _ _
  | .snd .. => Encoding.snd _ _ _
  | .rcv .. => Encoding.rcv _ _ _
  | .msq .. => Encoding.msq _
  | .ldg .. => Encoding.ldg _ _ _ _ _
  | .stg .. => Encoding.stg _ _ _ _
  | .vldg .. => Encoding.vldg _ _ _ _ _
  | .vstg .. => Encoding.vstg _ _ _
  | .amo .. => Encoding.amo _ _ _ _ _ _
  | .red .. => Encoding.red _ _ _ _ _ _
  | .lqpop .. => Encoding.lqpop _
  | .tagw .. => Encoding.tagw _
  | .tagwa .. => Encoding.tagwa _
  | .tagff .. => Encoding.tagff _
  | .tagclr .. => Encoding.tagclr _
  | .fenceAcq .. => Encoding.fenceAcq _
  | .fenceRel .. => Encoding.fenceRel _
  | .fenceSc .. => Encoding.fenceSc _
  | .drain .. => Encoding.drain _
  | .trig => Encoding.trig
  | .coll .. => Encoding.coll _
  | .rdsr .. => Encoding.rdsr _ _
  | .wrsr .. => Encoding.wrsr _ _
  | .trap .. => Encoding.trap _
  | .tret => Encoding.tret
  | .stop .. => Encoding.stop _
  | .swap => Encoding.swap
  | .swapSteward .. => Encoding.swapSteward _
  | .ckpt .. => Encoding.ckpt _
  | .lsv .. => Encoding.lsv _ _
  | .lrs .. => Encoding.lrs _ _
  | .stampAt .. => Encoding.stampAt _
  | .stampHold .. => Encoding.stampHold _
  | .xt .. => Encoding.xt _
  | .xrd .. => Encoding.xrd _ _ _ _ _ _ _
  | .xwr .. => Encoding.xwr _ _ _ _ _ _
  | .xset .. => Encoding.xset _ _ _
  | .xlp .. => Encoding.xlp _ _ _ _ _
  | .xwt .. => Encoding.xwt _ _
  | .xsg .. => Encoding.xsg _ _
  | .xend => Encoding.xend
  | .hold | .resultPerforms | .variableLatencyReply .. | .elasticStall .. | .haltLine .. | .stopRecord .. | .syncPost ..
  | .barrierRelease .. | .legEvaluation .. | .run .. | .done .. | .traverseMessage .. | .slotReturn .. | .triggerPost ..
  | .planeFlip .. | .copyComplete .. | .streamFire .. | .planeReady .. | .axUpdate .. | .msqTransferComplete ..
  | .collComplete .. | .ckptComplete .. | .messageArrival .. | .atomicOperation .. | .reductionContribution ..
  | .pageWalk .. | .invalidation .. | .migration .. | .migrationRelease .. | .channelLending .. | .reclaim .. | .scrub ..
  | .ueccRetry .. | .refreshElision .. | .cellInsert .. | .cellDelivery .. | .cellReturn .. | .rsvmWrite ..
  | .tstatErrClear .. | .pgctlGo .. | .pgctlClear .. | .quiesced .. | .drainTimeout .. | .retraining .. | .keyRotation ..
  | .oldKeyRelease .. | .ptpSync .. | .syncLoss | .ptcStep .. | .leaveGrant .. | .thermalLimit .. | .boot .. | .launch ..
  | .launchGroupRelease .. | .attest .. | .evict .. | .preempt .. | .resume .. | .contextRelease .. | .endContext ..
  | .status .. | .reload .. | .eventPost | .mainRailsOff | .inboundRequest .. | .trickleCheckpoint .. | .auxiliaryRail ..
  | .collectiveAbandoned .. => encoding_of_event rfl

/-- Settles O59: every constructor by the lemma of its layout. -/
theorem decodingUndoesEncoding : Obligations.DecodingUndoesEncoding := encoding_of_instr

/-- Settles O58: each word, evaluated. -/
theorem someWordsRead : Obligations.SomeWordsRead := by
  unfold Obligations.SomeWordsRead
  exact ⟨rfl, rfl, rfl, rfl, rfl, rfl, rfl, rfl, rfl, rfl, rfl, rfl, rfl, rfl⟩

end Sys2Proof.Proofs
end

section
/-! PROOFS. Words with an immediate: their fields as exact values (R43), and what the SI and SU words make of them (R75, R76). -/

namespace Sys2Proof.Proofs

open Sys2Proof Sys2Proof.Machine Sys2Proof.Claims

/-! ### Signed immediates (R43) -/

/-- A signed immediate with or without an XT word, as the signed number of its 64 bits. -/
theorem immS_toInt {n : Nat} (h : n + 27 ≤ 64) (x : Option (BitVec 27)) (f : BitVec n) : (immS x f).toInt = immInt x f := by
  cases x with
  | none => rw [immS, immInt, BitVec.toInt_signExtend_of_le (by omega)]
  | some e =>
    rw [immS, immInt, extended, BitVec.toInt_signExtend_of_le (by omega), BitVec.toInt_append, if_neg (by simp), mul_comm]

/-- Its 64 bits are those of the number. -/
theorem immS_eq_ofInt {n : Nat} (h : n + 27 ≤ 64) (x : Option (BitVec 27)) (f : BitVec n) :
    immS x f = BitVec.ofInt 64 (immInt x f) := by
  rw [← immS_toInt h, BitVec.ofInt_toInt]

/-! ### Exact values and their 64 bits -/

theorem ofInt_toInt_add (x : W64) (z : Int) : x + BitVec.ofInt 64 z = BitVec.ofInt 64 (x.toInt + z) := by
  rw [BitVec.ofInt_add, BitVec.ofInt_toInt]

theorem ofInt_toInt_mul (x : W64) (z : Int) : x * BitVec.ofInt 64 z = BitVec.ofInt 64 (x.toInt * z) := by
  rw [BitVec.ofInt_mul, BitVec.ofInt_toInt]

theorem ofInt_shiftLeft (z : Int) (k : Nat) : BitVec.ofInt 64 z <<< k = BitVec.ofInt 64 (z * 2 ^ k) := by
  have hpow : BitVec.ofInt 64 (2 ^ k) = BitVec.twoPow 64 k := by
    apply BitVec.eq_of_toNat_eq
    rw [BitVec.toNat_twoPow, BitVec.toNat_ofInt]
    norm_cast
  rw [BitVec.shiftLeft_eq_mul_twoPow, BitVec.ofInt_mul, hpow]

theorem ushiftRight_eq_ofInt (x : W64) (k : Nat) : x >>> k = BitVec.ofInt 64 (x.toNat / 2 ^ k : Nat) := by
  rw [BitVec.ofInt_natCast, ← Nat.shiftRight_eq_div_pow, ← BitVec.toNat_ushiftRight, BitVec.ofNat_toNat, BitVec.setWidth_eq]

theorem sshiftRight_eq_ofInt (x : W64) (k : Nat) : x.sshiftRight k = BitVec.ofInt 64 (x.toInt / 2 ^ k) := by
  rw [← BitVec.ofInt_toInt (x := x.sshiftRight k), BitVec.toInt_sshiftRight, Int.shiftRight_eq_div_pow]
  norm_cast

/-! ### The words -/

section
variable {s : State} {d a : Reg}

/-- An SI word with a clear source yields what it computes. -/
theorem yields_alu1 {i : Instr} {sp : Bool} {l : Nat} {f : W64 → W64} {v : W64}
    (hexec : exec i s = issue i s (s.alu1 l sp d a f)) (hr : Ready i s) (hc : Clear s [a]) (hv : f (val s a) = v) :
    Yields i s l d v := by
  rw [← hv]
  exact (exec_of_ready hexec hr).trans (congrArg _ (scalar_clear (firstPoison_of_clear hc)))

/-- A word without sources yields its value. -/
theorem yields_value {i : Instr} {l : Nat} {u v : W64}
    (hexec : exec i s = issue i s (s.done fun c => c.push l (.sreg d u false 0))) (hr : Ready i s) (hv : u = v) :
    Yields i s l d v := by
  rw [← hv]
  exact exec_of_ready hexec hr

end

/-- The address `aup` forms, as R76 gives it. -/
theorem aupAddr_eq (word : IAddr) (x : Option (BitVec 27)) (i : BitVec 20) : aupAddr word x i =
    BitVec.ofInt 64 (((word.toNat / 4 : Nat) + immInt x i / 4) % 8192 * 4 + (i.toNat % 4 : Nat)) := by
  have ho : ((immS x i).sshiftRight 2).toInt = immInt x i / 4 := by
    rw [BitVec.toInt_sshiftRight, immS_toInt (by decide), Int.shiftRight_eq_div_pow]
    rfl
  simp only [aupAddr, ho, pkt]
  rw [← BitVec.ofInt_natCast]
  congr 1
  push_cast
  omega

/-- Settles O6: each word by the number its immediate stands for. -/
theorem scalarImmediates : Obligations.ScalarImmediates := by
  unfold Obligations.ScalarImmediates
  intro s d a sp hc
  have himm {n : Nat} (h : n + 27 ≤ 64) (f : BitVec n) := immS_eq_ofInt h s.me.iss.ext f
  refine ⟨fun i hr => ?_, fun i hr => ?_, fun i hr => ?_, fun i hr => ?_, fun i hr => ?_, fun n hr => ?_, fun n hr => ?_,
    fun n hr => ?_, fun i hr => ?_, fun i hr => ?_⟩
  · exact yields_alu1 (exec_addi ..) hr hc ((congrArg _ (himm (by decide) i)).trans (ofInt_toInt_add ..))
  · exact yields_alu1 (exec_andi ..) hr hc (congrArg _ (himm (by decide) i))
  · exact yields_alu1 (exec_ori ..) hr hc (congrArg _ (himm (by decide) i))
  · exact yields_alu1 (exec_xori ..) hr hc (congrArg _ (himm (by decide) i))
  · exact yields_alu1 (exec_muli ..) hr hc ((congrArg _ (himm (by decide) i)).trans (ofInt_toInt_mul ..))
  · exact yields_alu1 (exec_shli ..) hr hc (by rw [form, ← ofInt_shiftLeft, BitVec.ofInt_toInt]; rfl)
  · exact yields_alu1 (exec_shri ..) hr hc (ushiftRight_eq_ofInt ..)
  · exact yields_alu1 (exec_sari ..) hr hc (sshiftRight_eq_ofInt ..)
  · exact yields_value (exec_lui ..) hr (by rw [himm (by decide), ofInt_shiftLeft]; rfl)
  · exact yields_value (exec_aup ..) hr (aupAddr_eq ..)

end Sys2Proof.Proofs
end

section
/-! PROOFS. Loads and stores of the buffers and of space K (R204 to R207, R241). -/

namespace Sys2Proof.Proofs

open Sys2Proof Sys2Proof.Machine Sys2Proof.Claims

/-! ### Lanes and bytes (R148, R206) -/

theorem elem_packW (w : Nat) (l : List Nat) (j : Nat) : elem w (packW w l) j = l.getD j 0 % 2 ^ w := by
  induction l generalizing j with
  | nil => simp [elem, packW]
  | cons x l ih =>
    cases j with
    | zero => simp [elem, packW, Nat.add_mod]
    | succ j =>
      have hlow : packW w (x :: l) / 2 ^ w = packW w l := by
        rw [packW, Nat.add_mul_div_left _ _ (by positivity), Nat.div_eq_of_lt (Nat.mod_lt _ (by positivity)), Nat.zero_add]
      rw [List.getD_cons_succ, ← ih, elem, elem, Nat.mul_succ, Nat.add_comm, Nat.pow_add, ← Nat.div_div_eq_div_mul, hlow]

theorem packW_lt (w : Nat) (l : List Nat) : packW w l < 2 ^ (w * l.length) := by
  induction l with
  | nil => simp [packW]
  | cons x l ih =>
    have hx := Nat.mod_lt x (show 0 < 2 ^ w by positivity)
    have hl := Nat.mul_le_mul_left (2 ^ w) (Nat.succ_le_of_lt ih)
    rw [packW, List.length_cons, Nat.mul_succ, Nat.pow_add, Nat.mul_comm _ (2 ^ w)]
    rw [Nat.mul_succ] at hl
    omega

/-- A lane as a number is the element of 32 bits in its place. -/
theorem lane_toNat (v : VWord) (j : Nat) : (lane v j).toNat = elem 32 v.toNat j := by
  rw [lane, BitVec.extractLsb'_toNat, Nat.shiftRight_eq_div_pow, elem]

/-- Elements packed fit the bits of as many. -/
theorem toNat_ofNat_packW {w n : Nat} {l : List Nat} (hl : l.length = n) : (BitVec.ofNat (w * n) (packW w l)).toNat = packW w l := by
  rw [BitVec.toNat_ofNat, Nat.mod_eq_of_lt (hl ▸ packW_lt w l)]

/-- A register made of 64 lane values holds each in its lane. -/
theorem lane_ofLanes {l : List Nat} (hl : l.length = 64) (j : Nat) : lane (ofLanes l) j = BitVec.ofNat 32 (l.getD j 0) := by
  have hval := toNat_ofNat_packW (w := 32) hl
  simp only [Nat.reduceMul] at hval
  apply BitVec.eq_of_toNat_eq
  rw [lane_toNat, ofLanes, hval, elem_packW, BitVec.toNat_ofNat]

/-- The same where the values are given by lane. -/
theorem lane_ofLanes_range (f : Nat → Nat) {j : Nat} (hj : j < 64) :
    lane (ofLanes ((List.range 64).map f)) j = BitVec.ofNat 32 (f j) := by
  rw [lane_ofLanes (by simp)]
  simp [hj]

/-- A byte of a register is a byte of its lane. -/
theorem byte_eq_lane (v : VWord) (k : Nat) : v.extractLsb' (8 * k) 8 = (lane v (k / 4)).extractLsb' (8 * (k % 4)) 8 := by
  apply BitVec.eq_of_getLsbD_eq
  intro i hi
  have hplace : 32 * (k / 4) + (8 * (k % 4) + i) = 8 * k + i := by omega
  have hin : 8 * (k % 4) + i < 32 := by omega
  simp [lane, hi, hin, hplace]

theorem bytes_eq_map (b : Buf) (t x n : Nat) : b.bytes t x n = (List.range n).map fun i => b.get t (x + i) := by
  induction n generalizing x with
  | zero => rfl
  | succ n ih =>
    rw [Buf.bytes, ih, List.range_succ_eq_map, List.map_cons, List.map_map]
    congr 1
    exact List.map_congr_left fun i _ => congrArg _ (by simp; omega)

@[simp] theorem length_bytes (b : Buf) (t x n : Nat) : (b.bytes t x n).length = n := by simp [bytes_eq_map]

/-- A part of the bytes read is what a read of that part gives. -/
theorem bytes_part (b : Buf) (t : Nat) {x n k m : Nat} (h : k + m ≤ n) : ((b.bytes t x n).drop k).take m = b.bytes t (x + k) m := by
  simp only [bytes_eq_map]
  apply List.ext_getElem
  · simp; omega
  · intro i h1 h2
    simp [Nat.add_assoc]

theorem take_bytes (b : Buf) (t x : Nat) {n m : Nat} (h : m ≤ n) : (b.bytes t x n).take m = b.bytes t x m :=
  bytes_part b t (k := 0) (by omega)

theorem drop_bytes (b : Buf) (t x : Nat) {n k : Nat} (h : k ≤ n) : (b.bytes t x n).drop k = b.bytes t (x + k) (n - k) := by
  rw [← bytes_part b t (Nat.add_sub_cancel' h).le, List.take_of_length_le (by simp)]

theorem leNat_lt (l : List Byte) : leNat l < 256 ^ l.length := by
  induction l with
  | nil => simp [leNat]
  | cons b l ih =>
    have hb := b.isLt
    rw [leNat, List.length_cons, pow_succ]
    omega

/-- A byte of a little-endian number. -/
theorem leNat_byte (l : List Byte) (i : Nat) : leNat l / 256 ^ i % 256 = (l.getD i 0).toNat := by
  induction l generalizing i with
  | nil => simp [leNat]
  | cons b l ih =>
    have hb := b.isLt
    cases i with
    | zero => simp [leNat]; omega
    | succ i =>
      rw [List.getD_cons_succ, ← ih, leNat, pow_succ', ← Nat.div_div_eq_div_mul]
      congr 2
      omega

/-! ### Addresses (R41, R205) -/

/-- The address of an access is its base plus its offset in units, rounded down. -/
theorem mbAddr_eq (s : State) (b : Reg) (off : BitVec 10) (u n : Nat) :
    mbAddr (s.me.s b).val s.me.iss.ext off u n = bufAddr s b off u n := by
  have hz : immZ s.me.iss.ext off = BitVec.ofInt 64 (immNat s.me.iss.ext off) := by
    rw [← immZ_toInt (by decide), BitVec.ofInt_toInt]
  rw [mbAddr, bufAddr, val, hz, ← BitVec.ofInt_natCast 64 u, ← BitVec.ofInt_mul, ofInt_toInt_add, BitVec.toNat_ofInt]
  rfl

theorem spaceSize_of_bufOf {sp : Space} {u : BSpace} (h : bufOf sp = some u) : spaceSize sp = u.size := by
  cases sp <;> cases h <;> rfl

theorem eq_k_of_bufOf {sp : Space} (h : bufOf sp = none) : sp = .k := by
  cases sp with
  | k => rfl
  | a | w | c => cases h

/-! ### What loads write (R206) -/

section
variable {s : State} {sp : Space} {r b : Reg} {z : Size} {off : BitVec 10} {u : BSpace} {a l : Nat} {vec : Bool}

theorem ldVal_eq (z : Size) {bs : List Byte} (h : bs.length = sizeBytes z) :
    ldVal z bs = BitVec.ofInt 64 (sgn (8 * sizeBytes z) (leNat bs)) := by
  have hlt : leNat bs < 2 ^ (8 * sizeBytes z) := by
    have := leNat_lt bs
    rwa [h, show (256 : Nat) = 2 ^ 8 from rfl, ← pow_mul] at this
  have hint := toInt_ofNat_eq_sgn (by cases z <;> decide) hlt
  rw [← hint]
  change ldVal z bs = (BitVec.ofNat _ _).signExtend 64
  cases z
  · rfl
  · rfl
  · rfl
  · exact (BitVec.signExtend_eq _).symm

/-- `vld` holds the elements as they stand from its address on. -/
theorem holds_vldVal (s : State) (u : BSpace) (a n : Nat) : HoldsElements s u a n (vldVal n (s.me.bytes u a (64 * n))) := by
  intro j hj
  have hfit : n * j + n ≤ 64 * n := by nlinarith
  rw [vldVal, lane_ofLanes_range _ hj, Core.bytes, bytes_part _ _ hfit]
  rfl

/-- The bytes that fall on a lane when a list of bytes is repeated over the register. -/
def repeated (bs : List Byte) (j : Nat) : List Byte := (List.range 4).map fun i => bs.getD ((4 * j + i) % bs.length) 0

/-- An element of at most 8 bytes falls on every other lane in the same way. -/
theorem repeated_mod_two {bs : List Byte} (h : bs.length ∣ 8) (j : Nat) : repeated bs j = repeated bs (j % 2) := by
  refine List.map_congr_left fun i _ => ?_
  have hsplit : 4 * j + i = 4 * (j % 2) + i + 8 * (j / 2) := by omega
  rw [hsplit, Nat.add_mod _ (8 * _), Nat.mod_eq_zero_of_dvd (h.mul_right _), Nat.add_zero, Nat.mod_mod]

theorem sizeBytes_dvd (z : Size) : sizeBytes z ∣ 8 := by cases z <;> decide

/-- The bytes of a lane under `vldb`. -/
theorem lane_vldbVal (z : Size) {bs : List Byte} (h : bs.length = sizeBytes z) {j : Nat} (hj : j < 64) :
    lane (vldbVal z bs) j = BitVec.ofNat 32 (leNat (repeated bs j)) := by
  unfold vldbVal
  dsimp only
  rw [lane_ofLanes_range _ hj, repeated_mod_two (h ▸ sizeBytes_dvd z) j]
  congr 1
  match z, bs, h with
  | .b, [a], _ => simp [repeated, List.range, List.range.loop, leNat, Nat.mod_one]; omega
  | .h, [a, b], _ =>
    rcases Nat.mod_two_eq_zero_or_one j with hm | hm <;> simp [repeated, List.range, List.range.loop, leNat, hm] <;> omega
  | .w, [a, b, c, d], _ =>
    rcases Nat.mod_two_eq_zero_or_one j with hm | hm <;> simp [repeated, List.range, List.range.loop, leNat, hm]
  | .d, [a, b, c, d, e, f, g, k], _ =>
    rcases Nat.mod_two_eq_zero_or_one j with hm | hm <;> simp [repeated, List.range, List.range.loop, leNat, hm] <;> omega

/-- `vldb` repeats the bytes of its element over the whole register. -/
theorem vldbVal_byte (z : Size) {bs : List Byte} (h : bs.length = sizeBytes z) {k : Nat} (hk : k < 256) :
    (vldbVal z bs).extractLsb' (8 * k) 8 = bs.getD (k % sizeBytes z) 0 := by
  have hlt : leNat (repeated bs (k / 4)) < 2 ^ 32 := by
    have hbound := leNat_lt (repeated bs (k / 4))
    rwa [repeated, List.length_map, List.length_range] at hbound
  have hget : (repeated bs (k / 4)).getD (k % 4) 0 = bs.getD (k % sizeBytes z) 0 := by
    have h4 : k % 4 < 4 := Nat.mod_lt _ (by decide)
    simp [repeated, h4, h, Nat.div_add_mod]
  apply BitVec.eq_of_toNat_eq
  rw [byte_eq_lane, lane_vldbVal z h (by omega), BitVec.extractLsb'_toNat, BitVec.toNat_ofNat, Nat.mod_eq_of_lt hlt,
    Nat.shiftRight_eq_div_pow, pow_mul, ← hget, ← leNat_byte]
  simp only [Nat.reducePow]

end

/-! ### Loads (R205, R207) -/

/-- What a word does on the executing core matters only there. -/
theorem done_congr {s : State} {f g : Core → Core} (h : f s.me = g s.me) : s.done f = s.done g :=
  congrArg (fun c : Core => s.onMe fun _ => c.issued) h

section
variable {s : State} {sp : Space} {r b : Reg} {z : Size} {off : BitVec 10} {u : BSpace} {a l : Nat} {vec : Bool}

theorem load_buffer (hu : bufOf sp = some u) (hfit : a + formBytes vec z ≤ u.size) : s.load sp vec z r a l =
    s.done fun c => c.pushAll l .no (loadLandings vec z r (s.me.bytes u a (formBytes vec z))) := by
  simp only [State.load, hu, spaceSize_of_bufOf hu, if_neg (Nat.not_lt.mpr hfit)]
  exact done_congr rfl

theorem load_k (hu : bufOf sp = none) (hfit : a + formBytes vec z ≤ 2 ^ 24) : s.load sp vec z r a l =
    s.done fun c => (c.pushAll 10 (.net c.eng.nextId) (loadLandings vec z r [])).request (.kload a vec z) := by
  obtain rfl := eq_k_of_bufOf hu
  simp only [State.load, hu]
  exact if_neg (Nat.not_lt.mpr hfit)

/-- `ld` with a clear base loads from its aligned address. -/
theorem exec_ld_clear (hr : Ready (.ld sp r b z off) s) (hc : Clear s [b]) : exec (.ld sp r b z off) s =
    .next (s.load sp false z r (bufAddr s b off (sizeBytes z) (sizeBytes z)) 4) := by
  rw [exec_of_ready (exec_ld ..) hr, ← mbAddr_eq]
  exact congrArg _ (unpoisoned_of_clear hc)

/-- `vld` likewise. -/
theorem exec_vld_clear (hr : Ready (.vld sp r b z off) s) (hc : Clear s [b]) : exec (.vld sp r b z off) s =
    .next (s.load sp true z r (bufAddr s b off (64 * sizeBytes z) (elemBytes z)) 5) := by
  rw [exec_of_ready (exec_vld ..) hr, ← mbAddr_eq]
  exact congrArg _ (unpoisoned_of_clear hc)

/-- `vldb` with a clear base and its element in the buffer. -/
theorem exec_vldb_clear (hr : Ready (.vldb sp r b z off) s) (hc : Clear s [b]) (hu : bufOf sp = some u)
    (hfit : bufAddr s b off (64 * sizeBytes z) (elemBytes z) + sizeBytes z ≤ u.size) :
    Sends (.vldb sp r b z off) s 6
      (.vreg r (vldbVal z (s.me.bytes u (bufAddr s b off (64 * sizeBytes z) (elemBytes z)) (sizeBytes z))) 0 0) := by
  rw [Sends, Acts, exec_of_ready (exec_vldb ..) hr]
  refine congrArg _ ((unpoisoned_of_clear hc).trans ?_)
  simp only [hu, mbAddr_eq, if_neg (Nat.not_lt.mpr hfit)]
  exact done_congr rfl

theorem loadLandings_vec (h : z ≠ .d) (bs : List Byte) :
    loadLandings true z r bs = [.vreg r (vldVal (sizeBytes z) bs) 0 0] := by
  cases z
  · rfl
  · rfl
  · rfl
  · exact absurd rfl h

end

/-- Settles O20: each load by its clear base and what stands at its address. -/
theorem loadsBringBufferBytes : Obligations.LoadsBringBufferBytes := by
  unfold Obligations.LoadsBringBufferBytes
  intro s sp r b z off hc
  refine ⟨fun u hu => ⟨fun hr hfit => ?ld, fun hr hz hfit => ?vld, fun hr hz hfit => ?vldPair, fun hr hfit => ?vldb⟩,
    fun hu => ⟨fun hr hfit => ?ldK, fun hr hz hfit => ?vldK, fun hr hz hfit => ?vldPairK⟩⟩
  case ld =>
    have hval := ldVal_eq z (bs := s.me.bytes u (bufAddr s b off (sizeBytes z) (sizeBytes z)) (sizeBytes z)) (length_bytes ..)
    refine (exec_ld_clear hr hc).trans ?_
    rw [load_buffer hu hfit, ← hval]
    rfl
  case vld =>
    refine ⟨_, (exec_vld_clear hr hc).trans ?_, holds_vldVal _ _ _ _⟩
    rw [load_buffer hu hfit, loadLandings_vec hz]
    rfl
  case vldPair =>
    subst hz
    refine ⟨_, _, (exec_vld_clear hr hc).trans ?_, holds_vldVal _ _ _ _, holds_vldVal _ _ _ _⟩
    rw [load_buffer hu hfit]
    simp only [loadLandings, formBytes, sizeBytes, if_true, Core.bytes, take_bytes _ _ _ (show 256 ≤ 64 * 8 by decide),
      drop_bytes _ _ _ (show 256 ≤ 64 * 8 by decide)]
    rfl
  case vldb =>
    exact ⟨_, exec_vldb_clear hr hc hu hfit, fun k hk => vldbVal_byte z (length_bytes ..) hk⟩
  case ldK => exact ⟨_, (exec_ld_clear hr hc).trans (by rw [load_k hu hfit]; rfl)⟩
  case vldK => exact ⟨_, (exec_vld_clear hr hc).trans (by rw [load_k hu hfit, loadLandings_vec hz]; rfl)⟩
  case vldPairK =>
    subst hz
    exact ⟨_, _, (exec_vld_clear hr hc).trans (by rw [load_k hu hfit]; rfl)⟩

/-! ### Stores (R205 to R207) -/

/-- The bytes of a vector store are those of its lanes. -/
theorem vstBytes_eq (n : Nat) (v : VWord) : vstBytes n v = laneBytes n v := by
  simp only [vstBytes, lanesOfV, laneBytes, List.flatMap_map, lane_toNat]

theorem length_laneBytes (n : Nat) (v : VWord) : (laneBytes n v).length = 64 * n := by
  rw [laneBytes, List.length_flatMap]
  simp only [length_leBytes, List.map_const', List.length_range, List.sum_replicate, smul_eq_mul]

/-- A register without a poisoned lane gives no source that fires. -/
theorem lanePoison_clear {v : VReg} (h : v.poison = 0) : lanePoison v = [] := by
  have hnone : (List.range 64).find? (fun j => v.poison.getLsbD j) = none := by simp [h]
  simp only [lanePoison, hnone]

/-- The data of a vector store (R206). -/
def storeData (s : State) (z : Size) (r : Reg) : List Byte :=
  if z = .d then laneBytes 4 (s.me.v r).val ++ laneBytes 4 (s.me.v (r + 1)).val else laneBytes (sizeBytes z) (s.me.v r).val

section
variable {s : State} {sp : Space} {r b : Reg} {z : Size} {off : BitVec 10} {u : BSpace} {a : Nat} {bs : List Byte}

theorem length_storeData : (storeData s z r).length = 64 * sizeBytes z := by
  cases z <;> simp [storeData, length_laneBytes, sizeBytes]

theorem storeAt_buffer (hu : bufOf sp = some u) (hfit : a + bs.length ≤ u.size) :
    s.storeAt sp a bs = s.done fun c => c.push 2 (.bstore u (place a bs) false) := by
  simp only [State.storeAt, hu, spaceSize_of_bufOf hu, if_neg (Nat.not_lt.mpr hfit)]

theorem storeAt_k (hfit : a + bs.length ≤ 2 ^ 24) : s.storeAt .k a bs = s.done fun c => c.request (.kstore (place a bs)) :=
  if_neg (Nat.not_lt.mpr hfit)

/-- `st` with clear sources stores the low bytes of its register. -/
theorem exec_st_clear (hr : Ready (.st sp r b z off) s) (hc : Clear s [r, b]) : exec (.st sp r b z off) s =
    .next (s.storeAt sp (bufAddr s b off (sizeBytes z) (sizeBytes z)) (leBytes (sizeBytes z) (val s r).toNat)) := by
  rw [exec_of_ready (exec_st ..) hr, ← mbAddr_eq]
  exact congrArg _ (unpoisoned_of_clear hc)

/-- `vst` with clear sources stores its lanes. -/
theorem exec_vst_clear (hr : Ready (.vst sp r b z off) s) (hc : Clear s [b]) (hv : VClear s (if z = .d then [r, r + 1] else [r])) :
    exec (.vst sp r b z off) s =
      .next (s.storeAt sp (bufAddr s b off (64 * sizeBytes z) (elemBytes z)) (storeData s z r)) := by
  have hlow : lanePoison (s.me.v r) = [] := lanePoison_clear (hv r (by split <;> simp))
  have hhigh : (if z = .d then lanePoison (s.me.v (r + 1)) else []) = [] := by
    split_ifs at hv ⊢
    · exact lanePoison_clear (hv (r + 1) (by simp))
    · rfl
  have hdata : (if z = .d then vstBytes 4 (s.me.v r).val ++ vstBytes 4 (s.me.v (r + 1)).val
      else vstBytes (elemBytes z) (s.me.v r).val) = storeData s z r := by
    cases z <;> simp [storeData, vstBytes_eq, elemBytes, sizeBytes]
  rw [exec_of_ready (exec_vst ..) hr, ← mbAddr_eq, hlow, hhigh, hdata]
  exact congrArg _ (unpoisoned_of_clear hc)

end

/-- Settles O21: each store by its clear sources and its bytes, a load from K as `LoadsBringBufferBytes` has it. -/
theorem storesSendTheirBytes : Obligations.StoresSendTheirBytes := by
  unfold Obligations.StoresSendTheirBytes
  intro s sp r b z off hc
  have hclear (hcr : Clear s [r]) : Clear s [r, b] :=
    List.forall_mem_cons.mpr ⟨hcr r (List.mem_singleton_self r), hc⟩
  refine ⟨fun u hu hcr hr hfit => ?st, fun u hu hv hr hfit => ?vst, fun hcr hr hfit => ?stK, fun hv hr hfit => ?vstK,
    fun hr hfit => ?ldK⟩
  case st => exact (exec_st_clear hr (hclear hcr)).trans (congrArg _ (storeAt_buffer hu (by rwa [length_leBytes])))
  case vst => exact (exec_vst_clear hr hc hv).trans (congrArg _ (storeAt_buffer hu (by rwa [length_storeData])))
  case stK => exact (exec_st_clear hr (hclear hcr)).trans (congrArg _ (storeAt_k (by rwa [length_leBytes])))
  case vstK => exact (exec_vst_clear hr hc hv).trans (congrArg _ (storeAt_k (by rwa [length_storeData])))
  case ldK => exact (exec_ld_clear hr hc).trans (congrArg _ (load_k rfl hfit))

end Sys2Proof.Proofs
end

section
/-! PROOFS. What beginning a stream or a load adds to the results in flight (R53, R184, R185, R188, R191). -/

namespace Sys2Proof.Proofs

open Sys2Proof Sys2Proof.Machine Sys2Proof.Claims

/-- Results pushed one after another fly behind those in flight, in their order. -/
theorem foldl_push_flight (n : Nat → Nat) (w : Nat → Landing) (l : List Nat) (c : Core) :
    (l.foldl (fun c j => c.push (n j) (w j)) c).flight = c.flight ++ l.map fun j => flies (n j) (w j) := by
  induction l generalizing c with
  | nil => simp
  | cons j l ih => rw [List.foldl_cons, ih, List.map_cons, Core.push_flight, List.append_assoc, List.singleton_append, flies]

/-- A direct stream sends its later rows and its AX updates on their way (R185, R188, R191). -/
theorem startStream_flight (c : Core) (x y z : W64) : let d := stepsOf (fdWidth (descAfd x)) c.eng.arr.active
    (c.startStream x y z none none none).flight = c.flight ++
      ((List.range (descM x - 1)).map fun j => flies (d * (j + 1)) (.enter c.eng.nextId (j + 1))) ++
      (List.range (descM x)).map fun j => flies (552 + d * (j + 1)) (.axrow c.eng.nextId j) := by
  unfold Core.startStream
  simp only [Option.isSome_none, Bool.false_eq_true, if_false, foldl_push_flight]
  rfl

/-- A load sends the reads of its later groups and its plane on their way, by the cycles of a group (R184). -/
theorem startLoad_flight (c : Core) (x y z : W64) : let g := if fdWidth (wFd x) = 16 then 49 else 25
    (c.startLoad x y z).flight = c.flight ++
      ((List.range (kBlocks (wKw x) - 1)).map fun j => flies (g * (j + 1)) (.wgroup c.eng.nextId (j + 1))) ++
      [flies (12 * g) (.plane c.eng.nextId)] := by
  unfold Core.startLoad
  simp only [Core.push_flight, foldl_push_flight, beq_iff_eq]
  rfl

/-- Settles O27: a stream and a load by the results they push. -/
theorem streamsAndLoadsKeepTheirTimes : Obligations.StreamsAndLoadsKeepTheirTimes := by
  unfold Obligations.StreamsAndLoadsKeepTheirTimes
  intro c x y z
  refine ⟨startStream_flight c x y z, startLoad_flight c x y z⟩

end Sys2Proof.Proofs
end

section
/-! PROOFS. Global accesses inside their window whose pages translate, atomics and the load queue (R202, R221 to R226, R242). -/

namespace Sys2Proof.Proofs

open Sys2Proof Sys2Proof.Machine Sys2Proof.Claims

/-! ### Accesses that go (R202, R222, R242) -/

theorem windowVa_of_within {w : Window} {o n va : Nat} (h : Within w o n va) : windowVa w o n = some va := by
  obtain ⟨hlimit, hin, hspace, rfl⟩ := h
  exact if_pos ⟨hlimit, hin, hspace⟩

section
variable {s : State} {va n al l : Nat} {w : BitVec 3} {off : W64} {ps : List Piece}

/-- An access whose pages all translate goes on with its pieces. -/
theorem globalIssue_ok {rd wr : Bool} {k : Except Cause (List Piece) → State} (h : translated s va n rd wr = .ok ps) :
    s.globalIssue va n rd wr k = k (.ok ps) := by
  unfold translated at h
  simp only [State.globalIssue, h]

theorem loadGlobal_ok {vec sp : Bool} {v : Landing} {p : W64 → Landing}
    (hw : Within (s.me.win w) (off.toNat / al * al) n va) (ht : translated s va n true false = .ok ps) :
    s.loadGlobal vec sp w off al n l v p = s.done fun c =>
      requested (c.pushAwait l (.reply c.eng.nextId) v) (.gload ps w off.toNat sp vec) := by
  simp only [State.loadGlobal, alignDown, windowVa_of_within hw, globalIssue_ok ht]
  rfl

theorem storeGlobal_ok {bs : List Byte} (hn : bs.length = n) (hw : Within (s.me.win w) (off.toNat / al * al) n va)
    (ht : translated s va n false true = .ok ps) :
    s.storeGlobal w off al bs = s.done fun c => requested c (.gstore ps w off.toNat bs) := by
  subst hn
  simp only [State.storeGlobal, alignDown, windowVa_of_within hw, globalIssue_ok ht]
  rfl

end

/-- Settles O29: each word by its clear sources, its window and its pieces. -/
theorem globalLoadsAndStores : Obligations.GlobalLoadsAndStores := by
  unfold Obligations.GlobalLoadsAndStores
  intro s d a w cls va ps hc
  refine ⟨fun sp hr hw ht => ?ldg, fun sp hr hw ht => ?vldg, fun z hr hcd hw ht => ?stg, fun hr hv hw ht => ?vstg⟩
  case ldg => exact (exec_of_ready (exec_ldg ..) hr).trans (congrArg _ ((unpoisoned_of_clear hc).trans (loadGlobal_ok hw ht)))
  case vldg => exact (exec_of_ready (exec_vldg ..) hr).trans (congrArg _ ((unpoisoned_of_clear hc).trans (loadGlobal_ok hw ht)))
  case stg =>
    have hda : Clear s [d, a] := List.forall_mem_cons.mpr ⟨hcd d (List.mem_singleton_self d), hc⟩
    exact (exec_of_ready (exec_stg ..) hr).trans
      (congrArg _ ((unpoisoned_of_clear hda).trans (storeGlobal_ok (length_leBytes ..) hw ht)))
  case vstg =>
    have hlanes : lanePoison (s.me.v d) = [] := lanePoison_clear (hv d (List.mem_singleton_self d))
    refine (exec_of_ready (exec_vstg ..) hr).trans (congrArg _ ?_)
    rw [hlanes, vstBytes_eq]
    exact (unpoisoned_of_clear hc).trans (storeGlobal_ok (length_laneBytes 4 _) hw ht)

/-! ### Atomics, reductions, the load queue (R223 to R226) -/

section
variable {s : State} {d a : Reg} {b : Bool} {w : BitVec 3} {sc : Scope} {op : AmoOp}

/-- The sources of an atomic, without poison (R223). -/
theorem unpoisoned_amo {k : State} (hc : Clear s [a, d]) (hcas : op = .cas → Clear s [d + 1]) :
    s.unpoisoned (if op = .cas then [s.me.s d, s.me.s (d + 1), s.me.s a] else [s.me.s d, s.me.s a]) k = k := by
  have hda : Clear s [d, a] := fun r hr => hc r (by simp at hr ⊢; tauto)
  split_ifs with h
  · have hpair : Clear s [d, d + 1, a] := by
      simp only [Clear, List.forall_mem_cons] at hda ⊢
      exact ⟨hda.1, hcas h _ (List.mem_singleton_self _), hda.2⟩
    exact unpoisoned_of_clear hpair
  · exact unpoisoned_of_clear hda

theorem amoLatency_eq (sc : Scope) : amoLatency sc = scopeCycles sc := by cases sc <;> rfl

/-- `amo` with the load queue full. -/
theorem exec_amo_full (hr : Ready (.amo d a b w sc op) s) (hc : Clear s [a, d]) (hcas : op = .cas → Clear s [d + 1])
    (hfull : 16 ≤ s.me.eng.lq.length) : exec (.amo d a b w sc op) s = .next (s.landfull 2) :=
  (exec_of_ready (exec_amo ..) hr).trans (congrArg _ ((unpoisoned_amo hc hcas).trans (if_pos hfull)))

section
variable {va : Nat} {ps : List Piece}

/-- `amo` with room, inside its window, translated. -/
theorem acts_amo (hr : Ready (.amo d a b w sc op) s) (hc : Clear s [a, d]) (hcas : op = .cas → Clear s [d + 1])
    (hroom : s.me.eng.lq.length < 16) (hw : Within (s.me.win w) ((val s a).toNat / amoBytes b * amoBytes b) (amoBytes b) va)
    (ht : translated s va (amoBytes b) true true = .ok ps) : Acts (.amo d a b w sc op) s fun c =>
      requested (c.queueLq (amoLatency sc)) (.amo ps w (val s a).toNat op b (val s d) (val s (d + 1))) := by
  refine (exec_of_ready (exec_amo ..) hr).trans (congrArg _ ((unpoisoned_amo hc hcas).trans ?_))
  unfold val at hw
  simp only [if_neg (Nat.not_le.mpr hroom), alignDown, windowVa_of_within hw, globalIssue_ok ht]
  rfl

/-- `red` inside its window, translated. -/
theorem acts_red (hr : Ready (.red d a b w sc op) s) (hc : Clear s [a, d])
    (hw : Within (s.me.win w) ((val s a).toNat / amoBytes b * amoBytes b) (amoBytes b) va)
    (ht : translated s va (amoBytes b) true true = .ok ps) :
    Acts (.red d a b w sc op) s fun c => requested c (.red ps w (val s a).toNat op b (val s d)) := by
  have hda : Clear s [d, a] := fun r hr => hc r (by simp at hr ⊢; tauto)
  refine (exec_of_ready (exec_red ..) hr).trans (congrArg _ ((unpoisoned_of_clear hda).trans ?_))
  unfold val at hw
  simp only [alignDown, windowVa_of_within hw, globalIssue_ok ht]
  rfl

end

end

/-- Settles O31: `amo` by the room of the load queue, `red` by its request, `lqpop` by the oldest entry. -/
theorem atomicsAndTheLoadQueue : Obligations.AtomicsAndTheLoadQueue := by
  unfold Obligations.AtomicsAndTheLoadQueue
  intro s d a b w sc op hc
  refine ⟨fun hr hcas => ⟨fun hfull => ?full, fun va ps hroom hw ht => ?amo⟩, fun va ps hr hw ht => ?red,
    fun hr => ⟨fun hq => ?empty, fun q r hq => ⟨fun hdue => ?early, fun hdue hhere => ?missing, fun hdue hhere => ?pops⟩⟩⟩
  case full => exact exec_amo_full hr hc hcas hfull
  case amo => exact amoLatency_eq sc ▸ acts_amo hr hc hcas hroom hw ht
  case red => exact acts_red hr hc hw ht
  all_goals
    refine (exec_of_ready (exec_lqpop d s) hr).trans (congrArg _ ?_)
    simp only [hq]
  case early => exact if_pos hdue
  case missing => rw [if_neg (by omega), if_pos (by simp [hhere])]
  case pops => rw [if_neg (by omega), if_neg (by simp [hhere])]

end Sys2Proof.Proofs
end

section
/-! PROOFS. What `wrsr` changes, and what each special register reads as after a write (R53, R87, R95, R317, R343). -/

namespace Sys2Proof.Proofs

open Sys2Proof Sys2Proof.Machine Sys2Proof.Claims

/-! ### `wrsr` (R53, R87, R95) -/

theorem level_setLevel (c : Core) {k : Nat} (hk : k < 6) (x : Level) : (c.setLevel k x).level k = x := by
  simp [Core.setLevel, Arch.level, hk]

section
variable {s : State} {a : Reg} {n : BitVec 16} (hr : Ready (.wrsr a n) s) (hc : Clear s [a])
include hr hc

theorem exec_wrsr_overflow (h : n = 0x50 ∧ 6 < (val s a).toNat) : exec (.wrsr a n) s = .next (s.raiseLocal .loopovf 0) :=
  (exec_of_ready (exec_wrsr a n s) hr).trans (congrArg _ ((unpoisoned_of_clear hc).trans (if_pos h)))

theorem acts_wrsr_loop (h : ¬ (n = 0x50 ∧ 6 < (val s a).toNat)) (hn : 0x50 ≤ n.toNat ∧ n.toNat ≤ 0x75) :
    Acts (.wrsr a n) s fun c => (c.setLoopSr n.toNat (val s a)).onIss fun i => { i with skip := true } :=
  (exec_of_ready (exec_wrsr a n s) hr).trans
    (congrArg _ ((unpoisoned_of_clear hc).trans ((if_neg h).trans (if_pos (by simpa [isLoopSr] using hn)))))

theorem sends_wrsr (h : ¬ (n = 0x50 ∧ 6 < (val s a).toNat)) (hn : ¬ (0x50 ≤ n.toNat ∧ n.toNat ≤ 0x75)) :
    Sends (.wrsr a n) s 1 (.special n (val s a)) :=
  (exec_of_ready (exec_wrsr a n s) hr).trans
    (congrArg _ ((unpoisoned_of_clear hc).trans ((if_neg h).trans (if_neg (by simpa [isLoopSr] using hn)))))

end

section
variable (c : Core) (v : W64) {k : Nat} (hk : k < 6)

theorem setLoopSr_frame (n : Nat) : (c.setLoopSr n v).regs = c.regs ∧ (c.setLoopSr n v).spec = c.spec := by
  unfold Core.setLoopSr
  split_ifs <;> exact ⟨rfl, rfl⟩

include hk

/-- The four banks of loop registers: a level's count, index, first and last address (R52, R83). -/
theorem level_setLoopSr_count : (c.setLoopSr (0x58 + k) v).level k = { c.level k with cnt := v } := by
  simp (disch := omega) only [Core.setLoopSr, if_neg, if_pos, Nat.add_sub_cancel_left, level_setLevel]

theorem level_setLoopSr_index : (c.setLoopSr (0x60 + k) v).level k = { c.level k with idx := v } := by
  simp (disch := omega) only [Core.setLoopSr, if_neg, if_pos, Nat.add_sub_cancel_left, level_setLevel]

theorem level_setLoopSr_begin : (c.setLoopSr (0x68 + k) v).level k = { c.level k with beg := v.setWidth 15 } := by
  simp (disch := omega) only [Core.setLoopSr, if_neg, if_pos, Nat.add_sub_cancel_left, level_setLevel]

theorem level_setLoopSr_end : (c.setLoopSr (0x70 + k) v).level k = { c.level k with fin := v.setWidth 16 } := by
  simp (disch := omega) only [Core.setLoopSr, if_neg, Nat.add_sub_cancel_left, level_setLevel]

end

/-! ### Registers after a write (R52, R95) -/

/-- The low bits of a value kept. -/
theorem setWidth_setWidth_eq_and {k : Nat} (v : W64) (hk : k ≤ 64) :
    (v.setWidth k).setWidth 64 = v &&& BitVec.ofNat 64 (2 ^ k - 1) := by
  have hpow : 2 ^ k ≤ 2 ^ 64 := Nat.pow_le_pow_right (by decide) hk
  apply BitVec.eq_of_toNat_eq
  rw [BitVec.toNat_and, BitVec.toNat_ofNat, Nat.mod_eq_of_lt (by omega : 2 ^ k - 1 < 2 ^ 64), Nat.and_two_pow_sub_one_eq_mod,
    BitVec.toNat_setWidth, BitVec.toNat_setWidth, Nat.mod_eq_of_lt ((Nat.mod_lt _ (by positivity)).trans_le hpow)]

theorem die_onDie {s : State} {d : Nat} (h : d < s.dies.length) (f : Die → Die) : (s.onDie d f).die d = f (s.die d) := by
  simp [State.onDie, State.die, h]

section
variable (s : State) (v : W64) {k : Nat}

/-- A register by its number, as `writeSpecial` meets it. -/
theorem writeSpecial_system {b : Nat} (hb : 0x8000 ≤ b + k) (h : b + k < 65536) :
    s.writeSpecial (BitVec.ofNat 16 (b + k)) v = s.writeSys (b + k) v := by
  rw [State.writeSpecial, BitVec.toNat_ofNat, Nat.mod_eq_of_lt h, if_pos hb]

theorem writeSpecial_own {b : Nat} (h : b + k < 0x8000) :
    s.writeSpecial (BitVec.ofNat 16 (b + k)) v = s.onMe fun c => c.writeSpec (b + k) v := by
  rw [State.writeSpecial, BitVec.toNat_ofNat, Nat.mod_eq_of_lt (by omega), if_neg (by omega)]

/-! ### System registers (R317, R343) -/

theorem writeSys_tstat (h : k < 64) : s.writeSys (0x8100 + k) v =
    if v.getLsbD 15 then s.onPart (BitVec.ofNat 6 k) fun q => { q with trav := { q.trav with err := false } } else s := by
  simp (disch := omega) only [State.writeSys, if_pos]
  rw [ofNat_bank (by decide)]
  rfl

theorem trctlOf_setTrctl (p : BitVec 6) : (s.setTrctl p v).trctlOf p = v &&& trctlMask := by
  have hgone : (s.trctl.filter fun e => e.1 != p).find? (fun e => e.1 == p) = none := by
    rw [List.find?_eq_none]
    intro e he
    simpa using (List.mem_filter.mp he).2
  unfold State.setTrctl State.trctlOf
  dsimp only
  rw [List.find?_append, hgone]
  split_ifs with hv
  · simp [hv]
  · simp

theorem readSr_writeSys_trctl (h : k < 64) : (s.writeSys (0x8140 + k) v).readSr (0x8140 + k) = v &&& trctlMask := by
  simp (disch := omega) only [readSr_trctl, State.writeSys, if_neg, if_pos]
  rw [ofNat_bank (by decide), trctlOf_setTrctl]

theorem writeSys_rsvm (h : k < 128) : s.writeSys (0x8200 + k) v = s.writeRsvm k v := by
  simp (disch := omega) only [State.writeSys, if_neg, if_pos, Nat.add_sub_cancel_left]

/-- A mask clashes where another station of its ring and strand holds one of its slots (R317). -/
theorem clash_iff (r : Ring) : r.clash k v = true ↔
    ∃ e < 8, 16 * e + k % 16 ≠ k ∧ (r.rsvm[16 * e + k % 16]?.getD 0) &&& v ≠ 0 := by
  simp [Ring.clash]

theorem writeRsvm_taken (h : k < 128) (hclash : s.ring.clash k v = false) : (s.writeRsvm k v).ring.rsvm[k]?.getD 0 = v := by
  rw [State.writeRsvm, if_neg (by simp [hclash])]
  exact (Ring.getD_set s.ring k v k h).trans (if_pos rfl)

theorem readSr_writeSys_rsvf (h : k < 8) : (s.writeSys (0x8280 + k) v).readSr (0x8280 + k) = v := by
  simp (disch := omega) only [readSr_rsvf, State.writeSys, if_neg, if_pos, Nat.add_sub_cancel_left]
  simp [h]

theorem readSr_writeSys_power (h : k < 8) (hd : k < s.dies.length) :
    (s.writeSys (0x8400 + k) v).readSr (0x8400 + k) = v &&& 0xFFFFFFFF := by
  simp (disch := omega) only [readSr_powerBudget, State.writeSys, if_neg, Nat.add_sub_cancel_left]
  rw [die_onDie hd]
  exact setWidth_setWidth_eq_and v (by decide)

theorem writeSys_pgctl (h : k < 24) : s.writeSys (0x8320 + k) v = s.pgCtl k v := by
  simp (disch := omega) only [State.writeSys, if_neg, if_pos, Nat.add_sub_cancel_left]

/-! ### The registers of a core (R52, R242) -/

theorem readSr_write_stallc (h : k < 8) : (s.onMe fun c => c.writeSpec (8 + k) v).readSr (8 + k) = v := by
  simp (disch := omega) only [readSr_stallc, Core.writeSpec, if_neg, if_pos, Nat.add_sub_cancel_left]
  simp [h]

/-- A window register by its number. -/
theorem writeSpec_window (c : Core) {n : Nat} (h : 0x80 ≤ n ∧ n ≤ 0x97) : c.writeSpec n v = c.setWinReg n v := by
  simp (disch := omega) only [Core.writeSpec, if_neg, if_pos]

theorem win_setWin (c : Core) (h : k < 8) (w : Window) :
    Arch.win { c with regs := { c.regs with win := c.regs.win.setIfInBounds k w } }.toArch (BitVec.ofNat 3 k) = w := by
  have hk : (BitVec.ofNat 3 k).toNat = k := by rw [BitVec.toNat_ofNat]; omega
  simp [Arch.win, hk]

/-- Bits [79:16] of a base taken out again. -/
theorem extract_base : (v.setWidth 80 <<< 16).extractLsb' 16 64 = v := by
  ext i hi
  simp [show 16 + i < 80 by omega, hi]

theorem readSr_write_windowBase (h : k < 8) : (s.onMe fun c => c.writeSpec (0x80 + k) v).readSr (0x80 + k) = v := by
  have hmod : (0x80 + k) % 8 = k := by omega
  rw [readSr_windowBase h]
  simp only [State.onMe_me, writeSpec_window v _ (show 0x80 ≤ 0x80 + k ∧ 0x80 + k ≤ 0x97 by omega), Core.setWinReg, hmod]
  rw [win_setWin _ h, if_pos (by omega)]
  exact extract_base v

theorem readSr_write_windowLimit (h : k < 8) :
    (s.onMe fun c => c.writeSpec (0x88 + k) v).readSr (0x88 + k) = v &&& 0x00FFFFFFFFFFFFFF := by
  have hmod : (0x88 + k) % 8 = k := by omega
  rw [readSr_windowLimit h]
  simp only [State.onMe_me, writeSpec_window v _ (show 0x80 ≤ 0x88 + k ∧ 0x88 + k ≤ 0x97 by omega), Core.setWinReg, hmod]
  rw [win_setWin _ h, if_neg (by omega), if_pos (by omega)]
  exact setWidth_setWidth_eq_and v (by decide)

theorem readSr_write_windowKey (h : k < 8) :
    (s.onMe fun c => c.writeSpec (0x90 + k) v).readSr (0x90 + k) = v &&& 0xFF := by
  have hmod : (0x90 + k) % 8 = k := by omega
  rw [readSr_windowKey h]
  simp only [State.onMe_me, writeSpec_window v _ (show 0x80 ≤ 0x90 + k ∧ 0x90 + k ≤ 0x97 by omega), Core.setWinReg, hmod]
  rw [win_setWin _ h, if_neg (by omega), if_neg (by omega)]
  exact setWidth_setWidth_eq_and v (by decide)

/-- A register of a bank of the core reads as its bank's rule says. -/
theorem readSr_writeSpecial_own {b : Nat} {x : W64} (h : b + k < 0x8000)
    (hx : (s.onMe fun c => c.writeSpec (b + k) v).readSr (b + k) = x) :
    (s.writeSpecial (BitVec.ofNat 16 (b + k)) v).readSr (BitVec.ofNat 16 (b + k)).toNat = x := by
  rw [writeSpecial_own s v h]
  exact readSr_ofNat (by omega) hx

end

/-! ### The obligation -/

/-- The registers of traverses (R303, R343). -/
theorem write_tstat_trctl (s : State) (v : W64) {p : Nat} (hp : p < 64) :
    (s.writeSpecial (BitVec.ofNat 16 (0x8140 + p)) v).readSr (0x8140 + p) = v &&& trctlMask ∧
      s.writeSpecial (BitVec.ofNat 16 (0x8100 + p)) v =
        if v.getLsbD 15 then s.onPart (BitVec.ofNat 6 p) fun q => { q with trav := { q.trav with err := false } } else s := by
  rw [writeSpecial_system s v (by omega) (by omega), writeSpecial_system s v (by omega) (by omega)]
  exact ⟨readSr_writeSys_trctl s v hp, writeSys_tstat s v hp⟩

/-- A reservation mask (R317). -/
theorem write_rsvm (s : State) (v : W64) {k : Nat} (hk : k < 128) :
    (s.ring.clash k v = false → (s.writeSpecial (BitVec.ofNat 16 (0x8200 + k)) v).readSr (0x8200 + k) = v) ∧
      (s.ring.clash k v = true → s.writeSpecial (BitVec.ofNat 16 (0x8200 + k)) v =
        { s with ring := { s.ring with errs := s.ring.errs + 1 } }) := by
  rw [writeSpecial_system s v (by omega) (by omega), writeSys_rsvm s v hk]
  exact ⟨fun h => (readSr_rsvm hk).trans (writeRsvm_taken s v hk h), fun h => if_pos h⟩

theorem write_rsvf_power (s : State) (v : W64) {d : Nat} (hd : d < 8) :
    (s.writeSpecial (BitVec.ofNat 16 (0x8280 + d)) v).readSr (0x8280 + d) = v ∧
      (d < s.dies.length →
        (s.writeSpecial (BitVec.ofNat 16 (0x8400 + d)) v).readSr (0x8400 + d) = v &&& 0xFFFFFFFF) := by
  rw [writeSpecial_system s v (by omega) (by omega), writeSpecial_system s v (by omega) (by omega)]
  exact ⟨readSr_writeSys_rsvf s v hd, readSr_writeSys_power s v hd⟩

theorem write_pgctl (s : State) (v : W64) (g : BitVec 5) (hg : g.toNat < 24) :
    (v = 0 → exec (.pgctlClear g) s = .next (s.writeSpecial (BitVec.ofNat 16 (0x8320 + g.toNat)) v)) ∧
      (v.getLsbD 7 = true → exec (.pgctlGo g v) s = .next (s.writeSpecial (BitVec.ofNat 16 (0x8320 + g.toNat)) v)) ∧
      (v ≠ 0 → v.getLsbD 7 = false → s.writeSpecial (BitVec.ofNat 16 (0x8320 + g.toNat)) v = s) := by
  rw [writeSpecial_system s v (by omega) (by omega), writeSys_pgctl s v hg, State.pgCtl]
  refine ⟨fun hv => ?_, fun hgo => ?_, fun hv hgo => ?_⟩
  · rw [if_pos hv, exec_pgctlClear, execPgctlClear, if_pos hg]
  · have hv : v ≠ 0 := by rintro rfl; exact absurd hgo (by decide)
    rw [← ctlGo] at hgo
    rw [if_neg hv, if_pos hgo, exec_pgctlGo, execPgctlGo, if_pos ⟨hg, hgo⟩]
  · rw [← ctlGo] at hgo
    rw [if_neg hv, if_neg (ne_true_of_eq_false hgo)]

section
variable (s : State) (a : Reg) (n : BitVec 16)

/-- What `wrsr` changes at once when it writes a loop register. -/
def wrsrLoop : Core → Core := fun c => (c.setLoopSr n.toNat (val s a)).onIss fun i => { i with skip := true }

theorem wrsrLoop_frame : (wrsrLoop s a n s.me).iss.skip = true ∧ (wrsrLoop s a n s.me).regs = s.me.regs ∧
    (wrsrLoop s a n s.me).spec = s.me.spec :=
  ⟨rfl, setLoopSr_frame s.me (val s a) n.toNat⟩

theorem wrsrLoop_level {k : Nat} (hk : k < 6) :
    (n.toNat = 0x58 + k → (wrsrLoop s a n s.me).level k = { s.me.level k with cnt := val s a }) ∧
    (n.toNat = 0x60 + k → (wrsrLoop s a n s.me).level k = { s.me.level k with idx := val s a }) ∧
    (n.toNat = 0x68 + k → (wrsrLoop s a n s.me).level k = { s.me.level k with beg := (val s a).setWidth 15 }) ∧
    (n.toNat = 0x70 + k → (wrsrLoop s a n s.me).level k = { s.me.level k with fin := (val s a).setWidth 16 }) := by
  have hl : (wrsrLoop s a n s.me).level k = (s.me.setLoopSr n.toNat (val s a)).level k := rfl
  refine ⟨fun h => ?_, fun h => ?_, fun h => ?_, fun h => ?_⟩ <;> rw [hl, h]
  · exact level_setLoopSr_count _ _ hk
  · exact level_setLoopSr_index _ _ hk
  · exact level_setLoopSr_begin _ _ hk
  · exact level_setLoopSr_end _ _ hk

end

/-- Settles O36: `wrsr` by the register it names, the system registers by bank, the core's own by what they keep of a value. -/
theorem specialRegistersAreWritten : Obligations.SpecialRegistersAreWritten := by
  unfold Obligations.SpecialRegistersAreWritten
  refine ⟨fun s a n hr hc => ?_, fun s v => ⟨fun p => write_tstat_trctl s v, fun k hk => ?_, fun d => write_rsvf_power s v,
    write_pgctl s v⟩, fun s v => ?_⟩
  · split_ifs with hover hloop
    · exact exec_wrsr_overflow hr hc hover
    · obtain ⟨hskip, hregs, hspec⟩ := wrsrLoop_frame s a n
      exact ⟨wrsrLoop s a n, acts_wrsr_loop hr hc hover hloop, hskip, hregs, hspec, by rintro rfl; rfl,
        fun k => wrsrLoop_level s a n⟩
    · exact sends_wrsr hr hc hover hloop
  · simp only [← clash_iff, Bool.not_eq_true]
    exact write_rsvm s v hk
  · exact ⟨rfl, fun k hk => readSr_writeSpecial_own s v (by omega) (readSr_write_stallc s v hk), rfl, rfl, rfl, rfl, rfl, rfl, rfl,
      setWidth_setWidth_eq_and (k := 15) v (by decide), setWidth_setWidth_eq_and (k := 15) v (by decide), fun k hk =>
      ⟨readSr_writeSpecial_own s v (by omega) (readSr_write_windowBase s v hk),
        readSr_writeSpecial_own s v (by omega) (readSr_write_windowLimit s v hk),
        readSr_writeSpecial_own s v (by omega) (readSr_write_windowKey s v hk)⟩⟩

end Sys2Proof.Proofs
end

section
/-! PROOFS. The words of the memory sequencer that set registers, count loops and handle tags, and the end of a program (R47, R48,
R218 to R220, R228). -/

namespace Sys2Proof.Proofs

open Sys2Proof Sys2Proof.Machine Sys2Proof.Claims

/-! ### A slot changed twice -/

theorem onDie_onDie (s : State) (d : Nat) (f g : Die → Die) : (s.onDie d f).onDie d g = s.onDie d fun x => g (f x) := by
  by_cases h : d < s.dies.length
  · unfold State.onDie at *
    have hd := die_onDie h f
    unfold State.onDie at hd
    rw [hd]
    simp
  · have hlen : s.dies.length ≤ d := not_lt.mp h
    simp [State.onDie, List.set_eq_of_length_le, hlen]

theorem msq_slot_onSlot (m : Msq) {k : Nat} (h : k < 8) (f : Slot → Slot) : (m.onSlot k f).slot k = f (m.slot k) := by
  simp [Msq.onSlot, Msq.slot, h]

theorem msq_onSlot_onSlot (m : Msq) (k : Nat) (f g : Slot → Slot) : (m.onSlot k f).onSlot k g = m.onSlot k fun x => g (f x) := by
  by_cases h : k < 8
  · have hs := msq_slot_onSlot m h f
    unfold Msq.onSlot at hs ⊢
    rw [hs]
    simp
  · simp [Msq.onSlot, Vector.setIfInBounds_eq_of_size_le, not_lt.mp h]

theorem onSlot_onSlot (s : State) (f g : Slot → Slot) : (s.onSlot f).onSlot g = s.onSlot fun x => g (f x) := by
  have honce : (fun x : Msq => (x.onSlot s.turnAt.2 f).onSlot s.turnAt.2 g) = fun x => x.onSlot s.turnAt.2 fun y => g (f y) :=
    funext fun x => msq_onSlot_onSlot x s.turnAt.2 f g
  calc (s.onSlot f).onSlot g = s.onMsq s.turnAt.1 fun x => (x.onSlot s.turnAt.2 f).onSlot s.turnAt.2 g :=
        onDie_onDie s s.turnAt.1 (fun x => { x with msq := x.msq.onSlot s.turnAt.2 f }) fun x =>
          { x with msq := x.msq.onSlot s.turnAt.2 g }
    _ = s.onSlot fun x => g (f x) := congrArg (s.onMsq s.turnAt.1) honce

/-- The slot changed, and the next word to follow. -/
theorem seqNext_onSlot (s : State) (f : Slot → Slot) : (s.onSlot f).seqNext = Passes s f :=
  onSlot_onSlot s f fun x => { x with pc := x.pc + 1 }

/-! ### Causes and tiles of the program (R106, R219) -/

section
variable {s : State}

theorem seqStops_of_exec {i : Instr} {k : Cause} (h : exec i s = .next (s.seqFault k)) : SeqStops i s k := by
  refine h.trans (congrArg (fun f => Host.Outcome.next (s.onCore s.slotNow.tile f)) (funext fun c => if_congr ?_ rfl rfl))
  simp [or_assoc]

theorem seqPeer_eq_some_iff {t n : Nat} : s.seqPeer t = some n ↔ Mine s t n := by
  unfold State.seqPeer Mine State.seqTile
  dsimp only
  split_ifs with h
  · rw [Option.some_inj]
    exact ⟨fun hn => ⟨hn.symm, hn ▸ h⟩, fun hm => hm.1.symm⟩
  · exact ⟨fun hn => absurd hn (by simp), fun hm => absurd (hm.1 ▸ hm.2) h⟩

theorem seqPeer_eq_none {t : Nat} (h : ¬ ∃ n, Mine s t n) : s.seqPeer t = none :=
  Option.eq_none_iff_forall_ne_some.mpr fun n hn => h ⟨n, seqPeer_eq_some_iff.mp hn⟩

/-! ### Registers and loops (R220) -/

/-- The window index of an address register stays as its offset moves. -/
theorem maAdd_window (a d : BitVec 54) : (maAdd a d).extractLsb' 51 3 = a.extractLsb' 51 3 :=
  BitVec.extractLsb'_append_eq_left

theorem maAdd_offset (a d : BitVec 54) : (maAdd a d).toNat % 2 ^ 51 = (a.toNat + d.toNat) % 2 ^ 51 := by
  have hlow : (maAdd a d).setWidth 51 = a.extractLsb' 0 51 + d.setWidth 51 := BitVec.setWidth_append_eq_right
  have h := congrArg BitVec.toNat hlow
  simpa [BitVec.toNat_add, BitVec.extractLsb'_toNat] using h

/-- What `xlp` makes of its slot. -/
def looped (n : BitVec 16) (back : BitVec 12) (a st : BitVec 4) (l : BitVec 2) (x : Slot) : Slot :=
  let c := x.cnt[l.toNat] + 1
  let again := decide (c.toNat < n.toNat)
  { x with
    ma := x.ma.set a.toNat (maAdd (x.ma[a.toNat]) (x.ms[st.toNat]))
    cnt := x.cnt.set l.toNat (if again then c else 0)
    pc := if again then x.pc - back.toNat else x.pc + 1 }

section
variable (n : BitVec 16) (back : BitVec 12) (a st : BitVec 4) (l : BitVec 2)

theorem exec_xlp_loops (h : s.slotNow.first + back.toNat ≤ s.slotNow.pc) :
    Seq (.xlp n back a st l) s (s.onSlot (looped n back a st l)) :=
  congrArg Host.Outcome.next (if_neg (not_lt.mpr h))

variable (x : Slot)

theorem looped_ma : ((looped n back a st l x).ma[a.toNat]) = maAdd (x.ma[a.toNat]) (x.ms[st.toNat]) := by
  simp [looped]

theorem looped_ma_ne {k : Nat} (h : k ≠ a.toNat) : (looped n back a st l x).ma[k]? = x.ma[k]? :=
  Vector.getElem?_set_ne (BitVec.isLt a) h.symm

theorem looped_count : if (x.cnt[l.toNat] + 1).toNat < n.toNat then
    (looped n back a st l x).pc = x.pc - back.toNat ∧ (looped n back a st l x).cnt[l.toNat] = x.cnt[l.toNat] + 1
    else (looped n back a st l x).pc = x.pc + 1 ∧ (looped n back a st l x).cnt[l.toNat] = 0 := by
  split_ifs with h
  · simp only [looped, decide_eq_true h]
    simp
  · simp only [looped, decide_eq_false h]
    simp

end

/-! ### The end of a program (R218, R220) -/

section
variable {w : Nat × Nat × Nat} {r : List (Nat × Nat × Nat)} {d k : Nat}

theorem lt_dies_of_waits (h : (s.die d).msq.wait = w :: r) : d < s.dies.length := by
  by_contra hlen
  rw [State.die, List.getD_eq_default _ _ (not_lt.mp hlen)] at h
  cases h

theorem seqStart_idle (h : (s.die d).msq.wait = []) : s.seqStart d k = s := by
  simp only [State.seqStart, h]

theorem seqStart_waits (h : (s.die d).msq.wait = w :: r) : s.seqStart d k =
    s.onMsq d fun m => { m.begin k w.1 (s.core w.1).ctx w.2.1 w.2.2 with wait := r } := by
  simp only [State.seqStart, h]

theorem msq_onMsq (h : d < s.dies.length) (f : Msq → Msq) : ((s.onMsq d f).die d).msq = f (s.die d).msq :=
  congrArg Die.msq (die_onDie h _)

theorem slot_begin (m : Msq) (hk : k < 8) (tile : Nat) (ctx : BitVec 16) (first key : Nat) :
    (m.begin k tile ctx first key).slot k = newSlot m.nextId tile ctx first key := by
  simp [Msq.begin, Msq.slot, hk]
  rfl

/-- The sequencer whose word executes, as its slot changes. -/
theorem msq_onSlot (h : s.turnAt.1 < s.dies.length) (f : Slot → Slot) :
    ((s.onSlot f).die s.turnAt.1).msq = (s.die s.turnAt.1).msq.onSlot s.turnAt.2 f :=
  msq_onMsq h fun m => m.onSlot s.turnAt.2 f

theorem wait_onSlot (s : State) (f : Slot → Slot) : ((s.onSlot f).die s.turnAt.1).msq.wait = (s.die s.turnAt.1).msq.wait := by
  by_cases h : s.turnAt.1 < s.dies.length
  · rw [msq_onSlot h]
    rfl
  · simp [State.onSlot, State.onMsq, State.onDie, State.die, List.set_eq_of_length_le (not_lt.mp h)]

/-- A slot whose program has ended. -/
def freed (x : Slot) : Slot := { x with busy := false }

/-- With no request waiting the slot is free. -/
theorem exec_xend_idle (h : (s.die s.turnAt.1).msq.wait = []) : Seq .xend s (s.onSlot freed) :=
  congrArg Host.Outcome.next (seqStart_idle ((wait_onSlot s freed).trans h))

/-- The request that has waited longest takes the slot. -/
theorem exec_xend_waits (hk : s.turnAt.2 < 8) (h : (s.die s.turnAt.1).msq.wait = w :: r) :
    ∃ t, Seq .xend s t ∧ t.me = s.me ∧ t.rest = s.rest ∧ t.mem = s.mem ∧ (t.die s.turnAt.1).msq.wait = r ∧
      (t.die s.turnAt.1).msq.slot s.turnAt.2 =
        newSlot (s.die s.turnAt.1).msq.nextId w.1 (s.core w.1).ctx w.2.1 w.2.2 := by
  have hlt := lt_dies_of_waits h
  have hlt' : s.turnAt.1 < (s.onSlot freed).dies.length := by simpa [State.onSlot, State.onMsq] using hlt
  have hnext : ((s.onSlot freed).die s.turnAt.1).msq.nextId = (s.die s.turnAt.1).msq.nextId := by
    rw [msq_onSlot hlt]
    rfl
  have hstart := seqStart_waits (k := s.turnAt.2) ((wait_onSlot s freed).trans h)
  refine ⟨_, congrArg Host.Outcome.next hstart, rfl, rfl, rfl, ?_, ?_⟩ <;> rw [msq_onMsq hlt']
  exact (slot_begin _ hk ..).trans (by rw [hnext]; rfl)

end

/-! ### The obligation -/

/-- `xwt` and `xsg` for a tile of the program's partition. -/
theorem exec_xwt_mine {t : BitVec 5} {n : Nat} (g : BitVec 6) (h : Mine s t.toNat n) :
    exec (.xwt t g) s = .next (if (s.die s.turnAt.1).msq.count n g = 0 then s else
      Passes (s.onDie s.turnAt.1 fun d => { d with msq := d.msq.setCount n g ((s.die s.turnAt.1).msq.count n g - 1) }) id) := by
  rw [exec_xwt, execXwt, seqPeer_eq_some_iff.mpr h]
  rfl

theorem exec_xsg_mine {t : BitVec 5} {n : Nat} (g : BitVec 6) (h : Mine s t.toNat n) :
    exec (.xsg t g) s = .next (if (s.die s.turnAt.1).msq.xfers.any (fun x => x.prog == s.slotNow.num) then s else
      Passes (s.onCore n fun c => { c with spec := { c.spec with tagmap := c.spec.tagmap ||| 1 <<< g.toNat } }) id) := by
  rw [exec_xsg, execXsg, seqPeer_eq_some_iff.mpr h]
  rfl

theorem xwt_stops {t : BitVec 5} (g : BitVec 6) (h : ¬ ∃ n, Mine s t.toNat n) : SeqStops (.xwt t g) s .perm :=
  seqStops_of_exec (by rw [exec_xwt, execXwt, seqPeer_eq_none h])

theorem xsg_stops {t : BitVec 5} (g : BitVec 6) (h : ¬ ∃ n, Mine s t.toNat n) : SeqStops (.xsg t g) s .perm :=
  seqStops_of_exec (by rw [exec_xsg, execXsg, seqPeer_eq_none h])

end

/-- Settles O42: each word by its effect on the slot, the causes of tiles of another partition, and the slot's next program. -/
theorem sequencerRegistersLoopsAndTags : Obligations.SequencerRegistersLoopsAndTags := by
  unfold Obligations.SequencerRegistersLoopsAndTags
  intro s
  refine ⟨fun i v => ⟨?ma, ?ms, fun _ => ?mm⟩, fun n back a st l => ⟨fun h => ?before, fun h => ?loops⟩,
    fun t g n hm => ⟨?xwt, ?xsg⟩, fun t g h => ⟨xwt_stops g h, xsg_stops g h⟩, exec_xend_idle, fun hk w r => exec_xend_waits hk⟩
  case ma => exact congrArg Host.Outcome.next (seqNext_onSlot s _)
  case ms => exact congrArg Host.Outcome.next (seqNext_onSlot s _)
  case mm => exact congrArg Host.Outcome.next (seqNext_onSlot s _)
  case before => exact seqStops_of_exec (congrArg Host.Outcome.next (if_pos h))
  case loops =>
    refine ⟨looped n back a st l, exec_xlp_loops n back a st l h, fun x => ⟨rfl, rfl, fun k => looped_ma_ne n back a st l x, ?_, ?_,
      looped_count n back a st l x⟩⟩ <;> rw [looped_ma]
    · exact maAdd_window _ _
    · exact maAdd_offset _ _
  case xwt =>
    have hx := exec_xwt_mine g hm
    split_ifs with hc
    · exact hx.trans (congrArg _ (if_pos hc))
    · exact hx.trans (congrArg _ (if_neg hc))
  case xsg =>
    have hx := exec_xsg_mine g hm
    split_ifs with hc
    · exact hx.trans (congrArg _ (if_pos (by simpa using hc)))
    · exact hx.trans (congrArg _ (if_neg (by simpa using hc)))

end Sys2Proof.Proofs
end

section
/-! PROOFS. What each result changes when it lands, and what it leaves (R51, R53, R54, R112, R211, R228). -/

namespace Sys2Proof.Proofs

open Sys2Proof Sys2Proof.Machine Sys2Proof.Claims

/-! ### Registers (R42, R51) -/

section
variable (c : Core)

theorem s_setS_self {d : Reg} (h : d ≠ 0) (x : SReg) : (c.setS d x).s d = x := by
  rw [Core.setS, if_neg h, Arch.s, if_neg h]
  exact Vector.getElem_set_self _

theorem s_setS_ne {d r : Reg} (h : r ≠ d) (x : SReg) : (c.setS d x).s r = c.s r := by
  have hne : d.toNat ≠ r.toNat := fun he => h (BitVec.eq_of_toNat_eq he.symm)
  unfold Core.setS
  split_ifs
  · rfl
  · simp [Arch.s, hne]

/-- s0 stays 0 (R42). -/
theorem s_setS_zero (d : Reg) (x : SReg) : (c.setS d x).s 0 = c.s 0 := by
  simp [Arch.s]

theorem setS_frame (d : Reg) (x : SReg) : (∀ r, (c.setS d x).v r = c.v r) ∧ (∀ g, (c.setS d x).g g = c.g g) ∧
    (c.setS d x).spec = c.spec ∧ (c.setS d x).store = c.store := by
  unfold Core.setS
  split_ifs <;> exact ⟨fun _ => rfl, fun _ => rfl, rfl, rfl⟩

theorem v_setV_self (d : Reg) (x : VReg) : (c.setV d x).v d = x := by
  simp [Core.setV, Arch.v]

theorem v_setV_ne {d r : Reg} (h : r ≠ d) (x : VReg) : (c.setV d x).v r = c.v r := by
  have hne : d.toNat ≠ r.toNat := fun he => h (BitVec.eq_of_toNat_eq he.symm)
  simp [Core.setV, Arch.v, hne]

theorem g_setG_self {g : GIdx} (h : g.toNat < 12) (x : Steer) : (c.setG g x).g g = x := by
  simp [Core.setG, Arch.g, h]

theorem g_setG_ne {g h : GIdx} (hne : h ≠ g) (x : Steer) : (c.setG g x).g h = c.g h := by
  have hne' : g.toNat ≠ h.toNat := fun he => hne (BitVec.eq_of_toNat_eq he.symm)
  simp [Core.setG, Arch.g, hne']

end

/-! ### Buffers (R205) -/

/-- A buffer reads back the bytes written in a row, and every other byte as before. -/
theorem get_write_place (t y : Nat) (bs : List Byte) (a : Nat) (b : Buf) (h : b.wf = true) :
    (b.write t (place a bs)).get t y = if a ≤ y ∧ y < a + bs.length then bs.getD (y - a) 0 else b.get t y := by
  induction bs generalizing a b with
  | nil => simp [place, Buf.write]
  | cons v bs ih =>
    have hstep : b.write t (place a (v :: bs)) = (b.set t a v).write t (place (a + 1) bs) := rfl
    rw [hstep, ih (a + 1) _ (Buf.set_wf t a v h), Buf.get_set t a v h, List.length_cons]
    rcases lt_trichotomy y a with hlt | rfl | hgt
    · simp (disch := omega) only [if_neg]
    · simp
    · obtain ⟨k, rfl⟩ := Nat.exists_eq_add_of_lt hgt
      have hk : a + k + 1 - (a + 1) = k := by omega
      have hk' : a + k + 1 - a = k + 1 := by omega
      rw [hk, hk', List.getD_cons_succ, if_neg (show ¬ a + k + 1 = a by omega)]
      exact if_congr (by omega) rfl rfl

section
variable (c : Core) (u : BSpace) (w : List (Nat × Byte))

theorem buf_setBuf (o : BSpace) (b : Buf) : (c.setBuf u b).buf o = if o = u then b else c.buf o := by
  cases u <;> cases o <;> rfl

theorem setBuf_frame (b : Buf) : (c.setBuf u b).regs = c.regs ∧ (c.setBuf u b).spec = c.spec := by
  cases u <;> exact ⟨rfl, rfl⟩

/-- What the array notes of a store to A touches the engines alone. -/
def noted : Core := if u = .a then c.keepOld w else c

theorem noted_frame : (noted c u w).store = c.store ∧ (noted c u w).regs = c.regs ∧ (noted c u w).spec = c.spec ∧
    (noted c u w).ctx = c.ctx := by
  unfold noted
  split_ifs <;> exact ⟨rfl, rfl, rfl, rfl⟩

theorem noted_buf (o : BSpace) : (noted c u w).buf o = c.buf o := by
  obtain ⟨hstore, -⟩ := noted_frame c u w
  cases o <;> simp only [Arch.buf, hstore]

end

theorem one_bstore_me (x : Perf) (u : BSpace) (w : List (Nat × Byte)) (lanes : Bool) :
    (x.one (.bstore u w lanes)).s.me = (noted x.s.me u w).writeBuf u w := rfl

theorem buf_bstore_self (x : Perf) (u : BSpace) (w : List (Nat × Byte)) (lanes : Bool) :
    (x.one (.bstore u w lanes)).s.me.buf u = (x.s.me.buf u).write x.s.me.ctx.toNat w := by
  obtain ⟨-, -, -, hctx⟩ := noted_frame x.s.me u w
  rw [one_bstore_me, Core.writeBuf, buf_setBuf, if_pos rfl, noted_buf, hctx]

theorem buf_bstore_ne (x : Perf) {u o : BSpace} (h : o ≠ u) (w : List (Nat × Byte)) (lanes : Bool) :
    (x.one (.bstore u w lanes)).s.me.buf o = x.s.me.buf o := by
  rw [one_bstore_me, Core.writeBuf, buf_setBuf, if_neg h, noted_buf]

theorem bstore_frame (x : Perf) (u : BSpace) (w : List (Nat × Byte)) (lanes : Bool) :
    (x.one (.bstore u w lanes)).s.me.regs = x.s.me.regs ∧ (x.one (.bstore u w lanes)).s.me.spec = x.s.me.spec := by
  obtain ⟨-, hregs, hspec, -⟩ := noted_frame x.s.me u w
  obtain ⟨hregs', hspec'⟩ := setBuf_frame (noted x.s.me u w) u (((noted x.s.me u w).buf u).write (noted x.s.me u w).ctx.toNat w)
  exact ⟨hregs'.trans hregs, hspec'.trans hspec⟩

/-! ### Tags and pointers (R211, R228) -/

/-- One tag set or cleared. -/
theorem getLsbD_tag (m : W64) (t : BitVec 6) (v : Bool) {k : Nat} (hk : k < 64) :
    (if v then m ||| tagMask t else m &&& ~~~tagMask t).getLsbD k = if k = t.toNat then v else m.getLsbD k := by
  have hbit : (tagMask t).getLsbD k = decide (k = t.toNat) := by
    refine (BitVec.getLsbD_twoPow t.toNat k).trans ?_
    simp [t.isLt, eq_comm]
  cases v with
  | true =>
    rw [if_pos rfl, BitVec.getLsbD_or, hbit]
    split_ifs with h <;> simp [h]
  | false =>
    rw [if_neg Bool.false_ne_true, BitVec.getLsbD_and, BitVec.getLsbD_not, hbit]
    split_ifs with h <;> simp [h, hk]

theorem movePtr_eq {c : Core} {n : BitVec 4} {b : Cb} (h : c.cb n = some b) (cons : Bool) (k : Nat) :
    c.movePtr n cons k = c.setCb n (some (b.move cons k)) := by
  simp only [Core.movePtr, h]

theorem cb_setCb_self (c : Core) (n : BitVec 4) (b : Option Cb) : (c.setCb n b).cb n = b := by
  simp [Core.setCb, Arch.cb, Core.onEng]

theorem cb_setCb_ne (c : Core) {n m : BitVec 4} (h : m ≠ n) (b : Option Cb) : (c.setCb n b).cb m = c.cb m := by
  have hne : n.toNat ≠ m.toNat := fun he => h (BitVec.eq_of_toNat_eq he.symm)
  simp [Core.setCb, Arch.cb, Core.onEng, hne]

/-! ### Global memory -/

theorem writeSys_mem (s : State) (n : Nat) (v : W64) : (s.writeSys n v).mem = s.mem := by
  have hrsvm : ∀ i, (s.writeRsvm i v).mem = s.mem := fun i => by unfold State.writeRsvm; split_ifs <;> rfl
  have hpg : ∀ g, (s.pgCtl g v).mem = s.mem := fun g => by
    obtain ⟨gs, hgo⟩ := pgGo_eq s g v
    unfold State.pgCtl
    split_ifs
    · rfl
    · rw [hgo]
    · rfl
  unfold State.writeSys
  split_ifs
  · rfl
  · rfl
  · rfl
  · exact hrsvm _
  · rfl
  · exact hpg _
  · rfl

/-- No result writes global memory: what a tile stores there leaves with its requests (R242). -/
theorem one_mem (x : Perf) (w : Landing) : (x.one w).s.mem = x.s.mem := by
  cases w with
  | special n v =>
    change (x.s.writeSpecial n v).mem = x.s.mem
    unfold State.writeSpecial
    split_ifs
    · exact writeSys_mem x.s n.toNat v
    · rfl
  | axrow st j =>
    simp only [Perf.one]
    split <;> rfl
  | _ => rfl

/-! ### The obligation -/

/-- Settles O56: each kind of result by its target. -/
theorem resultsLandWhereTheySay : Obligations.ResultsLandWhereTheySay := by
  unfold Obligations.ResultsLandWhereTheySay
  refine fun x => ⟨fun d v p fl => ?_, fun d v p fl => ?_, fun g v p t hg => ?_, fun u a bs lanes hwf => ?_, fun t v => ?_,
    fun n cons k b hb => ?_, one_mem x⟩
  · obtain ⟨hv, hg, hspec, hstore⟩ := setS_frame x.s.me d { val := v, poison := p }
    exact ⟨fun h => s_setS_self _ h _, s_setS_zero _ d _, fun r h => s_setS_ne _ h _, hv, hg, hspec, hstore, rfl, rfl, rfl⟩
  · exact ⟨v_setV_self _ d _, fun r h => v_setV_ne _ h _, fun _ => rfl, fun _ => rfl, rfl, rfl, rfl, rfl⟩
  · refine ⟨g_setG_self _ hg _, g_setG_self _ hg _, fun h hne => ⟨g_setG_ne _ hne _, g_setG_ne _ hne _⟩, fun y hy => ?_⟩
    rcases List.mem_pair.mp hy with rfl | rfl <;> exact ⟨fun _ => rfl, fun _ => rfl, rfl, rfl⟩
  · obtain ⟨hregs, hspec⟩ := bstore_frame x u (place a bs) lanes
    have hget : ∀ y, ((x.one (.bstore u (place a bs) lanes)).s.me.buf u).get x.s.me.ctx.toNat y =
        if a ≤ y ∧ y < a + bs.length then bs.getD (y - a) 0 else (x.s.me.buf u).get x.s.me.ctx.toNat y := fun y => by
      rw [buf_bstore_self, get_write_place _ y bs a _ hwf]
    refine ⟨fun k hk => ?_, fun b hb => ?_, fun o ho => buf_bstore_ne x ho _ lanes, hregs, hspec, rfl, rfl⟩
    · rw [hget, if_pos ⟨by omega, by omega⟩, Nat.add_sub_cancel_left]
    · rw [hget, if_neg (by omega)]
  · exact ⟨rfl, rfl, fun k hk => getLsbD_tag x.s.me.spec.tagmap t v hk⟩
  · have hme : (x.one (.cbptr n cons k)).s.me = x.s.me.setCb n (some (b.move cons k)) := movePtr_eq hb cons k
    dsimp only
    rw [hme]
    exact ⟨cb_setCb_self _ n _, fun m h => cb_setCb_ne _ h _, rfl, rfl, rfl⟩

end Sys2Proof.Proofs
end

section
/-! PROOFS. What reset leaves (R49, R51, R52, R187, R259, R331, R333). -/

namespace Sys2Proof.Proofs

open Sys2Proof Sys2Proof.Machine Sys2Proof.Claims

/-! ### The cores after reset -/

theorem length_resetCores (n k : Nat) : (State.resetCores n k).length = k := by
  induction k generalizing n with
  | zero => rfl
  | succ k ih => rw [State.resetCores, List.length_cons, ih]

theorem getElem?_resetCores {n k i : Nat} (h : i < k) : (State.resetCores n k)[i]? = some (State.resetCore (n + i)) := by
  induction k generalizing n i with
  | zero => omega
  | succ k ih =>
    cases i with
    | zero => rfl
    | succ i =>
      rw [State.resetCores, List.getElem?_cons_succ, ih (by omega)]
      congr 2
      omega

theorem core_reset {n : Nat} (h : n < 264) : State.reset.core n = State.resetCore n := by
  by_cases hn : n = 0
  · subst hn
    rfl
  · have hget : State.reset.rest[n]? = some (State.resetCore n) := by
      rw [show State.reset.rest = State.resetCores 0 264 from rfl, getElem?_resetCores h, Nat.zero_add]
    rw [State.core, if_neg (show ¬ n = State.reset.me.num from hn), List.getD_eq_getElem?_getD, hget]
    rfl

section
variable (n : Nat)

/-- The register files are clear (R51). -/
theorem registers_resetCore : (∀ r : Reg, (State.resetCore n).s r = { val := 0, poison := false }) ∧
    (∀ r : Reg, (State.resetCore n).v r = { val := 0, poison := 0 }) ∧
    (∀ g : GIdx, g.toNat < 12 → (State.resetCore n).g g = { c := false, cp := false, t := 0 }) ∧
    ∀ w : BitVec 3, (State.resetCore n).win w = { base := 0, limit := 0, key := 0 } := by
  refine ⟨fun r => ?_, fun r => ?_, fun g hg => ?_, fun w => ?_⟩
  · simp [Arch.s, State.resetCore, State.resetArch, State.resetRegs]
  · simp [Arch.v, State.resetCore, State.resetArch, State.resetRegs]
  · simp [Arch.g, State.resetCore, State.resetArch, State.resetRegs, hg]
  · simp [Arch.win, State.resetCore, State.resetArch, State.resetRegs]

theorem stallc_resetCore {k : Nat} (h : k < 8) : (State.resetCore n).spec.stallc[k]? = some 0 := by
  simp [State.resetCore, State.resetArch, State.resetSpec, h]

theorem level_resetCore {k : Nat} (h : k < 6) : (State.resetCore n).level k = { cnt := 0, idx := 0, beg := 0, fin := 0 } := by
  simp [Arch.level, State.resetCore, State.resetArch, h]

theorem cb_resetCore (k : BitVec 4) : (State.resetCore n).cb k = none := by
  simp [Arch.cb, State.resetCore, State.resetArch, State.resetEng]

/-- No line of a buffer has an owner, so a context reads 0 (R259). -/
theorem get_resetBuf (t x : Nat) : State.resetBuf.get t x = 0 :=
  ite_self 0

theorem buf_resetCore (u : BSpace) : (State.resetCore n).buf u = State.resetBuf := by
  cases u <;> rfl

end

/-! ### The module after reset -/

theorem group_reset {g : Nat} (h : g < 24) : (State.reset.group g).state = .off := by
  rw [State.group, show State.reset.groups = List.replicate 24 State.resetGroup from rfl, List.getD_eq_getElem?_getD,
    List.getElem?_replicate_of_lt h]
  rfl

/-- No mask of a station reserves a slot (R317). -/
theorem safe_reset : State.reset.Safe := by
  refine ⟨rfl, fun i j hi hj _ _ => ?_⟩
  simp [State.reset, hi, hj]

/-- Settles O54: the cores by one reset core, the module by its parts. -/
theorem resetValues : Obligations.ResetValues := by
  unfold Obligations.ResetValues
  refine ⟨length_resetCores 0 264, fun n => core_reset, fun n => ?_, rfl, rfl, fun _ => rfl, fun g => group_reset, rfl, rfl,
    safe_reset⟩
  obtain ⟨hs, hv, hg, hw⟩ := registers_resetCore n
  refine ⟨hs, hv, hg, hw, rfl, rfl, ?_, fun k => stallc_resetCore n, rfl, fun k => level_resetCore n, cb_resetCore n, rfl, rfl, rfl,
    rfl, rfl, rfl, rfl, fun u t x _ => ?_⟩
  · exact fun p hp => List.eq_of_mem_replicate (n := 15) hp
  · rw [buf_resetCore, get_resetBuf]

end Sys2Proof.Proofs
end

section
/-! PROOFS. Scalar arithmetic and division: what the 32-bit and the 64-bit form make of exact values (R70 to R72). -/

namespace Sys2Proof.Proofs

open Sys2Proof Sys2Proof.Machine Sys2Proof.Claims

/-! ### Exact results and forms (R70) -/

/-- A form does not see multiples of its power of two. -/
theorem form_congr {w : Bool} {y z : Int} (h : y ≡ z [ZMOD 2 ^ width w]) : form w y = form w z := by
  have hcut : BitVec.ofInt (width w) y = BitVec.ofInt (width w) z := by
    apply BitVec.eq_of_toNat_eq
    rw [BitVec.toNat_ofInt, BitVec.toNat_ofInt]
    exact congrArg Int.toNat (by exact_mod_cast h)
  cases w with
  | false => exact hcut
  | true => exact congrArg (BitVec.signExtend 64) hcut

/-- The model's cut of a 64-bit result is the form of its number. -/
theorem res_eq_form (w : Bool) (x : W64) : res w x = form w x.toInt := by
  cases w with
  | false => exact BitVec.ofInt_toInt.symm
  | true =>
    have hlow : x.setWidth 32 = BitVec.ofInt 32 x.toInt := by
      apply BitVec.eq_of_toNat_eq
      rw [BitVec.toNat_setWidth, BitVec.toNat_ofInt, BitVec.toInt_eq_toNat_cond]
      split <;> omega
    exact congrArg (BitVec.signExtend 64) hlow

theorem toInt_ofInt_modEq (w : Bool) (z : Int) : (BitVec.ofInt 64 z).toInt ≡ z [ZMOD 2 ^ width w] := by
  have h64 : (BitVec.ofInt 64 z).toInt ≡ z [ZMOD 2 ^ 64] := by
    rw [BitVec.toInt_ofInt]
    exact Int.bmod_emod
  exact h64.of_dvd (by cases w <;> decide)

/-- The cut of an exact result. -/
theorem res_ofInt (w : Bool) (z : Int) : res w (BitVec.ofInt 64 z) = form w z := by
  rw [res_eq_form, form_congr (toInt_ofInt_modEq w z)]

/-! ### Sources of a form (R70) -/

section
variable (w : Bool) (x : W64)

theorem toInt_srcS : (srcS w x).toInt = sVal w x := by
  cases w with
  | false => rfl
  | true => exact BitVec.toInt_signExtend_of_le (by decide)

theorem toNat_srcN : (srcN w x).toNat = uVal w x := by
  cases w with
  | false => rfl
  | true => exact (BitVec.toNat_setWidth_of_le (show 32 ≤ 64 by decide)).trans (BitVec.toNat_setWidth ..)

theorem srcS_eq_ofInt : srcS w x = BitVec.ofInt 64 (sVal w x) := by
  rw [← toInt_srcS, BitVec.ofInt_toInt]

theorem srcN_eq_ofInt : srcN w x = BitVec.ofInt 64 (uVal w x) := by
  rw [← toNat_srcN, BitVec.ofInt_natCast, BitVec.ofNat_toNat, BitVec.setWidth_eq]

/-- The bits of a source above its form do not count. -/
theorem sVal_modEq : sVal w x ≡ x.toInt [ZMOD 2 ^ width w] := by
  cases w with
  | false => rfl
  | true =>
    rw [Int.ModEq, sVal, width, if_pos rfl, if_pos rfl, BitVec.toInt_eq_toNat_cond, BitVec.toInt_eq_toNat_cond,
      BitVec.toNat_setWidth]
    split <;> split <;> omega

theorem shamt_eq : shamt w x = x.toNat % width w := by cases w <;> rfl

end

/-! ### Words with two sources (R68, R71) -/

section
variable {mk : Reg → Reg → Reg → Bool → Bool → Instr} {l : Nat} {f : Bool → W64 → W64 → W64}

/-- A word with two clear sources yields what it computes. -/
theorem yields_alu2 {s : State} {d a b : Reg} {i : Instr} {sp : Bool} {g : W64 → W64 → W64}
    (hexec : exec i s = issue i s (s.alu2 l sp d a b g)) (hr : Ready i s) (hc : Clear s [a, b]) :
    Yields i s l d (g (val s a) (val s b)) :=
  (exec_of_ready hexec hr).trans (congrArg _ (scalar_clear (firstPoison_of_clear hc)))

theorem arith_of_alu2 {z : Bool → W64 → W64 → Int}
    (hexec : ∀ d a b w sp s, exec (mk d a b w sp) s = issue (mk d a b w sp) s (s.alu2 l sp d a b (f w)))
    (hf : ∀ w x y, f w x y = form w (z w x y)) : Arith mk l z := by
  intro s d a b w sp hr hc
  rw [← hf]
  exact yields_alu2 (hexec ..) hr hc

end

/-! ### Sums and products (R71) -/

section
variable (w : Bool) (x y : W64)

theorem aluAdd_eq : aluAdd w x y = form w (sVal w x + sVal w y) := by
  rw [form_congr ((sVal_modEq w x).add (sVal_modEq w y)), ← res_ofInt, ← ofInt_toInt_add, BitVec.ofInt_toInt]
  rfl

theorem aluSub_eq : aluSub w x y = form w (sVal w x - sVal w y) := by
  have hsub : x - y = BitVec.ofInt 64 (x.toInt - y.toInt) := by
    rw [sub_eq_add_neg x.toInt, ← ofInt_toInt_add, BitVec.ofInt_neg, BitVec.ofInt_toInt, BitVec.sub_eq_add_neg]
  rw [form_congr ((sVal_modEq w x).sub (sVal_modEq w y)), ← res_ofInt, ← hsub]
  rfl

theorem aluMul_eq : aluMul w x y = form w (sVal w x * sVal w y) := by
  rw [form_congr ((sVal_modEq w x).mul (sVal_modEq w y)), ← res_ofInt, ← ofInt_toInt_mul, BitVec.ofInt_toInt]
  rfl

/-- The upper half of a product of 32-bit sources is bits 32 to 63 of the 64-bit product. -/
theorem low32_upper (z : Int) : low32 (BitVec.ofInt 64 z >>> 32) = form true (z / 2 ^ 32) := by
  have hbits : ((BitVec.ofInt 64 z).toNat / 2 ^ 32 : Nat) ≡ z / 2 ^ 32 [ZMOD 2 ^ width true] := by
    rw [Int.ModEq, width, if_pos rfl, BitVec.toNat_ofInt]
    omega
  rw [ushiftRight_eq_ofInt, ← form_congr hbits]
  exact res_ofInt true _

theorem aluMulh_eq : aluMulh w x y = form w (sVal w x * sVal w y / 2 ^ width w) := by
  cases w with
  | false => simp only [aluMulh, form, sVal, width, Bool.false_eq_true, if_false, Nat.cast_pow, Nat.cast_ofNat]
  | true =>
    have hprod : srcS true x * srcS true y = BitVec.ofInt 64 (sVal true x * sVal true y) := by
      rw [srcS_eq_ofInt, srcS_eq_ofInt, ← BitVec.ofInt_mul]
    simp only [aluMulh, if_true, hprod, low32_upper]
    rfl

theorem aluMulhn_eq : aluMulhn w x y = form w ((uVal w x : Int) * uVal w y / 2 ^ width w) := by
  cases w with
  | false => exact (BitVec.ofInt_natCast ..).symm.trans (congrArg _ (by push_cast; rfl))
  | true =>
    have hprod : srcN true x * srcN true y = BitVec.ofInt 64 ((uVal true x : Int) * uVal true y) := by
      rw [srcN_eq_ofInt, srcN_eq_ofInt, ← BitVec.ofInt_mul]
    simp only [aluMulhn, if_true, hprod, low32_upper]
    rfl

end

/-- Settles O1: each word by the exact value that its result is the cut of. -/
theorem scalarArithmeticOfExactValues : Obligations.ScalarArithmeticOfExactValues := by
  unfold Obligations.ScalarArithmeticOfExactValues
  exact ⟨arith_of_alu2 exec_add aluAdd_eq, arith_of_alu2 exec_sub aluSub_eq, arith_of_alu2 exec_mul aluMul_eq,
    arith_of_alu2 exec_mulh aluMulh_eq, arith_of_alu2 exec_mulhn aluMulhn_eq⟩

/-! ### Quotients and remainders (R72) -/

section
variable (w : Bool) (x y : W64)

theorem srcS_eq_zero_iff : srcS w y = 0 ↔ sVal w y = 0 := by
  rw [← toInt_srcS, ← BitVec.toInt_inj]
  rfl

theorem srcN_eq_zero_iff : srcN w y = 0 ↔ uVal w y = 0 := by
  rw [← toNat_srcN, ← BitVec.toNat_inj]
  rfl

/-- A choice between two exact results. -/
theorem res_ite {p q : Prop} [Decidable p] [Decidable q] (hpq : p ↔ q) {u v : W64} {m n : Int} (hu : res w u = form w m)
    (hv : res w v = form w n) : res w (if p then u else v) = form w (if q then m else n) := by
  rw [if_congr hpq rfl rfl, apply_ite (res w), hu, hv, apply_ite (form w)]

/-- All ones are the number -1. -/
theorem res_allOnes : res w (BitVec.allOnes 64) = form w (-1) := by
  rw [← BitVec.neg_one_eq_allOnes, ← res_ofInt]
  rfl

theorem aluDiv_eq : aluDiv w x y = form w (if sVal w y = 0 then -1 else (sVal w x).tdiv (sVal w y)) := by
  refine res_ite w (srcS_eq_zero_iff w y) (res_allOnes w) ?_
  rw [res_ofInt, toInt_srcS, toInt_srcS]

theorem aluRem_eq : aluRem w x y = form w (if sVal w y = 0 then sVal w x else (sVal w x).tmod (sVal w y)) := by
  refine res_ite w (srcS_eq_zero_iff w y) ?_ ?_
  · rw [srcS_eq_ofInt, res_ofInt]
  · rw [res_ofInt, toInt_srcS, toInt_srcS]

theorem aluDivn_eq : aluDivn w x y = form w (if uVal w y = 0 then -1 else (uVal w x / uVal w y : Nat)) := by
  refine res_ite w (srcN_eq_zero_iff w y) (res_allOnes w) ?_
  rw [← BitVec.ofInt_natCast, res_ofInt, toNat_srcN, toNat_srcN]

theorem aluRemn_eq :
    aluRemn w x y = form w (if uVal w y = 0 then uVal w x else (uVal w x % uVal w y : Nat)) := by
  refine res_ite w (srcN_eq_zero_iff w y) ?_ ?_
  · rw [srcN_eq_ofInt, res_ofInt]
  · rw [← BitVec.ofInt_natCast, res_ofInt, toNat_srcN, toNat_srcN]

end

/-- Settles O2: each word by its exact quotient or remainder, the zero divisor apart. -/
theorem divisionTruncatesWithItsCorners : Obligations.DivisionTruncatesWithItsCorners := by
  unfold Obligations.DivisionTruncatesWithItsCorners
  exact ⟨arith_of_alu2 exec_div aluDiv_eq, arith_of_alu2 exec_rem aluRem_eq, arith_of_alu2 exec_divn aluDivn_eq,
    arith_of_alu2 exec_remn aluRemn_eq⟩

end Sys2Proof.Proofs
end

section
/-! PROOFS. Logic, shifts, rotates, extrema, counts and bit fields of the scalar words (R70, R71, R73, R74). -/

namespace Sys2Proof.Proofs

open Sys2Proof Sys2Proof.Machine Sys2Proof.Claims

/-! ### Results bit by bit (R70) -/

theorem bitOf_lt (w : Bool) {k : Nat} (hk : k < 64) : bitOf w k < width w := by
  cases w <;> simp only [bitOf, width, if_true, Bool.false_eq_true, if_false] <;> omega

theorem width_le (w : Bool) : width w ≤ 64 := by cases w <;> decide

theorem bitOf_lt_64 (w : Bool) {k : Nat} (hk : k < 64) : bitOf w k < 64 := (bitOf_lt w hk).trans_le (width_le w)

/-- A sign-extended 32-bit number repeats its bit 31. -/
theorem getLsbD_signExtend_32 (x : BitVec 32) {k : Nat} (hk : k < 64) : (x.signExtend 64).getLsbD k = x.getLsbD (bitOf true k) := by
  rw [BitVec.getLsbD_signExtend, decide_eq_true hk, Bool.true_and, BitVec.msb_eq_getLsbD_last, bitOf, if_pos rfl]
  split_ifs with h
  · rw [Nat.min_eq_left (by omega)]
  · rw [Nat.min_eq_right (by omega)]

/-- A low bit of a number that is cut to 32 bits. -/
theorem getLsbD_setWidth_32 (x : W64) {j : Nat} (hj : j < 32) : (x.setWidth 32).getLsbD j = x.getLsbD j := by
  rw [BitVec.getLsbD_setWidth, decide_eq_true hj, Bool.true_and]

theorem getLsbD_res (w : Bool) (x : W64) {k : Nat} (hk : k < 64) : (res w x).getLsbD k = x.getLsbD (bitOf w k) := by
  cases w with
  | false => rfl
  | true => exact (getLsbD_signExtend_32 _ hk).trans (getLsbD_setWidth_32 _ (bitOf_lt true hk))

section
variable {mk : Reg → Reg → Reg → Bool → Bool → Instr} {f : Bool → W64 → W64 → W64}

theorem bitwise_of_alu2 {g : Bool → W64 → W64 → Nat → Bool}
    (hexec : ∀ d a b w sp s, exec (mk d a b w sp) s = issue (mk d a b w sp) s (s.alu2 1 sp d a b (f w)))
    (hf : ∀ w x y k, k < 64 → (f w x y).getLsbD k = g w x y (bitOf w k)) : Bitwise mk g :=
  fun _ _ _ _ w _ hr hc => ⟨_, yields_alu2 (hexec ..) hr hc, hf w _ _⟩

end

/-! ### Logic and rotates (R71) -/

section
variable (w : Bool) (x y : W64) (k : Nat) (hk : k < 64)
include hk

theorem getLsbD_aluAnd : (aluAnd w x y).getLsbD k = (x.getLsbD (bitOf w k) && y.getLsbD (bitOf w k)) :=
  (getLsbD_res w _ hk).trans BitVec.getLsbD_and

theorem getLsbD_aluOr : (aluOr w x y).getLsbD k = (x.getLsbD (bitOf w k) || y.getLsbD (bitOf w k)) :=
  (getLsbD_res w _ hk).trans BitVec.getLsbD_or

theorem getLsbD_aluXor : (aluXor w x y).getLsbD k = (x.getLsbD (bitOf w k) != y.getLsbD (bitOf w k)) :=
  (getLsbD_res w _ hk).trans BitVec.getLsbD_xor

theorem getLsbD_aluAndn : (aluAndn w x y).getLsbD k = (x.getLsbD (bitOf w k) && !y.getLsbD (bitOf w k)) := by
  rw [aluAndn, getLsbD_res w _ hk, BitVec.getLsbD_and, BitVec.getLsbD_not, decide_eq_true (bitOf_lt_64 w hk), Bool.true_and]

theorem getLsbD_aluOrn : (aluOrn w x y).getLsbD k = (x.getLsbD (bitOf w k) || !y.getLsbD (bitOf w k)) := by
  rw [aluOrn, getLsbD_res w _ hk, BitVec.getLsbD_or, BitVec.getLsbD_not, decide_eq_true (bitOf_lt_64 w hk), Bool.true_and]

end

section
variable {n r k : Nat} (x : BitVec n) (hr : r < n) (hk : k < n)
include hr hk

theorem getLsbD_rotateLeft_mod : (x.rotateLeft r).getLsbD k = x.getLsbD ((k + n - r) % n) := by
  rw [BitVec.getLsbD_rotateLeft_of_le hr]
  by_cases h : k < r
  · rw [decide_eq_true h, cond_true, Nat.mod_eq_of_lt (by omega)]
    congr 1
    omega
  · have hplace : k + n - r = k - r + n := by omega
    rw [decide_eq_false h, cond_false, hplace, Nat.add_mod_right, Nat.mod_eq_of_lt (by omega), decide_eq_true hk, Bool.true_and]

theorem getLsbD_rotateRight_mod : (x.rotateRight r).getLsbD k = x.getLsbD ((k + r) % n) := by
  rw [BitVec.getLsbD_rotateRight_of_lt hr]
  by_cases h : k < n - r
  · rw [decide_eq_true h, cond_true, Nat.mod_eq_of_lt (by omega), Nat.add_comm]
  · have hplace : k + r = k - (n - r) + n := by omega
    rw [decide_eq_false h, cond_false, hplace, Nat.add_mod_right, Nat.mod_eq_of_lt (by omega), decide_eq_true hk, Bool.true_and]

end

section
variable (w : Bool) (x y : W64) (k : Nat) (hk : k < 64)
include hk

theorem getLsbD_aluRol :
    (aluRol w x y).getLsbD k = x.getLsbD ((bitOf w k + width w - y.toNat % width w) % width w) := by
  cases w with
  | false => exact getLsbD_rotateLeft_mod x (Nat.mod_lt _ (by decide)) hk
  | true =>
    exact ((getLsbD_signExtend_32 _ hk).trans (getLsbD_rotateLeft_mod _ (Nat.mod_lt _ (by decide)) (bitOf_lt true hk))).trans
      (getLsbD_setWidth_32 x (Nat.mod_lt _ (by decide)))

theorem getLsbD_aluRor : (aluRor w x y).getLsbD k = x.getLsbD ((bitOf w k + y.toNat % width w) % width w) := by
  cases w with
  | false => exact getLsbD_rotateRight_mod x (Nat.mod_lt _ (by decide)) hk
  | true =>
    exact ((getLsbD_signExtend_32 _ hk).trans (getLsbD_rotateRight_mod _ (Nat.mod_lt _ (by decide)) (bitOf_lt true hk))).trans
      (getLsbD_setWidth_32 x (Nat.mod_lt _ (by decide)))

end

/-! ### Shifts (R71) -/

section
variable (w : Bool) (x y : W64)

theorem aluShl_eq : aluShl w x y = form w (sVal w x * 2 ^ (y.toNat % width w)) := by
  rw [form_congr ((sVal_modEq w x).mul_right _), ← res_ofInt, ← ofInt_shiftLeft, BitVec.ofInt_toInt, ← shamt_eq]
  rfl

theorem aluShr_eq : aluShr w x y = form w (uVal w x / 2 ^ (y.toNat % width w) : Nat) := by
  rw [aluShr, ushiftRight_eq_ofInt, res_ofInt, toNat_srcN, shamt_eq]

theorem aluSar_eq : aluSar w x y = form w (sVal w x / 2 ^ (y.toNat % width w)) := by
  rw [aluSar, sshiftRight_eq_ofInt, res_ofInt, toInt_srcS, shamt_eq]

end

/-- Settles O3: the logic and the rotates by the bits of their results, the shifts by their exact values. -/
theorem logicShiftsAndRotatesByBits : Obligations.LogicShiftsAndRotatesByBits := by
  unfold Obligations.LogicShiftsAndRotatesByBits
  exact ⟨bitwise_of_alu2 exec_and getLsbD_aluAnd, bitwise_of_alu2 exec_or getLsbD_aluOr, bitwise_of_alu2 exec_xor getLsbD_aluXor,
    bitwise_of_alu2 exec_andn getLsbD_aluAndn, bitwise_of_alu2 exec_orn getLsbD_aluOrn, arith_of_alu2 exec_shl aluShl_eq,
    arith_of_alu2 exec_shr aluShr_eq, arith_of_alu2 exec_sar aluSar_eq, bitwise_of_alu2 exec_rol getLsbD_aluRol,
    bitwise_of_alu2 exec_ror getLsbD_aluRor⟩

/-! ### Extrema (R71) -/

section
variable (w : Bool) (x y : W64)

theorem slt_srcS : (srcS w x).slt (srcS w y) = true ↔ sVal w x < sVal w y := by
  rw [BitVec.slt_iff_toInt_lt, toInt_srcS, toInt_srcS]

theorem ult_srcN : (srcN w x).ult (srcN w y) = true ↔ uVal w x < uVal w y := by
  rw [BitVec.ult_iff_toNat_lt, toNat_srcN, toNat_srcN]

theorem res_srcS : res w (srcS w x) = form w (sVal w x) := by rw [srcS_eq_ofInt, res_ofInt]

theorem res_srcN : res w (srcN w x) = form w (uVal w x) := by rw [srcN_eq_ofInt, res_ofInt]

theorem aluMin_eq : aluMin w x y = form w (min (sVal w x) (sVal w y)) := by
  rw [aluMin, res_ite w (slt_srcS w x y) (res_srcS w x) (res_srcS w y)]
  congr 1
  split_ifs <;> omega

theorem aluMax_eq : aluMax w x y = form w (max (sVal w x) (sVal w y)) := by
  rw [aluMax, res_ite w (slt_srcS w x y) (res_srcS w y) (res_srcS w x)]
  congr 1
  split_ifs <;> omega

theorem aluMinn_eq : aluMinn w x y = form w (min (uVal w x) (uVal w y) : Nat) := by
  rw [aluMinn, res_ite w (ult_srcN w x y) (res_srcN w x) (res_srcN w y)]
  congr 1
  split_ifs <;> omega

theorem aluMaxn_eq : aluMaxn w x y = form w (max (uVal w x) (uVal w y) : Nat) := by
  rw [aluMaxn, res_ite w (ult_srcN w x y) (res_srcN w y) (res_srcN w x)]
  congr 1
  split_ifs <;> omega

end

/-! ### Counts (R71) -/

theorem bitLen_zero (k : Nat) : bitLen k 0 = 0 := by cases k <;> rfl

/-- A number that fits the fuel of `bitLen` has as many bits as it answers. -/
theorem bitLen_spec {k n : Nat} (h : n < 2 ^ k) : n < 2 ^ bitLen k n ∧ (n ≠ 0 → 2 ^ (bitLen k n - 1) ≤ n) := by
  induction k generalizing n with
  | zero => simp_all [bitLen]
  | succ k ih =>
    by_cases hn : n = 0
    · simp [hn, bitLen]
    · obtain ⟨hlt, hle⟩ := ih (n := n / 2) (by rw [pow_succ] at h; omega)
      rw [bitLen, if_neg hn, pow_succ, Nat.add_sub_cancel]
      refine ⟨by omega, fun _ => ?_⟩
      by_cases hhalf : n / 2 = 0
      · rw [hhalf, bitLen_zero]
        omega
      · cases hb : bitLen k (n / 2) with
        | zero => rw [hb] at hlt; omega
        | succ b =>
          have := hle hhalf
          rw [hb, Nat.add_sub_cancel] at this
          rw [pow_succ]
          omega

theorem tz_le (k n : Nat) : tz k n ≤ k := by
  induction k generalizing n with
  | zero => rfl
  | succ k ih =>
    rw [tz]
    split_ifs
    · omega
    · exact Nat.succ_le_succ (ih _)

/-- The zeros that `tz` counts are those below the lowest set bit. -/
theorem tz_spec (k n : Nat) : 2 ^ tz k n ∣ n ∧ (tz k n < k → ¬ 2 ^ (tz k n + 1) ∣ n) := by
  induction k generalizing n with
  | zero => simp [tz]
  | succ k ih =>
    rw [tz]
    split_ifs with hodd
    · exact ⟨one_dvd n, fun _ h => by rw [Nat.zero_add, pow_one] at h; omega⟩
    · obtain ⟨hdvd, hnot⟩ := ih (n / 2)
      have heven : n = 2 * (n / 2) := by omega
      have hhalf (t : Nat) : 2 ^ (t + 1) ∣ n ↔ 2 ^ t ∣ n / 2 := by
        rw [heven, pow_succ', Nat.mul_dvd_mul_iff_left (by decide), ← heven]
      exact ⟨(hhalf _).mpr hdvd, fun hlt => mt (hhalf _).mp (hnot (by omega))⟩

/-- `ones` counts the bits that are set. -/
theorem ones_eq_countP (k n : Nat) : ones k n = (List.range k).countP n.testBit := by
  induction k generalizing n with
  | zero => rfl
  | succ k ih =>
    have hbits : n.testBit ∘ Nat.succ = (n / 2).testBit := funext fun i => Nat.testBit_succ n i
    rw [ones, ih, List.range_succ_eq_map, List.countP_cons, List.countP_map, hbits, Nat.testBit_zero, Nat.add_comm]
    congr 1
    rcases Nat.mod_two_eq_zero_or_one n with h | h <;> simp [h]

section
variable (w : Bool) (x : W64)

theorem uVal_lt : uVal w x < 2 ^ width w := by
  cases w with
  | false => exact x.isLt
  | true => exact Nat.mod_lt _ (by decide)

theorem uVal_lt_64 : uVal w x < 2 ^ 64 := (uVal_lt w x).trans_le (Nat.pow_le_pow_right (by decide) (width_le w))

theorem bitLen_uVal_le : bitLen 64 (uVal w x) ≤ width w := by
  by_cases h0 : uVal w x = 0
  · rw [h0, bitLen_zero]
    exact Nat.zero_le _
  · have hlow := (bitLen_spec (uVal_lt_64 w x)).2 h0
    have := (Nat.pow_lt_pow_iff_right (by decide)).mp (hlow.trans_lt (uVal_lt w x))
    omega

theorem clz_spec : let n := width w - bitLen 64 (uVal w x)
    uVal w x < 2 ^ (width w - n) ∧ (n < width w → 2 ^ (width w - n - 1) ≤ uVal w x) := by
  obtain ⟨hlt, hle⟩ := bitLen_spec (uVal_lt_64 w x)
  dsimp only
  rw [Nat.sub_sub_self (bitLen_uVal_le w x)]
  refine ⟨hlt, fun hn => hle fun h0 => ?_⟩
  rw [h0, bitLen_zero] at hn
  omega

/-- The set bits of a source are those of its form. -/
theorem countP_uVal : (List.range 64).countP (uVal w x).testBit = (List.range (width w)).countP x.getLsbD := by
  cases w with
  | false => rfl
  | true =>
    have hsplit : List.range 64 = List.range 32 ++ (List.range 32).map (32 + ·) := rfl
    have hbit (i : Nat) : (uVal true x).testBit i = (decide (i < 32) && x.getLsbD i) := Nat.testBit_mod_two_pow ..
    have hhigh : ((List.range 32).map (32 + ·)).countP (uVal true x).testBit = 0 := by
      simp [List.countP_eq_zero, hbit]
    rw [hsplit, List.countP_append, hhigh, Nat.add_zero]
    refine List.countP_congr fun i hi => ?_
    rw [hbit, decide_eq_true (List.mem_range.mp hi), Bool.true_and]

end

section
variable {mk : Reg → Reg → Bool → Bool → Instr} {f : Bool → W64 → W64}

theorem counts_of_alu1 {P : Bool → W64 → Nat → Prop} (n : Bool → W64 → Nat)
    (hexec : ∀ d a w sp s, exec (mk d a w sp) s = issue (mk d a w sp) s (s.alu1 1 sp d a (f w)))
    (hf : ∀ w x, f w x = BitVec.ofNat 64 (n w x)) (hle : ∀ w x, n w x ≤ width w) (hP : ∀ w x, P w x (n w x)) :
    Counts mk P :=
  fun _ _ _ w _ hr hc => ⟨_, hle w _, hP w _, yields_alu1 (hexec ..) hr hc (hf w _)⟩

end

theorem counts_clz : Counts .clz fun w x n =>
    uVal w x < 2 ^ (width w - n) ∧ (n < width w → 2 ^ (width w - n - 1) ≤ uVal w x) :=
  counts_of_alu1 (fun w x => width w - bitLen 64 (uVal w x)) exec_clz
    (fun w x => congrArg (fun u => BitVec.ofNat 64 (formBits w - bitLen 64 u)) (toNat_srcN w x)) (fun _ _ => Nat.sub_le ..) clz_spec

theorem counts_ctz : Counts .ctz fun w x n => 2 ^ n ∣ uVal w x ∧ (n < width w → ¬ 2 ^ (n + 1) ∣ uVal w x) :=
  counts_of_alu1 (fun w x => tz (width w) (uVal w x)) exec_ctz
    (fun w x => congrArg (fun u => BitVec.ofNat 64 (tz (formBits w) u)) (toNat_srcN w x)) (fun _ _ => tz_le ..)
    fun _ _ => tz_spec ..

theorem counts_popc : Counts .popc fun w x n => n = (List.range (width w)).countP x.getLsbD :=
  counts_of_alu1 (fun w x => (List.range (width w)).countP x.getLsbD) exec_popc
    (fun w x => congrArg (BitVec.ofNat 64) (by rw [toNat_srcN, ones_eq_countP, countP_uVal]))
    (fun _ _ => List.countP_le_length.trans_eq List.length_range) fun _ _ => rfl

/-- Settles O4: the extrema by their numbers, the counts by what they count. -/
theorem extremaAndBitCounts : Obligations.ExtremaAndBitCounts := by
  unfold Obligations.ExtremaAndBitCounts
  exact ⟨arith_of_alu2 exec_min aluMin_eq, arith_of_alu2 exec_max aluMax_eq, arith_of_alu2 exec_minn aluMinn_eq,
    arith_of_alu2 exec_maxn aluMaxn_eq, counts_clz, counts_ctz, counts_popc⟩

/-! ### Bit fields (R73) -/

section
variable (w : Bool) (y : W64)

theorem fieldPos_eq : fieldPos w y = fieldAt w y := shamt_eq w y

theorem fieldLen_eq : fieldLen w y = fieldEnd w y - fieldAt w y := by
  rw [fieldLen, fieldPos_eq]
  rfl

theorem fieldEnd_le : fieldEnd w y ≤ width w := Nat.min_le_right ..

end

/-- A field of a number by its bits. -/
theorem testBit_field (n p m i : Nat) : (n / 2 ^ p % 2 ^ m).testBit i = (decide (i < m) && n.testBit (p + i)) := by
  rw [Nat.testBit_mod_two_pow, Nat.testBit_div_two_pow, Nat.add_comm]

/-- A number in which another field has been put, by its bits. -/
theorem testBit_insert (n a p m i : Nat) : (n - n / 2 ^ p % 2 ^ m * 2 ^ p + a % 2 ^ m * 2 ^ p).testBit i =
    if p ≤ i ∧ i < p + m then a.testBit (i - p) else n.testBit i := by
  have hhigh := Nat.div_add_mod (n / 2 ^ p) (2 ^ m)
  have hlow := Nat.div_add_mod n (2 ^ p)
  have hparts : n - n / 2 ^ p % 2 ^ m * 2 ^ p + a % 2 ^ m * 2 ^ p =
      2 ^ p * (2 ^ m * (n / 2 ^ p / 2 ^ m) + a % 2 ^ m) + n % 2 ^ p := by
    have hexpand : 2 ^ p * (2 ^ m * (n / 2 ^ p / 2 ^ m)) + 2 ^ p * (n / 2 ^ p % 2 ^ m) + n % 2 ^ p = n := by
      rw [← Nat.mul_add, hhigh, hlow]
    rw [Nat.mul_add, Nat.mul_comm _ (2 ^ p), Nat.mul_comm _ (2 ^ p)]
    omega
  rw [hparts, Nat.testBit_two_pow_mul_add _ (Nat.mod_lt _ (by positivity)),
    Nat.testBit_two_pow_mul_add _ (Nat.mod_lt _ (by positivity))]
  by_cases hp : p ≤ i
  · by_cases hm : i < p + m
    · rw [if_neg (by omega), if_pos (by omega), if_pos ⟨hp, hm⟩, Nat.testBit_mod_two_pow, decide_eq_true (by omega),
        Bool.true_and]
    · have hplace : i - p - m + m + p = i := by omega
      rw [if_neg (by omega), if_neg (by omega), if_neg (by omega), Nat.testBit_div_two_pow, Nat.testBit_div_two_pow, hplace]
  · rw [if_pos (by omega), if_neg (by omega), Nat.testBit_mod_two_pow, decide_eq_true (by omega), Bool.true_and]

/-- A field read as a signed number is the sign extension of its bits. -/
theorem ofInt_sgn {m v : Nat} (hm : m ≠ 0) (hle : m ≤ 64) (hv : v < 2 ^ m) :
    BitVec.ofInt 64 (sgn m v) = (BitVec.ofNat m v).signExtend 64 := by
  rw [← toInt_ofNat_eq_sgn hm hv, ← BitVec.toInt_signExtend_of_le hle, BitVec.ofInt_toInt]

section
variable (w : Bool) (x y : W64) (k : Nat) (hk : k < 64)
include hk

theorem getLsbD_aluBfxn : (aluBfxn w x y).getLsbD k =
    (decide (bitOf w k < fieldEnd w y - fieldAt w y) && x.getLsbD (fieldAt w y + bitOf w k)) := by
  rw [aluBfxn, getLsbD_res w _ hk, BitVec.getLsbD_ofNat, decide_eq_true (bitOf_lt_64 w hk), Bool.true_and, testBit_field,
    fieldPos_eq, fieldLen_eq]
  rfl

theorem getLsbD_aluBfx : (aluBfx w x y).getLsbD k =
    (decide (fieldAt w y < fieldEnd w y) && x.getLsbD (min (fieldAt w y + bitOf w k) (fieldEnd w y - 1))) := by
  have hend := (fieldEnd_le w y).trans (width_le w)
  rw [aluBfx, getLsbD_res w _ hk, fieldPos_eq, fieldLen_eq]
  by_cases hm : fieldEnd w y - fieldAt w y = 0
  · rw [if_pos hm, decide_eq_false (by omega), Bool.false_and]
    exact BitVec.getLsbD_zero
  · rw [if_neg hm, decide_eq_true (by omega), ofInt_sgn hm (by omega) (Nat.mod_lt _ (by positivity)), BitVec.getLsbD_signExtend,
      BitVec.msb_eq_getLsbD_last, decide_eq_true (bitOf_lt_64 w hk), Bool.true_and, Bool.true_and, ← apply_ite,
      BitVec.getLsbD_ofNat, testBit_field]
    have hplace : fieldAt w y + (if bitOf w k < fieldEnd w y - fieldAt w y then bitOf w k else fieldEnd w y - fieldAt w y - 1) =
        min (fieldAt w y + bitOf w k) (fieldEnd w y - 1) := by
      split_ifs <;> omega
    rw [hplace, decide_eq_true (by split_ifs <;> omega), Bool.true_and, Bool.true_and]
    rfl

/-- `bfi` replaces the bits of its field in the destination (R73). -/
theorem getLsbD_aluBfi (z : W64) : (aluBfi w z x y).getLsbD k =
    if fieldAt w y ≤ bitOf w k ∧ bitOf w k < fieldEnd w y then x.getLsbD (bitOf w k - fieldAt w y)
    else z.getLsbD (bitOf w k) := by
  rw [aluBfi, getLsbD_res w _ hk, fieldPos_eq, fieldLen_eq]
  by_cases hm : fieldEnd w y - fieldAt w y = 0
  · rw [if_pos hm, if_neg (by omega)]
  · have hend : fieldAt w y + (fieldEnd w y - fieldAt w y) = fieldEnd w y := by omega
    rw [if_neg hm, BitVec.getLsbD_ofNat, decide_eq_true (bitOf_lt_64 w hk), Bool.true_and, testBit_insert, hend]
    rfl

end

/-! ### `csel` (R74) -/

section
variable {s : State} {d a b : Reg} {g : GIdx} (hr : Ready (.csel d a b g) s)
include hr

theorem exec_csel_poisoned (hp : (s.me.g g).cp = true) : exec (.csel d a b g) s = .next (s.raiseLocal .poison 0) := by
  rw [exec_of_ready (exec_csel ..) hr, if_pos hp]

/-- `csel` with a clear condition does what its kept arm lets it do. -/
theorem exec_csel_clear (hp : (s.me.g g).cp ≠ true) : let kept := s.me.s (if (s.me.g g).c then a else b)
    exec (.csel d a b g) s = .next (s.unpoisoned [kept] (s.done fun c => c.push 1 (.sreg d kept.val false 0))) := by
  intro kept
  have hkept : (if (s.me.g g).c then s.me.s a else s.me.s b) = kept := (apply_ite s.me.s ..).symm
  rw [exec_of_ready (exec_csel ..) hr, if_neg hp, hkept]

end

theorem fires_of_unpoisoned {s k : State} {x : SReg} (h : x.poison = true) : s.unpoisoned [x] k = s.poison x.val :=
  unpoisoned_fires (List.find?_cons_of_pos h)

/-- Settles O5: the fields by their bits, `csel` by its condition and its kept arm. -/
theorem fieldsAndCommitSelect : Obligations.FieldsAndCommitSelect := by
  unfold Obligations.FieldsAndCommitSelect
  refine ⟨bitwise_of_alu2 exec_bfxn getLsbD_aluBfxn, bitwise_of_alu2 exec_bfx getLsbD_aluBfx, fun s d a b w sp hr hc => ?bfi,
    fun s d a b g hr => ?csel⟩
  case bfi =>
    refine ⟨aluBfi w (val s d) (val s a) (val s b), ?_, fun k hk => getLsbD_aluBfi w _ _ k hk _⟩
    exact (exec_of_ready (exec_bfi ..) hr).trans (congrArg _ (scalar_clear (firstPoison_of_clear hc)))
  case csel =>
    intro kept
    split_ifs with hcond hkept
    · exact exec_csel_poisoned hr hcond
    · exact (exec_csel_clear hr hcond).trans (congrArg _ (fires_of_unpoisoned hkept))
    · exact (exec_csel_clear hr hcond).trans (congrArg _ (unpoisoned_of_clear (rs := [kept]) (by simpa [Clear] using hkept)))

end Sys2Proof.Proofs
end

section
/-! PROOFS. Poisoned sources: scalar words fire or pass them on, every other word that reads a scalar register fires
(R68, R206, R222). -/

namespace Sys2Proof.Proofs

open Sys2Proof Sys2Proof.Machine Sys2Proof.Claims

/-! ### Scalar words (R68) -/

/-- Each scalar word is a scalar operation on its sources. -/
theorem exec_scalarWord {i : Instr} {sp : Bool} {l : Nat} {d : Reg} {rs : List Reg} (h : scalarWord i = some (sp, l, d, rs))
    (s : State) : ∃ v, exec i s = issue i s (s.scalar l sp (rs.map s.me.s) d v) := by
  cases i
  case add | sub | mul | mulh | mulhn | div | divn | rem | remn | and | or | xor | andn | orn | shl | shr | sar | rol | ror | min
    | max | minn | maxn | clz | ctz | popc | bfx | bfxn | bfi | addi | andi | ori | xori | shli | shri | sari | muli =>
    cases h
    exact ⟨_, rfl⟩
  all_goals nomatch h

/-- Settles O7: a scalar word passes its first poisoned source on under `.s`, and fires without. -/
theorem poisonedScalarSources : Obligations.PoisonedScalarSources := by
  unfold Obligations.PoisonedScalarSources
  intro s i sp l d rs r hword hr hfirst
  obtain ⟨v, hexec⟩ := exec_scalarWord hword s
  cases sp with
  | true => exact (exec_of_ready hexec hr).trans (congrArg _ (scalar_passes hfirst))
  | false => exact (exec_of_ready hexec hr).trans (congrArg _ (scalar_fires hfirst))

/-! ### Lanes as sources (R206) -/

theorem firstPoison_append (l m : List SReg) : firstPoison (l ++ m) = (firstPoison l).or (firstPoison m) :=
  List.find?_append

/-- The first poisoned lane of a register as the model picks it. -/
theorem firstPoison_lanePoison (s : State) (r : Reg) : firstPoison (lanePoison (s.me.v r)) = firstPoison (laneSources s r) := by
  have hpick : firstPoison (laneSources s r) = ((List.range 64).find? fun j => (s.me.v r).poison.getLsbD j).map fun j =>
      { val := ((s.me.v r).val.extractLsb' (32 * j) 32).setWidth 64, poison := (s.me.v r).poison.getLsbD j } := List.find?_map
  rw [hpick]
  cases hfind : (List.range 64).find? fun j => (s.me.v r).poison.getLsbD j with
  | none => simp only [lanePoison, hfind, Option.map_none]; rfl
  | some j =>
    have hpoison : (s.me.v r).poison.getLsbD j = true := List.find?_some hfind
    have hlane : BitVec.ofNat 64 (elem 32 (s.me.v r).val.toNat j) = ((s.me.v r).val.extractLsb' (32 * j) 32).setWidth 64 := by
      rw [← lane_toNat, BitVec.ofNat_toNat]
      rfl
    simp only [lanePoison, hfind, Option.map_some, hpoison, hlane]
    rfl

/-! ### Consumers (R68, R101, R193, R203, R206, R211, R216, R217, R219, R222, R223, R232) -/

/-- Each of these words first tries sources of which the first poisoned is that of the list in the manual. -/
theorem exec_consumer {i : Instr} {s : State} {r : SReg} (hsnd : ∀ a b c, i = .snd a b c → s.me.delta.toNat < 2 ^ 26)
    (h : firstPoison (consumes s i) = some r) :
    ∃ l k, exec i s = issue i s (s.unpoisoned l k) ∧ firstPoison l = firstPoison (consumes s i) := by
  cases i
  case prepr | loop | wrsr | swapSteward | tagwa | coll | lsv | lrs | msq | waitt | mclr | rcv | ld | vld | vldb | vgat | vsct | st
    | cbdef | cp | cpg | cpm | mlds | mmul | cbadvP | cbadvC | cbadvPW | cbadvCW | ldg | vldg | stg | red =>
    exact ⟨_, _, rfl, rfl⟩
  case snd a b c =>
    have hstamp : ¬ 2 ^ 26 ≤ s.me.delta.toNat := Nat.not_le.mpr (hsnd a b c rfl)
    exact ⟨_, _, congrArg (issue _ s) (if_neg hstamp), rfl⟩
  case amo d a w4 win sc op =>
    have hlist : consumes s (.amo d a w4 win sc op) = (if op = .cas then [d, d + 1, a] else [d, a]).map s.me.s := rfl
    exact ⟨_, _, rfl, by rw [hlist, apply_ite (List.map s.me.s)]; rfl⟩
  case vst sp v b z off =>
    refine ⟨_, _, rfl, ?_⟩
    rw [consumes, firstPoison_append, firstPoison_append, firstPoison_append, firstPoison_append, firstPoison_lanePoison,
      apply_ite firstPoison, firstPoison_lanePoison, ← apply_ite firstPoison]
  case vstg d a win =>
    refine ⟨_, _, rfl, ?_⟩
    rw [consumes, firstPoison_append, firstPoison_append, firstPoison_lanePoison]
  case mmulc => exact ⟨_, _, rfl, congrArg firstPoison (if_congr beq_iff_eq rfl rfl)⟩
  all_goals nomatch h

/-- Settles O8: the first poisoned of the sources fires. -/
theorem consumersFireOnPoison : Obligations.ConsumersFireOnPoison := by
  unfold Obligations.ConsumersFireOnPoison
  intro s i r hr hsnd hfirst
  obtain ⟨l, k, hexec, hl⟩ := exec_consumer hsnd hfirst
  exact (exec_of_ready hexec hr).trans (congrArg _ (unpoisoned_fires (hl.trans hfirst)))

end Sys2Proof.Proofs
end

section
/-! PROOFS. Compares, steer logic, targets, branches and loops (R77 to R88). -/

namespace Sys2Proof.Proofs

open Sys2Proof Sys2Proof.Machine Sys2Proof.Claims

/-! ### Conditions (R68, R77, R78) -/

theorem setsCondition_of_exec {i : Instr} {s : State} {g : GIdx} {p u v : Bool} (hexec : exec i s = issue i s (s.setCond g p u))
    (hr : Ready i s) (huv : u = v) : SetsCondition i s g p v := by
  subst huv
  refine (exec_of_ready hexec hr).trans ?_
  rw [State.setCond, Bool.and_comm]

/-- The conditions of two registers are those of their numbers. -/
theorem condHolds_eq (c : Cond) (x y : W64) : condHolds c x y = holds c x.toInt y.toInt x.toNat y.toNat := by
  cases c with
  | eq => exact (decide_eq_decide.mpr BitVec.toInt_inj).symm
  | ne => simp [condHolds, holds, BitVec.toInt_inj, bne, Bool.beq_eq_decide_eq]
  | lt | gt | ltn | gtn => rfl
  | ge | le => exact (decide_not ..).symm.trans (decide_eq_decide.mpr not_lt)
  | gen | len => exact (decide_not ..).symm.trans (decide_eq_decide.mpr not_lt)

/-- A signed condition sees the signed numbers alone, an unsigned one the unsigned. -/
theorem holds_congr {c : Cond} {x x' y y' : Int} {m m' n n' : Nat} (hs : Cond.unsigned c = false → x = x' ∧ y = y')
    (hu : Cond.unsigned c = true → m = m' ∧ n = n') : holds c x y m n = holds c x' y' m' n' := by
  cases c with
  | eq | ne | lt | ge | le | gt =>
    obtain ⟨rfl, rfl⟩ := hs rfl
    rfl
  | ltn | gen | len | gtn =>
    obtain ⟨rfl, rfl⟩ := hu rfl
    rfl

theorem cmpArg_signed {c : Cond} (h : Cond.unsigned c = false) (w : Bool) (x : W64) : cmpArg c w x = srcS w x := by
  rw [cmpArg, if_neg (ne_true_of_eq_false h)]
  rfl

theorem cmpArg_unsigned {c : Cond} (h : Cond.unsigned c = true) (w : Bool) (x : W64) : cmpArg c w x = srcN w x := by
  rw [cmpArg, if_pos h]
  rfl

/-- `cmp` compares its sources in its form (R78). -/
theorem condHolds_cmpArg (c : Cond) (w : Bool) (x y : W64) : condHolds c (cmpArg c w x) (cmpArg c w y) =
    holds c (sVal w x) (sVal w y) (uVal w x) (uVal w y) := by
  rw [condHolds_eq]
  refine holds_congr (fun h => ?_) (fun h => ?_)
  · rw [cmpArg_signed h, cmpArg_signed h, toInt_srcS, toInt_srcS]
    exact ⟨rfl, rfl⟩
  · rw [cmpArg_unsigned h, cmpArg_unsigned h, toNat_srcN, toNat_srcN]
    exact ⟨rfl, rfl⟩

theorem getLsbD_srcN (w : Bool) (x : W64) {k : Nat} (hk : k < 64) :
    (srcN w x).getLsbD k = (decide (k < width w) && x.getLsbD k) := by
  cases w with
  | false => rw [width, if_neg Bool.false_ne_true, decide_eq_true hk, Bool.true_and]; rfl
  | true =>
    rw [srcN, if_pos rfl, BitVec.getLsbD_setWidth, BitVec.getLsbD_setWidth, decide_eq_true hk, Bool.true_and]
    rfl

/-- A source whose form is 0 has no bit set in it. -/
theorem srcN_eq_zero_iff_bits (w : Bool) (x : W64) : srcN w x = 0 ↔ ¬ ∃ k < width w, x.getLsbD k = true := by
  constructor
  · rintro h ⟨k, hk, hbit⟩
    have := getLsbD_srcN w x (hk.trans_le (width_le w))
    simp [h, hk, hbit] at this
  · refine fun h => BitVec.eq_of_getLsbD_eq fun k hk => ?_
    rw [getLsbD_srcN w x hk, show (0 : W64).getLsbD k = false from BitVec.getLsbD_zero, Bool.and_eq_false_imp]
    exact fun hw => Bool.eq_false_iff.mpr fun hbit => h ⟨k, of_decide_eq_true hw, hbit⟩

/-- `tst` asks whether its sources have a bit in common (R79). -/
theorem tst_eq (w z : Bool) (x y : W64) : ((srcN w (x &&& y) == 0) == z) =
    (z != decide (∃ k < width w, x.getLsbD k = true ∧ y.getLsbD k = true)) := by
  have hcommon : (srcN w (x &&& y) == 0) = !decide (∃ k < width w, x.getLsbD k = true ∧ y.getLsbD k = true) := by
    rw [beq_eq_decide, ← decide_not, decide_eq_decide, srcN_eq_zero_iff_bits]
    simp only [BitVec.getLsbD_and, Bool.and_eq_true]
  rw [hcommon]
  cases z <;> simp

/-- Settles O9: each word by its condition and the poison of its sources. -/
theorem comparesAndSteerLogic : Obligations.ComparesAndSteerLogic := by
  unfold Obligations.ComparesAndSteerLogic
  intro s g
  refine ⟨fun a b c w hr => ?cmp, fun i c a hr => ?cmpi, fun a b z w hr => ?tst, fun ga gb hr => ?gand, fun ga gb hr => ?gor,
    fun ga gb hr => ?gxor, fun ga hr => ?gnot, fun a hr => ?ptst⟩
  case cmp => exact setsCondition_of_exec (exec_cmp ..) hr (condHolds_cmpArg c w _ _)
  case cmpi =>
    refine setsCondition_of_exec (exec_cmpi ..) hr ?_
    rw [condHolds_eq, immS_toInt (by decide), immS_eq_ofInt (by decide)]
    rfl
  case tst => exact setsCondition_of_exec (exec_tst ..) hr (tst_eq w z _ _)
  case gand => exact setsCondition_of_exec (exec_gand ..) hr rfl
  case gor => exact setsCondition_of_exec (exec_gor ..) hr rfl
  case gxor => exact setsCondition_of_exec (exec_gxor ..) hr rfl
  case gnot => exact setsCondition_of_exec (exec_gnot ..) hr rfl
  case ptst =>
    refine (exec_of_ready (exec_ptst ..) hr).trans ?_
    rw [State.setCond, Bool.not_false, Bool.and_true]

/-! ### Targets and branches (R81, R82, R87) -/

/-- What a word answers, by the condition on which its own effect depends. -/
theorem next_ite_iff {p q : Prop} [Decidable p] [Decidable q] (hpq : p ↔ q) {o : Host.Outcome State Fault Refusal} {t u : State}
    {P Q : Prop} (h : o = .next (if p then t else u)) (ht : o = .next t → P) (hu : o = .next u → Q) : if q then P else Q := by
  rw [if_congr hpq rfl rfl] at h
  split_ifs with hq
  · exact ht (by rw [h, if_pos hq])
  · exact hu (by rw [h, if_neg hq])

theorem next_ite {p : Prop} [Decidable p] {o : Host.Outcome State Fault Refusal} {t u : State} {P Q : Prop}
    (h : o = .next (if p then t else u)) (ht : o = .next t → P) (hu : o = .next u → Q) : if p then P else Q :=
  next_ite_iff Iff.rfl h ht hu

/-- Settles O10: the targets by their results, the branches by their condition. -/
theorem targetsAndBranches : Obligations.TargetsAndBranches := by
  unfold Obligations.TargetsAndBranches
  intro s g
  refine ⟨fun t hr => ?prep, fun a hr hc => ?prepr, fun hr => ?br, fun hr => ?brf, fun hr => ?brA, fun hr => ?brl⟩
  case prep => exact exec_of_ready (exec_prep ..) hr
  case prepr => exact (exec_of_ready (exec_prepr ..) hr).trans (congrArg _ (unpoisoned_of_clear hc))
  case br => exact next_ite (exec_of_ready (exec_br ..) hr) id id
  case brf => exact next_ite (exec_of_ready (exec_brf ..) hr) id id
  case brA => exact exec_of_ready (exec_brA ..) hr
  case brl => exact (exec_of_ready (exec_brl ..) hr).trans (congrArg _ (done_congr rfl))

/-! ### Loops (R83 to R88) -/

/-- The end address of a loop whose end packet lies in the instruction space (R83). -/
theorem loopEnd_toNat {word : IAddr} {epk : BitVec 8} (esl : BitVec 2) (h : word.toNat / 4 + epk.toNat ≤ 8191) :
    (loopEnd word epk esl).toNat = (word.toNat / 4 + epk.toNat) * 4 + esl.toNat := by
  rw [loopEnd, BitVec.toNat_ofNat, pkt, Nat.mod_eq_of_lt (by omega)]

/-- Settles O11: a loop word by its trip count and the depth, `lbrk` by its condition and the depth. -/
theorem loopsPushAndBreak : Obligations.LoopsPushAndBreak := by
  unfold Obligations.LoopsPushAndBreak
  intro s
  refine ⟨fun a gr epk esl hr hc => ⟨loopEnd_toNat esl, ?loop⟩, fun n gr epk esl hr => ⟨loopEnd_toNat esl, ?loopi⟩,
    fun g n hr => ?lbrk⟩
  case loop =>
    have hexec := (exec_of_ready (exec_loop ..) hr).trans (congrArg _ (unpoisoned_of_clear hc))
    exact next_ite hexec id fun h => next_ite h id id
  case loopi =>
    have hcount : immZ s.me.iss.ext n = BitVec.ofInt 64 (immNat s.me.iss.ext n) := by
      rw [← immZ_toInt (by decide), BitVec.ofInt_toInt]
    rw [← hcount]
    exact next_ite (exec_of_ready (exec_loopi ..) hr) id fun h => next_ite h id id
  case lbrk =>
    have hfalse : (!(s.me.g g).c) = true ↔ (s.me.g g).c = false := by simp
    exact next_ite (exec_of_ready (exec_lbrk ..) hr) id fun h => next_ite_iff hfalse h id fun h => next_ite h id id

end Sys2Proof.Proofs
end

section
/-! PROOFS. Traps, stops, swaps, checkpoint requests and loop-stack images (R96 to R101, R103 to R105). -/

namespace Sys2Proof.Proofs

open Sys2Proof Sys2Proof.Machine Sys2Proof.Claims

/-! ### Traps, stops, swaps (R96 to R99) -/

theorem noHandler_iff (c : Core) : c.noHandler = true ↔ c.spec.trapv.toNat % 4 = 3 := by
  rw [Arch.noHandler, beq_iff_eq, ← BitVec.toNat_inj, BitVec.extractLsb'_toNat, Nat.shiftRight_zero]
  rfl

/-- TRAPC of a trap (R103). -/
theorem trapcOf_trapi (k : BitVec 8) : trapcOf .trapi k = BitVec.ofNat 64 (256 * k.toNat + 1) := by
  rw [trapcOf, Nat.mul_comm]
  rfl

/-- The bits of a partition's number above its six are clear where it is below 64. -/
theorem partition_reserved_iff (x : W64) : (x.extractLsb' 6 58 != 0) = true ↔ 64 ≤ x.toNat := by
  rw [bne_iff_ne, ne_eq, ← BitVec.toNat_inj, BitVec.extractLsb'_toNat, Nat.shiftRight_eq_div_pow]
  have hx := x.isLt
  change ¬ x.toNat / 2 ^ 6 % 2 ^ 58 = 0 ↔ _
  omega

/-- Settles O38: each word by its own effect, `trap` by the handler, the steward's `swap` by the number it names. -/
theorem trapsStopsAndSwaps : Obligations.TrapsStopsAndSwaps := by
  unfold Obligations.TrapsStopsAndSwaps
  intro s
  refine ⟨fun k hr => ?trap, fun hr => ?tret, fun k hr => ?stop, fun hr => ?swap, fun a hr hc => ?steward⟩
  case trap =>
    refine next_ite_iff (noHandler_iff s.me) (exec_of_ready (exec_trap ..) hr)
      (fun h => ⟨_, h, rfl, rfl, rfl, rfl, rfl⟩) fun h => ?_
    rwa [trapcOf_trapi] at h
  case tret => exact exec_of_ready (exec_tret ..) hr
  case stop => exact ⟨_, exec_of_ready (exec_stop ..) hr, rfl, rfl, rfl, rfl, rfl, rfl⟩
  case swap => exact exec_of_ready (exec_swap ..) hr
  case steward =>
    have hexec := (exec_of_ready (exec_swapSteward ..) hr).trans (congrArg _ (unpoisoned_of_clear hc))
    exact next_ite_iff (partition_reserved_iff (val s a)) hexec id id

/-! ### The loop-stack image that is stored (R101) -/

/-- Parts of one length, one behind another, from one of them on. -/
theorem drop_flatMap {α β : Type} {f : α → List β} {n : Nat} (hf : ∀ a, (f a).length = n) (l : List α) (k : Nat) :
    (l.flatMap f).drop (n * k) = (l.drop k).flatMap f := by
  induction k generalizing l with
  | zero => rfl
  | succ k ih =>
    cases l with
    | nil => simp
    | cons a l => rw [List.flatMap_cons, Nat.mul_succ, Nat.add_comm, ← List.drop_drop, List.drop_left' (hf a), ih]; rfl

section
variable (c : Core)

theorem length_levelBytes (k : Nat) : (c.levelBytes k).length = 64 := by simp [Arch.levelBytes]

theorem length_loopImage : c.loopImage.length = 384 := by simp [Arch.loopImage, length_levelBytes]

/-- The image of a level stands at its place in the image of the stack, behind it what is left. -/
theorem drop_loopImage {k : Nat} (hk : k < 6) : ∃ r, c.loopImage.drop (64 * k) = c.levelBytes k ++ r := by
  have hlist : [0, 1, 2, 3, 4, 5] = List.range 6 := rfl
  have hlt : k < (List.range 6).length := hk.trans_eq List.length_range.symm
  refine ⟨((List.range 6).drop (k + 1)).flatMap c.levelBytes, ?_⟩
  rw [Arch.loopImage, hlist, drop_flatMap (length_levelBytes c), List.drop_eq_getElem_cons hlt, List.getElem_range,
    List.flatMap_cons]

/-- A field of at most 64 bits fits its 8 bytes. -/
theorem mod_field {n : Nat} (x : BitVec n) (h : n ≤ 64) : x.toNat % 256 ^ 8 = x.toNat :=
  Nat.mod_eq_of_lt (x.isLt.trans_le ((Nat.pow_le_pow_right (by decide) h).trans (by decide)))

/-- The fields of a level in the image (R101). -/
theorem loopImage_fields {k : Nat} (hk : k < 6) : let l := c.loopImage.drop (64 * k)
    leNat (l.take 8) = (c.level k).cnt.toNat ∧ leNat ((l.drop 8).take 8) = (c.level k).idx.toNat ∧
    leNat ((l.drop 16).take 8) = (c.level k).beg.toNat ∧ leNat ((l.drop 24).take 8) = (c.level k).fin.toNat ∧
    leNat ((l.drop 32).take 8) = if k = 0 then c.loops.lsd.toNat else 0 := by
  obtain ⟨r, hr⟩ := drop_loopImage c hk
  simp (disch := decide) only [hr, Arch.levelBytes, List.append_assoc, drop_block, Nat.reduceSub, List.drop_zero, leNat_take_block]
  refine ⟨mod_field _ (by decide), mod_field _ (by decide), mod_field _ (by decide), mod_field _ (by decide), ?_⟩
  split_ifs
  · exact mod_field _ (by decide)
  · rfl

end

/-! ### The image that is restored (R101) -/

/-- The address of an image is its base plus its offset, rounded down. -/
theorem imageAddr_eq (s : State) (b : Reg) (off : BitVec 16) : imageAddr (s.me.s b).val s.me.iss.ext off = imgAddr s b off := by
  have hz : immZ s.me.iss.ext off = BitVec.ofInt 64 (immNat s.me.iss.ext off) := by
    rw [← immZ_toInt (by decide), BitVec.ofInt_toInt]
  rw [imageAddr, imgAddr, val, hz, ofInt_toInt_add, BitVec.toNat_ofInt]
  rfl

/-- A number in the bytes of an image that are read. -/
theorem leNat_image (s : State) (a : Nat) {k : Nat} (h : k + 8 ≤ 384) :
    leNat (((s.me.bytes .a a 384).drop k).take 8) = num s .a (a + k) 8 :=
  congrArg leNat (bytes_part _ _ h)

theorem levelOf_image (s : State) (a : Nat) {k : Nat} (hk : k < 6) :
    levelOf ((s.me.bytes .a a 384).drop (64 * k)) = imageLevel s a k := by
  rw [levelOf, imageLevel]
  simp only [List.drop_drop, Nat.add_assoc]
  rw [leNat_image s a (by omega), leNat_image s a (by omega), leNat_image s a (by omega), leNat_image s a (by omega)]

/-- What `lrs` does with an image that lies in A. -/
def restores (s : State) (a : Nat) : State :=
  match s.me.store.a.bad.find? fun y => decide (a ≤ y) && decide (y < a + 384) with
  | some y => s.poison ((s.me.bytes .a y 1).headD 0 |>.setWidth 64)
  | none =>
    if 6 < num s .a (a + 32) 8 then s.raiseLocal .loopovf 0
    else s.done fun c => (c.loadLoops (s.me.bytes .a a 384)).onIss fun i => { i with skip := true }

section
variable {s : State} {b : Reg} {off : BitVec 16} (hc : Clear s [b])
include hc

theorem exec_lsv_clear (hr : Ready (.lsv b off) s) : exec (.lsv b off) s = .next (
    if 4194304 < imgAddr s b off + 384 then s.raise .perm
    else s.done fun c => c.push 2 (.bstore .a (place (imgAddr s b off) c.loopImage) false)) := by
  rw [exec_of_ready (exec_lsv ..) hr, ← imageAddr_eq]
  exact congrArg _ (unpoisoned_of_clear hc)

theorem exec_lrs_clear (hr : Ready (.lrs b off) s) : exec (.lrs b off) s = .next (
    if 4194304 < imgAddr s b off + 384 then s.raise .perm else restores s (imgAddr s b off)) := by
  rw [exec_of_ready (exec_lrs ..) hr, imageAddr_eq]
  refine congrArg _ ((unpoisoned_of_clear hc).trans ?_)
  rw [restores, ← leNat_image s _ (by decide)]
  rfl

end

/-- A poisoned byte fires with its value as code (R101, R103). -/
theorem poison_byte (s : State) (y : Nat) : s.poison ((s.me.bytes .a y 1).headD 0 |>.setWidth 64) =
    s.raiseLocal .poison (BitVec.ofNat 8 (num s .a y 1)) := by
  have hbyte (v : Byte) : (v.setWidth 64).setWidth 8 = BitVec.ofNat 8 (leNat [v]) := by
    apply BitVec.eq_of_toNat_eq
    simp [leNat]
  exact congrArg (s.raiseLocal .poison) (hbyte _)

theorem restores_poisoned {s : State} {a y : Nat}
    (h : (s.me.store.a.bad.find? fun y => decide (a ≤ y) && decide (y < a + 384)) = some y) :
    restores s a = s.raiseLocal .poison (BitVec.ofNat 8 (num s .a y 1)) := by
  simp only [restores, h, poison_byte]

theorem restores_clear {s : State} {a n : Nat} (h : ∀ y ∈ s.me.store.a.bad, y < a ∨ a + 384 ≤ y)
    (hn : num s .a (a + 32) 8 = n) : restores s a =
    if 6 < n then s.raiseLocal .loopovf 0
    else s.done fun c => (c.loadLoops (s.me.bytes .a a 384)).onIss fun i => { i with skip := true } := by
  have hnone : (s.me.store.a.bad.find? fun y => decide (a ≤ y) && decide (y < a + 384)) = none := by
    rw [List.find?_eq_none]
    intro y hy
    have := h y hy
    simp only [Bool.and_eq_true, decide_eq_true_eq]
    omega
  simp only [restores, hnone, hn]

/-- `lrs` of an image without a poisoned byte, whose LSD is `n`. -/
theorem exec_lrs_image {s : State} {b : Reg} {off : BitVec 16} {a n : Nat} (hc : Clear s [b]) (hr : Ready (.lrs b off) s)
    (haddr : imgAddr s b off = a) (ha : a + 384 ≤ 4194304) (hbad : ∀ y ∈ s.me.store.a.bad, y < a ∨ a + 384 ≤ y)
    (hn : num s .a (a + 32) 8 = n) :
    if 6 < n then exec (.lrs b off) s = .next (s.raiseLocal .loopovf 0)
    else ∃ l : Loops, l.lsd.toNat = n ∧ (∀ k (h : k < 6), l.lev[k] = imageLevel s a k) ∧
      Acts (.lrs b off) s fun c => { c with loops := l, iss := { c.iss with skip := true } } := by
  have hexec := exec_lrs_clear hc hr
  rw [haddr, if_neg (Nat.not_lt.mpr ha), restores_clear hbad hn] at hexec
  split_ifs at hexec ⊢ with hdeep
  · exact hexec
  · refine ⟨(s.me.loadLoops (s.me.bytes .a a 384)).loops, ?_, fun k hk => ?_, hexec.trans (congrArg _ (done_congr rfl))⟩
    · refine (BitVec.toNat_ofNat ..).trans ?_
      rw [leNat_image s _ (by decide), hn, Nat.mod_eq_of_lt (by omega)]
    · exact (Vector.getElem_ofFn ..).trans (levelOf_image s _ hk)

/-- Settles O41: `ckpt` by whether an image is incomplete, `lsv` by the image it stores, `lrs` by the one it meets. -/
theorem checkpointsAndLoopImages : Obligations.CheckpointsAndLoopImages := by
  unfold Obligations.CheckpointsAndLoopImages
  intro s
  refine ⟨fun t hr => ?ckpt, fun b off hc => ⟨fun ha => ⟨fun hr => ?lsvPerm, fun hr => ?lrsPerm⟩, fun ha hr => ?lsv,
    fun ha hr hbad => ?poisoned, fun ha hr hbad => ?lrs⟩⟩
  case ckpt => exact next_ite_iff List.isEmpty_iff (exec_of_ready (exec_ckpt ..) hr) id id
  case lsvPerm => exact (exec_lsv_clear hc hr).trans (congrArg _ (if_pos ha))
  case lrsPerm => exact (exec_lrs_clear hc hr).trans (congrArg _ (if_pos ha))
  case lsv =>
    refine ⟨s.me.loopImage, length_loopImage s.me, ?_, ?_, fun k hk => ?_⟩
    · exact (exec_lsv_clear hc hr).trans (congrArg _ ((if_neg (Nat.not_lt.mpr ha)).trans (done_congr rfl)))
    · obtain ⟨-, -, -, -, hlsd⟩ := loopImage_fields s.me (k := 0) (by decide)
      exact hlsd
    · obtain ⟨hcnt, hidx, hbeg, hfin, -⟩ := loopImage_fields s.me hk
      simp only [List.drop_drop] at hidx hbeg hfin
      exact ⟨hcnt, hidx, hbeg, hfin⟩
  case poisoned =>
    have hexec := (exec_lrs_clear hc hr).trans (congrArg _ (if_neg (Nat.not_lt.mpr ha)))
    obtain ⟨y, hy, hlo, hhi⟩ := hbad
    obtain ⟨z, hz⟩ := Option.isSome_iff_exists.mp
      (List.find?_isSome (p := fun y => decide (imgAddr s b off ≤ y) && decide (y < imgAddr s b off + 384)) |>.mpr
        ⟨y, hy, by simp [hlo, hhi]⟩)
    have hin := List.find?_some hz
    simp only [Bool.and_eq_true, decide_eq_true_eq] at hin
    exact ⟨z, List.mem_of_find?_eq_some hz, hin.1, hin.2, hexec.trans (congrArg _ (restores_poisoned hz))⟩
  case lrs =>
    generalize hn : num s .a (imgAddr s b off + 32) 8 = n
    exact exec_lrs_image hc hr rfl ha hbad hn

end Sys2Proof.Proofs
end

section
/-! PROOFS. What the engines complete: copies, streams, planes, rows, transfers of the sequencer, checkpoints (R100, R119, R134,
R184, R191, R195, R197, R213, R220, R251). -/

namespace Sys2Proof.Proofs

open Sys2Proof Sys2Proof.Machine Sys2Proof.Claims

/-! ### Copies and streams (R195, R197, R213) -/

section
variable {s : State} {n : Nat}

theorem copyComplete_happens {k : Copy} {r : List Copy} (h : (s.core n).eng.copies = k :: r) (hread : k.read = true)
    (hdone : k.len ≤ k.done) (hway : k.way = .home) (hlive : (s.core n).engines = true)
    (hqueue : ∀ q ∈ (s.core n).eng.inq, q.copy = false) :
    Happens (.copyComplete n) s (s.onCore n fun c =>
      let c1 := match k.dst with
        | .buf (.cb m) => c.movePtr m false k.len
        | _ => c
      (((c1.setTag k.tag).lazy k.tag (flIf k.stale flSTALE)).onEng fun e => { e with
        copies := e.copies.drop 1 }).openGate k.id) := by
  have hwaits : (s.core n).engineWaits true = false := by
    simpa [Arch.engineWaits] using hqueue
  refine congrArg Host.Outcome.next ?_
  simp only [h]
  exact if_neg (by simp [hread, hway, hlive, hwaits, hdone])

theorem streamFire_happens {x : Stream} {m : BitVec 4} {b : Cb} (hx : (s.core n).nextStream = some x) (hcb : x.cb = some m)
    (hb : (s.core n).cb m = some b) (hlive : (s.core n).engines = true)
    (hrows : (s.core n).reserved m b.elem + descM x.desc * b.elem ≤ b.occ) :
    Happens (.streamFire n) s (s.onCore n fun c =>
      c.onStream x.id fun y => { y with fired := true, data := c.recordRows b x ((s.core n).reserved m b.elem) }) := by
  refine congrArg Host.Outcome.next ?_
  simp only [hx, hcb, hb]
  exact if_neg (by simp [hlive, hrows])

end

/-! ### Planes and rows at their cycle (R134, R184, R191) -/

/-- Results that may perform are due. -/
theorem mem_of_mem_dueNow {all l r : List Flight} {f : Flight} (h : f ∈ dueNow all l r) : f ∈ r ∧ f.due = true := by
  induction r generalizing l with
  | nil => nomatch h
  | cons g r ih =>
    rw [dueNow] at h
    split_ifs at h with hkept
    · obtain ⟨hmem, hdue⟩ := ih h
      exact ⟨List.mem_cons_of_mem _ hmem, hdue⟩
    · rcases List.mem_cons.mp h with rfl | h
      · exact ⟨List.mem_cons_self, by_contra fun hdue => hkept (by simp [hdue])⟩
      · obtain ⟨hmem, hdue⟩ := ih h
        exact ⟨List.mem_cons_of_mem _ hmem, hdue⟩

/-- A due result of no register waits for none before it (R54). -/
theorem mem_dueNow {all l r : List Flight} {f : Flight} (hmem : f ∈ r) (hdue : f.due = true)
    (hreg : ∀ w : Landing, w.sameReg f.what = false) : f ∈ dueNow all l r := by
  induction r generalizing l with
  | nil => nomatch hmem
  | cons g r ih =>
    rw [dueNow]
    rcases List.mem_cons.mp hmem with rfl | hmem
    · simp [hdue, hreg]
    · split_ifs
      · exact ih hmem
      · exact List.mem_cons_of_mem _ (ih hmem)

theorem performOnly_happens {s t : State} {n : Nat} {p : Landing → Prop} {q : Landing → Bool} (ht : t = (s.focus n).meetChain)
    (hflags : t.performDue.1.me.enabled t.performDue.2 = 0) (hq : ∀ w, p w → q w = true)
    (hreg : ∀ w x : Landing, p w → x.sameReg w = false) (h : OnlyDue t n p) : s.performOnly n q = t.performDue.1 := by
  obtain ⟨hn, hmay, ⟨f, hf, hdue⟩, hall⟩ := h
  have hready : f ∈ t.me.ready := mem_dueNow hf hdue fun w => hreg _ w (hall f hf hdue)
  have hkind : t.me.ready.all (fun f => q f.what) = true := by
    refine List.all_eq_true.mpr fun g hg => ?_
    obtain ⟨hmem, hgdue⟩ := mem_of_mem_dueNow hg
    exact hq _ (hall g hmem hgdue)
  have hsome : (!t.me.ready.isEmpty) = true := by simp [List.ne_nil_of_mem hready]
  subst ht
  exact (if_pos ⟨hn, hsome, hkind, hmay⟩).trans (performFpx_none hflags)

/-! ### Transfers of the memory sequencer (R220, R251) -/

section
variable {s : State} {d : BitVec 3} {id : Nat} {x : Xfer} {ps : List PAddr}

/-- With its bytes moved a transfer ends, else it goes on (R220, R251). -/
theorem msqTransferComplete_happens (hx : (s.die d.toNat).msq.xfers.find? (fun x => x.id == id) = some x)
    (hlive : s.seqLive x = true) (hway : x.way = .home) (hps : s.restOf x (min 1 (x.len - x.done)) = .ok ps) :
    Happens (.msqTransferComplete d id) s (if x.len ≤ x.done ∧ (x.layout = 0 ∨ x.len = 0 ∨ x.out = some [])
      then s.seqFinish d.toNat x else s) := by
  have hstays : (x.done < x.len ∨ x.layout ≠ 0 ∧ 0 < x.len ∧ x.out ≠ some []) ↔
      ¬ (x.len ≤ x.done ∧ (x.layout = 0 ∨ x.len = 0 ∨ x.out = some [])) := by
    rw [not_and_or, not_or, not_or, not_le, Nat.pos_iff_ne_zero]
  refine congrArg Host.Outcome.next ?_
  simp only [hx, hps]
  rw [if_neg (by simp [hlive, hway]), if_congr hstays rfl rfl, ite_not]

theorem moveBurst_converts {s : State} {d : Nat} (hx : (s.die d).msq.xfers.find? (fun x => x.id == id) = some x)
    (hway : x.way = .home) (hlive : s.seqLive x = true) (hdone : x.len ≤ x.done) : s.moveBurst d id = s.seqConvert d x := by
  simp only [State.moveBurst, hx, hway, hlive, hdone, Bool.not_true, Bool.false_eq_true, if_false, if_true]

end

/-! ### Cores changed one after another -/

section
variable {f : Core → Core} (hf : ∀ c, (f c).num = c.num)

theorem onCore_dies (s : State) (n : Nat) : (s.onCore n f).dies = s.dies := by
  unfold State.onCore State.setCore
  split <;> rfl

/-- A core is there where it executes or has its place among the others. -/
def HasCore (s : State) (n : Nat) : Prop := n = s.me.num ∨ n < s.rest.length

include hf

theorem hasCore_onCore {s : State} {m : Nat} (n : Nat) : HasCore (s.onCore n f) m ↔ HasCore s m := by
  unfold State.onCore State.setCore State.core HasCore
  split_ifs with hn
  · rw [hf]
  · rw [List.length_set]

theorem core_onCore_hasCore {s : State} {n : Nat} (h : HasCore s n) : (s.onCore n f).core n = f (s.core n) := by
  unfold State.onCore State.setCore
  split_ifs with hn
  · have hnum : (f (s.core n)).num = s.me.num := by rw [hf, State.core, if_pos hn]
    rw [State.core, hnum, if_pos hn]
  · have hlen : n < s.rest.length := h.resolve_left hn
    simp only [State.core, if_neg hn]
    rw [List.getD_eq_getElem _ _ (by simpa using hlen), List.getElem_set_self]

/-- Different cores changed: each of them once, the others not. -/
theorem core_foldl_onCore {l : List Nat} (hnodup : l.Nodup) (s : State) (hl : ∀ n ∈ l, HasCore s n) (k : Nat) :
    (l.foldl (fun s n => s.onCore n f) s).core k = if k ∈ l then f (s.core k) else s.core k := by
  induction l generalizing s with
  | nil => rfl
  | cons n l ih =>
    obtain ⟨hn, hnodup⟩ := List.nodup_cons.mp hnodup
    obtain ⟨hfirst, hrest⟩ := List.forall_mem_cons.mp hl
    rw [List.foldl_cons, ih hnodup _ fun m hm => (hasCore_onCore hf n).mpr (hrest m hm)]
    by_cases hk : k = n
    · subst hk
      rw [if_neg hn, if_pos List.mem_cons_self, core_onCore_hasCore hf hfirst]
    · rw [core_onCore_ne s hf hk]
      exact if_congr (by simp [hk]) rfl rfl

omit hf in
theorem foldl_onCore_frame (l : List Nat) (s : State) :
    (l.foldl (fun s n => s.onCore n f) s).mem = s.mem ∧ (l.foldl (fun s n => s.onCore n f) s).dies = s.dies := by
  induction l generalizing s with
  | nil => exact ⟨rfl, rfl⟩
  | cons n l ih =>
    obtain ⟨hmem, hdies⟩ := ih (s.onCore n f)
    obtain ⟨hmem', -⟩ := onCore_frame s n f
    exact ⟨hmem.trans hmem', hdies.trans (onCore_dies s n)⟩

end

/-! ### The end of a transfer (R144, R220, R251) -/

/-- A tile whose bytes of a transfer have not all performed. -/
def waitsFor (s : State) (x : Xfer) (k : Nat) : Bool := !x.write && (s.core k).eng.inq.any fun q => !q.copy

/-- What a tile gets at the end of a transfer. -/
def ended (x : Xfer) (c : Core) : Core := (c.setTag x.tag).lazy x.tag (x.fl ||| flIf x.stale flSTALE)

/-- The tiles that wait no longer, with what they get. -/
def endedTiles (s : State) (x : Xfer) : State :=
  (x.cores.filter fun n => !waitsFor s x n).foldl (fun s n => s.onCore n (ended x)) s

theorem ended_num (x : Xfer) (c : Core) : (ended x c).num = c.num := by
  unfold ended Core.lazy
  split_ifs <;> rfl

theorem seqFinish_eq (s : State) (d : Nat) (x : Xfer) : s.seqFinish d x =
    if x.cores.any (waitsFor s x) then (endedTiles s x).onXfer d x.id fun y => { y with cores := y.cores.filter (waitsFor s x) }
    else (endedTiles s x).onMsq d fun m => { m with xfers := m.xfers.filter fun y => y.id != x.id } := by
  have hwait : (fun n => !x.write && (s.core n).engineWaits false) = waitsFor s x :=
    funext fun n => congrArg (!x.write && ·) (congrArg _ (funext fun q => by simp))
  unfold State.seqFinish
  rw [hwait]
  rfl

section
variable (s : State) (d : Nat) (x : Xfer)

theorem endedTiles_frame : (endedTiles s x).mem = s.mem ∧ (endedTiles s x).dies = s.dies := foldl_onCore_frame ..

theorem core_endedTiles (hnodup : x.cores.Nodup) (hx : ∀ k ∈ x.cores, HasCore s k) {k : Nat} (hk : k ∈ x.cores) :
    (endedTiles s x).core k = if waitsFor s x k then s.core k else ended x (s.core k) := by
  have hmem : k ∈ x.cores.filter (fun n => !waitsFor s x n) ↔ ¬ waitsFor s x k = true := by simp [hk]
  rw [endedTiles, core_foldl_onCore (ended_num x) (hnodup.filter _) s fun n hn => hx n (List.mem_of_mem_filter hn),
    if_congr hmem rfl rfl, ite_not]

/-- The end of a transfer changes a die besides the tiles it ends for. -/
theorem seqFinish_frame :
    (∀ k, (s.seqFinish d x).core k = (endedTiles s x).core k) ∧ (s.seqFinish d x).mem = (endedTiles s x).mem := by
  rw [seqFinish_eq]
  split_ifs <;> exact ⟨fun _ => rfl, rfl⟩

variable {s d x}

theorem msq_onMsq_endedTiles (hd : d < s.dies.length) (f : Msq → Msq) :
    (((endedTiles s x).onMsq d f).die d).msq = f (s.die d).msq := by
  obtain ⟨-, hdies⟩ := endedTiles_frame s x
  rw [msq_onMsq (by rwa [hdies]), State.die, hdies]
  rfl

theorem xfers_seqFinish_over (hd : d < s.dies.length) (h : ∀ k ∈ x.cores, waitsFor s x k = false) :
    ((s.seqFinish d x).die d).msq.xfers = (s.die d).msq.xfers.filter fun y => y.id != x.id := by
  have hany : ¬ x.cores.any (waitsFor s x) = true := by simpa using h
  rw [seqFinish_eq, if_neg hany, msq_onMsq_endedTiles hd]

theorem xfers_seqFinish_waits (hd : d < s.dies.length) (h : ∃ k ∈ x.cores, waitsFor s x k = true) :
    ((s.seqFinish d x).die d).msq.xfers = (s.die d).msq.xfers.map fun y =>
      if y.id = x.id then { y with cores := y.cores.filter (waitsFor s x) } else y := by
  rw [seqFinish_eq, if_pos (List.any_eq_true.mpr h), State.onXfer, msq_onMsq_endedTiles hd]

end

/-! ### Conversions (R251, R252) -/

section
variable (s : State) (d : Nat) (x : Xfer)

theorem roomFor_iff :
    s.roomFor x = true ↔ ∀ k ∈ x.cores, ((s.core k).eng.inq.filter fun q => q.copy == false).length < 16 := by
  simp only [State.roomFor, Arch.engineRoom, List.all_eq_true, decide_eq_true_eq]

theorem seqConvert_none (h : x.layout = 0 ∨ x.len = 0) (hout : x.out = none) : s.seqConvert d x = s := by
  simp only [State.seqConvert, hout, h, if_true]

theorem seqConvert_reads (hlayout : x.layout ≠ 0) (hlen : x.len ≠ 0) (hout : x.out = none) :
    let r := converted x.layout x.desc x.got
    s.seqConvert d x = s.onXfer d x.id fun y => { y with got := [], out := some (chunks 128 r.1.length r.1), fl := r.2 } := by
  simp only [State.seqConvert, hout, hlayout, hlen, or_false, if_false]

theorem seqConvert_writes {w : List (Nat × Byte)} {r : List (List (Nat × Byte))} (hout : x.out = some (w :: r)) :
    s.seqConvert d x = if ∀ k ∈ x.cores, ((s.core k).eng.inq.filter fun q => q.copy == false).length < 16
      then (s.deliver x w).onXfer d x.id fun y => { y with out := some r } else s := by
  simp only [State.seqConvert, hout]
  exact if_congr (roomFor_iff s x) rfl rfl

end

/-! ### Checkpoints (R100, R119) -/

section
variable {s : State} {n : Nat}

theorem ckptComplete_running {k : Ckpt} {r : List Ckpt} {a : Arch} (hk : (s.core n).ckpt = k :: r) (ha : k.image = some a)
    (hrun : (s.core n).run ≠ .stopped) : Happens (.ckptComplete n) s
      ((s.putImage (s.core n) a).onCore n fun c => { c.setTag k.tag with ckpt := r, kept := c.run != .stopped }) := by
  refine congrArg Host.Outcome.next ?_
  simp only [hk, ha, hrun, if_false]

theorem ckptComplete_stopped {k : Ckpt} {r : List Ckpt} {a : Arch} (hk : (s.core n).ckpt = k :: r) (ha : k.image = some a)
    (hrun : (s.core n).run = .stopped) : Happens (.ckptComplete n) s
      (s.onCore n fun c => { c.setTag k.tag with ckpt := r, kept := false }) := by
  refine congrArg Host.Outcome.next ?_
  simp only [hk, ha, hrun, if_true]
  exact congrArg (s.setCore n) (by simp [hrun])

theorem trickleCheckpoint_happens (hctx : (s.core n).ctx ≠ 0) (htile : (s.core n).steward = false)
    (hkept : (s.core n).kept = false) (hckpt : (s.core n).ckpt = []) (hrun : (s.core n).run ≠ .stopped) :
    Happens (.trickleCheckpoint n) s (s.putImage (s.core n) (s.core n).toArch) :=
  congrArg Host.Outcome.next (if_neg (by simpa [htile, hkept, hckpt, hrun] using hctx))

/-- A context changed under its own identifier. -/
theorem ctx_onCtx (s : State) (i : BitVec 16) {f : Ctx → Ctx} (hf : ∀ x, (f x).id = x.id) :
    (s.onCtx i f).ctx i = (s.ctx i).map f := by
  have hid : (fun c : Ctx => c.id == i) ∘ (fun c => if c.id == i then f c else c) = fun c => c.id == i := by
    funext c
    simp only [Function.comp]
    split <;> simp [hf]
  rw [State.ctx, State.onCtx, List.find?_map, hid, State.ctx]
  cases hc : s.ctxs.find? fun c => c.id == i with
  | none => rfl
  | some c => exact congrArg some (if_pos (List.find?_some hc :))

/-- The image of a core's state is the one of its rank in its context. -/
theorem putImage_images {c : Core} {x : Ctx} (a : Arch) (h : s.ctx c.ctx = some x) :
    ∃ y, (s.putImage c a).ctx c.ctx = some y ∧ y.images = x.images.set c.rank.toNat a := by
  refine ⟨_, (ctx_onCtx s c.ctx ?_).trans (congrArg (Option.map _) h), ?_⟩
  all_goals intros; rfl

end

/-- Settles O47: each engine by what it has completed. -/
theorem enginesComplete : Obligations.EnginesComplete := by
  unfold Obligations.EnginesComplete
  intro s n
  refine ⟨fun k r hk hread hdone hway hlive hqueue => copyComplete_happens hk hread hdone hway hlive hqueue,
    fun x m b hx hcb hb hlive hrows => streamFire_happens hx hcb hb hlive hrows, fun t ht hflags => ⟨fun h => ?plane,
      fun h => ?row⟩,
    fun d id x ps hx hlive hway hps => ?transfer, fun d x hnodup hcores hd => ?finish,
    fun d id x hx hway hlive hdone => moveBurst_converts hx hway hlive hdone,
    fun d x => ⟨seqConvert_none s d x, seqConvert_reads s d x, fun w r => seqConvert_writes s d x⟩,
    fun k r a hk ha => ⟨ckptComplete_running hk ha, ckptComplete_stopped hk ha⟩, trickleCheckpoint_happens,
    fun x a => putImage_images a⟩
  case plane =>
    refine congrArg Host.Outcome.next (performOnly_happens ht hflags ?_ ?_ h)
    · rintro w ⟨l, rfl⟩
      rfl
    · rintro w x ⟨l, rfl⟩
      cases x <;> rfl
  case row =>
    refine congrArg Host.Outcome.next (performOnly_happens ht hflags ?_ ?_ h)
    · rintro w ⟨y, j, rfl⟩
      rfl
    · rintro w x ⟨y, j, rfl⟩
      cases x <;> rfl
  case transfer =>
    have hexec := msqTransferComplete_happens hx hlive hway hps
    exact ⟨fun h => by rwa [if_pos h] at hexec, fun h => by rwa [if_neg h] at hexec⟩
  case finish =>
    obtain ⟨hcore, hmem⟩ := seqFinish_frame s d x
    obtain ⟨hmem', -⟩ := endedTiles_frame s x
    exact ⟨fun k hk => (hcore k).trans (core_endedTiles s x hnodup hcores hk), hmem.trans hmem', xfers_seqFinish_over hd,
      xfers_seqFinish_waits hd⟩

end Sys2Proof.Proofs
end

section
/-! PROOFS. Causes that stop a core or enter its handler; words that wait for tags (R103 to R107, R114, R144, R228). -/

namespace Sys2Proof.Proofs

open Sys2Proof Sys2Proof.Machine Sys2Proof.Claims

/-! ### The halt line (R106, R107) -/

/-- The stop of a core that belongs to a partition drives that partition's halt line. -/
theorem halt_part {s : State} (p : Stop) {q : Part} (htile : s.me.steward = false) (hpart : s.part s.me.part = some q) :
    ∃ r, (s.halt p).part s.me.part = some r ∧ r.halt = true := by
  refine ⟨_, (part_onPart ..).trans (congrArg (Option.map _) hpart), ?_⟩
  simp [htile]

/-- The stop of a steward drives no halt line (DEDUCED log 43). -/
theorem halt_parts_steward {s : State} (p : Stop) (h : s.me.steward = true) : (s.halt p).parts = s.parts := by
  rw [State.halt, State.onPart_parts]
  simp [h]

/-- Settles O40: what a halt writes of its core, and the partition whose halt line it drives. -/
theorem partitionCausesStopTheTile : Obligations.PartitionCausesStopTheTile := by
  unfold Obligations.PartitionCausesStopTheTile
  intro s k
  exact ⟨rfl, rfl, rfl, rfl, rfl, rfl, rfl, rfl, rfl, rfl, rfl, rfl, halt_parts_steward _, fun h q hq => halt_part _ h hq⟩

/-! ### Local causes (R103 to R105) -/

/-- When a local cause halts the partition: without a handler, or raised again at the first bundle of the handler (R104, R105). -/
abbrev Escalates (s : State) (k : Cause) : Prop :=
  s.me.spec.trapv.toNat % 4 = 3 ∨ (s.me.fromTrap = true ∧ (k = .poison ∨ k = .loopovf))

theorem escalates_iff (s : State) (k : Cause) :
    (s.me.noHandler || (s.me.fromTrap && (k == .poison || k == .loopovf))) = true ↔ Escalates s k := by
  rw [Bool.or_eq_true, noHandler_iff, Bool.and_eq_true, Bool.or_eq_true, beq_iff_eq, beq_iff_eq, Escalates]

theorem raiseLocal_of_escalates {s : State} {k : Cause} (h : Escalates s k) (code : BitVec 8) : s.raiseLocal k code =
    s.halt { mkStop k s.me.iss.start (code.setWidth 16) with escalated := true } :=
  if_pos ((escalates_iff s k).mpr h)

theorem raiseLocal_of_not_escalates {s : State} {k : Cause} (h : ¬ Escalates s k) (code : BitVec 8) : s.raiseLocal k code =
    s.onMe fun c => (c.trapTo k code c.iss.start).onIss fun i => { i with verdict := .raised } :=
  if_neg fun he => h ((escalates_iff s k).mp he)

/-- TRAPC of a cause and its code (R103). -/
theorem trapcOf_eq (k : Cause) (code : BitVec 8) : trapcOf k code = BitVec.ofNat 64 (256 * code.toNat + k.num) := by
  rw [trapcOf, Nat.mul_comm]

/-- Settles O39: a local cause that escalates is a halt, any other one enters the handler. -/
theorem localCausesEnterTheHandler : Obligations.LocalCausesEnterTheHandler := by
  unfold Obligations.LocalCausesEnterTheHandler
  intro s k code
  by_cases h : Escalates s k
  · rw [raiseLocal_of_escalates h]
    refine ⟨rfl, rfl, rfl, rfl, rfl, rfl, rfl, rfl, ?_⟩
    rw [if_pos h]
    exact ⟨rfl, rfl, rfl, fun htile q hq => halt_part _ htile hq⟩
  · rw [raiseLocal_of_not_escalates h]
    refine ⟨rfl, rfl, rfl, rfl, rfl, rfl, rfl, rfl, ?_⟩
    rw [if_neg h, ← trapcOf_eq]
    exact ⟨rfl, rfl, rfl, rfl, rfl⟩

/-! ### Tags observed (R114, R144) -/

theorem and_not_eq_zero_iff {w : Nat} (x y : BitVec w) :
    x &&& ~~~y = 0 ↔ ∀ i, x.getLsbD i = true → y.getLsbD i = true := by
  constructor
  · intro h i hx
    have hi : i < w := BitVec.lt_of_getLsbD hx
    simpa [hx, hi] using congrArg (fun z => z.getLsbD i) h
  · intro h
    refine BitVec.eq_of_getLsbD_eq fun i hi => ?_
    cases hx : x.getLsbD i
    · simp [hx]
    · simp [hx, h i hx]

/-- The tags of a mask are all set where no bit of it lies outside the tag map (R228). -/
theorem tagsSet_iff (x m : W64) :
    x &&& ~~~m = 0 ↔ ∀ k : BitVec 6, x.getLsbD k.toNat = true → m.getLsbD k.toNat = true := by
  rw [and_not_eq_zero_iff]
  refine ⟨fun h k => h k.toNat, fun h i hx => ?_⟩
  have hi : i < 64 := BitVec.lt_of_getLsbD hx
  have hbit := h (BitVec.ofNat 6 i)
  rw [BitVec.toNat_ofNat, Nat.mod_eq_of_lt hi] at hbit
  exact hbit hx

/-- Flags gathered keep every flag they began with and hold those of each entry. -/
theorem flags_foldl_getLsbD (l : List (BitVec 6 × Fl)) (f : Fl) (i : Nat) :
    (l.foldl (fun f e => f ||| e.2) f).getLsbD i = (f.getLsbD i || l.any fun e => e.2.getLsbD i) := by
  induction l generalizing f with
  | nil => simp
  | cons e l ih => rw [List.foldl_cons, ih, BitVec.getLsbD_or, List.any_cons, Bool.or_assoc]

/-- The flags kept for an observed tag are raised with the bundle (R144). -/
theorem observe_raises {c : Core} {m : W64} {e : BitVec 6 × Fl} (he : e ∈ c.eng.lazyFl) (hm : m.getLsbD e.1.toNat = true) :
    e.2 &&& ~~~(c.observe m).iss.fl = 0 := by
  have hmem : e ∈ c.eng.lazyFl.filter fun e => m.getLsbD e.1.toNat := List.mem_filter.mpr ⟨he, hm⟩
  refine (and_not_eq_zero_iff ..).mpr fun i h => ?_
  rw [Core.observe, BitVec.getLsbD_or, flags_foldl_getLsbD, List.any_eq_true.mpr ⟨e, hmem, h⟩, Bool.or_true, Bool.or_true]

/-! ### The last store (R228; DEDUCED log 54) -/

/-- A result that is a store to a buffer. -/
def IsStore (f : Flight) : Prop := ∃ u w q, f.what = .bstore u w q

/-- The latest of a number of cycles and those of the stores among some results. -/
def latestStore (n : Nat) (l : List Flight) : Nat :=
  l.foldl (fun n f => match f.what with | .bstore .. => max n f.remain | _ => n) n

theorem lastStore_eq (c : Core) : c.lastStore = latestStore 2 c.flight := rfl

theorem latestStore_cons_store {f : Flight} (h : IsStore f) (n : Nat) (l : List Flight) :
    latestStore n (f :: l) = latestStore (max n f.remain) l := by
  obtain ⟨u, w, q, h⟩ := h
  simp only [latestStore, List.foldl_cons, h]

theorem latestStore_cons_other {f : Flight} (h : ¬ IsStore f) (n : Nat) (l : List Flight) :
    latestStore n (f :: l) = latestStore n l := by
  rw [latestStore, List.foldl_cons]
  split
  next u w q hf => exact absurd ⟨u, w, q, hf⟩ h
  next => rfl

/-- It is that number or the cycles of one of the stores, and no store is later. -/
theorem latestStore_spec (l : List Flight) (n : Nat) : n ≤ latestStore n l ∧ (∀ f ∈ l, IsStore f → f.remain ≤ latestStore n l) ∧
    (latestStore n l = n ∨ ∃ f ∈ l, IsStore f ∧ f.remain = latestStore n l) := by
  induction l generalizing n with
  | nil => exact ⟨le_rfl, List.forall_mem_nil _, .inl rfl⟩
  | cons g l ih =>
    by_cases hg : IsStore g
    · rw [latestStore_cons_store hg]
      obtain ⟨hle, hall, hend⟩ := ih (max n g.remain)
      refine ⟨(le_max_left ..).trans hle, List.forall_mem_cons.mpr ⟨fun _ => (le_max_right ..).trans hle, hall⟩, ?_⟩
      rcases hend with hend | ⟨f, hf, hlast⟩
      · rcases max_choice n g.remain with hmax | hmax
        · exact .inl (hend.trans hmax)
        · exact .inr ⟨g, List.mem_cons_self, hg, (hend.trans hmax).symm⟩
      · exact .inr ⟨f, List.mem_cons_of_mem _ hf, hlast⟩
    · rw [latestStore_cons_other hg]
      obtain ⟨hle, hall, hend⟩ := ih n
      exact ⟨hle, List.forall_mem_cons.mpr ⟨fun h => absurd h hg, hall⟩,
        hend.imp_right fun ⟨f, hf, hlast⟩ => ⟨f, List.mem_cons_of_mem _ hf, hlast⟩⟩

/-- Settles O32: each word by its own effect, `tagff` by the room for its signal and the last store before it. -/
theorem tagsAndSignals : Obligations.TagsAndSignals := by
  unfold Obligations.TagsAndSignals
  intro s t a
  refine ⟨fun hr => ?tagw, fun hr hc => ?tagwa, fun c m => ⟨rfl, rfl, rfl, fun e he hm => observe_raises he hm, rfl⟩,
    fun hr => ?tagff, fun hr => exec_of_ready (exec_tagclr ..) hr⟩
  case tagw => exact next_ite (exec_of_ready (exec_tagw ..) hr) id id
  case tagwa =>
    have hexec := (exec_of_ready (exec_tagwa ..) hr).trans (congrArg _ (unpoisoned_of_clear hc))
    refine ⟨fun hset => ?_, fun k hk hunset => ?_⟩
    · exact hexec.trans (congrArg _ (if_pos ((tagsSet_iff ..).mpr hset)))
    · have hmissing : ¬ val s a &&& ~~~s.me.spec.tagmap = 0 := fun h =>
        absurd ((tagsSet_iff ..).mp h k hk) (by simpa using hunset)
      exact hexec.trans (congrArg _ (if_neg hmissing))
  case tagff =>
    obtain ⟨hle, hall, hend⟩ := latestStore_spec s.me.flight 2
    rw [← lastStore_eq] at hle hall hend
    refine next_ite (exec_of_ready (exec_tagff ..) hr) id fun h => ⟨s.me.lastStore, h, hle, ?_, ?_⟩
    · exact fun f hf u w q hstore => hall f hf ⟨u, w, q, hstore⟩
    · exact hend.imp_right fun ⟨f, hf, ⟨u, w, q, hstore⟩, hremain⟩ => ⟨f, hf, u, w, q, hstore, hremain⟩

end Sys2Proof.Proofs
end

section
/-! PROOFS. Steps of the memory system: walks, invalidations, migrations, channels, elision, error correction (R121, R245 to R247,
R250, R255, R257 to R259, R261). -/

namespace Sys2Proof.Proofs

open Sys2Proof Sys2Proof.Machine Sys2Proof.Claims

/-! ### Cores that are there -/

section
variable {s : State} {n : Nat}

theorem onCore_of_not_hasCore (h : ¬ HasCore s n) (f : Core → Core) : s.onCore n f = s := by
  obtain ⟨hme, hlen⟩ := not_or.mp h
  rw [State.onCore, State.setCore, if_neg hme, List.set_eq_of_length_le (not_lt.mp hlen)]

/-- A core whose bundle waits for a walk or has its fault is there. -/
theorem hasCore_of_walk (h : (s.core n).walk ≠ .none) : HasCore s n := by
  by_contra hno
  obtain ⟨hme, hlen⟩ := not_or.mp hno
  refine h ?_
  rw [State.core, if_neg hme, List.getD_eq_default _ _ (not_lt.mp hlen)]
  rfl

/-- Different cores changed, whether all of them are there or not: one that is there is changed once if it is among them. -/
theorem core_foldl_onCore_of_hasCore {f : Core → Core} (hf : ∀ c, (f c).num = c.num) {l : List Nat} (hnodup : l.Nodup)
    (h : HasCore s n) : (l.foldl (fun s m => s.onCore m f) s).core n = if n ∈ l then f (s.core n) else s.core n := by
  induction l generalizing s with
  | nil => rfl
  | cons m l ih =>
    obtain ⟨hm, hnodup⟩ := List.nodup_cons.mp hnodup
    rw [List.foldl_cons, ih hnodup ((hasCore_onCore hf m).mpr h)]
    by_cases hn : n = m
    · subst hn
      rw [if_neg hm, if_pos List.mem_cons_self, core_onCore_hasCore hf h]
    · rw [core_onCore_ne s hf hn]
      exact if_congr (by simp [hn]) rfl rfl

end

/-! ### What the units of a core lose leaves the bundles that wait (R246) -/

/-- A core with its place, its context and what its bundle waits for as they were. -/
structure WaitKept (c d : Core) : Prop where
  num : d.num = c.num
  ctx : d.ctx = c.ctx
  walk : d.walk = c.walk

theorem WaitKept.refl (c : Core) : WaitKept c c := ⟨rfl, rfl, rfl⟩

theorem WaitKept.trans {c d e : Core} (h : WaitKept c d) (h' : WaitKept d e) : WaitKept c e :=
  ⟨h'.num.trans h.num, h'.ctx.trans h.ctx, h'.walk.trans h.walk⟩

theorem WaitKept.async {c d : Core} (h : WaitKept c d) (p : Stop) : WaitKept c (d.async p) := by
  unfold Core.async
  split_ifs
  · exact h
  · exact h.trans ⟨rfl, rfl, rfl⟩

theorem waitKept_onEng (c : Core) (f : Eng → Eng) : WaitKept c (c.onEng f) := ⟨rfl, rfl, rfl⟩

theorem waitKept_reqFault (c : Core) (id : Nat) (k : Cause) : WaitKept c (c.reqFault id k) := by
  unfold Core.reqFault
  split_ifs
  · exact ⟨rfl, rfl, rfl⟩
  · exact (waitKept_onEng c _).async _

/-- Global memory, and every core in the sense above, as they were. -/
structure WaitsKept (s t : State) : Prop where
  mem : t.mem = s.mem
  core : ∀ n, WaitKept (s.core n) (t.core n)

theorem WaitsKept.refl (s : State) : WaitsKept s s := ⟨rfl, fun _ => .refl _⟩

theorem WaitsKept.trans {s t u : State} (h : WaitsKept s t) (h' : WaitsKept t u) : WaitsKept s u :=
  ⟨h'.mem.trans h.mem, fun n => (h.core n).trans (h'.core n)⟩

theorem waitsKept_onCore (s : State) (n : Nat) {f : Core → Core} (hf : ∀ c, WaitKept c (f c)) : WaitsKept s (s.onCore n f) := by
  by_cases hn : HasCore s n
  · obtain ⟨hmem, -⟩ := onCore_frame s n f
    refine ⟨hmem, fun k => ?_⟩
    by_cases hk : k = n
    · rw [hk, core_onCore_hasCore (fun c => (hf c).num) hn]
      exact hf _
    · rw [core_onCore_ne s (fun c => (hf c).num) hk]
      exact .refl _
  · rw [onCore_of_not_hasCore hn]
    exact .refl s

theorem waitsKept_consumeCells (s : State) (c : Core) (id : Nat) : WaitsKept s (s.consumeCells c id) := ⟨rfl, fun _ => .refl _⟩

theorem waitsKept_foldl {α : Type} {f : State → α → State} (hf : ∀ s a, WaitsKept s (f s a)) (l : List α) (s : State) :
    WaitsKept s (l.foldl f s) := by
  induction l generalizing s with
  | nil => exact .refl s
  | cons a l ih => exact (hf s a).trans (ih _)

section
variable (s : State) (n page : Nat)

theorem waitsKept_reqsFail : WaitsKept s (s.reqsFail n page) := by
  refine waitsKept_foldl (fun t r => ?_) _ s
  split_ifs
  · exact .refl t
  · exact (waitsKept_consumeCells ..).trans (waitsKept_onCore _ n fun c => waitKept_reqFault c _ _)

theorem waitsKept_copyFault (k : Cause) (off : Nat) (win : BitVec 3) : WaitsKept s (s.copyFault n k off win) :=
  waitsKept_onCore s n fun c => (waitKept_onEng c _).async _

theorem waitsKept_copyFails : WaitsKept s (s.copyFails n page) := by
  unfold State.copyFails
  dsimp only
  split
  · split_ifs
    · exact .refl s
    · exact waitsKept_copyFault ..
  · exact .refl s

theorem waitsKept_collsFail : WaitsKept s (s.collsFail n page) := by
  refine waitsKept_foldl (fun t k => ?_) _ s
  split
  · exact .refl t
  · split_ifs
    · exact waitsKept_onCore t n fun c => (WaitKept.refl c).async _
    · exact .refl t

theorem waitsKept_xfersFail : WaitsKept s (s.xfersFail n page) := by
  unfold State.xfersFail
  split
  · exact waitsKept_onCore s n fun c => (WaitKept.refl c).async _
  · exact .refl s

theorem waitsKept_engineFails : WaitsKept s (s.engineFails n page) :=
  (((waitsKept_reqsFail s n page).trans (waitsKept_copyFails ..)).trans (waitsKept_collsFail ..)).trans (waitsKept_xfersFail ..)

end

/-! ### A bundle whose walk has ended (R246) -/

section
variable {c : Core} {x : BitVec 16} {page va : Nat} {rd wr : Bool}

theorem walked_num (c : Core) (x : BitVec 16) (page : Nat) (e : Option (W64 × Nat)) : (c.walked x page e).num = c.num := by
  unfold Core.walked
  split_ifs
  · rfl
  · split <;> rfl

theorem waitsFor_of_wait (hctx : c.ctx = x) (hwalk : c.walk = .wait va rd wr) (hpage : va / 65536 = page) :
    c.waitsFor x page = true := by
  simp [Core.waitsFor, hctx, hwalk, hpage]

theorem walked_none_of_wait (hctx : c.ctx = x) (hwalk : c.walk = .wait va rd wr) (hpage : va / 65536 = page) :
    c.walked x page none = { c with walk := .fault va rd wr } := by
  simp [Core.walked, waitsFor_of_wait hctx hwalk hpage, hwalk]

theorem walked_some_of_wait (hctx : c.ctx = x) (hwalk : c.walk = .wait va rd wr) (hpage : va / 65536 = page) (e : W64 × Nat) :
    c.walked x page (some e) = { c.fillTlb (65536 * page) e.1 e.2 with walk := .none } := by
  simp [Core.walked, waitsFor_of_wait hctx hwalk hpage]

theorem walked_of_fault (hwalk : c.walk = .fault va rd wr) (e : Option (W64 × Nat)) : c.walked x page e = c := by
  simp [Core.walked, Core.waitsFor, hwalk]

end

/-! ### A walk without a leaf (R245, R246) -/

/-- What a walk of a page that ends without a leaf does at one core: its units fail there, its bundle has its fault. -/
def failAt (x : BitVec 16) (page : Nat) (t : State) (m : Nat) : State :=
  (t.engineFails m page).onCore m fun k => k.walked x page none

section
variable {x : BitVec 16} {page n va : Nat} {rd wr : Bool}

theorem failAt_mem (t : State) (m : Nat) : (failAt x page t m).mem = t.mem := by
  obtain ⟨hmem, -⟩ := onCore_frame (t.engineFails m page) m fun k => k.walked x page none
  exact hmem.trans (waitsKept_engineFails t m page).mem

theorem failAt_ne (t : State) {m : Nat} (h : n ≠ m) : WaitKept (t.core n) ((failAt x page t m).core n) := by
  rw [failAt, core_onCore_ne _ (fun c => walked_num c x page none) h]
  exact (waitsKept_engineFails t m page).core n

/-- The core itself, if it is there. -/
theorem failAt_self {t : State} (h : (t.core n).walk ≠ .none) :
    (failAt x page t n).core n = ((t.engineFails n page).core n).walked x page none := by
  have hwalk := ((waitsKept_engineFails t n page).core n).walk
  exact core_onCore_hasCore (fun c => walked_num c x page none) (hasCore_of_walk (by rwa [hwalk]))

theorem failAt_fault {t : State} (h : (t.core n).walk = .fault va rd wr) (m : Nat) :
    ((failAt x page t m).core n).walk = .fault va rd wr := by
  by_cases hn : n = m
  · subst hn
    have hwalk := ((waitsKept_engineFails t n page).core n).walk.trans h
    rw [failAt_self (by simp [h]), walked_of_fault hwalk, hwalk]
  · exact (failAt_ne t hn).walk.trans h

theorem failAt_wait {t : State} (hctx : (t.core n).ctx = x) (hwalk : (t.core n).walk = .wait va rd wr) (hpage : va / 65536 = page) :
    ((failAt x page t n).core n).walk = .fault va rd wr := by
  have hkept := (waitsKept_engineFails t n page).core n
  rw [failAt_self (by simp [hwalk]), walked_none_of_wait (hkept.ctx.trans hctx) (hkept.walk.trans hwalk) hpage]

theorem failAll_mem (l : List Nat) (t : State) : (l.foldl (failAt x page) t).mem = t.mem := by
  induction l generalizing t with
  | nil => rfl
  | cons m l ih => exact (ih _).trans (failAt_mem t m)

theorem failAll_fault (l : List Nat) {t : State} (h : (t.core n).walk = .fault va rd wr) :
    ((l.foldl (failAt x page) t).core n).walk = .fault va rd wr := by
  induction l generalizing t with
  | nil => exact h
  | cons m l ih => exact ih (failAt_fault h m)

/-- The bundle of every core among them that waits for the page has its fault. -/
theorem failAll_wait {l : List Nat} (hn : n ∈ l) {t : State} (hctx : (t.core n).ctx = x) (hwalk : (t.core n).walk = .wait va rd wr)
    (hpage : va / 65536 = page) : ((l.foldl (failAt x page) t).core n).walk = .fault va rd wr := by
  induction l generalizing t with
  | nil => nomatch hn
  | cons m l ih =>
    by_cases hm : n = m
    · subst hm
      exact failAll_fault l (failAt_wait hctx hwalk hpage)
    · have hkept := failAt_ne (x := x) (page := page) t hm
      exact ih ((List.mem_cons.mp hn).resolve_left hm) (hkept.ctx.trans hctx) (hkept.walk.trans hwalk)

end

/-! ### Page walks (R245, R246, R250) -/

/-- The cores of a context on a die. -/
def coresOn (s : State) (d : Nat) (x : BitVec 16) : List Nat :=
  (List.range 264).filter fun m => (s.core m).die == d && (s.core m).ctx == x

/-- A die without one of its walks. -/
def withoutWalk (w : BitVec 16 × Nat) (d : Die) : Die := { d with walks := d.walks.filter fun y => y != w }

section
variable {s : State} {n : Nat} {x : BitVec 16} {page : Nat}

theorem mem_coresOn {d m : Nat} (hm : m < 264) (hdie : (s.core m).die = d) (hctx : (s.core m).ctx = x) : m ∈ coresOn s d x :=
  List.mem_filter.mpr ⟨List.mem_range.mpr hm, by simp [hdie, hctx]⟩

theorem nodup_coresOn (s : State) (d : Nat) (x : BitVec 16) : (coresOn s d x).Nodup := List.nodup_range.filter _

theorem not_mem_withoutWalk (w : BitVec 16 × Nat) (d : Die) : w ∉ (withoutWalk w d).walks := by
  simp [withoutWalk]

theorem lt_dies_of_walk {d : Nat} {w : BitVec 16 × Nat} (h : w ∈ (s.die d).walks) : d < s.dies.length := by
  by_contra hd
  rw [State.die, List.getD_eq_default _ _ (not_lt.mp hd)] at h
  exact List.not_mem_nil h

/-- A walk taken off a die is on it no more. -/
theorem not_mem_walks_onDie {w : BitVec 16 × Nat} {f : Die → Die} (hf : ∀ d, w ∉ (f d).walks) (s : State) (d : Nat) :
    w ∉ ((s.onDie d f).die d).walks := by
  by_cases hd : d < s.dies.length
  · rw [die_onDie hd]
    exact hf _
  · rw [State.die, State.onDie_dies, List.set_eq_of_length_le (not_lt.mp hd), List.getD_eq_default _ _ (not_lt.mp hd)]
    exact List.not_mem_nil

theorem pageWalk_happens (hwalk : s.walkOf n = some (x, page)) : Happens (.pageWalk n) s
    (if (x, page) ∈ (s.die (s.core n).die).walks.take 64 then
      if s.chansHold (s.walkReads (s.core n).die (x, page)) = true then s.askReclaim (s.walkReads (s.core n).die (x, page))
      else s.walkEnds (s.core n).die x page
    else s) := by
  refine congrArg Host.Outcome.next ?_
  simp only [hwalk, Bool.not_eq_true', ← Bool.not_eq_true, List.contains_iff_mem, ite_not]

theorem walkEnds_none {d : Nat} (h : s.lookup d x (65536 * page) = none) : s.walkEnds d x page =
    ((coresOn s d x).foldl (failAt x page) s).onDie d (withoutWalk (x, page)) := by
  simp only [State.walkEnds, h]
  rfl

theorem walkEnds_migrating {d b : Nat} {e : W64} (h : s.lookup d x (65536 * page) = some (e, b)) (hmig : pteMig e = true) :
    s.walkEnds d x page = s := by
  simp only [State.walkEnds, h, hmig, if_true]

/-- What a die gets of a leaf that a walk found: an entry where it holds none for the page. -/
def withLeaf (s : State) (d : Nat) (x : BitVec 16) (page : Nat) (e : W64) (b : Nat) (k : Die) : Die :=
  if (s.dieTlb d x (65536 * page)).isSome then withoutWalk (x, page) k
  else (withoutWalk (x, page) k).fillTlb x (65536 * page) e b

theorem walkEnds_some {d b : Nat} {e : W64} (h : s.lookup d x (65536 * page) = some (e, b)) (hmig : pteMig e = false) :
    s.walkEnds d x page = ((coresOn s d x).foldl (fun t m => t.onCore m fun k => k.walked x page (some (e, b))) s).onDie d
      (withLeaf s d x page e b) := by
  simp only [State.walkEnds, h, hmig, Bool.false_eq_true, if_false]
  rfl

theorem not_mem_withLeaf (d : Nat) (e : W64) (b : Nat) (k : Die) : (x, page) ∉ (withLeaf s d x page e b k).walks := by
  unfold withLeaf
  split_ifs <;> exact not_mem_withoutWalk (x, page) k

/-- A walk without a leaf: the bundles that wait for the page have its fault (R245, R246). -/
theorem walkEnds_faults {d : Nat} (h : s.lookup d x (65536 * page) = none) : let t := s.walkEnds d x page
    t.mem = s.mem ∧ (x, page) ∉ (t.die d).walks ∧ ∀ m < 264, (s.core m).die = d → (s.core m).ctx = x → ∀ va rd wr,
      (s.core m).walk = .wait va rd wr → va / 65536 = page → (t.core m).walk = .fault va rd wr := by
  rw [walkEnds_none h]
  exact ⟨failAll_mem .., not_mem_walks_onDie (not_mem_withoutWalk _) _ d, fun m hm hdie hctx va rd wr hwalk hpage =>
    failAll_wait (mem_coresOn hm hdie hctx) hctx hwalk hpage⟩

/-- A walk with a leaf: the translation buffers of the cores that wait for the page and of the die hold it (R246). -/
theorem walkEnds_fills {d b : Nat} {e : W64} (h : s.lookup d x (65536 * page) = some (e, b)) (hmig : pteMig e = false)
    (hd : d < s.dies.length) : let t := s.walkEnds d x page
    t.mem = s.mem ∧ (x, page) ∉ (t.die d).walks ∧
    (∀ m < 264, (s.core m).die = d → (s.core m).ctx = x → ∀ va rd wr, (s.core m).walk = .wait va rd wr → va / 65536 = page →
      t.core m = { (s.core m).fillTlb (65536 * page) e b with walk := .none }) ∧
    (s.dieTlb d x (65536 * page) = none → (t.die d).tlb = ((s.die d).fillTlb x (65536 * page) e b).tlb) := by
  have hnum : ∀ c : Core, (c.walked x page (some (e, b))).num = c.num := fun c => walked_num c x page _
  obtain ⟨hmem, hdies⟩ := foldl_onCore_frame (f := fun k => k.walked x page (some (e, b))) (coresOn s d x) s
  rw [walkEnds_some h hmig]
  refine ⟨hmem, not_mem_walks_onDie (not_mem_withLeaf d e b) _ d, fun m hm hdie hctx va rd wr hwalk hpage => ?_, fun htlb => ?_⟩
  · have hthere : HasCore s m := hasCore_of_walk (by simp [hwalk])
    refine (core_foldl_onCore_of_hasCore hnum (nodup_coresOn s d x) hthere).trans ?_
    rw [if_pos (mem_coresOn hm hdie hctx), walked_some_of_wait hctx hwalk hpage]
  · rw [die_onDie (by rwa [hdies]), withLeaf, htlb, State.die, hdies]
    rfl

end

/-! ### Invalidations and migrations (R247, R255) -/

section
variable {s : State}

theorem invalidation_happens (x : BitVec 16) (va z : Nat) : Happens (.invalidation x va z) s
    (if s.openIn x va (va + z) = true then s else s.dropTlb x va (va + z)) := rfl

/-- What is left of a list of translations holds none of the range. -/
theorem not_hits_of_mem {l : List Tlb} {x : BitVec 16} {lo hi : Nat} {e : Tlb} (h : e ∈ l.filter fun t => !t.hits x lo hi) :
    e.hits x lo hi = false := by
  simpa using (List.mem_filter.mp h).2

/-- No translation buffer holds an entry of a range that was dropped (R247). -/
theorem dropTlb_not_hits (s : State) (x : BitVec 16) (lo hi : Nat) : let t := s.dropTlb x lo hi
    (∀ e ∈ t.me.utlb, e.hits x lo hi = false) ∧ (∀ k ∈ t.rest, ∀ e ∈ k.utlb, e.hits x lo hi = false) ∧
    ∀ d ∈ t.dies, ∀ e ∈ d.tlb, e.hits x lo hi = false := by
  refine ⟨fun e he => not_hits_of_mem he, fun k hk e he => ?_, fun d hd e he => ?_⟩
  · obtain ⟨c, -, rfl⟩ := List.mem_map.mp hk
    exact not_hits_of_mem he
  · obtain ⟨c, -, rfl⟩ := List.mem_map.mp hd
    exact not_hits_of_mem he

variable {i : BitVec 16} {va frame tier : Nat} {x : Ctx} {a : PAddr}

theorem migration_happens (hctx : s.ctx i = some x) (hleaf : s.mem.leafAt va 5 0 x.root = some a)
    (hmig : pteMig (s.mem.entry a) = false) (hpin : s.pinned (ptePa (s.mem.entry a)) = false) (halign : frame % 65536 = 0)
    (htier : s.frameTier frame = some tier) (hother : ptePa (s.mem.entry a) ≠ frame) : Happens (.migration i va frame) s
      ((({ s with mem := s.mem.setEntry a (s.mem.entry a ||| 0x20) } : State).onDie (pageDie (ptePa (s.mem.entry a))) fun d =>
        { d with mig := d.mig ++ [(⟨i, va / 65536, frame, tier⟩ : Mig)] }).dropTlb i (65536 * (va / 65536))
          (65536 * (va / 65536) + 65536)) := by
  refine congrArg Host.Outcome.next ?_
  simp only [hctx, hleaf, htier]
  exact if_neg (by simp [hmig, hpin, halign, hother])

theorem migrationRelease_moves {y : Mig} (hmoving : s.moving64 i (va / 65536) = some y) (hctx : s.ctx i = some x)
    (hleaf : s.mem.leafAt va 5 0 x.root = some a)
    (hopen : s.openIn i (65536 * (va / 65536)) (65536 * (va / 65536) + 65536) = false) : Happens (.migrationRelease i va) s { s with
      mem := (s.mem.movePage i.toNat (x.keyAt (65536 * (va / 65536))) (ptePa (s.mem.entry a)) y.frame).setEntry a
        (newLeaf (s.mem.entry a) y.frame y.tier)
      dies := s.dies.map fun d => { d with mig := d.mig.filter fun y => !(y.ctx == i && y.page == va / 65536) } } := by
  refine congrArg Host.Outcome.next ?_
  simp only [hmoving, hctx, hleaf, hopen, Bool.false_eq_true, if_false]

theorem migrationRelease_waits (hctx : s.ctx i = some x) (hleaf : s.mem.leafAt va 5 0 x.root = some a)
    (hopen : s.openIn i (65536 * (va / 65536)) (65536 * (va / 65536) + 65536) = true) : Happens (.migrationRelease i va) s s := by
  refine congrArg Host.Outcome.next ?_
  cases s.moving64 i (va / 65536) with
  | none => rfl
  | some y => simp only [hctx, hleaf, hopen, if_true]

/-- A page whose migration has ended is under none. -/
theorem mig_ended {l : List Die} {i : BitVec 16} {page : Nat} :
    ∀ d ∈ l.map (fun d => { d with mig := d.mig.filter fun y => !(y.ctx == i && y.page == page) }),
      ∀ z ∈ d.mig, ¬ (z.ctx = i ∧ z.page = page) := by
  rintro d hd z hz ⟨hctx, hpage⟩
  obtain ⟨k, -, rfl⟩ := List.mem_map.mp hd
  simpa [hctx, hpage] using (List.mem_filter.mp hz).2

end

/-! ### Channels (R250) -/

/-- A channel of a die set. -/
def setChan (s : State) (d k : Nat) (v : Chan) : State := s.onDie d fun d => { d with chans := d.chans.setIfInBounds k v }

section
variable {s : State} {d : BitVec 3} {k : BitVec 6}

theorem channelLending_happens : Happens (.channelLending d k) s
    (if (s.die d.toNat).chan k.toNat = .lend then setChan s d.toNat k.toNat .lending
    else if (s.die d.toNat).chan k.toNat = .normal ∧ (s.die d.toNat).chan (pairOf k.toNat) = .normal ∧
      s.chanWork d.toNat k.toNat = false then setChan s d.toNat k.toNat .lend
    else s) := by
  refine congrArg Host.Outcome.next ?_
  simp only [Bool.not_eq_true', setChan]

theorem reclaim_happens : Happens (.reclaim d k) s (if (s.die d.toNat).chan k.toNat = .reclaim then
    setChan s d.toNat k.toNat .normal else s) := rfl

end

/-! ### Refresh elision (R261) -/

/-- The addresses of a region of 32 MiB. -/
theorem region_iff (r a : Nat) : (r * 2 ^ 25 ≤ a ∧ a < (r + 1) * 2 ^ 25) ↔ a / 2 ^ 25 = r := by
  omega

theorem refreshElision_happens {s : State} {r : Nat} (hr : r < 2 ^ 15) (hlive : r ∉ s.mem.dead) (hwf : s.mem.wf = true) :
    ∃ t, Happens (.refreshElision r) s t ∧ t.mem.dead = s.mem.dead ++ [r] ∧ t.me = s.me ∧
      ∀ a, look 0 t.mem.cells a = if a / 2 ^ 25 = r then 0 else look 0 s.mem.cells a := by
  obtain ⟨hcells, -, -⟩ := (PMem.wf_iff _).mp hwf
  have hgo : ¬ (2 ^ 15 ≤ r ∨ s.mem.dead.contains r = true) := not_or.mpr ⟨not_le.mpr hr, by simpa using hlive⟩
  refine ⟨_, congrArg Host.Outcome.next (if_neg hgo), rfl, rfl, fun a => ?_⟩
  exact (look_wipe _ _ a hcells).trans (if_congr (region_iff r a) rfl rfl)

/-! ### Error correction (R121, R257 to R259) -/

section
variable {s : State} {n : Nat} {p : EccPlace}

theorem eccLate_untimed (h : (s.focus n).me.run ≠ .running ∨ (s.focus n).me.fault.isSome = true ∨ (s.focus n).timedAccess p = false) :
    s.eccLate n p = s := by
  refine if_pos ?_
  simpa using h

/-- No cause is above MISC (R22). -/
theorem lowerCause_misc (k : StallCause) : lowerCause (some .misc) k = k := by cases k <;> rfl

section
variable (hrun : (s.focus n).me.run = .running) (hfault : (s.focus n).me.fault = none) (htimed : (s.focus n).timedAccess p = true)
include hrun hfault htimed

theorem eccLate_stalls {k : StallCause} {u : State} (h : (s.focus n).tryCycle = .stall k u) :
    s.eccLate n p = (s.focus n).stalled k u := by
  refine (if_neg (by simp [hrun, hfault, htimed])).trans ?_
  simp only [h, lowerCause_misc]

theorem eccLate_commits {u : State} (h : (s.focus n).tryCycle = .commit u) :
    s.eccLate n p = (s.focus n).stalled .misc (s.focus n) := by
  refine (if_neg (by simp [hrun, hfault, htimed])).trans ?_
  simp only [h]

end

/-- A region that is not live has no errors (R261). -/
theorem ecc_of_dead (h : s.eccDead p = true) : Happens (.scrub p .double true) s s ∧ Happens (.ueccRetry n p .lasting) s s :=
  ⟨congrArg Host.Outcome.next (if_pos h), congrArg Host.Outcome.next (if_pos (.inl h))⟩

theorem scrub_live (h : s.eccDead p = false) (err : EccErr) (lasting : Bool) : Happens (.scrub p err lasting) s
    (match err with
     | .none => s
     | .single => s.onDie (s.eccDie p) fun d => { d with corrected := d.corrected + 1 }
     | .double =>
       if lasting then s.eccEnds (s.eccOwner p 0) (s.scrubTile p (s.eccOwner p 0)) (mkStop .uecc 0 0)
       else s.onDie (s.eccDie p) fun d => { d with transient := d.transient + 1 }) :=
  congrArg Host.Outcome.next (if_neg (by simp [h]))

theorem ueccRetry_foreign (h : s.eccOwner p (s.core n).ctx ≠ (s.core n).ctx.toNat) (f : EccEnd) : Happens (.ueccRetry n p f) s s :=
  congrArg Host.Outcome.next (if_pos (.inr h))

theorem ueccRetry_own (hlive : s.eccDead p = false) (h : s.eccOwner p (s.core n).ctx = (s.core n).ctx.toNat) (f : EccEnd) :
    Happens (.ueccRetry n p f) s (match f with
      | .corrected => (s.onDie (s.eccDie p) fun d => { d with corrected := d.corrected + 1 }).eccLate n p
      | .transient => (s.onDie (s.eccDie p) fun d => { d with transient := d.transient + 1 }).eccLate n p
      | .lasting => (s.onCore n fun c => c.loseAccess p).eccEnds (s.core n).ctx.toNat n (s.eccMet (s.core n) p)) :=
  congrArg Host.Outcome.next (if_neg (by simp [hlive, h]))

end

/-- Settles O49: each step of the memory system by what it finds. -/
theorem memorySystemSteps : Obligations.MemorySystemSteps := by
  unfold Obligations.MemorySystemSteps
  intro s
  refine ⟨fun n x page hwalk => ?walk, fun x va z => ?invalidation, fun i va frame tier x a hctx hleaf => ?migration,
    fun d k => ?channel, fun r hr hlive hwf => refreshElision_happens hr hlive hwf, fun p n => ?ecc⟩
  case walk =>
    have hexec := pageWalk_happens hwalk
    refine ⟨fun hqueued => by rwa [if_neg hqueued] at hexec, fun hmem hhold => by rwa [if_pos hmem, if_pos hhold] at hexec,
      fun hmem hhold => ?_⟩
    rw [if_pos hmem, if_neg (by simp [hhold])] at hexec
    refine ⟨fun hfound => ?faults, fun e b hfound => ⟨fun hmig => ?migrating, fun hmig => ?fills⟩⟩
    case faults =>
      obtain ⟨hkept, hgone, hfault⟩ := walkEnds_faults hfound
      refine ⟨_, hexec, hkept, hgone, fun m hm va rd wr hwaits hwait => ?_⟩
      obtain ⟨hdie, hctx, va', rd', wr', hwait', hpage⟩ := hwaits
      obtain ⟨rfl, rfl, rfl⟩ := Walk.wait.inj (hwait'.symm.trans hwait)
      exact hfault m hm hdie hctx _ _ _ hwait hpage
    case migrating => rwa [walkEnds_migrating hfound hmig] at hexec
    case fills =>
      have hd : (s.core n).die < s.dies.length := lt_dies_of_walk (List.mem_of_mem_take hmem)
      obtain ⟨hkept, hgone, hfilled, htlb⟩ := walkEnds_fills hfound hmig hd
      exact ⟨_, hexec, hkept, hgone, fun m hm ⟨hdie, hctx, va, rd, wr, hwait, hpage⟩ =>
        hfilled m hm hdie hctx va rd wr hwait hpage, htlb⟩
  case invalidation =>
    have hexec := invalidation_happens (s := s) x va z
    refine ⟨fun hopen => by rwa [if_pos hopen] at hexec, fun hopen => ?_⟩
    rw [if_neg (by simp [hopen])] at hexec
    exact ⟨_, hexec, rfl, dropTlb_not_hits ..⟩
  case migration =>
    exact ⟨fun hmig hpin halign htier hother => migration_happens hctx hleaf hmig hpin halign htier hother,
      fun y hmoving hopen => ⟨_, migrationRelease_moves hmoving hctx hleaf hopen, rfl, rfl, rfl, mig_ended⟩,
      migrationRelease_waits hctx hleaf⟩
  case channel =>
    have hlend := channelLending_happens (s := s) (d := d) (k := k)
    have hreclaim := reclaim_happens (s := s) (d := d) (k := k)
    refine ⟨fun hnormal hpair hidle => ?_, fun hnormal hbusy => ?_, fun hlending => ?_, fun hback => ?_, fun hno => ?_⟩
    · rwa [if_neg (by simp [hnormal]), if_pos ⟨hnormal, hpair, hidle⟩] at hlend
    · rwa [if_neg (by simp [hnormal]), if_neg fun ⟨_, hpair, hidle⟩ => hbusy.elim (· hpair) (by simp [hidle])] at hlend
    · rwa [if_pos hlending] at hlend
    · rwa [if_pos hback] at hreclaim
    · rwa [if_neg hno] at hreclaim
  case ecc =>
    exact ⟨eccLate_untimed, fun hrun hfault htimed => ⟨fun k u => eccLate_stalls hrun hfault htimed,
      fun u => eccLate_commits hrun hfault htimed⟩, ecc_of_dead, fun hlive =>
      ⟨scrub_live hlive .single false, scrub_live hlive .double false, scrub_live hlive .double true, scrub_live hlive .none false,
        ueccRetry_foreign, fun hown => ⟨ueccRetry_own hlive hown .corrected, ueccRetry_own hlive hown .transient,
          ueccRetry_own hlive hown .lasting⟩⟩⟩

end Sys2Proof.Proofs
end

section
/-! PROOFS. Elements and lanes of vector registers; poisoned source lanes: without `.s` the first fires, with `.s` the lanes that depend on
one pass it on (R123, R150). -/

namespace Sys2Proof.Proofs

open Sys2Proof Sys2Proof.Machine Sys2Proof.Claims

/-! ### Elements of registers (R148) -/

theorem el_eq_elem (w : Nat) (v : VWord) (q : Nat) : el w v q = elem w v.toNat q := rfl

/-- An element by its bits. -/
theorem testBit_elem (w v q i : Nat) : (elem w v q).testBit i = (decide (i < w) && v.testBit (w * q + i)) :=
  testBit_field ..

/-- Elements with the same bits are the same. -/
theorem elem_eq_elem {w a b q r : Nat} (h : ∀ i < w, a.testBit (w * q + i) = b.testBit (w * r + i)) : elem w a q = elem w b r := by
  refine Nat.eq_of_testBit_eq fun i => ?_
  rw [testBit_elem, testBit_elem]
  by_cases hi : i < w
  · rw [h i hi]
  · simp [hi]

/-- An element of a register made of a number that may be too long. -/
theorem el_ofNat {w q : Nat} (v : Nat) (h : w * (q + 1) ≤ 2048) : el w (BitVec.ofNat 2048 v) q = elem w v q :=
  elem_eq_elem fun i hi => by
    have hplace : w * q + i < 2048 := by rw [Nat.mul_succ] at h; omega
    rw [BitVec.testBit_toNat, BitVec.getLsbD_ofNat, decide_eq_true hplace, Bool.true_and]

/-! ### Registers made of lanes (R148) -/

section
variable {l : List LaneOut} {x : LaneOut} {j : Nat}

theorem el_packLanes (hj : j < 64) (hx : l[j]? = some x) : el 32 (packLanes l).1 j = x.val % 2 ^ 32 := by
  rw [packLanes, el_ofNat _ (by omega), elem_packW]
  simp [hx]

theorem lane_packLanes (hj : j < 64) (hx : l[j]? = some x) : lane (packLanes l).1 j = BitVec.ofNat 32 x.val := by
  apply BitVec.eq_of_toNat_eq
  rw [lane_toNat, ← el_eq_elem, el_packLanes hj hx, BitVec.toNat_ofNat]

theorem poison_packLanes (hj : j < 64) (hx : l[j]? = some x) : (packLanes l).2.1.getLsbD j = x.bad := by
  have hbits : (packLanes l).2.1 = BitVec.ofNat 64 (bitsNat (l.map LaneOut.bad)) := by
    rw [bitsNat, List.map_map]
    rfl
  rw [hbits, BitVec.getLsbD_ofNat, getLsbD_bitsNat]
  simp [hj, hx]

end

/-! ### The first poisoned lane (R150) -/

/-- Lanes are tried in lexicographic order: by source, then upwards. -/
theorem depBefore_eq_false {a b : Dep} : depBefore a b = false ↔ toLex b ≤ toLex a := by
  rw [Prod.Lex.toLex_le_toLex, depBefore]
  simp only [Bool.or_eq_false_iff, Bool.and_eq_false_iff, decide_eq_false_iff_not]
  omega

/-- A poisoned lane of a list before which no other poisoned one comes. -/
structure IsFirst (pois : Dep → Bool) (l : List Dep) (p : Dep) : Prop where
  mem : p ∈ l
  poisoned : pois p = true
  first : ∀ q ∈ l, pois q = true → depBefore q p = false

theorem IsFirst.unique {pois : Dep → Bool} {l : List Dep} {p q : Dep} (hp : IsFirst pois l p) (hq : IsFirst pois l q) : p = q :=
  toLex.injective (le_antisymm (depBefore_eq_false.mp (hp.first q hq.mem hq.poisoned))
    (depBefore_eq_false.mp (hq.first p hp.mem hp.poisoned)))

/-- The first of a list stays the first where the lane at the end comes no earlier. -/
theorem IsFirst.concat {pois : Dep → Bool} {l : List Dep} {p a : Dep} (h : IsFirst pois l p)
    (ha : pois a = true → depBefore a p = false) : IsFirst pois (l ++ [a]) p where
  mem := List.mem_append_left _ h.mem
  poisoned := h.poisoned
  first := List.forall_mem_append.mpr ⟨h.first, List.forall_mem_singleton.mpr ha⟩

/-- A poisoned lane at the end is the first where no poisoned one of the others comes before it. -/
theorem isFirst_last {pois : Dep → Bool} {l : List Dep} {a : Dep} (ha : pois a = true)
    (h : ∀ q ∈ l, pois q = true → depBefore q a = false) : IsFirst pois (l ++ [a]) a where
  mem := List.mem_append_right _ (List.mem_singleton_self a)
  poisoned := ha
  first := List.forall_mem_append.mpr ⟨h, List.forall_mem_singleton.mpr fun _ => depBefore_eq_false.mpr le_rfl⟩

theorem firstDep_concat (pois : Dep → Bool) (l : List Dep) (a : Dep) : firstDep pois (l ++ [a]) =
    if pois a then
      match firstDep pois l with
      | none => some a
      | some e => if depBefore a e then some a else firstDep pois l
    else firstDep pois l := List.foldl_concat ..

/-- `firstDep` finds the first, or no lane is poisoned. -/
theorem firstDep_spec (pois : Dep → Bool) (l : List Dep) :
    (firstDep pois l = none ∧ ∀ q ∈ l, pois q = false) ∨ ∃ p, firstDep pois l = some p ∧ IsFirst pois l p := by
  induction l using List.reverseRecOn with
  | nil => exact .inl ⟨rfl, by simp⟩
  | append_singleton l a ih =>
    rw [firstDep_concat]
    obtain ⟨hnone, hclear⟩ | ⟨p, hsome, hp⟩ := ih <;> cases ha : pois a
    · exact .inl ⟨by simpa using hnone, by simpa [or_imp, forall_and, ha] using hclear⟩
    · exact .inr ⟨a, by simp [hnone], isFirst_last ha fun q hq hqp => by simp [hclear q hq] at hqp⟩
    · exact .inr ⟨p, by simpa using hsome, hp.concat fun hpa => by simp [ha] at hpa⟩
    · cases hap : depBefore a p
      · exact .inr ⟨p, by simp [hsome, hap], hp.concat fun _ => hap⟩
      · have hle : toLex a ≤ toLex p := (lt_of_not_ge fun hle => by simp [depBefore_eq_false.mpr hle] at hap).le
        exact .inr ⟨a, by simp [hsome, hap], isFirst_last ha fun q hq hqp =>
          depBefore_eq_false.mpr (hle.trans (depBefore_eq_false.mp (hp.first q hq hqp)))⟩

theorem firstDep_of_isFirst {pois : Dep → Bool} {l : List Dep} {p : Dep} (h : IsFirst pois l p) : firstDep pois l = some p := by
  obtain ⟨-, hclear⟩ | ⟨q, hq, hfirst⟩ := firstDep_spec pois l
  · exact absurd h.poisoned (by simp [hclear p h.mem])
  · rw [hq, hfirst.unique h]

/-! ### The lanes that are written (R150, R123) -/

section
variable {o : VOps} {keep : Bool} {l : List LaneOut} {x : LaneOut} {p : Dep}

/-- A lane as it is written: its own, or where it depends on a poisoned lane what the first of them passes on. -/
def laneVia (o : VOps) (keep : Bool) (x : LaneOut) : LaneOut :=
  match firstDep o.pois x.deps with
  | some d => { x with val := if keep then x.val else o.lane d, bad := true, fl := 0 }
  | none => x

theorem laneVia_clear (h : ∀ p ∈ x.deps, o.pois p = false) : laneVia o keep x = x := by
  rw [laneVia, firstDep_none h]

theorem laneVia_poisoned (h : IsFirst o.pois x.deps p) :
    laneVia o keep x = { x with val := if keep then x.val else o.lane p, bad := true, fl := 0 } := by
  rw [laneVia, firstDep_of_isFirst h]

theorem laneReg_eq_packLanes : laneReg o keep l = packLanes (l.map (laneVia o keep)) := by
  unfold laneReg
  dsimp only
  rw [List.map_congr_left (g := fun x => ((laneVia o keep x).val, (laneVia o keep x).bad, (laneVia o keep x).fl)) fun x _ => by
    unfold laneVia; cases firstDep o.pois x.deps <;> rfl]
  simp only [packLanes, List.map_map, List.foldl_map, Function.comp_def]

end

/-! ### Vector words (R150) -/

/-- What a vector word does that is described by `r`: it fires, or writes its lanes and advances the counter of its draws. -/
def doVector (s : State) (keep : Bool) (r : VDo) : State :=
  match (if r.sp then none else firstDep r.ops.pois (r.lanes.flatMap LaneOut.deps)) with
  | some p => s.poison (BitVec.ofNat 64 (r.ops.lane p))
  | none =>
    let w := laneReg r.ops keep r.lanes
    s.done fun c => (if r.draws = 0 then c else c.advance r.draws).push r.lat (.vreg r.d w.1 w.2.1 w.2.2)

theorem doVector_fires {s : State} {keep : Bool} {r : VDo} {p : Dep} (hsp : r.sp = false)
    (h : IsFirst r.ops.pois (r.lanes.flatMap LaneOut.deps) p) : doVector s keep r = s.poison (BitVec.ofNat 64 (r.ops.lane p)) := by
  simp only [doVector, hsp, firstDep_of_isFirst h]
  rfl

theorem doVector_passes {s : State} {keep : Bool} {r : VDo} {v : VWord} {m : BitVec 64} {f : Fl} (hsp : r.sp = true)
    (h : laneReg r.ops keep r.lanes = (v, m, f)) : doVector s keep r =
      s.done fun c => (if r.draws = 0 then c else c.advance r.draws).push r.lat (.vreg r.d v m f) := by
  simp only [doVector, hsp, h]
  rfl

/-- A floating-point word that takes `m` draws is one that takes `n` where it rounds with SR. -/
theorem vectorFp_eq_doVector {s : State} {lat : Nat} {sp sr : Bool} {n m : Nat} {o : VOps} {d : Reg} {l : List LaneOut}
    (hm : m = if sr then n else 0) (hn : sr = true → n ≠ 0) :
    s.vectorFp lat sp sr n o d l = doVector s false ⟨sp, lat, m, d, o, l⟩ := by
  have hcounter (c : Core) : (if m = 0 then c else c.advance m) = if sr then c.advance n else c := by
    cases sr with
    | false => rw [hm]; rfl
    | true => exact (if_neg (hm ▸ hn rfl)).trans (hm ▸ rfl)
  simp only [doVector, hcounter]
  rfl

/-- The sum over a type's elements takes at least one draw where it draws. -/
theorem treeDepth_ne_zero (t : VTy) : treeDepth t ≠ 0 := by
  obtain ⟨htwo, hbyte⟩ : 2 ≤ VTy.count t ∧ VTy.count t < 2 ^ 9 := by cases t <;> decide
  have hsize : VTy.count t < 2 ^ nbits (VTy.count t) :=
    lt_two_pow_size 14 _ (hbyte.trans_le (pow_le_pow_right₀ one_le_two (by norm_num)))
  intro hzero
  have hle : 2 ^ nbits (VTy.count t) ≤ 2 ^ 1 := pow_le_pow_right₀ one_le_two (Nat.sub_eq_zero_iff_le.mp hzero)
  omega

/-- The words of the V pipe do what the manual's description says. -/
theorem exec_vectorWord {s : State} {i : Instr} {r : VDo} (h : vectorWord s i = some r) :
    exec i s = issue i s (doVector s (keepsValue i) r) := by
  cases i
  case vmulh | vmin | vmax | vabs | vneg | vand | vor | vxor | vandn | vshl | vshr | vsar | vcmp | vbc | vxt | vrot | vlid | vperm
    | vrmax | vrmin | vrcp | vrsq | vex2 | vlg2 | vpopc | vclz | vtacc | vbq | vbscl | vtunp | vpak | vupk | vrng =>
    cases h
    rfl
  case vadd | vsub | vmul | vfma | vfms | vfnma | vdot4 | vbdq =>
    cases h
    exact congrArg (issue _ s) (vectorFp_eq_doVector rfl fun _ => one_ne_zero)
  case vrsum d a ty sp md =>
    cases h
    exact congrArg (issue _ s) (vectorFp_eq_doVector rfl fun _ => treeDepth_ne_zero ty)
  case vcvt d a src cf sp md =>
    cases h
    refine congrArg (issue _ s) (vectorFp_eq_doVector ?_ fun hsr => bne_iff_ne.mp (Bool.and_eq_true_iff.mp hsr).2)
    by_cases hdraws : cvtDraws src.toNat cf.toNat md = 0 <;> simp [hdraws]
  all_goals nomatch h

/-- Settles O16: the first poisoned lane that is read fires, or under `.s` each lane passes its first on. -/
theorem vectorPoisonFiresOrPasses : Obligations.VectorPoisonFiresOrPasses := by
  unfold Obligations.VectorPoisonFiresOrPasses
  intro s i r hword hr
  have hexec := exec_of_ready (exec_vectorWord hword) hr
  refine ⟨fun hsp p hp hpois hfirst => hexec.trans (congrArg _ (doVector_fires hsp ⟨hp, hpois, hfirst⟩)), fun hsp => ?_⟩
  obtain ⟨v, m, f, hreg⟩ : ∃ v m f, laneReg r.ops (keepsValue i) r.lanes = (v, m, f) := ⟨_, _, _, rfl⟩
  refine ⟨v, m, f, hexec.trans (congrArg _ (doVector_passes hsp hreg)), fun j x hj hx => ?_⟩
  have hvia : (r.lanes.map (laneVia r.ops (keepsValue i)))[j]? = some (laneVia r.ops (keepsValue i) x) := by simp [hx]
  have hvalue := lane_packLanes hj hvia
  have hpoison := poison_packLanes hj hvia
  rw [← laneReg_eq_packLanes, hreg] at hvalue hpoison
  refine ⟨fun hclear => ?clear, fun p hp hpois hfirst => ?passes⟩
  case clear =>
    rw [laneVia_clear hclear] at hvalue hpoison
    exact ⟨hpoison, hvalue⟩
  case passes =>
    rw [laneVia_poisoned ⟨hp, hpois, hfirst⟩] at hvalue hpoison
    exact ⟨hpoison, hvalue⟩

end Sys2Proof.Proofs
end

section
/-! PROOFS. Vector words that read no poisoned lane: elements within lanes, and what a word that computes element by element
writes (R148, R150). -/

namespace Sys2Proof.Proofs

open Sys2Proof Sys2Proof.Machine Sys2Proof.Claims

/-! ### Elements within elements (R148) -/

/-- An element of an element. -/
theorem elem_elem {w k e : Nat} (v j : Nat) (he : e < k) : elem w (elem (w * k) v j) e = elem w v (k * j + e) :=
  elem_eq_elem fun i hi => by
    have hin : w * e + i < w * k := lt_of_lt_of_le (by rw [Nat.mul_succ]; omega) (Nat.mul_le_mul_left w he)
    have hplace : w * k * j + (w * e + i) = w * (k * j + e) + i := by ring
    rw [testBit_elem, hplace, decide_eq_true hin, Bool.true_and]

/-- An element below the place where a number is cut off. -/
theorem elem_mod_two_pow {w q n : Nat} (v : Nat) (h : w * (q + 1) ≤ n) : elem w (v % 2 ^ n) q = elem w v q :=
  elem_eq_elem fun i hi => by
    have hplace : w * q + i < n := by rw [Nat.mul_succ] at h; omega
    rw [Nat.testBit_mod_two_pow, decide_eq_true hplace, Bool.true_and]

/-- An element of twice the width is two elements. -/
theorem elem_double (w v q : Nat) : elem (w * 2) v q = elem w v (2 * q) + 2 ^ w * elem w v (2 * q + 1) := by
  have hhigh : w * (2 * q + 1) = w * 2 * q + w := by ring
  have hlow : w * (2 * q) = w * 2 * q := by ring
  rw [elem, elem, elem, hhigh, hlow, Nat.mul_two w, Nat.pow_add 2 w w, Nat.mod_mul, Nat.pow_add 2 _ w, Nat.div_div_eq_div_mul]

theorem elem_lt (w v q : Nat) : elem w v q < 2 ^ w := Nat.mod_lt _ (by positivity)

theorem elem_of_lt {w v q : Nat} (h : v < 2 ^ (w * q)) : elem w v q = 0 := by rw [elem, Nat.div_eq_of_lt h, Nat.zero_mod]

/-- An element of those packed. -/
theorem elem_packW_range {w n k : Nat} (f : Nat → Nat) (hk : k < n) : elem w (packW w ((List.range n).map f)) k = f k % 2 ^ w := by
  rw [elem_packW, List.getD_eq_getElem?_getD, List.getElem?_map, List.getElem?_range hk, Option.map_some, Option.getD_some]

/-- The code of an integer stands for it modulo 2^w. -/
theorem cast_code (w : Nat) (x : Int) : ((code w x : Nat) : Int) = x % 2 ^ w := by
  rw [code, Int.toNat_of_nonneg (Int.emod_nonneg _ (by positivity))]
  push_cast
  rfl

/-! ### Lanes of a word that computes element by element (R148, R150) -/

/-- The width of an element of the vector types: some in a lane, or two lanes for one. -/
def LaneWidth (w : Nat) : Prop := w ∣ 32 ∨ w = 64

theorem laneWidth_ew (t : VTy) : LaneWidth (VTy.ew t) := by cases t <;> simp [LaneWidth, VTy.ew]

section
variable {w : Nat} {f : Nat → Nat × Fl} {deps : Nat → List Dep} {l : List LaneOut} {x : LaneOut} {j q : Nat}

/-- Destination lane `j` of such a word. -/
def laneBy (w : Nat) (f : Nat → Nat × Fl) (deps : Nat → List Dep) (j : Nat) : LaneOut where
  val := if w = 64 then packW 64 (((elemsIn w j).map f).map Prod.fst) / 2 ^ (32 * (j % 2)) % 2 ^ 32
    else packW w (((elemsIn w j).map f).map Prod.fst)
  fl := ((elemsIn w j).map f).foldl (fun a r => a ||| r.2) 0
  deps := (elemsIn w j).flatMap deps
  bad := false

theorem byElem_eq_map : byElem w f deps = (List.range 64).map (laneBy w f deps) := rfl

theorem forall_mem_byElem {P : LaneOut → Prop} (h : ∀ j, P (laneBy w f deps j)) : ∀ x ∈ byElem w f deps, P x := by
  rw [byElem_eq_map]
  exact List.forall_mem_map.mpr fun j _ => h j

/-- Elements without flags raise none. -/
theorem fl_laneBy {g : Nat → Nat} : (laneBy w (fun q => (g q, 0)) deps j).fl = 0 := by
  rw [laneBy, List.foldl_map]
  exact List.foldl_fixed' (fun _ => by simp) _

theorem el_packLanes_byElem (hj : j < 64) : el 32 (packLanes (byElem w f deps)).1 j = (laneBy w f deps j).val % 2 ^ 32 :=
  el_packLanes hj (by simp [byElem_eq_map, hj])

/-- A lane of several elements holds the elements in its places. -/
theorem val_laneBy_narrow {k : Nat} (hk : w * k = 32) : (laneBy w f deps j).val = packW w ((List.range k).map fun e => (f (k * j + e)).1) := by
  have hw : w ≠ 64 := by rintro rfl; omega
  have hpos : 0 < w := Nat.pos_of_ne_zero (by rintro rfl; omega)
  have hdiv : 32 / w = k := by rw [← hk, Nat.mul_div_cancel_left k hpos]
  simp only [laneBy, if_neg hw, elemsIn, upTo, hdiv, List.map_map, Nat.mul_comm j]
  rfl

/-- A lane of half an element of 64 bits holds that half. -/
theorem val_laneBy_wide : (laneBy 64 f deps j).val = elem 32 (f (j / 2)).1 (j % 2) := by
  have hone : (laneBy 64 f deps j).val = elem 32 (packW 64 [(f (j / 2)).1]) (j % 2) := rfl
  have hlow : packW 64 [(f (j / 2)).1] = (f (j / 2)).1 % 2 ^ 64 := by simp [packW]
  rw [hone, hlow, elem_mod_two_pow _ (by omega)]

/-- An element narrower than a lane is the one in its place. -/
theorem el_byElem_narrow {k : Nat} (hk : w * k = 32) (hq : w * (q + 1) ≤ 2048) :
    el w (packLanes (byElem w f deps)).1 q = (f q).1 % 2 ^ w := by
  have hkpos : 0 < k := Nat.pos_of_ne_zero (by rintro rfl; omega)
  have hmod : q % k < k := Nat.mod_lt q hkpos
  have hj : q / k < 64 := by
    have hwpos : 0 < w := Nat.pos_of_ne_zero (by rintro rfl; omega)
    have hfits : w * (q + 1) ≤ w * (64 * k) := by rwa [Nat.mul_left_comm, hk]
    exact (Nat.div_lt_iff_lt_mul hkpos).mpr (Nat.le_of_mul_le_mul_left hfits hwpos)
  have hlane : elem (w * k) (packLanes (byElem w f deps)).1.toNat (q / k) =
      packW w ((List.range k).map fun e => (f (k * (q / k) + e)).1) := by
    rw [hk, ← el_eq_elem, el_packLanes_byElem hj, val_laneBy_narrow hk, Nat.mod_eq_of_lt]
    simpa [hk] using packW_lt w ((List.range k).map fun e => (f (k * (q / k) + e)).1)
  have hplace := elem_elem (w := w) (packLanes (byElem w f deps)).1.toNat (q / k) hmod
  rw [Nat.div_add_mod, hlane, elem_packW_range _ hmod, Nat.div_add_mod] at hplace
  exact hplace.symm

/-- An element of 64 bits is the one of its two lanes. -/
theorem el_byElem_wide (hq : 64 * (q + 1) ≤ 2048) : el 64 (packLanes (byElem 64 f deps)).1 q = (f q).1 % 2 ^ 64 := by
  have hlane {j : Nat} (hj : j < 64) : elem 32 (packLanes (byElem 64 f deps)).1.toNat j = elem 32 (f (j / 2)).1 (j % 2) := by
    rw [← el_eq_elem, el_packLanes_byElem hj, val_laneBy_wide, Nat.mod_eq_of_lt (elem_lt ..)]
  have heven : 2 * q / 2 = q ∧ 2 * q % 2 = 0 := by omega
  have hodd : (2 * q + 1) / 2 = q ∧ (2 * q + 1) % 2 = 1 := by omega
  calc el 64 (packLanes (byElem 64 f deps)).1 q = elem 32 (f q).1 0 + 2 ^ 32 * elem 32 (f q).1 1 := by
        rw [el_eq_elem, elem_double 32, hlane (by omega), hlane (by omega), heven.1, heven.2, hodd.1, hodd.2]
    _ = elem 64 (f q).1 0 := (elem_double 32 _ 0).symm
    _ = (f q).1 % 2 ^ 64 := by simp [elem]

/-- Each element of a register that a word computes by elements is the one computed. -/
theorem el_byElem (hw : LaneWidth w) (hq : w * (q + 1) ≤ 2048) : el w (packLanes (byElem w f deps)).1 q = (f q).1 % 2 ^ w := by
  obtain ⟨k, hk⟩ | rfl := hw
  · exact el_byElem_narrow hk.symm hq
  · exact el_byElem_wide hq

/-! ### Poison and flags of clear words (R123, R150) -/

theorem poison_packLanes_clear (hl : l.length = 64) (h : ∀ x ∈ l, x.bad = false) : (packLanes l).2.1 = 0 := by
  refine BitVec.eq_of_getLsbD_eq fun j hj => ?_
  have hlt : j < l.length := hl ▸ hj
  rw [poison_packLanes hj (List.getElem?_eq_getElem hlt), h _ (List.getElem_mem hlt)]
  simp

/-- The flags of lanes each of which raises `F` or nothing. -/
theorem flags_packLanes (F : Fl) (b : LaneOut → Bool) (h : ∀ x ∈ l, x.fl = flIf (b x) F) : (packLanes l).2.2 = flIf (l.any b) F := by
  change l.foldl (fun f x => f ||| x.fl) 0 = _
  induction l using List.reverseRecOn with
  | nil => rfl
  | append_singleton l x ih =>
    rw [List.foldl_concat, ih fun y hy => h y (List.mem_append_left _ hy), h x (by simp), List.any_append, List.any_cons]
    cases l.any b <;> cases b x <;> simp [flIf]

theorem flags_packLanes_none (h : ∀ x ∈ l, x.fl = 0) : (packLanes l).2.2 = 0 :=
  (flags_packLanes 0 (fun _ => false) h).trans (ite_self 0)

/-! ### Words without poison (R150) -/

variable {s : State} {i : Instr} {lat : Nat} {sp k : Bool} {o : VOps} {d : Reg}

/-- A vector word that reads no poisoned lane writes its lanes. -/
theorem sends_packLanes (hexec : exec i s = issue i s (s.vector lat sp k o d l)) (hr : Ready i s)
    (hclear : ∀ x ∈ l, ∀ p ∈ x.deps, o.pois p = false) :
    Sends i s lat (.vreg d (packLanes l).1 (packLanes l).2.1 (packLanes l).2.2) :=
  (exec_of_ready hexec hr).trans (congrArg _ (vector_clear hclear))

/-- Where it computes element by element without flags, its lanes are clear and raise none. -/
theorem sends_byElem {g : Nat → Nat} (hexec : exec i s = issue i s (s.vector lat sp k o d l))
    (hl : l = byElem w (fun q => (g q, 0)) deps) (hr : Ready i s) (hclear : ∀ q, ∀ p ∈ deps q, o.pois p = false) :
    Sends i s lat (.vreg d (packLanes l).1 0 0) := by
  subst hl
  have hdeps : ∀ x ∈ byElem w (fun q => (g q, (0 : Fl))) deps, ∀ p ∈ x.deps, o.pois p = false :=
    forall_mem_byElem fun j p hp => by
      obtain ⟨q, -, hq⟩ := List.mem_flatMap.mp hp
      exact hclear q p hq
  have hpoison : (packLanes (byElem w (fun q => (g q, 0)) deps)).2.1 = 0 :=
    poison_packLanes_clear (by simp [byElem_eq_map]) (forall_mem_byElem fun _ => rfl)
  have hflags : (packLanes (byElem w (fun q => (g q, 0)) deps)).2.2 = 0 :=
    flags_packLanes_none (forall_mem_byElem fun _ => fl_laneBy)
  have hsends := sends_packLanes hexec hr hdeps
  rwa [hpoison, hflags] at hsends

/-- Its elements are those computed. -/
theorem elements_byElem {g : Nat → Nat} {e : Nat → Int} (hexec : exec i s = issue i s (s.vector lat sp k o d l))
    (hl : l = byElem w (fun q => (g q, 0)) deps) (hw : LaneWidth w) (hr : Ready i s)
    (hclear : ∀ q, ∀ p ∈ deps q, o.pois p = false) (he : ∀ q, (g q : Int) % 2 ^ w = e q % 2 ^ w) :
    Elements i s lat d w 0 e :=
  ⟨_, sends_byElem hexec hl hr hclear, fun q hq => by
    rw [hl, el_byElem hw hq, ← he q]
    push_cast
    rfl⟩

end

end Sys2Proof.Proofs
end

section
/-! PROOFS. Vector words on lanes without poison: logic, shifts, moves, packing, trits and random numbers (R123, R143, R147, R158,
R160, R171 to R173, R179). -/

namespace Sys2Proof.Proofs

open Sys2Proof Sys2Proof.Machine Sys2Proof.Claims

/-! ### Sources without poison (R150) -/

section
variable {s : State} {d a b : Reg} {ty : VTy} {sp md : Bool} {p : Dep} {w q : Nat} {ss : List Nat}

theorem pois_ops2_of_ne (h : VClear s [a]) (hp : p.1 ≠ 1) : (s.ops2 a b).pois p = false := by
  obtain ⟨source, j⟩ := p
  match source with
  | 0 => simp [VOps.pois, VOps.get, State.ops2, h a (by simp)]
  | 1 => exact absurd rfl hp
  | 2 | k + 3 => simp [VOps.pois, VOps.get, State.ops2]

theorem pois_ops2 (h : VClear s [a, b]) (p : Dep) : (s.ops2 a b).pois p = false := by
  by_cases hp : p.1 = 1
  · simp [VOps.pois, hp, VOps.get, State.ops2, h b (by simp)]
  · exact pois_ops2_of_ne (fun r hr => h r (List.mem_cons.mpr (.inl (List.mem_singleton.mp hr)))) hp

/-- A word with a form on B as a number reads B only in the other. -/
theorem pois_ops2_src (h : VClear s (if md then [a] else [a, b])) (hp : md = true → p.1 ≠ 1) : (s.ops2 a b).pois p = false := by
  cases md with
  | false => exact pois_ops2 h p
  | true => exact pois_ops2_of_ne h (hp rfl)

theorem source_of_mem_depsOf (h : p ∈ depsOf w ss q) : p.1 ∈ ss := by
  simp only [depsOf, List.mem_flatMap, List.mem_map] at h
  obtain ⟨k, hk, j, -, rfl⟩ := h
  exact hk

/-- A dependence on A alone is none on B. -/
theorem ne_one_of_mem_depsOf_a (h : p ∈ depsOf w [0] q) : p.1 ≠ 1 := by
  rw [List.mem_singleton.mp (source_of_mem_depsOf h)]
  decide

theorem pois_ops2_self (h : VClear s [a]) (p : Dep) : (s.ops2 a a).pois p = false :=
  pois_ops2 (fun r hr => h r (by simpa using hr)) p

theorem source_of_mem_byteLanes {p : Dep} {source lo n : Nat} (h : p ∈ byteLanes source lo n) : p.1 = source := by
  rw [byteLanes] at h
  split at h
  · nomatch h
  · obtain ⟨i, -, rfl⟩ := List.mem_map.mp h
    rfl

/-! ### Logic (R158) -/

/-- A register by the bits of its lanes. -/
theorem getLsbD_eq_testBit_el (v : VWord) {i : Nat} : v.getLsbD i = (el 32 v (i / 32)).testBit (i % 32) := by
  rw [el_eq_elem, testBit_elem, Nat.div_add_mod, decide_eq_true (Nat.mod_lt _ (by decide)), Bool.true_and, BitVec.testBit_toNat]

/-- Registers with the same lanes are the same. -/
theorem eq_of_lanes {v w : VWord} (h : ∀ j < 64, el 32 v j = el 32 w j) : v = w := by
  refine BitVec.eq_of_getLsbD_eq fun i hi => ?_
  rw [getLsbD_eq_testBit_el, getLsbD_eq_testBit_el, h _ (by omega)]

/-- A logical instruction acts on each bit of its sources. -/
theorem sends_laneLogic {f : Nat → Nat → Nat} (g : Bool → Bool → Bool) {i : Instr} {v : VWord}
    (hexec : exec i s = issue i s (s.vector 2 sp false (s.ops2 a b) d (laneLogic f (s.ops2 a b).src))) (hc : VClear s [a, b])
    (hr : Ready i s) (hf : ∀ x y k, k < 32 → (f x y).testBit k = g (x.testBit k) (y.testBit k))
    (hv : ∀ k < 2048, v.getLsbD k = g ((s.me.v a).val.getLsbD k) ((s.me.v b).val.getLsbD k)) : Sends i s 2 (.vreg d v 0 0) := by
  have hsends := sends_byElem hexec rfl hr fun _ p _ => pois_ops2 hc p
  have hval : v = (packLanes (laneLogic f (s.ops2 a b).src)).1 := by
    refine BitVec.eq_of_getLsbD_eq fun k hk => ?_
    have hlow : k % 32 < 32 := Nat.mod_lt _ (by decide)
    rw [hv k hk, getLsbD_eq_testBit_el (packLanes _).1, laneLogic, el_byElem (.inl (by decide)) (by omega), Nat.testBit_mod_two_pow,
      decide_eq_true hlow, Bool.true_and, hf _ _ _ hlow, getLsbD_eq_testBit_el (s.me.v a).val, getLsbD_eq_testBit_el (s.me.v b).val]
    rfl
  rwa [hval]

theorem sends_vand (hc : VClear s [a, b]) (hr : Ready (.vand d a b sp) s) :
    Sends (.vand d a b sp) s 2 (.vreg d ((s.me.v a).val &&& (s.me.v b).val) 0 0) :=
  sends_laneLogic and (exec_vand ..) hc hr (fun _ _ _ _ => Nat.testBit_and ..) fun _ _ => BitVec.getLsbD_and

theorem sends_vor (hc : VClear s [a, b]) (hr : Ready (.vor d a b sp) s) :
    Sends (.vor d a b sp) s 2 (.vreg d ((s.me.v a).val ||| (s.me.v b).val) 0 0) :=
  sends_laneLogic or (exec_vor ..) hc hr (fun _ _ _ _ => Nat.testBit_or ..) fun _ _ => BitVec.getLsbD_or

theorem sends_vxor (hc : VClear s [a, b]) (hr : Ready (.vxor d a b sp) s) :
    Sends (.vxor d a b sp) s 2 (.vreg d ((s.me.v a).val ^^^ (s.me.v b).val) 0 0) :=
  sends_laneLogic bne (exec_vxor ..) hc hr (fun _ _ _ _ => Nat.testBit_xor ..) fun _ _ => BitVec.getLsbD_xor

theorem sends_vandn (hc : VClear s [a, b]) (hr : Ready (.vandn d a b sp) s) :
    Sends (.vandn d a b sp) s 2 (.vreg d ((s.me.v a).val &&& ~~~(s.me.v b).val) 0 0) := by
  refine sends_laneLogic (fun x y => x && !y) (exec_vandn ..) hc hr (fun x y k hk => ?_) fun k hk => ?_
  · rw [Nat.testBit_and, Nat.testBit_xor, Nat.testBit_two_pow_sub_one, decide_eq_true hk, Bool.xor_true]
  · rw [BitVec.getLsbD_and, BitVec.getLsbD_not, decide_eq_true hk, Bool.true_and]

/-! ### Shifts (R158) -/

/-- The place by which element `q` is shifted. -/
def shiftBy (s : State) (ty : VTy) (md : Bool) (b : Reg) (q : Nat) : Nat :=
  (if md then b.toNat else el (VTy.ew ty) (s.me.v b).val q) % VTy.ew ty

/-- The dependences of a shift are clear where the sources it reads are. -/
theorem clear_shift (hc : VClear s (if md then [a] else [a, b])) (q : Nat) (p : Dep)
    (hp : p ∈ depsOf (VTy.ew ty) (if md then [0] else [0, 1]) q) : (s.ops2 a b).pois p = false := by
  refine pois_ops2_src hc fun hmd => ?_
  rw [hmd] at hp
  exact ne_one_of_mem_depsOf_a hp

theorem elements_vshl (hc : VClear s (if md then [a] else [a, b])) (hr : Ready (.vshl d a b ty sp md) s) :
    Elements (.vshl d a b ty sp md) s 2 d (VTy.ew ty) 0 fun q =>
      el (VTy.ew ty) (s.me.v a).val q * 2 ^ shiftBy s ty md b q := by
  refine elements_byElem (exec_vshl ..) rfl (laneWidth_ew ty) hr (clear_shift hc) fun q => ?_
  push_cast
  exact Int.emod_emod_of_dvd _ dvd_rfl

theorem elements_vshr (hc : VClear s (if md then [a] else [a, b])) (hr : Ready (.vshr d a b ty sp md) s) :
    Elements (.vshr d a b ty sp md) s 2 d (VTy.ew ty) 0 fun q =>
      (el (VTy.ew ty) (s.me.v a).val q / 2 ^ shiftBy s ty md b q : Nat) :=
  elements_byElem (exec_vshr ..) rfl (laneWidth_ew ty) hr (clear_shift hc) fun _ => rfl

theorem elements_vsar (hc : VClear s (if md then [a] else [a, b])) (hr : Ready (.vsar d a b ty sp md) s) :
    Elements (.vsar d a b ty sp md) s 2 d (VTy.ew ty) 0 fun q =>
      sgn (VTy.ew ty) (el (VTy.ew ty) (s.me.v a).val q) / 2 ^ shiftBy s ty md b q := by
  refine elements_byElem (exec_vsar ..) rfl (laneWidth_ew ty) hr (clear_shift hc) fun q => ?_
  simp only [cast_code]
  push_cast
  exact Int.emod_emod_of_dvd _ dvd_rfl

/-! ### Moves (R160) -/

/-- The dependences of a move are clear where the sources it reads are. -/
theorem clear_move {k : Nat} (hc : VClear s (if md then [a] else [a, b])) (o : VSrc) (p : Dep)
    (hp : p ∈ depsOf w [0] k ++ (moveIdx ty md b.toNat o).2) : (s.ops2 a b).pois p = false := by
  refine pois_ops2_src hc fun hmd => ?_
  simp only [hmd, moveIdx, ↓reduceIte, List.append_nil] at hp
  exact ne_one_of_mem_depsOf_a hp

theorem moveIdx_fst : (moveIdx ty md b.toNat (s.ops2 a b).src).1 = moveAt s ty md b := by cases md <;> rfl

theorem elements_vbc (hc : VClear s (if md then [a] else [a, b])) (hr : Ready (.vbc d a b ty sp md) s) :
    Elements (.vbc d a b ty sp md) s 2 d (VTy.ew ty) 0 fun _ => el (VTy.ew ty) (s.me.v a).val (moveAt s ty md b) :=
  elements_byElem (exec_vbc ..) rfl (laneWidth_ew ty) hr (fun _ p hp => clear_move hc _ p hp) fun q => by
    rw [moveIdx_fst]; rfl

theorem elements_vxt (hc : VClear s (if md then [a] else [a, b])) (hr : Ready (.vxt d a b ty sp md) s) :
    Elements (.vxt d a b ty sp md) s 2 d (VTy.ew ty) 0 fun q =>
      if q = 0 then el (VTy.ew ty) (s.me.v a).val (moveAt s ty md b) else 0 := by
  refine elements_byElem (exec_vxt ..) rfl (laneWidth_ew ty) hr (fun q p hp => ?_) fun q => ?_
  · split at hp
    · exact clear_move hc _ p hp
    · nomatch hp
  · rw [moveIdx_fst]; split <;> rfl

theorem elements_vrot (hc : VClear s (if md then [a] else [a, b])) (hr : Ready (.vrot d a b ty sp md) s) :
    Elements (.vrot d a b ty sp md) s 2 d (VTy.ew ty) 0 fun q =>
      el (VTy.ew ty) (s.me.v a).val ((q + moveAt s ty md b) % VTy.count ty) :=
  elements_byElem (exec_vrot ..) rfl (laneWidth_ew ty) hr (fun _ p hp => clear_move hc _ p hp) fun q => by
    rw [moveIdx_fst]; rfl

theorem elements_vperm (hc : VClear s [a, b]) (hr : Ready (.vperm d a b ty sp) s) :
    Elements (.vperm d a b ty sp) s 3 d (VTy.ew ty) 0 fun q =>
      el (VTy.ew ty) (s.me.v a).val (el (VTy.ew ty) (s.me.v b).val q % VTy.count ty) :=
  elements_byElem (exec_vperm ..) rfl (laneWidth_ew ty) hr (fun _ p _ => pois_ops2 hc p) fun _ => rfl

end

section
variable {s : State} {d a b : Reg} {sp md : Bool}

/-! ### Packing by halves (R171 to R173) -/

theorem laneWidth_packE {wc : Nat} (h : wc < 4) : LaneWidth (packE wc) := by
  interval_cases wc <;> simp [LaneWidth, packE]

theorem laneWidth_two_packE {wc : Nat} (h : wc < 4) : LaneWidth (2 * packE wc) := by
  interval_cases wc <;> simp [LaneWidth, packE]

theorem elements_vpak {wc : BitVec 5} (hwc : wc.toNat < 4) (hc : VClear s [a, b]) (hr : Ready (.vpak d a b wc sp) s) :
    let e := packE wc.toNat
    Elements (.vpak d a b wc sp) s 2 d e 0 fun q =>
      (if q < 1024 / e then el (2 * e) (s.me.v a).val q else el (2 * e) (s.me.v b).val (q - 1024 / e) : Nat) := by
  refine elements_byElem (exec_vpak ..) (if_neg hwc.ne) (laneWidth_packE hwc) hr (fun _ p _ => pois_ops2 hc p) fun q => ?_
  split <;> push_cast <;> exact Int.emod_emod_of_dvd _ dvd_rfl

/-- A code extended with its sign or with zeros. -/
theorem cast_extended (sx : Bool) (e w x : Nat) :
    (((if sx then code w (sgn e x) else x) : Nat) : Int) % 2 ^ w = (if sx then sgn e x else x) % 2 ^ w := by
  cases sx with
  | false => rfl
  | true => exact (congrArg (· % 2 ^ w) (cast_code ..)).trans (Int.emod_emod_of_dvd _ dvd_rfl)

theorem elements_vupk {wc : BitVec 5} (hwc : wc.toNat < 4) {h : Reg} (hc : VClear s [a]) (hr : Ready (.vupk d a h wc sp md) s) :
    let e := packE wc.toNat
    Elements (.vupk d a h wc sp md) s 2 d (2 * e) 0 fun q =>
      let z := el e (s.me.v a).val (h.toNat * (1024 / e) + q)
      if md then sgn e z else z :=
  elements_byElem (exec_vupk ..) (if_neg hwc.ne) (laneWidth_two_packE hwc) hr (fun _ p _ => pois_ops2_self hc p)
    fun _ => cast_extended ..

/-! ### Six bits of a byte (R171, R173) -/

theorem elements_vupk_six {h : Reg} (hc : VClear s [a]) (hr : Ready (.vupk d a h 4 sp md) s) :
    Elements (.vupk d a h 4 sp md) s 2 d 8 0 fun k => if md then sgn 6 (el 6 (s.me.v a).val k) else el 6 (s.me.v a).val k :=
  elements_byElem (exec_vupk ..) rfl (.inl (by decide)) hr (fun _ p _ => pois_ops2_self hc p) fun _ => cast_extended ..

/-- The low six bits of the bytes of a number, packed. -/
def sixes (v : Nat) : Nat := packW 6 ((List.range 256).map (elem 8 v))

theorem sixes_lt (v : Nat) {n : Nat} (hn : 6 * 256 = n) : sixes v < 2 ^ n := by
  have hlt := packW_lt 6 ((List.range 256).map (elem 8 v))
  rwa [List.length_map, List.length_range, hn] at hlt

/-- A lane of `vpak` to six bits. -/
def laneSix (o : VSrc) (j : Nat) : LaneOut where
  val := if j < 48 then elem 32 (sixes o.a) j else 0
  fl := 0
  deps := if j < 48 then byteLanes 0 (32 * j / 6) ((32 * j + 31) / 6 - 32 * j / 6 + 1) else []
  bad := false

theorem lanePak_six (o : VSrc) : lanePak 4 o = (List.range 64).map (laneSix o) := rfl

theorem source_of_mem_laneSix {o : VSrc} {j : Nat} {p : Dep} (h : p ∈ (laneSix o j).deps) : p.1 = 0 := by
  unfold laneSix at h
  dsimp only at h
  split at h
  · exact source_of_mem_byteLanes h
  · nomatch h

theorem val_laneSix (o : VSrc) (j : Nat) : (laneSix o j).val = elem 32 (sixes o.a) j := by
  by_cases hj : j < 48
  · exact if_pos hj
  · have hzero : elem 32 (sixes o.a) j = 0 :=
      elem_of_lt ((sixes_lt o.a rfl).trans_le (pow_le_pow_right₀ one_le_two (by omega)))
    exact (if_neg hj).trans hzero.symm

theorem packLanes_six (o : VSrc) : (packLanes (lanePak 4 o)).1 = BitVec.ofNat 2048 (sixes o.a) :=
  eq_of_lanes fun j hj => by
    have hlane : (lanePak 4 o)[j]? = some (laneSix o j) := by simp [lanePak_six, hj]
    rw [el_packLanes hj hlane, val_laneSix, el_ofNat _ (by omega), Nat.mod_eq_of_lt (elem_lt ..)]

theorem sends_vpak_six (hc : VClear s [a]) (hr : Ready (.vpak d a b 4 sp) s) :
    Sends (.vpak d a b 4 sp) s 2 (.vreg d (BitVec.ofNat 2048 (sixes (s.me.v a).val.toNat)) 0 0) := by
  have hdeps : ∀ x ∈ lanePak 4 (s.ops2 a b).src, ∀ p ∈ x.deps, (s.ops2 a b).pois p = false :=
    List.forall_mem_map.mpr fun j _ p hp => pois_ops2_of_ne hc (source_of_mem_laneSix hp ▸ zero_ne_one)
  have hsends := sends_packLanes (l := lanePak 4 (s.ops2 a b).src) (exec_vpak d a b 4 sp s) hr hdeps
  have hpoison : (packLanes (lanePak 4 (s.ops2 a b).src)).2.1 = 0 :=
    poison_packLanes_clear (by simp [lanePak_six]) (List.forall_mem_map.mpr fun _ _ => rfl)
  have hflags : (packLanes (lanePak 4 (s.ops2 a b).src)).2.2 = 0 := flags_packLanes_none (List.forall_mem_map.mpr fun _ _ => rfl)
  rwa [packLanes_six, hpoison, hflags] at hsends

theorem vpak_packs_six (hc : VClear s [a]) (hr : Ready (.vpak d a b 4 sp) s) : ∃ v : VWord,
    Sends (.vpak d a b 4 sp) s 2 (.vreg d v 0 0) ∧ v.toNat < 2 ^ 1536 ∧ ∀ k < 256, el 6 v k = el 8 (s.me.v a).val k % 64 := by
  refine ⟨_, sends_vpak_six hc hr, ?_, fun k hk => ?_⟩
  · have hle : (BitVec.ofNat 2048 (sixes (s.me.v a).val.toNat)).toNat ≤ sixes (s.me.v a).val.toNat := Nat.mod_le ..
    exact hle.trans_lt (sixes_lt (n := 1536) _ rfl)
  · rw [el_ofNat _ (by omega), sixes, elem_packW_range _ hk]
    rfl

/-! ### Trits (R123, R129) -/

/-- A lane of `vtunp`. -/
def laneTrits (n : Nat) (o : VSrc) (j : Nat) : LaneOut where
  val := packW 8 ((List.range 4).map fun e => code 8 (trit (elem 8 (elem 32 o.a j) ((4 * n + e) / 5)) ((4 * n + e) % 5)))
  fl := flIf ((List.range 4).any fun m => decide (243 ≤ elem 8 (elem 32 o.a j) m)) flTBAD
  deps := [(0, j)]
  bad := (List.range 4).any fun m => decide (243 ≤ elem 8 (elem 32 o.a j) m)

section
variable {n j : Nat} {o : VSrc}

theorem laneTunp_eq_map : laneTunp n o = (List.range 64).map (laneTrits n o) := rfl

theorem laneTunp_getElem (hj : j < 64) : (laneTunp n o)[j]? = some (laneTrits n o j) := by simp [laneTunp_eq_map, hj]

/-- A byte of a lane. -/
theorem elem_byte {m : Nat} (v : Nat) (hm : m < 4) : elem 8 (elem 32 v j) m = elem 8 v (4 * j + m) :=
  elem_elem (k := 4) v j hm

theorem bad_laneTrits : (laneTrits n o j).bad = true ↔ ∃ m < 4, 243 ≤ elem 8 o.a (4 * j + m) := by
  simp only [laneTrits, List.any_eq_true, List.mem_range, decide_eq_true_eq]
  exact exists_congr fun m => and_congr_right fun hm => by rw [elem_byte _ hm]

theorem any_bad_laneTunp : (laneTunp n o).any LaneOut.bad = true ↔ ∃ k < 256, 243 ≤ elem 8 o.a k := by
  simp only [laneTunp_eq_map, List.any_map, List.any_eq_true, List.mem_range, Function.comp, bad_laneTrits]
  constructor
  · rintro ⟨j, hj, m, hm, hbyte⟩
    exact ⟨4 * j + m, by omega, hbyte⟩
  · rintro ⟨k, hk, hbyte⟩
    exact ⟨k / 4, by omega, k % 4, by omega, by rwa [Nat.div_add_mod]⟩

theorem flags_laneTunp : (packLanes (laneTunp n o)).2.2 = flIf ((laneTunp n o).any LaneOut.bad) flTBAD :=
  flags_packLanes flTBAD LaneOut.bad (List.forall_mem_map.mpr fun _ _ => rfl)

/-- Byte `e` of a lane holds its trit. -/
theorem el_laneTunp (hn : n ≤ 4) (hj : j < 64) {e : Nat} (he : e < 4) :
    ((el 8 (packLanes (laneTunp n o)).1 (4 * j + e) : Nat) : Int) =
      trit (elem 8 o.a (4 * j + (4 * n + e) / 5)) ((4 * n + e) % 5) % 256 := by
  have hbyte : el 8 (packLanes (laneTunp n o)).1 (4 * j + e) =
      code 8 (trit (elem 8 o.a (4 * j + (4 * n + e) / 5)) ((4 * n + e) % 5)) % 2 ^ 8 := by
    rw [el_eq_elem, ← elem_byte _ he, ← el_eq_elem, el_packLanes hj (laneTunp_getElem hj), elem_mod_two_pow _ (by omega), laneTrits,
      elem_packW_range _ he, elem_byte _ (by omega)]
  rw [hbyte]
  push_cast
  rw [cast_code]
  omega

end

/-- A legal word is well formed (R38). -/
theorem wf_of_legal {i : Instr} {c : Core} (h : legal i c = true) : i.wf = true := by
  simp only [legal, Bool.and_eq_true] at h
  obtain ⟨⟨⟨hwf, -⟩, -⟩, -⟩ := h
  exact hwf

theorem vtunp_writes_trits {t : BitVec 5} (hc : VClear s [a]) (hr : Ready (.vtunp d a t sp) s) : ∃ (v : VWord) (p : BitVec 64) (f : Fl),
    Sends (.vtunp d a t sp) s 3 (.vreg d v p f) ∧
    (∀ j < 64, (p.getLsbD j = true ↔ ∃ m < 4, 243 ≤ el 8 (s.me.v a).val (4 * j + m)) ∧ ∀ e < 4,
      let k := 4 * t.toNat + e
      let z := el 8 (s.me.v a).val (4 * j + k / 5)
      ((el 8 v (4 * j + e) : Nat) : Int) = (if 243 ≤ z then 0 else (z / 3 ^ (k % 5) % 3 : Nat) - 1 : Int) % 256) ∧
    ((∃ k < 256, 243 ≤ el 8 (s.me.v a).val k) → f = flTBAD) ∧ ((∀ k < 256, el 8 (s.me.v a).val k < 243) → f = 0) := by
  have hn : t.toNat ≤ 4 := by
    obtain ⟨hlegal, -⟩ := hr
    exact of_decide_eq_true (wf_of_legal hlegal)
  refine ⟨_, _, _, sends_packLanes (exec_vtunp d a t sp s) hr fun _ _ p _ => pois_ops2_self hc p, fun j hj => ⟨?_, fun e he => ?_⟩,
    fun hbad => ?_, fun hgood => ?_⟩
  · rw [poison_packLanes hj (laneTunp_getElem hj)]
    exact bad_laneTrits
  · exact el_laneTunp hn hj he
  · rw [flags_laneTunp, any_bad_laneTunp (o := (s.ops2 a a).src) |>.mpr hbad]
    rfl
  · have hnone : (laneTunp t.toNat (s.ops2 a a).src).any LaneOut.bad = false := Bool.eq_false_iff.mpr fun hany => by
      obtain ⟨k, hk, hbyte⟩ := any_bad_laneTunp.mp hany
      exact absurd hbyte (Nat.not_le.mpr (hgood k hk))
    rw [flags_laneTunp, hnone]
    rfl

/-! ### Random numbers (R143, R147, R179) -/

/-- Four lanes of a register as the words of a mix10 state. -/
def mixAt (v : VWord) (k : Nat) : Mix where
  x0 := lane v (4 * k)
  x1 := lane v (4 * k + 1)
  x2 := lane v (4 * k + 2)
  x3 := lane v (4 * k + 3)

theorem ofNat_elem (w n q : Nat) : BitVec.ofNat w (elem w n q) = BitVec.ofNat w (n / 2 ^ (w * q)) :=
  BitVec.eq_of_toNat_eq (by simp [elem])

theorem mixOfNat_eq (n : Nat) : Mix.ofNat n =
    ⟨BitVec.ofNat 32 (elem 32 n 0), BitVec.ofNat 32 (elem 32 n 1), BitVec.ofNat 32 (elem 32 n 2), BitVec.ofNat 32 (elem 32 n 3)⟩ := by
  simp only [ofNat_elem, Nat.mul_zero, Nat.pow_zero, Nat.div_one]
  rfl

theorem mixOfNat_toNat (m : Mix) : Mix.ofNat m.toNat = m := by
  have hpack : m.toNat = packW 32 [m.x0.toNat, m.x1.toNat, m.x2.toNat, m.x3.toNat] := by
    simp only [Mix.toNat, packW]
    omega
  simp only [mixOfNat_eq, hpack, elem_packW, List.getD_cons_zero, List.getD_cons_succ, BitVec.toNat_mod_cancel, BitVec.ofNat_toNat,
    BitVec.setWidth_eq]

theorem lane_eq_ofNat_elem (v : VWord) (j : Nat) : lane v j = BitVec.ofNat 32 (elem 32 v.toNat j) := by
  rw [← lane_toNat, BitVec.ofNat_toNat, BitVec.setWidth_eq]

/-- Lanes that hold the words of a number make its state. -/
theorem mixAt_of_lanes {v : VWord} {k n : Nat} (h : ∀ i < 4, el 32 v (4 * k + i) = elem 32 n i) : mixAt v k = Mix.ofNat n := by
  simp only [mixAt, mixOfNat_eq, lane_eq_ofNat_elem, ← el_eq_elem, h 1 (by decide), h 2 (by decide), h 3 (by decide)]
  rw [← h 0 (by decide), Nat.add_zero]

/-- The counter of a block of four lanes. -/
theorem mixAt_source (v : VWord) (k : Nat) : mixAt v k = Mix.ofNat (v.toNat / 2 ^ (128 * k)) :=
  mixAt_of_lanes fun i _ => elem_eq_elem fun m _ => by
    rw [Nat.testBit_div_two_pow]
    congr 1
    ring

/-- The words of a number in two halves. -/
theorem mixOfNat_halves (lo hi : W64) : Mix.ofNat (lo.toNat + hi.toNat * 2 ^ 64) =
    ⟨lo.setWidth 32, lo.extractLsb' 32 32, hi.setWidth 32, hi.extractLsb' 32 32⟩ := by
  have hlow := lo.isLt
  rw [Mix.ofNat, Mix.mk.injEq]
  refine ⟨?_, ?_, ?_, ?_⟩
  all_goals
    apply BitVec.eq_of_toNat_eq
    simp only [BitVec.toNat_ofNat, BitVec.toNat_setWidth, BitVec.extractLsb'_toNat, Nat.shiftRight_eq_div_pow]
    omega

/-- The key of `vrng`: that of the rounding stream, or the low 128 bits of B. -/
def rngKey (s : State) (md : Bool) (b : Reg) : Nat := if md then s.me.venv.key else (s.me.v b).val.toNat % 2 ^ 128

theorem mixOfNat_rngKey (s : State) (md : Bool) (b : Reg) : Mix.ofNat (rngKey s md b) =
    if md then ⟨s.me.spec.srk0.setWidth 32, s.me.spec.srk0.extractLsb' 32 32, s.me.spec.srk1.setWidth 32,
      s.me.spec.srk1.extractLsb' 32 32⟩ else mixAt (s.me.v b).val 0 := by
  cases md with
  | false =>
    refine (mixAt_of_lanes fun i hi => ?_).symm
    rw [Nat.mul_zero, Nat.zero_add, el_eq_elem]
    exact (elem_mod_two_pow (n := 128) _ (by omega)).symm
  | true => exact mixOfNat_halves ..

theorem vrng_writes_mix10 (hc : VClear s (if md then [a] else [a, b])) (hr : Ready (.vrng d a b sp md) s) : ∃ v : VWord,
    Sends (.vrng d a b sp md) s 8 (.vreg d v 0 0) ∧ ∀ o < 16, mix10 (Mix.ofNat (rngKey s md b)) (mixAt (s.me.v a).val o) = mixAt v o := by
  refine ⟨_, sends_byElem (exec_vrng ..) rfl hr fun q p hp => pois_ops2_src hc fun hmd => ?clear, fun o ho => ?words⟩
  case clear =>
    simp only [hmd, ↓reduceIte, List.append_nil, List.mem_map] at hp
    obtain ⟨i, -, rfl⟩ := hp
    exact zero_ne_one
  case words =>
    rw [mixAt_source, ← mixOfNat_toNat (mix10 _ _)]
    refine (mixAt_of_lanes fun i hi => ?_).symm
    have hblock : (4 * o + i) / 4 = o ∧ (4 * o + i) % 4 = i := by omega
    rw [laneRng, el_byElem (.inl (by decide)) (by omega), hblock.1, hblock.2, Nat.mod_eq_of_lt (elem_lt ..)]
    rfl

end

/-- Settles O18: the families of words put together. -/
theorem vectorLogicShiftsAndMoves : Obligations.VectorLogicShiftsAndMoves := by
  unfold Obligations.VectorLogicShiftsAndMoves
  intro s d a b ty sp md
  refine ⟨sends_vand, sends_vor, sends_vxor, sends_vandn, elements_vshl, elements_vshr, elements_vsar, elements_vbc, elements_vxt,
    elements_vrot, elements_vperm, fun _ hwc => ⟨elements_vpak hwc, fun _ => elements_vupk hwc⟩, vpak_packs_six,
    fun _ => elements_vupk_six, fun _ => vtunp_writes_trits, fun hc hr => ?_⟩
  obtain ⟨v, hsends, hwords⟩ := vrng_writes_mix10 hc hr
  refine ⟨v, hsends, fun o ho => ?_⟩
  have hwords := hwords o ho
  rw [mixOfNat_rngKey] at hwords
  exact hwords

end Sys2Proof.Proofs
end

section
/-! PROOFS. Vector words on floating point: a word whose lanes read no poison writes them; the elements and flags of one that computes
element by element with flags (R139, R144, R150, R151, R153). -/

namespace Sys2Proof.Proofs

open Sys2Proof Sys2Proof.Machine Sys2Proof.Claims

/-! ### Words that read no poisoned lane (R150) -/

section
variable {s : State} {i : Instr} {r : VDo} {keep : Bool}

theorem doVector_clear (h : ∀ x ∈ r.lanes, ∀ p ∈ x.deps, r.ops.pois p = false) : doVector s keep r =
    s.done fun c => (if r.draws = 0 then c else c.advance r.draws).push r.lat
      (.vreg r.d (packLanes r.lanes).1 (packLanes r.lanes).2.1 (packLanes r.lanes).2.2) := by
  have hnone : firstDep r.ops.pois (r.lanes.flatMap LaneOut.deps) = none :=
    firstDep_none fun p hp => by
      obtain ⟨x, hx, hxp⟩ := List.mem_flatMap.mp hp
      exact h x hx p hxp
  simp only [doVector, hnone, laneReg_clear h, ite_self]

/-- The clause for every VR and VX word: it writes its lanes at its latency, with their poison and their flags. -/
theorem acts_vectorWord (hword : vectorWord s i = some r) (hr : Ready i s)
    (h : ∀ x ∈ r.lanes, ∀ p ∈ x.deps, r.ops.pois p = false) :
    Acts i s fun c => (if r.draws = 0 then c else c.advance r.draws).push r.lat
      (.vreg r.d (packLanes r.lanes).1 (packLanes r.lanes).2.1 (packLanes r.lanes).2.2) :=
  (exec_of_ready (exec_vectorWord hword) hr).trans (congrArg _ (doVector_clear h))

end

/-! ### The flags of elements (R144, R150) -/

/-- Flags gathered over a list, one by one. -/
theorem getLsbD_foldl_or {α : Type} (l : List α) (g : α → Fl) (a : Fl) (k : Nat) :
    (l.foldl (fun a q => a ||| g q) a).getLsbD k = (a.getLsbD k || l.any fun q => (g q).getLsbD k) := by
  induction l generalizing a with
  | nil => simp
  | cons q l ih => rw [List.foldl_cons, ih, BitVec.getLsbD_or, List.any_cons, Bool.or_assoc]

section
variable {w : Nat} {F : Nat → Nat × Fl} {deps : Nat → List Dep}

/-- Every element lies in a lane, and every lane holds elements of the register only. -/
theorem exists_mem_elemsIn (hw : LaneWidth w) (P : Nat → Prop) : (∃ j < 64, ∃ q ∈ elemsIn w j, P q) ↔ ∃ q < 2048 / w, P q := by
  obtain ⟨k, hk⟩ | rfl := hw
  · have hwpos : 0 < w := Nat.pos_of_ne_zero (by rintro rfl; omega)
    have hkpos : 0 < k := Nat.pos_of_ne_zero (by rintro rfl; omega)
    have hw64 : w ≠ 64 := by rintro rfl; omega
    have hdiv : 32 / w = k := by rw [hk, Nat.mul_div_cancel_left k hwpos]
    have hcount : 2048 / w = 64 * k := Nat.div_eq_of_eq_mul_right hwpos (by rw [Nat.mul_left_comm, ← hk])
    simp only [elemsIn, if_neg hw64, upTo, hdiv, hcount, List.mem_map, List.mem_range]
    constructor
    · rintro ⟨j, hj, _, ⟨e, he, rfl⟩, hP⟩
      exact ⟨_, by nlinarith, hP⟩
    · rintro ⟨q, hq, hP⟩
      exact ⟨q / k, (Nat.div_lt_iff_lt_mul hkpos).mpr hq, q, ⟨q % k, Nat.mod_lt q hkpos, Nat.div_add_mod' q k⟩, hP⟩
  · simp only [elemsIn, ↓reduceIte, List.mem_singleton, exists_eq_left, Nat.reduceDiv]
    constructor
    · rintro ⟨j, hj, hP⟩
      exact ⟨j / 2, by omega, hP⟩
    · rintro ⟨q, hq, hP⟩
      exact ⟨2 * q, by omega, by rwa [Nat.mul_div_cancel_left q two_pos]⟩

/-- The flags of a word that computes by elements are those of its elements. -/
theorem flags_byElem (hw : LaneWidth w) :
    (packLanes (byElem w F deps)).2.2 = (List.range (2048 / w)).foldl (fun a q => a ||| (F q).2) 0 := by
  have hlane (j : Nat) (i : Nat) : (laneBy w F deps j).fl.getLsbD i = (elemsIn w j).any fun q => (F q).2.getLsbD i := by
    rw [laneBy, List.foldl_map, getLsbD_foldl_or]
    simp
  refine BitVec.eq_of_getLsbD_eq fun i _ => ?_
  rw [packLanes, getLsbD_foldl_or, getLsbD_foldl_or, byElem_eq_map, List.any_map, Bool.eq_iff_iff]
  simp only [Bool.or_eq_true, List.any_eq_true, List.mem_range, Function.comp_apply, hlane, exists_mem_elemsIn hw]

/-! ### Words that compute element by element with flags -/

variable {s : State} {i : Instr} {sp : Bool} {lat k : Nat} {d : Reg} {o : VOps} {P : Nat → Nat → Fl → Prop}

theorem poison_byElem : (packLanes (byElem w F deps)).2.1 = 0 :=
  poison_packLanes_clear (by simp [byElem_eq_map]) (forall_mem_byElem fun _ => rfl)

/-- Such a word, on sources without poison, issues and writes a register whose elements are those computed. -/
theorem acts_byElem (hword : vectorWord s i = some ⟨sp, lat, k, d, o, byElem w F deps⟩) (hr : Ready i s)
    (hclear : ∀ p, o.pois p = false) :
    Acts i s fun c => (if k = 0 then c else c.advance k).push lat
      (.vreg d (packLanes (byElem w F deps)).1 0 (packLanes (byElem w F deps)).2.2) := by
  have hacts := acts_vectorWord hword hr fun _ _ p _ => hclear p
  rwa [poison_byElem] at hacts

theorem mul_succ_le_of_lt_div {w q : Nat} (hq : q < 2048 / w) : w * (q + 1) ≤ 2048 :=
  (Nat.mul_le_mul_left w hq).trans (Nat.mul_div_le 2048 w)

theorem fpElements_byElem (hword : vectorWord s i = some ⟨sp, lat, k, d, o, byElem w F deps⟩) (hr : Ready i s)
    (hclear : ∀ p, o.pois p = false) (hw : LaneWidth w) (hF : ∀ q < 2048 / w, (F q).1 < 2 ^ w ∧ P q (F q).1 (F q).2) :
    FpElements i s lat k d w P := by
  have hacts := acts_byElem hword hr hclear
  rw [flags_byElem hw] at hacts
  refine ⟨_, fun q => (F q).2, hacts, fun q hq => ?_⟩
  obtain ⟨hlt, hP⟩ := hF q hq
  rwa [el_byElem hw (mul_succ_le_of_lt_div hq), Nat.mod_eq_of_lt hlt]

end

/-! ### Rounding modes and draws (R138, R143, R151, R153) -/

section
variable {s : State} {md : BitVec 2}

theorem modMode_rmode (s : State) (md : BitVec 2) : modMode md s.me.rmode = modeOf s md := by
  have hmd : md = 0 ∨ md = 1 ∨ md = 2 ∨ md = 3 := by revert md; decide
  obtain rfl | rfl | rfl | rfl := hmd <;> rfl

/-- The mode and graded or flush mode of a word with MOD. -/
theorem withMod_r (s : State) (md : BitVec 2) : (s.me.venv.withMod md).r = ⟨modeOf s md, s.me.graded⟩ := by
  rw [← modMode_rmode]
  rfl

theorem withMod_rnd (s : State) (md : BitVec 2) (n q : Nat) : (s.me.venv.withMod md).rnd n q = random s (modeOf s md) n q := by
  rw [← modMode_rmode]
  rfl

theorem random_lt (s : State) (m : RMode) (n q : Nat) : random s m n q < 65536 := by
  rw [random]
  split
  · exact Nat.mod_lt _ (by decide)
  · decide

theorem drawsSr_iff (s : State) (md : BitVec 2) : drawsSr s md = true ↔ modeOf s md = .sr := by
  rw [drawsSr, modMode_rmode, beq_iff_eq]

/-- The draws of a word that rounds, where it rounds with SR. -/
theorem draws_eq (s : State) (md : BitVec 2) (n : Nat) : (if drawsSr s md then n else 0) = if modeOf s md = .sr then n else 0 :=
  if_congr (drawsSr_iff s md) rfl rfl

end

/-! ### Sources without poison (R150) -/

theorem pois_ops3 {s : State} {a b d : Reg} (h : VClear s [a, b, d]) (p : Dep) : (s.ops3 a b d).pois p = false := by
  obtain ⟨source, j⟩ := p
  match source with
  | 0 => simp [VOps.pois, VOps.get, State.ops3, State.ops2, h a (by simp)]
  | 1 => simp [VOps.pois, VOps.get, State.ops3, State.ops2, h b (by simp)]
  | 2 => simp [VOps.pois, VOps.get, State.ops3, State.ops2]
  | k + 3 => simp [VOps.pois, VOps.get, State.ops3, h d (by simp)]

/-- A word with two sources computes floating point on a floating-point type. -/
theorem lanes2_fp {t : VTy} (ht : t.isFp = true) (o : VSrc) (int : Int → Int → Nat × Fl) (fp : Nat → Nat → Nat → Nat × Fl) :
    lanes2 t o int fp = byElem (VTy.ew t) (fun q => fp q (elem (VTy.ew t) o.a q) (elem (VTy.ew t) o.b q)) (depsOf (VTy.ew t) [0, 1]) := by
  simp only [lanes2, ht, ↓reduceIte]

end Sys2Proof.Proofs
end

section
/-! PROOFS. Exact arithmetic on operands in flush and in graded mode, rounded once: sums, products, products with a sum, and the dot
products of bf16 (R128, R139 to R142, R156, R164). -/

namespace Sys2Proof.Proofs

open Sys2Proof Sys2Proof.Machine Sys2Proof.Claims

/-! ### The formats (R128) -/

/-- What the arithmetic needs of a format: exponents, a range of values that the search for a leading bit covers, normal numbers. -/
structure Standard (f : Fmt) : Prop where
  exponents : f.ew ≠ 0
  low : -160 ≤ unitExp f
  high : unitExp f + 2 ^ f.ew + f.mw ≤ 160
  normal : 2 ^ f.mw ≤ f.maxCode

theorem standard_fp32 : Standard fp32 := ⟨by decide, by decide, by decide, by decide⟩
theorem standard_fp16 : Standard fp16 := ⟨by decide, by decide, by decide, by decide⟩
theorem standard_bf16 : Standard bf16 := ⟨by decide, by decide, by decide, by decide⟩
theorem standard_e5m2 : Standard e5m2 := ⟨by decide, by decide, by decide, by decide⟩
theorem standard_e4m3 : Standard e4m3 := ⟨by decide, by decide, by decide, by decide⟩
theorem standard_e3m2 : Standard e3m2 := ⟨by decide, by decide, by decide, by decide⟩
theorem standard_e2m3 : Standard e2m3 := ⟨by decide, by decide, by decide, by decide⟩
theorem standard_e2m1 : Standard e2m1 := ⟨by decide, by decide, by decide, by decide⟩

theorem standard_fmt (ty : VTy) : Standard (VTy.fmt ty) := by
  cases ty with
  | bf16x2 => exact standard_bf16
  | f16x2 => exact standard_fp16
  | _ => exact standard_fp32

/-- The codes of a floating-point type fill its elements. -/
theorem width_fmt {ty : VTy} (h : ty.isFp = true) : (VTy.fmt ty).width = VTy.ew ty := by
  cases ty with
  | f32 | bf16x2 | f16x2 => rfl
  | _ => nomatch h

/-! ### Codes of results -/

theorem nanCode_lt (f : Fmt) : f.nanCode < 2 ^ f.width := by
  have hw : 2 ^ f.width = 2 ^ (f.ew + f.mw) + 2 ^ (f.ew + f.mw) := by
    rw [Fmt.width, Nat.add_assoc, Nat.add_comm, pow_succ, Nat.mul_two]
  have hpos : 0 < 2 ^ (f.ew + f.mw) := by positivity
  have hquiet : 2 ^ (f.mw - 1) ≤ 2 ^ (f.ew + f.mw) := Nat.pow_le_pow_right (by norm_num) (by omega)
  have hinf := infCode_lt f
  cases hsp : f.sp <;> simp only [Fmt.nanCode, hsp] <;> omega

theorem result_lt (f : Fmt) (mode : RMode) (r : Nat) (g : Bool) (v : FVal) : (f.result mode r g v).1 < 2 ^ f.width := by
  cases v with
  | nan sig =>
    cases hsp : f.sp <;> simp only [Fmt.result, hsp]
    case none => positivity
    all_goals exact nanCode_lt f
  | inf neg =>
    cases hsp : f.sp <;> simp only [Fmt.result, hsp]
    case ieee => exact zero_add_lt f neg _ (infCode_lt f)
    all_goals exact zero_add_lt f neg _ (maxCode_lt f)
  | fin neg m e => exact round_lt f mode r g neg m e

/-! ### Values within a range -/

/-- A finite value is a whole number, of fewer than `w` bits, of units 2^q. -/
def InUnits (q : ℤ) (w : ℕ) (v : FVal) : Prop := ∀ neg m e, v = .fin neg m e → q ≤ e ∧ m * 2 ^ (e - q).toNat < 2 ^ w

section
variable {q p : ℤ} {w v : ℕ} {a b : FVal}

theorem inUnits_fin {neg : Bool} {m : Nat} {e : ℤ} : InUnits q w (.fin neg m e) ↔ q ≤ e ∧ m * 2 ^ (e - q).toNat < 2 ^ w :=
  ⟨fun h => h _ _ _ rfl, fun h _ _ _ heq => by obtain ⟨-, rfl, rfl⟩ := FVal.fin.inj heq; exact h⟩

theorem InUnits.inReach (h : InUnits q w a) (hw : w ≤ 2 ^ 14) : InReach a := fun neg m e heq => by
  obtain ⟨-, hlt⟩ := h neg m e heq
  calc m ≤ m * 2 ^ (e - q).toNat := Nat.le_mul_of_pos_right m (by positivity)
    _ < 2 ^ w := hlt
    _ ≤ 2 ^ 2 ^ 14 := Nat.pow_le_pow_right (by norm_num) hw

theorem mul_two_pow_lt {m k d n : ℕ} (hm : m < 2 ^ k) (h : k + d ≤ n) : m * 2 ^ d < 2 ^ n :=
  calc m * 2 ^ d < 2 ^ k * 2 ^ d := Nat.mul_lt_mul_of_pos_right hm (by positivity)
    _ = 2 ^ (k + d) := (pow_add ..).symm
    _ ≤ 2 ^ n := Nat.pow_le_pow_right (by norm_num) h

theorem InUnits.mono (h : InUnits q w a) (hw : w ≤ v) : InUnits q v a := fun neg m e heq => by
  obtain ⟨hq, hlt⟩ := h neg m e heq
  exact ⟨hq, hlt.trans_le (Nat.pow_le_pow_right (by norm_num) hw)⟩

/-- In smaller units there are more of them. -/
theorem InUnits.finer (h : InUnits q w a) (d : ℕ) (hp : q = p + d) : InUnits p (w + d) a := fun neg m e heq => by
  obtain ⟨hq, hlt⟩ := h neg m e heq
  have hsplit : (e - p).toNat = (e - q).toNat + d := by omega
  refine ⟨by omega, ?_⟩
  rw [hsplit, pow_add 2 (e - q).toNat, ← Nat.mul_assoc]
  exact mul_two_pow_lt hlt le_rfl

theorem InUnits.neg (h : InUnits q w a) : InUnits q w a.neg := by
  cases a with
  | nan | inf => nofun
  | fin n m e => exact inUnits_fin.mpr (inUnits_fin.mp h)

theorem InUnits.mul (ha : InUnits q w a) (hb : InUnits p v b) : InUnits (q + p) (w + v) (FVal.mul a b).1 := by
  cases a with
  | nan => cases b <;> nofun
  | inf n =>
    cases b with
    | nan => nofun
    | inf => nofun
    | fin => rw [FVal.mul]; split <;> nofun
  | fin n m e =>
    cases b with
    | nan => nofun
    | inf => rw [FVal.mul]; split <;> nofun
    | fin n' m' e' =>
      obtain ⟨hq, hm⟩ := inUnits_fin.mp ha
      obtain ⟨hp, hm'⟩ := inUnits_fin.mp hb
      have hsplit : (e + e' - (q + p)).toNat = (e - q).toNat + (e' - p).toNat := by omega
      refine inUnits_fin.mpr ⟨by omega, ?_⟩
      rw [hsplit, pow_add, pow_add, Nat.mul_mul_mul_comm]
      exact Nat.mul_lt_mul'' hm hm'

theorem InUnits.add (hq : q ≤ 0) (rd : Bool) (ha : InUnits q w a) (hb : InUnits q w b) : InUnits q (w + 1) (FVal.add rd a b).1 := by
  cases a with
  | nan => cases b <;> nofun
  | inf n =>
    cases b with
    | nan => nofun
    | inf => rw [FVal.add]; split <;> nofun
    | fin => nofun
  | fin n m e =>
    cases b with
    | nan => nofun
    | inf => nofun
    | fin n' m' e' =>
      obtain ⟨he, hm⟩ := inUnits_fin.mp ha
      obtain ⟨he', hm'⟩ := inUnits_fin.mp hb
      simp only [FVal.add]
      split
      · exact inUnits_fin.mpr ⟨hq, by simp⟩
      · refine inUnits_fin.mpr ⟨le_min he he', ?_⟩
        have hunit {k : ℕ} {g : ℤ} (hg : min e e' ≤ g) : k * 2 ^ (g - min e e').toNat * 2 ^ (min e e' - q).toNat =
            k * 2 ^ (g - q).toNat := by
          rw [Nat.mul_assoc, ← pow_add]
          congr 2
          omega
        have habs := Int.natAbs_add_le (signed n (m * 2 ^ (e - min e e').toNat)) (signed n' (m' * 2 ^ (e' - min e e').toNat))
        rw [natAbs_signed, natAbs_signed] at habs
        calc _ ≤ (m * 2 ^ (e - min e e').toNat + m' * 2 ^ (e' - min e e').toNat) * 2 ^ (min e e' - q).toNat :=
              Nat.mul_le_mul_right _ habs
          _ = m * 2 ^ (e - q).toNat + m' * 2 ^ (e' - q).toNat := by
              rw [Nat.add_mul, hunit (min_le_left ..), hunit (min_le_right ..)]
          _ < 2 ^ (w + 1) := by rw [pow_succ]; omega

end

/-- Every operand of a format is a whole number of units of the smallest format. -/
theorem inUnits_input {f : Fmt} (hf : Standard f) (g : Bool) (x : Nat) : InUnits (-160) 321 (f.input g x).1 := by
  have hvalue : InUnits (-160) 321 (f.value x) := fun neg m e heq => by
    obtain ⟨hm, hlow, hhigh⟩ := value_bounds f x neg m e heq
    have hl := hf.low
    have hh := hf.high
    have hbits : f.mw + 1 + (e - -160).toNat ≤ 321 := by push_cast at hhigh; omega
    exact ⟨by omega, mul_two_pow_lt hm hbits⟩
  rw [Fmt.input]
  split
  · exact inUnits_fin.mpr ⟨by decide, by rw [Nat.zero_mul]; positivity⟩
  · exact hvalue

/-! ### Products and negations (R141, R156) -/

theorem operandOf_neg (v : FVal) : operandOf v.neg = (operandOf v).minus := by
  cases v with
  | nan | inf => rfl
  | fin neg m e => cases neg <;> simp [operandOf, FVal.neg, Operand.minus, signedNum]

/-- A value that an operation may negate. -/
theorem operandOf_negIf (c : Bool) (v : FVal) :
    operandOf (if c then v.neg else v) = if c then (operandOf v).minus else operandOf v := by
  cases c
  · rfl
  · exact operandOf_neg v

theorem InUnits.negIf {q : ℤ} {w : ℕ} {v : FVal} (c : Bool) (h : InUnits q w v) : InUnits q w (if c then v.neg else v) := by
  cases c
  · exact h
  · exact h.neg

theorem signedNum_mul (n n' : Bool) (m m' : Nat) (e e' : ℤ) :
    signedNum n m e * signedNum n' m' e' = signedNum (n != n') (m * m') (e + e') := by
  have hexp : (2 : ℚ) ^ (e + e') = 2 ^ e * 2 ^ e' := zpow_add₀ two_ne_zero ..
  cases n <;> cases n' <;> simp [signedNum, hexp] <;> ring

/-- The exact product of the model is that of R141, and so is its IV. -/
theorem operandOf_mul (a b : FVal) :
    operandOf (FVal.mul a b).1 = ((operandOf a).times (operandOf b)).1 ∧
    (FVal.mul a b).2 = ivFl ((operandOf a).times (operandOf b)).2 := by
  cases a with
  | nan => cases b <;> exact ⟨rfl, rfl⟩
  | inf n =>
    cases b with
    | nan | inf => exact ⟨rfl, rfl⟩
    | fin n' m' e' => by_cases h : m' = 0 <;> simp [FVal.mul, Operand.times, operandOf, signedNum_eq_zero, h, ivFl]
  | fin n m e =>
    cases b with
    | nan => exact ⟨rfl, rfl⟩
    | inf => by_cases h : m = 0 <;> simp [FVal.mul, Operand.times, operandOf, signedNum_eq_zero, h, ivFl]
    | fin n' m' e' => simp [FVal.mul, Operand.times, operandOf, signedNum_mul, ivFl]

/-! ### One rounding of an exact result (R139 to R142, R156) -/

section
variable {f : Fmt} {c : RCtx} {r x y z : Nat} {o p u : Operand}

/-- `vadd` and `vsub`, element by element. -/
theorem addOp_rounds (hf : Standard f) (hr : r < 65536) (sub : Bool) (hx : Reads f c.graded x o) (hy : Reads f c.graded y p) :
    let t := Operand.plus (c.mode == .rd) o (if sub then p.minus else p)
    ∃ k, Gives f c.mode r c.graded t.1 (f.addOp c r sub x y).1 k ∧
      (f.addOp c r sub x y).2 = flushFl f c.graded x ||| flushFl f c.graded y ||| ivFl t.2 ||| k := by
  intro t
  have ho := operandOf_input f c.graded x o hf.exponents hx
  have hp := operandOf_input f c.graded y p hf.exponents hy
  obtain ⟨hsum, hiv⟩ := operandOf_add (c.mode == .rd) (f.input c.graded x).1
    (if sub then (f.input c.graded y).1.neg else (f.input c.graded y).1)
  rw [operandOf_negIf, ho, hp] at hsum hiv
  have hreach := InUnits.add (by decide) (c.mode == .rd) (inUnits_input hf c.graded x) ((inUnits_input hf c.graded y).negIf sub)
  have hres := result_gives f c.mode r hr c.graded _ (hreach.inReach (by decide)) hf.normal
  rw [hsum] at hres
  refine ⟨_, hres, ?_⟩
  rw [← hiv, ← input_flags, ← input_flags]
  rfl

/-- `vmul`, element by element. -/
theorem mulOp_rounds (hf : Standard f) (hr : r < 65536) (hx : Reads f c.graded x o) (hy : Reads f c.graded y p) :
    ∃ k, Gives f c.mode r c.graded (o.times p).1 (f.mulOp c r x y).1 k ∧
      (f.mulOp c r x y).2 = flushFl f c.graded x ||| flushFl f c.graded y ||| ivFl (o.times p).2 ||| k := by
  have ho := operandOf_input f c.graded x o hf.exponents hx
  have hp := operandOf_input f c.graded y p hf.exponents hy
  obtain ⟨hprod, hiv⟩ := operandOf_mul (f.input c.graded x).1 (f.input c.graded y).1
  rw [ho, hp] at hprod hiv
  have hreach := (inUnits_input hf c.graded x).mul (inUnits_input hf c.graded y)
  have hres := result_gives f c.mode r hr c.graded _ (hreach.inReach (by decide)) hf.normal
  rw [hprod] at hres
  refine ⟨_, hres, ?_⟩
  rw [← hiv, ← input_flags, ← input_flags]
  rfl

/-- `vfma`, `vfms` and `vfnma`, element by element. -/
theorem fmaOp_rounds (hf : Standard f) (hr : r < 65536) (negP negD : Bool) (hx : Reads f c.graded x o) (hy : Reads f c.graded y p)
    (hz : Reads f c.graded z u) :
    let m := o.times p
    let t := Operand.plus (c.mode == .rd) (if negP then m.1.minus else m.1) (if negD then u.minus else u)
    ∃ k, Gives f c.mode r c.graded t.1 (f.fmaOp c r negP negD x y z).1 k ∧
      (f.fmaOp c r negP negD x y z).2 =
        flushFl f c.graded x ||| flushFl f c.graded y ||| flushFl f c.graded z ||| ivFl m.2 ||| ivFl t.2 ||| k := by
  intro m t
  have ho := operandOf_input f c.graded x o hf.exponents hx
  have hp := operandOf_input f c.graded y p hf.exponents hy
  have hu := operandOf_input f c.graded z u hf.exponents hz
  obtain ⟨hprod, hivp⟩ := operandOf_mul (f.input c.graded x).1 (f.input c.graded y).1
  rw [ho, hp] at hprod hivp
  have hfactors := (inUnits_input hf c.graded x).mul (inUnits_input hf c.graded y)
  have haddend := (inUnits_input hf c.graded z).finer (p := -160 + -160) 160 (by decide) |>.mono (v := 321 + 321) (by decide)
  obtain ⟨hsum, hivs⟩ := operandOf_add (c.mode == .rd)
    (if negP then (FVal.mul (f.input c.graded x).1 (f.input c.graded y).1).1.neg
      else (FVal.mul (f.input c.graded x).1 (f.input c.graded y).1).1)
    (if negD then (f.input c.graded z).1.neg else (f.input c.graded z).1)
  rw [operandOf_negIf, operandOf_negIf, hprod, hu] at hsum hivs
  have hreach := InUnits.add (by decide) (c.mode == .rd) (hfactors.negIf negP) (haddend.negIf negD)
  have hres := result_gives f c.mode r hr c.graded _ (hreach.inReach (by decide)) hf.normal
  rw [hsum] at hres
  refine ⟨_, hres, ?_⟩
  rw [← hivs, ← hivp, ← input_flags, ← input_flags, ← input_flags]
  rfl

end

end Sys2Proof.Proofs
end

section
/-! PROOFS. Vector sums, products, fused products and the dot product of bf16, element by element (R153, R154, R156, R164). -/

namespace Sys2Proof.Proofs

open Sys2Proof Sys2Proof.Machine Sys2Proof.Claims

/-! ### Sums and products (R156) -/

section
variable {s : State} {d a b : Reg} {ty : VTy} {sp : Bool} {md : BitVec 2}

/-- A word with MOD on a floating-point type takes 4 cycles and draws where it rounds with SR. -/
theorem arithDo_fp (h : ty.isFp = true) (o : VOps) (l : List LaneOut) :
    arithDo s ty sp md d o l = some ⟨sp, 4, if modeOf s md = .sr then 1 else 0, d, o, l⟩ := by
  simp only [arithDo, h, Bool.true_and, ↓reduceIte, draws_eq]

/-- The code of a result fits its element. -/
theorem result_lt_element (h : ty.isFp = true) (mode : RMode) (r : Nat) (g : Bool) (v : FVal) :
    ((VTy.fmt ty).result mode r g v).1 < 2 ^ VTy.ew ty :=
  width_fmt h ▸ result_lt ..

/-- A word with two sources and MOD does what its operation does to every two elements. -/
theorem fpTwo_arith {i : Instr} {l : List LaneOut} (fp : Nat → Nat → Nat → Nat × Fl) {op : Operand → Operand → Operand × Bool}
    (hword : vectorWord s i = arithDo s ty sp md d (s.ops2 a b) l)
    (hl : l = byElem (VTy.ew ty) (fun q => fp q (elem (VTy.ew ty) (s.ops2 a b).src.a q) (elem (VTy.ew ty) (s.ops2 a b).src.b q))
      (depsOf (VTy.ew ty) [0, 1]))
    (h : ty.isFp = true) (hc : VClear s [a, b]) (hr : Ready i s) (hlt : ∀ q x y, (fp q x y).1 < 2 ^ VTy.ew ty)
    (hop : ∀ q x y o p, Reads (VTy.fmt ty) s.me.graded x o → Reads (VTy.fmt ty) s.me.graded y p →
      ∃ k, Gives (VTy.fmt ty) (modeOf s md) (random s (modeOf s md) 0 q) s.me.graded (op o p).1 (fp q x y).1 k ∧
        (fp q x y).2 = flushFl (VTy.fmt ty) s.me.graded x ||| flushFl (VTy.fmt ty) s.me.graded y ||| ivFl (op o p).2 ||| k) :
    FpTwo i s ty md d a b op := by
  rw [arithDo_fp h, hl] at hword
  unfold FpTwo
  exact fpElements_byElem hword hr (pois_ops2 hc) (laneWidth_ew ty) fun q _ => ⟨hlt .., hop q _ _⟩

/-- The addition of a word with MOD. -/
def addElement (s : State) (ty : VTy) (md : BitVec 2) (sub : Bool) (q x y : Nat) : Nat × Fl :=
  (VTy.fmt ty).addOp ⟨modeOf s md, s.me.graded⟩ (random s (modeOf s md) 0 q) sub x y

theorem fpTwo_vadd (h : ty.isFp = true) (hc : VClear s [a, b]) (hr : Ready (.vadd d a b ty sp md) s) :
    FpTwo (.vadd d a b ty sp md) s ty md d a b (Operand.plus (modeOf s md == .rd)) :=
  fpTwo_arith (addElement s ty md false) rfl (by rw [laneAdd, lanes2_fp h]; simp only [withMod_r, withMod_rnd]; rfl) h hc hr
    (fun _ _ _ => result_lt_element h ..) fun _ _ _ _ _ hx hy =>
      addOp_rounds (c := ⟨modeOf s md, s.me.graded⟩) (standard_fmt ty) (random_lt ..) false hx hy

theorem fpTwo_vsub (h : ty.isFp = true) (hc : VClear s [a, b]) (hr : Ready (.vsub d a b ty sp md) s) :
    FpTwo (.vsub d a b ty sp md) s ty md d a b fun x y => Operand.plus (modeOf s md == .rd) x y.minus :=
  fpTwo_arith (addElement s ty md true) rfl (by rw [laneSub, lanes2_fp h]; simp only [withMod_r, withMod_rnd]; rfl) h hc hr
    (fun _ _ _ => result_lt_element h ..) fun _ _ _ _ _ hx hy =>
      addOp_rounds (c := ⟨modeOf s md, s.me.graded⟩) (standard_fmt ty) (random_lt ..) true hx hy

theorem fpTwo_vmul (h : ty.isFp = true) (hc : VClear s [a, b]) (hr : Ready (.vmul d a b ty sp md) s) :
    FpTwo (.vmul d a b ty sp md) s ty md d a b Operand.times :=
  fpTwo_arith (fun q x y => (VTy.fmt ty).mulOp ⟨modeOf s md, s.me.graded⟩ (random s (modeOf s md) 0 q) x y) rfl
    (by rw [laneMul, lanes2_fp h]; simp only [withMod_r, withMod_rnd]) h hc hr
    (fun _ _ _ => result_lt_element h ..) fun _ _ _ _ _ hx hy =>
      mulOp_rounds (c := ⟨modeOf s md, s.me.graded⟩) (standard_fmt ty) (random_lt ..) hx hy

/-! ### Fused products (R156) -/

/-- The three fused words differ in what they negate. -/
theorem fpThree_fused {i : Instr} {negP negD : Bool} {p n : Operand → Operand}
    (hword : vectorWord s i = some ⟨sp, 4, if drawsSr s md then 1 else 0, d, s.ops3 a b d,
      laneFma s.me.venv ty md negP negD (s.ops3 a b d).src⟩)
    (hp : ∀ o, (if negP then o.minus else o) = p o) (hn : ∀ o, (if negD then o.minus else o) = n o)
    (h : ty.isFp = true) (hc : VClear s [a, b, d]) (hr : Ready i s) : FpThree i s ty md d a b p n := by
  rw [draws_eq] at hword
  unfold FpThree
  refine fpElements_byElem hword hr (pois_ops3 hc) (laneWidth_ew ty) fun q _ => ⟨result_lt_element h .., fun o u w ho hu hw => ?_⟩
  have hrounds := fmaOp_rounds (c := ⟨modeOf s md, s.me.graded⟩) (standard_fmt ty) (random_lt s (modeOf s md) 0 q) negP negD ho hu hw
  simp only [hp, hn] at hrounds
  rw [withMod_r, withMod_rnd]
  exact hrounds

theorem fpThree_vfma (h : ty.isFp = true) (hc : VClear s [a, b, d]) (hr : Ready (.vfma d a b ty sp md) s) :
    FpThree (.vfma d a b ty sp md) s ty md d a b id id :=
  fpThree_fused (negP := false) (negD := false) rfl (fun _ => rfl) (fun _ => rfl) h hc hr

theorem fpThree_vfms (h : ty.isFp = true) (hc : VClear s [a, b, d]) (hr : Ready (.vfms d a b ty sp md) s) :
    FpThree (.vfms d a b ty sp md) s ty md d a b id Operand.minus :=
  fpThree_fused (negP := false) (negD := true) rfl (fun _ => rfl) (fun _ => rfl) h hc hr

theorem fpThree_vfnma (h : ty.isFp = true) (hc : VClear s [a, b, d]) (hr : Ready (.vfnma d a b ty sp md) s) :
    FpThree (.vfnma d a b ty sp md) s ty md d a b Operand.minus id :=
  fpThree_fused (negP := true) (negD := false) rfl (fun _ => rfl) (fun _ => rfl) h hc hr

end

/-! ### The dot product of bf16 (R164; DESIGN CHOICE log 55) -/

/-- One element of `vdot4` on bf16: two products of halves and the old element, added in order and rounded once. -/
def dotBf16 (c : RCtx) (r x y z : Nat) : Nat × Fl :=
  let xs := fun k => bf16.input c.graded (elem 16 x k)
  let ys := fun k => bf16.input c.graded (elem 16 y k)
  let zs := fp32.input c.graded z
  let p0 := FVal.mul (xs 0).1 (ys 0).1
  let p1 := FVal.mul (xs 1).1 (ys 1).1
  let t := FVal.add (c.mode == .rd) zs.1 p0.1
  let u := FVal.add (c.mode == .rd) t.1 p1.1
  let o := fp32.result c.mode r c.graded u.1
  (o.1, (xs 0).2 ||| (xs 1).2 ||| (ys 0).2 ||| (ys 1).2 ||| zs.2 ||| p0.2 ||| p1.2 ||| t.2 ||| u.2 ||| o.2)

/-- The lanes of `vdot4` on bf16 are these elements. -/
theorem laneDot_bf16 (e : VEnv) (md : BitVec 2) (o : VSrc) : laneDot e .bf16x2 md o =
    byElem 32 (fun j => dotBf16 (e.withMod md).r ((e.withMod md).rnd 0 j) (elem 32 o.a j) (elem 32 o.b j) (elem 32 o.d j))
      (depsOf 32 [0, 1, 3]) := rfl

/-- The three terms, exact, are rounded once to f32. -/
theorem dotBf16_rounds {c : RCtx} {r x y z : Nat} {o0 o1 p0 p1 w : Operand} (hr : r < 65536)
    (hx0 : Reads bf16 c.graded (elem 16 x 0) o0) (hx1 : Reads bf16 c.graded (elem 16 x 1) o1)
    (hy0 : Reads bf16 c.graded (elem 16 y 0) p0) (hy1 : Reads bf16 c.graded (elem 16 y 1) p1) (hz : Reads fp32 c.graded z w) :
    let m0 := o0.times p0
    let m1 := o1.times p1
    let t := Operand.plus (c.mode == .rd) w m0.1
    let u := Operand.plus (c.mode == .rd) t.1 m1.1
    ∃ k, Gives fp32 c.mode r c.graded u.1 (dotBf16 c r x y z).1 k ∧
      (dotBf16 c r x y z).2 = flushFl bf16 c.graded (elem 16 x 0) ||| flushFl bf16 c.graded (elem 16 x 1) |||
        flushFl bf16 c.graded (elem 16 y 0) ||| flushFl bf16 c.graded (elem 16 y 1) ||| flushFl fp32 c.graded z |||
        ivFl m0.2 ||| ivFl m1.2 ||| ivFl t.2 ||| ivFl u.2 ||| k := by
  intro m0 m1 t u
  have hne : bf16.ew ≠ 0 := standard_bf16.exponents
  have ho0 := operandOf_input bf16 c.graded _ o0 hne hx0
  have ho1 := operandOf_input bf16 c.graded _ o1 hne hx1
  have hp0 := operandOf_input bf16 c.graded _ p0 hne hy0
  have hp1 := operandOf_input bf16 c.graded _ p1 hne hy1
  have hw := operandOf_input fp32 c.graded _ w standard_fp32.exponents hz
  obtain ⟨hm0, hiv0⟩ := operandOf_mul (bf16.input c.graded (elem 16 x 0)).1 (bf16.input c.graded (elem 16 y 0)).1
  obtain ⟨hm1, hiv1⟩ := operandOf_mul (bf16.input c.graded (elem 16 x 1)).1 (bf16.input c.graded (elem 16 y 1)).1
  rw [ho0, hp0] at hm0 hiv0
  rw [ho1, hp1] at hm1 hiv1
  obtain ⟨ht, hivt⟩ := operandOf_add (c.mode == .rd) (fp32.input c.graded z).1
    (FVal.mul (bf16.input c.graded (elem 16 x 0)).1 (bf16.input c.graded (elem 16 y 0)).1).1
  rw [hw, hm0] at ht hivt
  obtain ⟨hu, hivu⟩ := operandOf_add (c.mode == .rd)
    (FVal.add (c.mode == .rd) (fp32.input c.graded z).1
      (FVal.mul (bf16.input c.graded (elem 16 x 0)).1 (bf16.input c.graded (elem 16 y 0)).1).1).1
    (FVal.mul (bf16.input c.graded (elem 16 x 1)).1 (bf16.input c.graded (elem 16 y 1)).1).1
  rw [ht, hm1] at hu hivu
  have hrange (k : Nat) := (inUnits_input standard_bf16 c.graded (elem 16 x k)).mul (inUnits_input standard_bf16 c.graded (elem 16 y k))
  have hrangez := (inUnits_input standard_fp32 c.graded z).finer (p := -160 + -160) 160 (by decide) |>.mono (v := 321 + 321) (by decide)
  have hranget := hrangez.add (by decide) (c.mode == .rd) (hrange 0)
  have hreach := hranget.add (by decide) (c.mode == .rd) ((hrange 1).mono (v := 321 + 321 + 1) (by decide))
  have hres := result_gives fp32 c.mode r hr c.graded _ (hreach.inReach (by decide)) standard_fp32.normal
  rw [hu] at hres
  refine ⟨_, hres, ?_⟩
  rw [← hivu, ← hivt, ← hiv0, ← hiv1, ← input_flags, ← input_flags, ← input_flags, ← input_flags, ← input_flags]
  rfl

/-- Of the floating-point types `vdot4` takes bf16 alone (R154). -/
theorem eq_bf16x2_of_dotOk {ty : VTy} {md : BitVec 2} (h : ty.isFp = true) (hdot : dotOk ty md = true) : ty = .bf16x2 := by
  cases ty with
  | bf16x2 => rfl
  | f32 | f16x2 => nomatch hdot
  | _ => nomatch h

theorem fpElements_vdot4 {s : State} {d a b : Reg} {ty : VTy} {sp : Bool} {md : BitVec 2} (h : ty.isFp = true)
    (hc : VClear s [a, b, d]) (hr : Ready (.vdot4 d a b ty sp md) s) :
    FpElements (.vdot4 d a b ty sp md) s 3 (if modeOf s md = .sr then 1 else 0) d 32 fun j c fl =>
      let g := s.me.graded
      let rd := modeOf s md == .rd
      let x := fun k => el 16 (s.me.v a).val (2 * j + k)
      let y := fun k => el 16 (s.me.v b).val (2 * j + k)
      let z := el 32 (s.me.v d).val j
      ∀ o0 o1 p0 p1 w, Reads bf16 g (x 0) o0 → Reads bf16 g (x 1) o1 → Reads bf16 g (y 0) p0 → Reads bf16 g (y 1) p1 →
        Reads fp32 g z w →
        let m0 := o0.times p0
        let m1 := o1.times p1
        let t := Operand.plus rd w m0.1
        let u := Operand.plus rd t.1 m1.1
        ∃ k, Gives fp32 (modeOf s md) (random s (modeOf s md) 0 j) g u.1 c k ∧
          fl = flushFl bf16 g (x 0) ||| flushFl bf16 g (x 1) ||| flushFl bf16 g (y 0) ||| flushFl bf16 g (y 1) |||
            flushFl fp32 g z ||| ivFl m0.2 ||| ivFl m1.2 ||| ivFl t.2 ||| ivFl u.2 ||| k := by
  obtain rfl := eq_bf16x2_of_dotOk h (wf_of_legal hr.1)
  have hword : vectorWord s (.vdot4 d a b .bf16x2 sp md) = some ⟨sp, 3, if drawsSr s md then 1 else 0, d, s.ops3 a b d,
    laneDot s.me.venv .bf16x2 md (s.ops3 a b d).src⟩ := rfl
  rw [laneDot_bf16, draws_eq, withMod_r] at hword
  refine fpElements_byElem hword hr (pois_ops3 hc) (.inl (by decide)) fun j _ => ⟨result_lt .., ?_⟩
  intro g rd x y z o0 o1 p0 p1 w hx0 hx1 hy0 hy1 hz
  have hhalf (v : VWord) (k : Nat) (hk : k < 2) : elem 16 (elem 32 v.toNat j) k = el 16 v (2 * j + k) := elem_elem (w := 16) v.toNat j hk
  simp only [x, y, ← hhalf _ 0 two_pos, ← hhalf _ 1 one_lt_two] at hx0 hx1 hy0 hy1 ⊢
  rw [withMod_rnd]
  exact dotBf16_rounds (c := ⟨modeOf s md, s.me.graded⟩) (random_lt ..) hx0 hx1 hy0 hy1 hz

end Sys2Proof.Proofs
end

section
/-! PROOFS. Minimum, maximum, sign and compare on floating point go by the numbers that codes stand for (R142, R157, R159). -/

namespace Sys2Proof.Proofs

open Sys2Proof Sys2Proof.Machine Sys2Proof.Claims

/-! ### Operands as an operation meets them (R128, R142) -/

theorem isNan_operandOf (v : FVal) : v.isNan = (operandOf v).isNan := by cases v <;> rfl

theorem isSig_operandOf (v : FVal) : v.isSig = (operandOf v).signals := by cases v <;> rfl

theorem signals_of_isNan_false {o : Operand} (h : o.isNan = false) : o.signals = false := by
  cases o with
  | nan => nomatch h
  | inf | num => rfl

section
variable {f : Fmt} {g : Bool} {x y : Nat} {o p : Operand}

theorem flushed_eq (f : Fmt) (g : Bool) (x : Nat) : f.flushed g x = if flushFl f g x = 0 then x else f.zero (minus f x) := by
  have hsub : (!g && f.isSub x) = true ↔ g = false ∧ expo f x = 0 ∧ frac f x ≠ 0 := by simp [Fmt.isSub, expo, frac]
  rw [Fmt.flushed, flushFl]
  by_cases h : g = false ∧ expo f x = 0 ∧ frac f x ≠ 0
  · rw [if_pos (hsub.mpr h), if_pos h]
    rfl
  · rw [if_neg (mt hsub.mp h), if_neg h]
    rfl

theorem flushed_of_not (h : g = true ∨ ¬ subnormal f x) : f.flushed g x = x := by
  have hnone : flushFl f g x = 0 := if_neg fun ⟨hg, hsub⟩ => by
    rcases h with rfl | h
    · nomatch hg
    · exact h hsub
  rw [flushed_eq, if_pos hnone]

theorem flushed_of_subnormal (hg : g = false) (h : subnormal f x) : f.flushed g x = f.zero (minus f x) := by
  have hflush : flushFl f g x = flFLUSH := if_pos ⟨hg, h⟩
  rw [flushed_eq, hflush]
  rfl

theorem flushed_lt (hx : x < 2 ^ f.width) : f.flushed g x < 2 ^ f.width := by
  rw [flushed_eq]
  split
  · exact hx
  · exact zero_add_lt f _ 0 (by positivity)

/-- A zero code is the number 0 with its sign. -/
theorem reads_zero (hf : Standard f) (n : Bool) : Reads f true (f.zero n) (.num 0 n) := by
  have hpos : 0 < 2 ^ (f.ew + f.mw) := by positivity
  have hminus : minus f (f.zero n) = n := minus_zero_add f n 0 hpos
  have hnumber : numberOf f (f.zero n) = 0 := by
    have hmod : f.zero n % 2 ^ (f.ew + f.mw) = 0 := zero_add_mod f n 0 hpos
    rw [numberOf_eq, hmod]
    simp [magnitude]
  have hreads : Reads f true (f.zero n) (.num (numberOf f (f.zero n)) (minus f (f.zero n))) :=
    .number (not_reservedCode f n 0 hf.normal (Nat.zero_le _)) (.inl rfl)
  rwa [hminus, hnumber] at hreads

/-- The flushed code of an operand stands for it. -/
theorem reads_flushed (hf : Standard f) (h : Reads f g x o) : Reads f true (f.flushed g x) o := by
  cases h with
  | flushed hg hsub =>
    rw [flushed_of_subnormal hg hsub]
    exact reads_zero hf _
  | number hr hsub =>
    rw [flushed_of_not hsub]
    exact .number hr (.inl rfl)
  | infinity hsp he hfr =>
    rw [flushed_of_not (.inr fun hsub => hsub.2 hfr)]
    exact .infinity hsp he hfr
  | nan hr hfr =>
    rw [flushed_of_not (.inr (not_subnormal_of_reserved f x hf.exponents hr))]
    exact .nan hr hfr

theorem isNan_input (hf : Standard f) (h : Reads f g x o) : (f.input g x).1.isNan = o.isNan := by
  rw [isNan_operandOf, operandOf_input f g x o hf.exponents h]

theorem isSig_input (hf : Standard f) (h : Reads f g x o) : (f.input g x).1.isSig = o.signals := by
  rw [isSig_operandOf, operandOf_input f g x o hf.exponents h]

/-! ### The order of codes (R128, R157) -/

/-- The order of two codes by their numbers, −0 below +0; an infinity's code has the number that follows the largest. -/
def NumberLe (f : Fmt) (x y : Nat) : Prop :=
  numberOf f x < numberOf f y ∨ (numberOf f x = numberOf f y ∧ (minus f x = true ∨ minus f y = false))

theorem mod_lt_infCode (hsp : f.sp = .ieee) (h : ¬ reservedCode f x) : x % 2 ^ (f.ew + f.mw) < f.infCode := by
  have hmod : x % 2 ^ (f.ew + f.mw) < 2 ^ f.ew * 2 ^ f.mw := by rw [← pow_add]; exact Nat.mod_lt _ (by positivity)
  have hexpo : expo f x < 2 ^ f.ew := Nat.mod_lt _ (by positivity)
  have hne : expo f x ≠ 2 ^ f.ew - 1 := fun he => h (.inl ⟨hsp, he⟩)
  rw [Fmt.infCode, ← Nat.div_lt_iff_lt_mul (by positivity), ← expo_eq_div]
  omega

theorem mod_eq_infCode (he : expo f x = 2 ^ f.ew - 1) (hfr : frac f x = 0) : x % 2 ^ (f.ew + f.mw) = f.infCode := by
  rw [← Nat.div_add_mod' (x % 2 ^ (f.ew + f.mw)) (2 ^ f.mw), ← expo_eq_div, ← frac_eq_mod, he, hfr]
  rfl

/-- A number lies strictly between the numbers of the infinities' codes. -/
theorem abs_numberOf_lt (hsp : f.sp = .ieee) (h : ¬ reservedCode f x) : |numberOf f x| < magnitude f f.infCode := by
  rw [abs_numberOf]
  exact magnitude_strictMono f (mod_lt_infCode hsp h)

theorem numberOf_infinity (he : expo f x = 2 ^ f.ew - 1) (hfr : frac f x = 0) :
    numberOf f x = (if minus f x then -1 else 1) * magnitude f f.infCode := by
  rw [numberOf_eq, mod_eq_infCode he hfr]

/-- The order of operands is that of their codes. -/
theorem le_iff_numberLe (hf : Standard f) (hx : Reads f true x o) (hy : Reads f true y p) (ho : o.isNan = false)
    (hp : p.isNan = false) : o.le p ↔ NumberLe f x y := by
  cases hx with
  | flushed hg => nomatch hg
  | nan => nomatch ho
  | number hrx =>
    cases hy with
    | flushed hg => nomatch hg
    | nan => nomatch hp
    | number => exact Iff.rfl
    | infinity hsp he hfr =>
      have hlt := abs_lt.mp (abs_numberOf_lt hsp hrx)
      rw [NumberLe, numberOf_infinity he hfr]
      cases minus f y with
      | false => simpa [Operand.le] using .inl hlt.2
      | true => simpa [Operand.le] using ⟨hlt.1.le, fun h => absurd h hlt.1.ne'⟩
  | infinity hsp he hfr =>
    have hpos : 0 < magnitude f f.infCode := by
      have hzero : (0 : ℚ) = magnitude f 0 := by simp [magnitude]
      have hinf : 0 < f.infCode := Nat.mul_pos (Nat.sub_pos_of_lt (Nat.one_lt_two_pow hf.exponents)) (by positivity)
      rw [hzero]
      exact magnitude_strictMono f hinf
    rw [NumberLe, numberOf_infinity he hfr]
    cases hy with
    | flushed hg => nomatch hg
    | nan => nomatch hp
    | number hry =>
      have hlt := abs_lt.mp (abs_numberOf_lt hsp hry)
      cases minus f x with
      | false => simpa [Operand.le] using ⟨hlt.2.le, fun h => absurd h hlt.2.ne'⟩
      | true => simpa [Operand.le] using .inl hlt.1
    | infinity _ hey hfry =>
      have hneg : -magnitude f f.infCode < magnitude f f.infCode := by linarith
      rw [numberOf_infinity hey hfry]
      cases minus f x <;> cases minus f y <;> simp [Operand.le, hneg, hneg.not_gt, hneg.ne']

theorem key_eq (hx : x < 2 ^ f.width) : f.key x =
    if minus f x then -((x % 2 ^ (f.ew + f.mw) : ℕ) : ℤ) - 1 else ((x % 2 ^ (f.ew + f.mw) : ℕ) : ℤ) := by
  have hw : 2 ^ f.width = 2 * 2 ^ (f.ew + f.mw) := by rw [Fmt.width, Nat.add_assoc, Nat.add_comm, pow_succ']
  have hsign : x / 2 ^ (f.ew + f.mw) % 2 = 1 ↔ minus f x = true := by simp [minus]
  rw [Fmt.key]
  refine if_ctx_congr hsign (fun _ => rfl) fun h => ?_
  have hdiv : x / 2 ^ (f.ew + f.mw) < 2 := Nat.div_lt_of_lt_mul (by rwa [Nat.mul_comm, ← hw])
  have hzero : x / 2 ^ (f.ew + f.mw) = 0 := (Nat.mod_eq_of_lt hdiv).symm.trans (Nat.mod_two_ne_one.mp (mt hsign.mp h))
  rw [Nat.mod_eq_of_lt ((Nat.div_eq_zero_iff_lt (by positivity)).mp hzero)]

/-- The keys that the model compares are in the order of the codes. -/
theorem key_le_iff (hx : x < 2 ^ f.width) (hy : y < 2 ^ f.width) : f.key x ≤ f.key y ↔ NumberLe f x y := by
  have hmono {c e : ℕ} : magnitude f c ≤ magnitude f e ↔ c ≤ e := (magnitude_strictMono f).le_iff_le
  have hnx := magnitude_nonneg f (x % 2 ^ (f.ew + f.mw))
  have hny := magnitude_nonneg f (y % 2 ^ (f.ew + f.mw))
  rw [key_eq hx, key_eq hy, NumberLe, numberOf_eq, numberOf_eq]
  generalize x % 2 ^ (f.ew + f.mw) = c at *
  generalize y % 2 ^ (f.ew + f.mw) = e at *
  cases minus f x <;> cases minus f y
  case false.false =>
    simp only [Bool.false_eq_true, ↓reduceIte, one_mul, Nat.cast_le, or_true, and_true, ← le_iff_lt_or_eq, hmono]
  case true.true =>
    simp only [↓reduceIte, neg_one_mul, true_or, and_true, ← le_iff_lt_or_eq, neg_le_neg_iff, sub_le_sub_iff_right, Nat.cast_le, hmono]
  case false.true =>
    simp only [Bool.false_eq_true, ↓reduceIte, one_mul, neg_mul, reduceCtorEq, or_self, and_false, or_false]
    exact iff_of_false (by omega) (by linarith)
  case true.false =>
    simp only [Bool.false_eq_true, ↓reduceIte, one_mul, neg_mul, or_self, and_true]
    exact iff_of_true (by omega) (lt_or_eq_of_le (by linarith))

theorem le_iff_key_le (hf : Standard f) (hx : Reads f true x o) (hy : Reads f true y p) (ho : o.isNan = false) (hp : p.isNan = false)
    (hltx : x < 2 ^ f.width) (hlty : y < 2 ^ f.width) : o.le p ↔ f.key x ≤ f.key y := by
  rw [le_iff_numberLe hf hx hy ho hp, key_le_iff hltx hlty]

/-! ### Minimum and maximum (R157) -/

theorem minmax_of_nan (mx : Bool) (h : ((f.input g x).1.isNan || (f.input g y).1.isNan) = true) : (f.minmax g mx x y).1 = f.nanCode := by
  rw [Fmt.minmax, if_pos h]

theorem minmax_of_numbers (mx : Bool) (h : ((f.input g x).1.isNan || (f.input g y).1.isNan) = false) : (f.minmax g mx x y).1 =
    if decide (f.key (f.flushed g x) ≤ f.key (f.flushed g y)) != mx then f.flushed g x else f.flushed g y := by
  rw [Fmt.minmax, if_neg (by simp [h])]

theorem minmax_lt (mx : Bool) (hx : x < 2 ^ f.width) (hy : y < 2 ^ f.width) : (f.minmax g mx x y).1 < 2 ^ f.width := by
  cases h : (f.input g x).1.isNan || (f.input g y).1.isNan with
  | true => exact minmax_of_nan mx h ▸ nanCode_lt f
  | false =>
    rw [minmax_of_numbers mx h]
    split
    · exact flushed_lt hx
    · exact flushed_lt hy

theorem minmax_flags (hf : Standard f) (mx : Bool) (hx : Reads f g x o) (hy : Reads f g y p) :
    (f.minmax g mx x y).2 = flushFl f g x ||| flushFl f g y ||| ivFl (o.signals || p.signals) := by
  simp only [Fmt.minmax, isNan_input hf hx, isNan_input hf hy, isSig_input hf hx, isSig_input hf hy, input_flags]
  split
  case isTrue => rfl
  case isFalse h =>
    obtain ⟨ho, hp⟩ := Bool.or_eq_false_iff.mp (Bool.not_eq_true _ ▸ h)
    rw [signals_of_isNan_false ho, signals_of_isNan_false hp]
    simp [ivFl]

/-- Of two numbers the smaller is written, or the larger. -/
theorem minmax_selects (hf : Standard f) (mx : Bool) (hx : Reads f g x o) (hy : Reads f g y p) (hltx : x < 2 ^ f.width)
    (hlty : y < 2 ^ f.width) (ho : o.isNan = false) (hp : p.isNan = false) : ∃ w, Reads f true (f.minmax g mx x y).1 w ∧
      (w = o ∨ w = p) ∧ (mx = false → w.le o ∧ w.le p) ∧ (mx = true → o.le w ∧ p.le w) := by
  have hfx := reads_flushed hf hx
  have hfy := reads_flushed hf hy
  have hoo := le_iff_key_le hf hfx hfx ho ho (flushed_lt hltx) (flushed_lt hltx) |>.mpr le_rfl
  have hpp := le_iff_key_le hf hfy hfy hp hp (flushed_lt hlty) (flushed_lt hlty) |>.mpr le_rfl
  have hop := le_iff_key_le hf hfx hfy ho hp (flushed_lt hltx) (flushed_lt hlty)
  have hpo := le_iff_key_le hf hfy hfx hp ho (flushed_lt hlty) (flushed_lt hltx)
  rw [minmax_of_numbers mx (by rw [isNan_input hf hx, isNan_input hf hy, ho, hp]; rfl)]
  by_cases hle : f.key (f.flushed g x) ≤ f.key (f.flushed g y)
  · cases mx
    · exact ⟨o, by simpa [hle] using hfx, .inl rfl, fun _ => ⟨hoo, hop.mpr hle⟩, nofun⟩
    · exact ⟨p, by simpa [hle] using hfy, .inr rfl, nofun, fun _ => ⟨hop.mpr hle, hpp⟩⟩
  · have hge := hpo.mpr (not_le.mp hle).le
    cases mx
    · exact ⟨p, by simpa [hle] using hfy, .inr rfl, fun _ => ⟨hge, hpp⟩, nofun⟩
    · exact ⟨o, by simpa [hle] using hfx, .inl rfl, nofun, fun _ => ⟨hoo, hge⟩⟩

/-! ### Sign (R157) -/

theorem signOp_flags (hf : Standard f) (ng : Bool) (hx : Reads f g x o) :
    (f.signOp g ng x).2 = flushFl f g x ||| ivFl o.signals := by
  simp only [Fmt.signOp, isNan_input hf hx, isSig_input hf hx, input_flags]
  split
  case isTrue h =>
    have hnone : flushFl f g x = 0 := by
      cases hx with
      | nan hr => exact if_neg fun ⟨_, hsub⟩ => not_subnormal_of_reserved f x hf.exponents hr hsub
      | flushed | number | infinity => nomatch h
    rw [hnone]
    exact BitVec.zero_or.symm
  case isFalse h =>
    rw [signals_of_isNan_false (Bool.not_eq_true _ ▸ h)]
    simp [ivFl]

theorem signOp_of_nan (hf : Standard f) (ng : Bool) (hx : Reads f g x o) (ho : o.isNan = true) : (f.signOp g ng x).1 = f.nanCode := by
  rw [Fmt.signOp, if_pos (by rw [isNan_input hf hx, ho])]

theorem signOp_of_number (hf : Standard f) (ng : Bool) (hx : Reads f g x o) (ho : o.isNan = false) :
    (f.signOp g ng x).1 = f.flushed g x % 2 ^ (f.ew + f.mw) + f.zero (ng && !minus f (f.flushed g x)) := by
  rw [Fmt.signOp, if_neg (by rw [isNan_input hf hx, ho]; decide)]
  rfl

theorem minus_flushed : minus f (f.flushed g x) = minus f x := by
  rw [flushed_eq]
  split
  · rfl
  · exact minus_zero_add f _ 0 (by positivity)

/-- The sign is cleared, or turned over, and the magnitude is kept, flushed. -/
theorem signOp_parts (hf : Standard f) (ng : Bool) (hx : Reads f g x o) (ho : o.isNan = false) :
    minus f (f.signOp g ng x).1 = (ng && !minus f x) ∧
    (f.signOp g ng x).1 % 2 ^ (f.ew + f.mw) = if flushFl f g x = 0 then x % 2 ^ (f.ew + f.mw) else 0 := by
  have hlt : f.flushed g x % 2 ^ (f.ew + f.mw) < 2 ^ (f.ew + f.mw) := Nat.mod_lt _ (by positivity)
  rw [signOp_of_number hf ng hx ho, minus_flushed, Nat.add_comm, minus_zero_add f _ _ hlt, zero_add_mod f _ _ hlt, flushed_eq]
  refine ⟨rfl, ?_⟩
  split
  · rfl
  · exact zero_add_mod f _ 0 (by positivity)

theorem signOp_lt (f : Fmt) (g ng : Bool) (x : Nat) : (f.signOp g ng x).1 < 2 ^ f.width := by
  rw [Fmt.signOp]
  split
  · exact nanCode_lt f
  · exact (Nat.add_comm ..).trans_lt (zero_add_lt f _ _ (Nat.mod_lt _ (by positivity)))

end

/-! ### Compares (R159) -/

/-- The model's comparison is that of the numbers; it is none with a NaN. -/
theorem le?_iff (a b : FVal) : (FVal.le? a b).getD false = true ↔
    (operandOf a).lt (operandOf b) ∨ (operandOf a).same (operandOf b) := by
  cases a with
  | nan => cases b <;> simp [FVal.le?, operandOf, Operand.lt, Operand.same]
  | inf n =>
    cases b with
    | nan => simp [FVal.le?, operandOf, Operand.lt, Operand.same]
    | inf n' => cases n <;> cases n' <;> simp [FVal.le?, operandOf, Operand.lt, Operand.same]
    | fin => cases n <;> simp [FVal.le?, operandOf, Operand.lt, Operand.same]
  | fin n m e =>
    cases b with
    | nan => simp [FVal.le?, operandOf, Operand.lt, Operand.same]
    | inf n' => cases n' <;> simp [FVal.le?, operandOf, Operand.lt, Operand.same]
    | fin n' m' e' =>
      have hunit : (0 : ℚ) < 2 ^ min e e' := by positivity
      simp only [FVal.le?, operandOf, Operand.lt, Operand.same, Option.getD_some, decide_eq_true_eq, ← le_iff_lt_or_eq,
        signedNum_of_le n m e _ (min_le_left e e'), signedNum_of_le n' m' e' _ (min_le_right e e'), mul_le_mul_iff_left₀ hunit,
        Int.cast_le]

theorem same_iff (o p : Operand) : o.same p ↔ (o.lt p ∨ o.same p) ∧ (p.lt o ∨ p.same o) := by
  cases o with
  | nan => cases p <;> simp [Operand.lt, Operand.same]
  | inf n =>
    cases p with
    | nan => simp [Operand.lt, Operand.same]
    | inf n' => cases n <;> cases n' <;> simp [Operand.lt, Operand.same]
    | num => cases n <;> simp [Operand.lt, Operand.same]
  | num x a =>
    cases p with
    | nan => simp [Operand.lt, Operand.same]
    | inf n' => cases n' <;> simp [Operand.lt, Operand.same]
    | num y b =>
      simp only [Operand.lt, Operand.same]
      rw [← le_iff_lt_or_eq, ← le_iff_lt_or_eq, le_antisymm_iff]

theorem lt_iff (o p : Operand) : o.lt p ↔ (o.lt p ∨ o.same p) ∧ ¬ (p.lt o ∨ p.same o) := by
  cases o with
  | nan => cases p <;> simp [Operand.lt, Operand.same]
  | inf n =>
    cases p with
    | nan => simp [Operand.lt, Operand.same]
    | inf n' => cases n <;> cases n' <;> simp [Operand.lt, Operand.same]
    | num => cases n <;> simp [Operand.lt, Operand.same]
  | num x a =>
    cases p with
    | nan => simp [Operand.lt, Operand.same]
    | inf n' => cases n' <;> simp [Operand.lt, Operand.same]
    | num y b =>
      simp only [Operand.lt, Operand.same]
      rw [← le_iff_lt_or_eq, ← le_iff_lt_or_eq, lt_iff_le_not_ge]

/-- A compare holds where R159 says so, with IV as R159 says. -/
theorem cmpOp_holds {f : Fmt} {g : Bool} {x y : Nat} {o p : Operand} (hf : Standard f) (c : VCond) (hx : Reads f g x o)
    (hy : Reads f g y p) : ((f.cmpOp g c x y).1 = true ↔ o.holds c p) ∧ (f.cmpOp g c x y).2 = flushFl f g x ||| flushFl f g y |||
      ivFl (if c = .eq ∨ c = .ne then o.signals || p.signals else o.isNan || p.isNan) := by
  have hle := le?_iff (f.input g x).1 (f.input g y).1
  have hge := le?_iff (f.input g y).1 (f.input g x).1
  rw [operandOf_input f g x o hf.exponents hx, operandOf_input f g y p hf.exponents hy] at hle hge
  have hsame := same_iff o p
  have hlt := lt_iff o p
  rw [← hle, ← hge] at hsame hlt
  simp only [Fmt.cmpOp, isNan_input hf hx, isNan_input hf hy, isSig_input hf hx, isSig_input hf hy, input_flags]
  cases c with
  | eq => exact ⟨by rw [Operand.holds, hsame, Bool.and_eq_true], rfl⟩
  | ne => exact ⟨by rw [Operand.holds, hsame, Bool.not_eq_true', Bool.eq_false_iff, Ne, Bool.and_eq_true], rfl⟩
  | lt => exact ⟨by rw [Operand.holds, hlt, Bool.and_eq_true, Bool.not_eq_true', Bool.eq_false_iff], rfl⟩
  | le => exact ⟨hle, rfl⟩

end Sys2Proof.Proofs
end

section
/-! PROOFS. The words of minimum, maximum, sign and compare on floating point, and the reductions: what a tree of steps makes of the
elements (R146, R153, R157, R159, R161). -/

namespace Sys2Proof.Proofs

open Sys2Proof Sys2Proof.Machine Sys2Proof.Claims

/-! ### Minimum, maximum, sign, compare (R157, R159) -/

section
variable {s : State} {d a b : Reg} {ty : VTy} {sp : Bool} {md : BitVec 2}

/-- A word with two sources that rounds nothing does what its operation does to every two elements. -/
theorem fpElements_lanes2 {i : Instr} {l : List LaneOut} (fp : Nat → Nat → Nat × Fl) {P : Nat → Nat → Fl → Prop}
    (hword : vectorWord s i = plainDo sp 2 d (s.ops2 a b) l)
    (hl : l = byElem (VTy.ew ty) (fun q => fp (elem (VTy.ew ty) (s.ops2 a b).src.a q) (elem (VTy.ew ty) (s.ops2 a b).src.b q))
      (depsOf (VTy.ew ty) [0, 1])) (hc : VClear s [a, b]) (hr : Ready i s)
    (hP : ∀ q, let z := fp (el (VTy.ew ty) (s.me.v a).val q) (el (VTy.ew ty) (s.me.v b).val q)
      z.1 < 2 ^ VTy.ew ty ∧ P q z.1 z.2) : FpElements i s 2 0 d (VTy.ew ty) P := by
  rw [plainDo, hl] at hword
  exact fpElements_byElem hword hr (pois_ops2 hc) (laneWidth_ew ty) fun q _ => hP q

theorem el_lt (n : Nat) (v : VWord) (q : Nat) : el n v q < 2 ^ n := elem_lt ..

/-- An element of a floating-point type is a code of its format. -/
theorem el_lt_width (h : ty.isFp = true) (v : VWord) (q : Nat) : el (VTy.ew ty) v q < 2 ^ (VTy.fmt ty).width := by
  rw [width_fmt h]
  exact el_lt ..

theorem lt_element_of_lt_width (h : ty.isFp = true) {c : Nat} (hc : c < 2 ^ (VTy.fmt ty).width) : c < 2 ^ VTy.ew ty :=
  width_fmt h ▸ hc

theorem fpElements_minmax (mx : Bool) (h : ty.isFp = true) (hc : VClear s [a, b])
    (hr : Ready (if mx then .vmax d a b ty sp else .vmin d a b ty sp) s) :
    FpElements (if mx then .vmax d a b ty sp else .vmin d a b ty sp) s 2 0 d (VTy.ew ty) fun q c fl =>
      let f := VTy.fmt ty
      let g := s.me.graded
      let x := el (VTy.ew ty) (s.me.v a).val q
      let y := el (VTy.ew ty) (s.me.v b).val q
      ∀ o p, Reads f g x o → Reads f g y p →
        fl = flushFl f g x ||| flushFl f g y ||| ivFl (o.signals || p.signals) ∧
        ((o.isNan = true ∨ p.isNan = true) → c = f.nanCode) ∧
        (o.isNan = false → p.isNan = false → ∃ w, Reads f true c w ∧ (w = o ∨ w = p) ∧
          (mx = false → w.le o ∧ w.le p) ∧ (mx = true → o.le w ∧ p.le w)) := by
  have hf := standard_fmt ty
  have hword : vectorWord s (if mx then .vmax d a b ty sp else .vmin d a b ty sp) =
      plainDo sp 2 d (s.ops2 a b) (laneMinMax s.me.venv ty mx (s.ops2 a b).src) := by cases mx <;> rfl
  refine fpElements_lanes2 ((VTy.fmt ty).minmax s.me.graded mx) hword (lanes2_fp h ..) hc hr fun q =>
    ⟨lt_element_of_lt_width h (minmax_lt mx (el_lt_width h ..) (el_lt_width h ..)), fun o p ho hp => ⟨minmax_flags hf mx ho hp, fun hnan => ?_,
      minmax_selects hf mx ho hp (el_lt_width h ..) (el_lt_width h ..)⟩⟩
  exact minmax_of_nan mx (by rwa [isNan_input hf ho, isNan_input hf hp, Bool.or_eq_true])

theorem fpElements_sign (ng : Bool) (h : ty.isFp = true) (hc : VClear s [a])
    (hr : Ready (if ng then .vneg d a ty sp md else .vabs d a ty sp md) s) :
    FpElements (if ng then .vneg d a ty sp md else .vabs d a ty sp md) s 2 0 d (VTy.ew ty) fun q c fl =>
      let f := VTy.fmt ty
      let g := s.me.graded
      let x := el (VTy.ew ty) (s.me.v a).val q
      ∀ o, Reads f g x o → fl = flushFl f g x ||| ivFl o.signals ∧ (o.isNan = true → c = f.nanCode) ∧
        (o.isNan = false → minus f c = (ng && !minus f x) ∧
          c % 2 ^ (VTy.ew ty - 1) = if flushFl f g x = 0 then x % 2 ^ (VTy.ew ty - 1) else 0) := by
  have hf := standard_fmt ty
  have hbits : VTy.ew ty - 1 = (VTy.fmt ty).ew + (VTy.fmt ty).mw := by rw [← width_fmt h, Fmt.width]; omega
  have hword : vectorWord s (if ng then .vneg d a ty sp md else .vabs d a ty sp md) = some ⟨sp, 2, 0, d, s.ops2 a a,
      byElem (VTy.ew ty) (fun q => (VTy.fmt ty).signOp s.me.graded ng (elem (VTy.ew ty) (s.ops2 a a).src.a q))
        (depsOf (VTy.ew ty) [0])⟩ := by
    cases ng <;> simp only [vectorWord, plainDo, laneSign, lanes1, h, ↓reduceIte, Bool.false_eq_true] <;> rfl
  rw [hbits]
  exact fpElements_byElem hword hr (pois_ops2_self hc) (laneWidth_ew ty) fun q _ => ⟨lt_element_of_lt_width h (signOp_lt ..), fun o ho =>
    ⟨signOp_flags hf ng ho, signOp_of_nan hf ng ho, signOp_parts hf ng ho⟩⟩

theorem fpElements_vcmp (cond : VCond) (h : ty.isFp = true) (hc : VClear s [a, b]) (hr : Ready (.vcmp d a b ty sp cond) s) :
    FpElements (.vcmp d a b ty sp cond) s 2 0 d (VTy.ew ty) fun q c fl =>
      let f := VTy.fmt ty
      let g := s.me.graded
      let x := el (VTy.ew ty) (s.me.v a).val q
      let y := el (VTy.ew ty) (s.me.v b).val q
      ∀ o p, Reads f g x o → Reads f g y p →
        (o.holds cond p → c = 2 ^ VTy.ew ty - 1) ∧ (¬ o.holds cond p → c = 0) ∧
        fl = flushFl f g x ||| flushFl f g y |||
          ivFl (if cond = .eq ∨ cond = .ne then o.signals || p.signals else o.isNan || p.isNan) := by
  have hones : 2 ^ VTy.ew ty - 1 < 2 ^ VTy.ew ty := Nat.sub_lt (by positivity) one_pos
  refine fpElements_lanes2 (fun x y => let r := (VTy.fmt ty).cmpOp s.me.graded cond x y
    (if r.1 then 2 ^ VTy.ew ty - 1 else 0, r.2)) rfl (by rw [laneCmp, lanes2_fp h]; rfl) hc hr fun q => ⟨?_, fun o p ho hp => ?_⟩
  · dsimp only
    split
    · exact hones
    · positivity
  · obtain ⟨hholds, hflags⟩ := cmpOp_holds (standard_fmt ty) cond ho hp
    exact ⟨fun hyes => if_pos (hholds.mpr hyes), fun hno => if_neg (mt hholds.mp hno), hflags⟩

end

/-! ### Trees (R146, R161) -/

/-- What step `i` of level `l` of a tree makes; level 0 is the elements. -/
def treeAt (f : Nat → Nat → Nat → Nat → Nat × Fl) (x : Nat → Nat) : Nat → Nat → Nat
  | 0, i => x i
  | l + 1, i => (f l i (treeAt f x l (2 * i)) (treeAt f x l (2 * i + 1))).1

theorem treeLevel_range (f : Nat → Nat → Nat → Nat × Fl) (x : Nat → Nat) (k n : Nat) :
    (treeLevel f k ((List.range (2 * n)).map x)).1 = (List.range n).map fun i => (f (k + i) (x (2 * i)) (x (2 * i + 1))).1 := by
  induction n generalizing x k with
  | zero => rfl
  | succ n ih =>
    have hshift : (List.range (2 * (n + 1))).map x = x 0 :: x 1 :: (List.range (2 * n)).map fun i => x (i + 2) := by
      rw [show 2 * (n + 1) = 2 * n + 1 + 1 by ring, List.range_succ_eq_map, List.range_succ_eq_map]
      simp [Function.comp_def]
    rw [hshift, treeLevel, ih, List.range_succ_eq_map]
    simp only [List.map_cons, List.map_map, Nat.mul_zero, Nat.add_zero, Nat.zero_add, List.cons.injEq, true_and]
    refine List.map_congr_left fun i _ => ?_
    rw [Function.comp_apply, show k + 1 + i = k + (i + 1) by ring]
    rfl

theorem tree_succ (f : Nat → Nat → Nat → Nat → Nat × Fl) (k l : Nat) {xs : List Nat} (h : xs.length ≠ 1) :
    (tree f (k + 1) l xs).1 = (tree f k (l + 1) (treeLevel (f l) 0 xs).1).1 := by
  match xs with
  | [] => rfl
  | [_] => exact absurd rfl h
  | _ :: _ :: _ => rfl

/-- A tree over 2^n elements ends in the one step of its last level. -/
theorem tree_range (f : Nat → Nat → Nat → Nat → Nat × Fl) (x : Nat → Nat) {n fuel : Nat} (hn : n ≤ fuel) (l : Nat) :
    (tree f fuel l ((List.range (2 ^ n)).map (treeAt f x l))).1 = treeAt f x (l + n) 0 := by
  induction n generalizing fuel l with
  | zero => cases fuel <;> rfl
  | succ n ih =>
    obtain ⟨k, rfl⟩ : ∃ k, fuel = k + 1 := ⟨fuel - 1, by omega⟩
    have hpos : 0 < 2 ^ n := by positivity
    have hlevel : (treeLevel (f l) 0 ((List.range (2 ^ (n + 1))).map (treeAt f x l))).1 =
        (List.range (2 ^ n)).map (treeAt f x (l + 1)) := by
      rw [pow_succ', treeLevel_range]
      simp only [Nat.zero_add]
      rfl
    rw [tree_succ f k l (by rw [List.length_map, List.length_range, pow_succ]; omega), hlevel, ih (by omega)]
    congr 1
    ring

/-- The number of bits goes by the logarithm. -/
theorem nbits_eq_log {n k : Nat} (h : n ≠ 0) (hn : n < 2 ^ k) (hk : k ≤ 2 ^ 14) : nbits n = Nat.log 2 n + 1 := by
  have hle : 2 ^ nbits n ≤ 2 * n := two_pow_size_le 14 n h
  have hlt : n < 2 ^ nbits n := lt_two_pow_size 14 n (hn.trans_le (Nat.pow_le_pow_right (by norm_num) hk))
  obtain ⟨k, hk⟩ : ∃ k, nbits n = k + 1 := ⟨nbits n - 1, by
    have hne : nbits n ≠ 0 := fun hz => by rw [hz, pow_zero] at hlt; omega
    omega⟩
  rw [hk] at hle hlt ⊢
  rw [pow_succ'] at hle
  rw [Nat.log_eq_of_pow_le_of_lt_pow (Nat.le_of_mul_le_mul_left hle two_pos) hlt]

/-- The tree over a type's elements has a level for each power of two in their number. -/
theorem count_eq (t : VTy) : 2048 / VTy.ew t = 2 ^ Nat.log 2 (2048 / VTy.ew t) ∧ Nat.log 2 (2048 / VTy.ew t) ≤ 9 := by
  have hcount : ∃ n ≤ 9, 2048 / VTy.ew t = 2 ^ n := by
    cases t
    case i32 | n32 | f32 => exact ⟨6, by decide, rfl⟩
    case bf16x2 | f16x2 | i16x2 => exact ⟨7, by decide, rfl⟩
    case i8x4 => exact ⟨8, by decide, rfl⟩
    case ax => exact ⟨5, by decide, rfl⟩
  obtain ⟨n, hn, hcount⟩ := hcount
  rw [hcount, Nat.log_pow one_lt_two]
  exact ⟨rfl, hn⟩

theorem treeDepth_eq (t : VTy) : treeDepth t = Nat.log 2 (2048 / VTy.ew t) := by
  obtain ⟨hcount, -⟩ := count_eq t
  have hlt : 2048 / VTy.ew t < 2 ^ 12 := (Nat.div_le_self ..).trans_lt (by norm_num)
  rw [treeDepth, VTy.count, nbits_eq_log (by rw [hcount]; positivity) hlt (by norm_num), Nat.add_sub_cancel]

/-- The elements of a reduction are all the one result. -/
theorem laneReduce_eq (t : VTy) (f : Nat → Nat → Nat → Nat → Nat × Fl) (o : VSrc) :
    ∃ (fl : Nat → Fl) (deps : Nat → List Dep), laneReduce t f o =
      byElem (VTy.ew t) (fun q => (treeAt f (elem (VTy.ew t) o.a) (Nat.log 2 (2048 / VTy.ew t)) 0, fl q)) deps := by
  obtain ⟨hcount, hdepth⟩ := count_eq t
  have htree := tree_range f (elem (VTy.ew t) o.a) hdepth 0
  rw [← hcount, Nat.zero_add] at htree
  rw [← htree]
  exact ⟨_, _, rfl⟩

/-! ### The sum (R161) -/

section
variable {s : State} {d a : Reg} {ty : VTy} {sp : Bool} {md : BitVec 2}

/-- The steps of the sum of a word with MOD. -/
def sumStep (s : State) (ty : VTy) (md : BitVec 2) (l i x y : Nat) : Nat × Fl :=
  (VTy.fmt ty).addOp ⟨modeOf s md, s.me.graded⟩ (random s (modeOf s md) l i) false x y

theorem laneRsum_fp (h : ty.isFp = true) (o : VSrc) : laneRsum s.me.venv ty md o = laneReduce ty (sumStep s ty md) o := by
  simp only [laneRsum, h, ↓reduceIte, withMod_r, withMod_rnd]
  rfl

theorem treeAt_sum_lt (h : ty.isFp = true) (v : VWord) (l i : Nat) :
    treeAt (sumStep s ty md) (el (VTy.ew ty) v) l i < 2 ^ VTy.ew ty := by
  cases l with
  | zero => exact el_lt ..
  | succ l => exact result_lt_element h ..

theorem vrsum_adds (h : ty.isFp = true) (hc : VClear s [a]) (hr : Ready (.vrsum d a ty sp md) s) :
    let n := VTy.ew ty
    let f := VTy.fmt ty
    let g := s.me.graded
    ∃ (t : Nat → Nat → Nat) (v : VWord) (fl : Fl),
      (Acts (.vrsum d a ty sp md) s fun c =>
        (if modeOf s md = .sr then c.advance (Nat.log 2 (2048 / n)) else c).push 6 (.vreg d v 0 fl)) ∧
      (∀ q < 2048 / n, t 0 q = el n (s.me.v a).val q ∧ el n v q = t (Nat.log 2 (2048 / n)) 0) ∧
      ∀ l i, 2 ^ (l + 1) * (i + 1) ≤ 2048 / n → ∀ o p, Reads f g (t l (2 * i)) o → Reads f g (t l (2 * i + 1)) p →
        ∃ k, Gives f (modeOf s md) (random s (modeOf s md) l i) g (Operand.plus (modeOf s md == .rd) o p).1 (t (l + 1) i) k := by
  intro n f g
  obtain ⟨fl, deps, hreduce⟩ := laneReduce_eq ty (sumStep s ty md) (s.ops2 a a).src
  have hword : vectorWord s (.vrsum d a ty sp md) = some ⟨sp, 6, if ty.isFp && drawsSr s md then treeDepth ty else 0, d, s.ops2 a a,
    laneRsum s.me.venv ty md (s.ops2 a a).src⟩ := rfl
  rw [laneRsum_fp h, hreduce, h, Bool.true_and, draws_eq] at hword
  have hacts := acts_byElem hword hr (pois_ops2_self hc)
  have hcounter (c : Core) : (if (if modeOf s md = .sr then treeDepth ty else 0) = 0 then c
      else c.advance (if modeOf s md = .sr then treeDepth ty else 0)) =
      if modeOf s md = .sr then c.advance (Nat.log 2 (2048 / n)) else c := by
    by_cases hsr : modeOf s md = .sr
    · simp only [hsr, ↓reduceIte]
      rw [if_neg (treeDepth_ne_zero ty), treeDepth_eq]
    · simp only [hsr, ↓reduceIte]
  simp only [hcounter] at hacts
  refine ⟨treeAt (sumStep s ty md) (el n (s.me.v a).val), _, _, hacts, fun q hq => ⟨rfl, ?_⟩, fun l i _ o p ho hp => ?_⟩
  · rw [el_byElem (laneWidth_ew ty) (mul_succ_le_of_lt_div hq)]
    exact Nat.mod_eq_of_lt (treeAt_sum_lt h _ _ 0)
  · obtain ⟨k, hgives, -⟩ := addOp_rounds (c := ⟨modeOf s md, s.me.graded⟩) (standard_fmt ty) (random_lt s (modeOf s md) l i) false ho hp
    exact ⟨k, hgives⟩

end

/-! ### The extrema (R161) -/

/-- A NaN of a format, by its code. -/
def NanCode (f : Fmt) (x : Nat) : Prop := reservedCode f x ∧ frac f x ≠ 0

section
variable {f : Fmt} {g mx : Bool} {x lo mid hi c e : Nat} {o : Operand} {xs : Nat → Nat}

theorem isNan_iff_nanCode (hf : Standard f) (h : Reads f g x o) : o.isNan = true ↔ NanCode f x := by
  cases h with
  | flushed _ hsub => exact iff_of_false nofun fun ⟨hr, _⟩ => not_subnormal_of_reserved f x hf.exponents hr hsub
  | number hr => exact iff_of_false nofun fun h => hr h.1
  | infinity _ _ hfr => exact iff_of_false nofun fun h => h.2 hfr
  | nan hr hfr => exact iff_of_true rfl ⟨hr, hfr⟩

/-- In a format with infinities every code stands for an operand. -/
theorem exists_reads (hsp : f.sp = .ieee) (g : Bool) (x : Nat) : ∃ o, Reads f g x o := by
  by_cases hr : reservedCode f x
  · by_cases hfr : frac f x = 0
    · obtain ⟨-, he⟩ | ⟨hsp', -⟩ := hr
      · exact ⟨_, .infinity hsp he hfr⟩
      · exact absurd (hsp.symm.trans hsp') nofun
    · exact ⟨_, .nan hr hfr⟩
  · by_cases hflush : g = false ∧ subnormal f x
    · exact ⟨_, .flushed hflush.1 hflush.2⟩
    · exact ⟨_, .number hr (by rwa [not_and_or, Bool.not_eq_false] at hflush)⟩

theorem isNan_input_iff (hf : Standard f) (hsp : f.sp = .ieee) : (f.input g x).1.isNan = true ↔ NanCode f x := by
  obtain ⟨o, ho⟩ := exists_reads hsp g x
  rw [isNan_input hf ho, isNan_iff_nanCode hf ho]

theorem nanCode_flushed (hf : Standard f) (hsp : f.sp = .ieee) : NanCode f (f.flushed g x) ↔ NanCode f x := by
  obtain ⟨o, ho⟩ := exists_reads hsp g x
  rw [← isNan_iff_nanCode hf ho, ← isNan_iff_nanCode hf (reads_flushed hf ho)]

theorem flushed_flushed : f.flushed g (f.flushed g x) = f.flushed g x := by
  by_cases h : flushFl f g x = 0
  · rw [flushed_eq f g x, if_pos h, flushed_eq, if_pos h]
  · have hfrac : frac f (f.zero (minus f x)) = 0 := by
      rw [frac_eq_mod, show f.zero (minus f x) % 2 ^ (f.ew + f.mw) = 0 from zero_add_mod f _ 0 (by positivity), Nat.zero_mod]
    rw [flushed_eq f g x, if_neg h]
    exact flushed_of_not (.inr fun hsub => hsub.2 hfrac)

/-- The order of keys that a reduction goes by. -/
def Before (mx : Bool) (i j : ℤ) : Prop := if mx then j ≤ i else i ≤ j

theorem Before.refl (mx : Bool) (i : ℤ) : Before mx i i := by cases mx <;> exact le_refl i

theorem Before.trans {i j k : ℤ} (h : Before mx i j) (h' : Before mx j k) : Before mx i k := by
  cases mx
  · exact le_trans (α := ℤ) h h'
  · exact le_trans (α := ℤ) h' h

/-- Of two numbers a step keeps one, and it comes before both. -/
theorem minmax_before (hf : Standard f) (hsp : f.sp = .ieee) (hc : ¬ NanCode f c) (he : ¬ NanCode f e) :
    let z := (f.minmax g mx c e).1
    (z = f.flushed g c ∨ z = f.flushed g e) ∧ Before mx (f.key z) (f.key (f.flushed g c)) ∧ Before mx (f.key z) (f.key (f.flushed g e)) := by
  intro z
  have hz : z = _ := minmax_of_numbers mx (Bool.or_eq_false_iff.mpr
    ⟨Bool.eq_false_iff.mpr (mt (isNan_input_iff hf hsp).mp hc), Bool.eq_false_iff.mpr (mt (isNan_input_iff hf hsp).mp he)⟩)
  rw [hz]
  by_cases hle : f.key (f.flushed g c) ≤ f.key (f.flushed g e)
  · cases mx <;> simp [hle, Before]
  · have hge := (not_le.mp hle).le
    cases mx <;> simp [hle, hge, Before]

/-- A code that a reduction may have made of the elements from `lo` up to `hi`: a NaN where there is one, else the number that comes
before all. -/
structure Extreme (f : Fmt) (g mx : Bool) (xs : Nat → Nat) (lo hi c : Nat) : Prop where
  nan : (∃ q, lo ≤ q ∧ q < hi ∧ NanCode f (xs q)) → NanCode f c
  number : (∀ q, lo ≤ q → q < hi → ¬ NanCode f (xs q)) → ¬ NanCode f c ∧
    (∃ q, lo ≤ q ∧ q < hi ∧ f.flushed g c = f.flushed g (xs q)) ∧
    ∀ q, lo ≤ q → q < hi → Before mx (f.key (f.flushed g c)) (f.key (f.flushed g (xs q)))

theorem extreme_element (q : Nat) : Extreme f g mx xs q (q + 1) (xs q) where
  nan := fun ⟨p, hp, hpq, hnan⟩ => (show p = q by omega) ▸ hnan
  number h := ⟨h q le_rfl q.lt_succ_self, ⟨q, le_rfl, q.lt_succ_self, rfl⟩, fun p hp hpq => (show p = q by omega) ▸ Before.refl ..⟩

/-- A step over neighbouring ranges, and what it writes. -/
theorem Extreme.step (hf : Standard f) (hsp : f.sp = .ieee) (hcanon : NanCode f f.nanCode) (hlo : lo ≤ mid) (hhi : mid ≤ hi)
    (hc : Extreme f g mx xs lo mid c) (he : Extreme f g mx xs mid hi e) :
    let z := (f.minmax g mx c e).1
    Extreme f g mx xs lo hi z ∧ ((∃ q, lo ≤ q ∧ q < hi ∧ NanCode f (xs q)) → z = f.nanCode) ∧
    ((∀ q, lo ≤ q → q < hi → ¬ NanCode f (xs q)) → f.flushed g z = z) := by
  intro z
  have hnan (h : ∃ q, lo ≤ q ∧ q < hi ∧ NanCode f (xs q)) : z = f.nanCode := by
    obtain ⟨q, hq, hqhi, hqnan⟩ := h
    refine minmax_of_nan mx (Bool.or_eq_true_iff.mpr ?_)
    rw [isNan_input_iff hf hsp, isNan_input_iff hf hsp]
    rcases lt_or_ge q mid with hqmid | hqmid
    · exact .inl (hc.nan ⟨q, hq, hqmid, hqnan⟩)
    · exact .inr (he.nan ⟨q, hqmid, hqhi, hqnan⟩)
  have hnumber (h : ∀ q, lo ≤ q → q < hi → ¬ NanCode f (xs q)) : f.flushed g z = z ∧ ¬ NanCode f z ∧
      (∃ q, lo ≤ q ∧ q < hi ∧ z = f.flushed g (xs q)) ∧
      ∀ q, lo ≤ q → q < hi → Before mx (f.key z) (f.key (f.flushed g (xs q))) := by
    obtain ⟨hcn, ⟨qc, hqc, hqcmid, hceq⟩, hcall⟩ := hc.number fun q hq hqmid => h q hq (hqmid.trans_le hhi)
    obtain ⟨hen, ⟨qe, hqe, hqehi, heeq⟩, heall⟩ := he.number fun q hq hqhi => h q (hlo.trans hq) hqhi
    obtain ⟨hz, hzc, hze⟩ := minmax_before (g := g) (mx := mx) hf hsp hcn hen
    refine ⟨?_, ?_, ?_, fun q hq hqhi => ?_⟩
    · rcases hz with hz | hz <;> simp only [z, hz, flushed_flushed]
    · rcases hz with hz | hz <;> simpa only [z, hz, nanCode_flushed hf hsp]
    · rcases hz with hz | hz
      · exact ⟨qc, hqc, hqcmid.trans_le hhi, hz.trans hceq⟩
      · exact ⟨qe, hlo.trans hqe, hqehi, hz.trans heeq⟩
    · rcases lt_or_ge q mid with hqmid | hqmid
      · exact hzc.trans (hcall q hq hqmid)
      · exact hze.trans (heall q hqmid hqhi)
  refine ⟨⟨fun h => hnan h ▸ hcanon, fun h => ?_⟩, hnan, fun h => (hnumber h).1⟩
  obtain ⟨hflushed, hnumber⟩ := hnumber h
  rwa [hflushed]

/-- The steps of a minimum or maximum. -/
def extremeStep (f : Fmt) (g mx : Bool) (_ _ x y : Nat) : Nat × Fl := f.minmax g mx x y

theorem treeAt_extreme_lt (hxs : ∀ q, xs q < 2 ^ f.width) (l i : Nat) : treeAt (extremeStep f g mx) xs l i < 2 ^ f.width := by
  induction l generalizing i with
  | zero => exact hxs i
  | succ l ih => exact minmax_lt mx (ih _) (ih _)

/-- Each step of the tree has the extreme of the elements under it. -/
theorem extreme_treeAt (hf : Standard f) (hsp : f.sp = .ieee) (hcanon : NanCode f f.nanCode) (l i : Nat) :
    Extreme f g mx xs (2 ^ l * i) (2 ^ l * (i + 1)) (treeAt (extremeStep f g mx) xs l i) := by
  induction l generalizing i with
  | zero =>
    rw [pow_zero, one_mul, one_mul]
    exact extreme_element i
  | succ l ih =>
    have hlo : 2 ^ (l + 1) * i = 2 ^ l * (2 * i) := by ring
    have hhi : 2 ^ (l + 1) * (i + 1) = 2 ^ l * (2 * i + 1 + 1) := by ring
    rw [hlo, hhi]
    obtain ⟨hstep, -⟩ := Extreme.step hf hsp hcanon (Nat.mul_le_mul_left _ (by omega)) (Nat.mul_le_mul_left _ (by omega))
      (ih (2 * i)) (ih (2 * i + 1))
    exact hstep

/-- The last step of the tree over two or more elements writes the canonical NaN, or the first number of all. -/
theorem treeAt_extreme (hf : Standard f) (hsp : f.sp = .ieee) (hcanon : NanCode f f.nanCode) (hxs : ∀ q, xs q < 2 ^ f.width) (l : Nat) :
    let n := 2 ^ (l + 1)
    let z := treeAt (extremeStep f g mx) xs (l + 1) 0
    ((∃ q < n, NanCode f (xs q)) → z = f.nanCode) ∧
    ((∀ q < n, ¬ NanCode f (xs q)) → ∃ w, Reads f true z w ∧ (∃ q < n, Reads f g (xs q) w) ∧
      ∀ q < n, ∀ o, Reads f g (xs q) o → if mx then o.le w else w.le o) := by
  intro n z
  have hn : 2 ^ l * (2 * 0 + 1 + 1) = n := by simp only [n]; ring
  obtain ⟨hextreme, hnan, hflushed⟩ := Extreme.step hf hsp hcanon (Nat.mul_le_mul_left _ (by omega)) (Nat.mul_le_mul_left _ (by omega))
    (extreme_treeAt (g := g) (mx := mx) (xs := xs) hf hsp hcanon l (2 * 0)) (extreme_treeAt hf hsp hcanon l (2 * 0 + 1))
  rw [hn, mul_zero, mul_zero] at hextreme hnan hflushed
  refine ⟨fun ⟨q, hq, hqn⟩ => hnan ⟨q, q.zero_le, hq, hqn⟩, fun h => ?_⟩
  have hall (q : Nat) (_ : 0 ≤ q) (hq : q < n) := h q hq
  obtain ⟨hzn, ⟨q, -, hq, hqz⟩, hbefore⟩ := hextreme.number hall
  obtain ⟨w, hw⟩ := exists_reads hsp g z
  have hwn : w.isNan = false := Bool.eq_false_iff.mpr (mt (isNan_iff_nanCode hf hw).mp hzn)
  have hwz := reads_flushed hf hw
  obtain ⟨o, ho⟩ := exists_reads hsp g (xs q)
  have how : o = w := by
    have hoz := reads_flushed hf ho
    rw [← hqz] at hoz
    rw [← operandOf_input f true _ o hf.exponents hoz]
    exact operandOf_input f true _ w hf.exponents hwz
  have hlt : f.flushed g z < 2 ^ f.width := flushed_lt (treeAt_extreme_lt hxs (l + 1) 0)
  have hzz : f.flushed g z = z := hflushed hall
  refine ⟨w, hzz ▸ hwz, ⟨q, hq, how ▸ ho⟩, fun p hp u hu => ?_⟩
  have hun : u.isNan = false := Bool.eq_false_iff.mpr (mt (isNan_iff_nanCode hf hu).mp (h p hp))
  have hkey := hbefore p p.zero_le hp
  cases mx
  · exact (le_iff_key_le hf hwz (reads_flushed hf hu) hwn hun hlt (flushed_lt (hxs p))).mpr hkey
  · exact (le_iff_key_le hf (reads_flushed hf hu) hwz hun hwn (flushed_lt (hxs p)) hlt).mpr hkey

end

/-- The floating-point types have formats with infinities and a canonical NaN. -/
theorem ieee_fmt {ty : VTy} (h : ty.isFp = true) : (VTy.fmt ty).sp = .ieee ∧ NanCode (VTy.fmt ty) (VTy.fmt ty).nanCode := by
  cases ty with
  | f32 | bf16x2 | f16x2 => exact ⟨rfl, .inl ⟨rfl, by decide⟩, by decide⟩
  | _ => nomatch h

section
variable {s : State} {d a : Reg} {ty : VTy} {sp : Bool}

theorem laneRmm_fp (mx : Bool) (h : ty.isFp = true) (o : VSrc) :
    laneRmm s.me.venv ty mx o = laneReduce ty (extremeStep (VTy.fmt ty) s.me.graded mx) o := by
  simp only [laneRmm, h, ↓reduceIte]
  rfl

theorem reduction_extreme (mx : Bool) (h : ty.isFp = true) (hc : VClear s [a])
    (hr : Ready (if mx then .vrmax d a ty sp else .vrmin d a ty sp) s) :
    let i : Instr := if mx then .vrmax d a ty sp else .vrmin d a ty sp
    let n := VTy.ew ty
    let f := VTy.fmt ty
    let g := s.me.graded
    ∃ (c : Nat) (fl : Fl) (v : VWord), Sends i s 6 (.vreg d v 0 fl) ∧ (∀ q < 2048 / n, el n v q = c) ∧
      let x := fun q => el n (s.me.v a).val q
      ((∃ q < 2048 / n, reservedCode f (x q) ∧ frac f (x q) ≠ 0) → c = f.nanCode) ∧
      ((∀ q < 2048 / n, ¬ (reservedCode f (x q) ∧ frac f (x q) ≠ 0)) → ∃ w, Reads f true c w ∧
        (∃ q < 2048 / n, Reads f g (x q) w) ∧ ∀ q < 2048 / n, ∀ o, Reads f g (x q) o → if mx then o.le w else w.le o) := by
  intro i n f g
  obtain ⟨hsp, hcanon⟩ := ieee_fmt h
  obtain ⟨hcount, -⟩ := count_eq ty
  have hcodes (q : Nat) : el n (s.me.v a).val q < 2 ^ f.width := el_lt_width h ..
  obtain ⟨fl, deps, hreduce⟩ := laneReduce_eq ty (extremeStep f g mx) (s.ops2 a a).src
  have hword : vectorWord s i = some ⟨sp, 6, 0, d, s.ops2 a a, laneRmm s.me.venv ty mx (s.ops2 a a).src⟩ := by
    cases mx <;> rfl
  rw [laneRmm_fp mx h, hreduce] at hword
  refine ⟨treeAt (extremeStep f g mx) (el n (s.me.v a).val) (Nat.log 2 (2048 / n)) 0, _, _,
    acts_byElem hword hr (pois_ops2_self hc), fun q hq => ?_, ?_⟩
  · rw [el_byElem (laneWidth_ew ty) (mul_succ_le_of_lt_div hq)]
    exact Nat.mod_eq_of_lt (lt_element_of_lt_width h (treeAt_extreme_lt hcodes _ 0))
  · have hdepth : Nat.log 2 (2048 / n) ≠ 0 := treeDepth_eq ty ▸ treeDepth_ne_zero ty
    obtain ⟨l, hl⟩ := Nat.exists_eq_succ_of_ne_zero hdepth
    have hextreme := treeAt_extreme (g := g) (mx := mx) (standard_fmt ty) hsp hcanon hcodes l
    rw [show Nat.log 2 (2048 / n) = l + 1 from hl, show 2048 / n = 2 ^ (l + 1) from hcount.trans (congrArg _ hl)]
    exact hextreme

end

end Sys2Proof.Proofs
end

section
/-! PROOFS. Conversions between formats and integers, and blocks read back as numbers (R126, R139, R140, R153, R169, R170, R176). -/

namespace Sys2Proof.Proofs

open Sys2Proof Sys2Proof.Machine Sys2Proof.Claims

/-! ### Rounding to an integer (R139, R170) -/

section
variable {mode : RMode} {r : Nat} {neg : Bool} {m : Nat} {e q : ℤ}

theorem roundInt_zero (hr : r < 65536) : roundInt mode neg r 0 e q = (0, false) := by
  rcases le_or_gt q e with h | h
  · rw [roundInt, if_pos h, Nat.zero_mul]
  · rw [roundInt_of_lt mode r neg 0 e q h]
    simp [goesUp_zero mode neg r _ 0 hr]

/-- Rounding goes by the exponent above that of the unit alone. -/
theorem roundInt_shift : roundInt mode neg r m e q = roundInt mode neg r m (e - q) 0 := by
  have hle : q ≤ e ↔ 0 ≤ e - q := sub_nonneg.symm
  simp only [roundInt, hle, sub_zero, zero_sub, neg_sub]

theorem Rounded.brackets_nat {a : ℚ} {x : Nat × Bool} {l h : ℕ} (R : Rounded mode r neg a 0 x l h) :
    Brackets (fun g => ∃ k : ℕ, g = k) a l h := by
  have hlow := R.low
  have hhigh := R.high
  rw [zpow_zero, mul_one] at hlow hhigh
  refine ⟨⟨l, rfl⟩, ⟨h, rfl⟩, hlow, hhigh, ?_⟩
  rintro _ ⟨k, rfl⟩
  exact ⟨fun hk => Nat.cast_le.mpr (R.le_low k (by simpa using hk)), fun hk => Nat.cast_le.mpr (R.high_le k (by simpa using hk))⟩

theorem signedNum_neg_iff (hm : m ≠ 0) : signedNum neg m e < 0 ↔ neg = true := by
  have hpos : (0 : ℚ) < m * 2 ^ e := mul_pos (by exact_mod_cast Nat.pos_of_ne_zero hm) (by positivity)
  cases neg <;> simp [signedNum, hpos, hpos.le]

theorem abs_signedNum (neg : Bool) (m : Nat) (e : ℤ) : |signedNum neg m e| = m * 2 ^ e := by
  have hpos : (0 : ℚ) ≤ m * 2 ^ e := by positivity
  cases neg <;> simp [signedNum, abs_of_nonneg hpos]

theorem cast_signed (neg : Bool) (k : Nat) : ((signed neg k : ℤ) : ℚ) = if neg then -(k : ℚ) else k := by
  cases neg <;> simp [signed]

/-- The integer that the model rounds to is that of R139, and it is exact where no bits were dropped. -/
theorem roundInt_rounds (hr : r < 65536) : RoundsInt mode r (signedNum neg m e) (signed neg (roundInt mode neg r m e 0).1) ∧
    (((signed neg (roundInt mode neg r m e 0).1 : ℤ) : ℚ) = signedNum neg m e ↔ (roundInt mode neg r m e 0).2 = false) := by
  by_cases hm : m = 0
  · subst hm
    have hzero : signedNum neg 0 e = 0 := (signedNum_eq_zero ..).mpr rfl
    have hsigned : signed neg 0 = 0 := by cases neg <;> rfl
    rw [roundInt_zero hr, hzero, hsigned]
    refine ⟨⟨0, 0, 0, ?_, ⟨fun _ => rfl, fun h => absurd rfl h⟩, by simp⟩, by simp⟩
    rw [abs_zero]
    exact ⟨⟨0, by simp⟩, ⟨0, by simp⟩, le_rfl, le_rfl, fun g ⟨k, hk⟩ => ⟨id, id⟩⟩
  · obtain ⟨l, h, R⟩ := exists_rounded mode r hr neg m e 0
    have hneg : decide (signedNum neg m e < 0) = neg := by
      rw [Bool.eq_iff_iff, decide_eq_true_iff, signedNum_neg_iff hm]
    have hpicks := R.picks
    have hexact := R.eq_iff
    simp only [zpow_zero, mul_one] at hpicks hexact
    refine ⟨⟨l, h, (roundInt mode neg r m e 0).1, ?_, ?_, ?_⟩, ?_⟩
    · rw [abs_signedNum]
      exact R.brackets_nat
    · rw [hneg, abs_signedNum]
      exact hpicks
    · rw [cast_signed]
      exact if_congr (signedNum_neg_iff hm).symm rfl rfl
    · rw [cast_signed, signedNum, ← hexact]
      cases neg <;> simp

end

/-! ### The kinds of a conversion (R126, R169) -/

/-- A kind that the search for a leading bit covers, and whose codes fill elements of a register. -/
def StandardKind : Kind → Prop
  | .fp f => Standard f ∧ f.width ≤ 32
  | .int w _ => 1 ≤ w ∧ w ≤ 64

theorem standardKind_kindOf (c : Nat) : StandardKind (kindOf c) ∧ LaneWidth (kindOf c).reg := by
  unfold kindOf
  split
  · exact ⟨⟨standard_fp32, by decide⟩, .inl (by decide)⟩
  · exact ⟨⟨standard_fp16, by decide⟩, .inl (by decide)⟩
  · exact ⟨⟨standard_bf16, by decide⟩, .inl (by decide)⟩
  · exact ⟨⟨standard_e5m2, by decide⟩, .inl (by decide)⟩
  · exact ⟨⟨standard_e4m3, by decide⟩, .inl (by decide)⟩
  · exact ⟨⟨standard_e3m2, by decide⟩, .inl (by decide)⟩
  · exact ⟨⟨standard_e2m3, by decide⟩, .inl (by decide)⟩
  · exact ⟨⟨standard_e2m1, by decide⟩, .inl (by decide)⟩
  all_goals exact ⟨⟨by decide, by decide⟩, .inl (by decide)⟩

theorem standardKind_cvtKinds (src cf : Nat) (md : Bool) :
    (StandardKind (cvtKinds src cf md).1 ∧ LaneWidth (cvtKinds src cf md).1.reg) ∧
    StandardKind (cvtKinds src cf md).2 ∧ LaneWidth (cvtKinds src cf md).2.reg := by
  have hword : StandardKind (.int 32 true) ∧ LaneWidth (Kind.int 32 true).reg := ⟨⟨by decide, by decide⟩, .inl (by decide)⟩
  have hlong : StandardKind (.int 64 true) ∧ LaneWidth (Kind.int 64 true).reg := ⟨⟨by decide, by decide⟩, .inr rfl⟩
  unfold cvtKinds
  split
  · split
    · exact ⟨hword, standardKind_kindOf cf⟩
    · exact ⟨standardKind_kindOf cf, hword⟩
    · exact ⟨hlong, standardKind_kindOf cf⟩
  · exact ⟨standardKind_kindOf src, standardKind_kindOf cf⟩

theorem laneWidth_max {m n : Nat} (hm : LaneWidth m) (hn : LaneWidth n) : LaneWidth (max m n) := by
  rcases max_choice m n with h | h <;> rwa [h]

/-- The value bits of a kind lie in its place in a register. -/
theorem bits_le_reg (k : Kind) : k.bits ≤ k.reg := by
  cases k with
  | fp f => simp only [Kind.bits, Kind.reg]; split <;> omega
  | int w sg => exact le_rfl

/-! ### Conversions (R140, R170) -/

theorem natAbs_sgn_le {w x : Nat} (h : x < 2 ^ w) : (sgn w x).natAbs ≤ 2 ^ w := by
  unfold sgn
  split <;> omega

/-- The value of a source code. -/
def sourceValue (k : Kind) (g : Bool) (x : Nat) : FVal × Fl :=
  match k with
  | .fp f => f.input g (x % 2 ^ f.width)
  | .int w sg =>
    let i := if sg then sgn w (x % 2 ^ w) else ((x % 2 ^ w : Nat) : Int)
    (.fin (decide (i < 0)) i.natAbs 0, 0)

theorem operandOf_integer (i : ℤ) (e : ℤ) : operandOf (.fin (decide (i < 0)) i.natAbs e) = .num (i * 2 ^ e) (decide (i < 0)) := by
  rw [operandOf, signed_natAbs]

theorem sourceValue_reads {k : Kind} {g : Bool} {x : Nat} {o : Operand} {fl : Fl} (hk : StandardKind k) (h : ReadsKind k g x o fl) :
    operandOf (sourceValue k g x).1 = o ∧ (sourceValue k g x).2 = fl ∧ InReach (sourceValue k g x).1 := by
  cases k with
  | fp f =>
    obtain ⟨hf, -⟩ := hk
    obtain ⟨hreads, rfl⟩ := h
    exact ⟨operandOf_input f g _ o hf.exponents hreads, input_flags .., (inUnits_input hf g _).inReach (by decide)⟩
  | int w sg =>
    obtain ⟨-, hw⟩ := hk
    obtain ⟨rfl, rfl⟩ := h
    have hlt : x % 2 ^ w < 2 ^ w := Nat.mod_lt _ (by positivity)
    refine ⟨by simp only [sourceValue, operandOf_integer, zpow_zero, mul_one], rfl, fun neg m e heq => ?_⟩
    obtain ⟨-, rfl, -⟩ := FVal.fin.inj heq
    have habs : (if sg then sgn w (x % 2 ^ w) else ((x % 2 ^ w : Nat) : Int)).natAbs ≤ 2 ^ w := by
      cases sg
      · exact hlt.le
      · exact natAbs_sgn_le hlt
    exact habs.trans_lt (Nat.pow_lt_pow_right (by norm_num) (by omega))

theorem convert_eq (src dst : Kind) (mode : RMode) (r : Nat) (g : Bool) (x : Nat) : convert src dst mode r g x =
    match dst with
    | .fp f =>
      let o := f.result mode r g (sourceValue src g x).1
      (o.1, (sourceValue src g x).2 ||| o.2)
    | .int w s =>
      let o := toInteger mode r (if s then -((2 ^ (w - 1) : Nat) : Int) else 0)
        (if s then ((2 ^ (w - 1) : Nat) : Int) - 1 else ((2 ^ w : Nat) : Int) - 1) (sourceValue src g x).1
      (code w o.1, (sourceValue src g x).2 ||| o.2) := by
  cases src <;> cases dst <;> rfl

theorem code_lt (w : Nat) (x : Int) : code w x < 2 ^ w := by
  have hpos : (0 : Int) < ((2 ^ w : Nat) : Int) := by positivity
  have hlt := Int.emod_lt_of_pos x hpos
  rw [code]
  omega

theorem convert_lt (src dst : Kind) (mode : RMode) (r : Nat) (g : Bool) (x : Nat) : (convert src dst mode r g x).1 < 2 ^ dst.bits := by
  rw [convert_eq]
  cases dst with
  | fp f => exact result_lt ..
  | int w s => exact code_lt ..

/-- A value into an integer range: rounded, clamped with IV, with NX where it was not exact. -/
theorem toInteger_converts (w : Nat) (sg : Bool) (mode : RMode) {r : Nat} (hr : r < 65536) (g : Bool) (v : FVal) :
    let o := toInteger mode r (if sg then -((2 ^ (w - 1) : Nat) : Int) else 0)
      (if sg then ((2 ^ (w - 1) : Nat) : Int) - 1 else ((2 ^ w : Nat) : Int) - 1) v
    Converts (.int w sg) mode r g (operandOf v) (code w o.1) o.2 := by
  intro o
  simp only [o]
  push_cast
  cases v with
  | nan => exact ⟨by simp [toInteger, code], rfl⟩
  | inf n => exact ⟨cast_code .., rfl⟩
  | fin neg m e =>
    obtain ⟨hrounds, hexact⟩ := roundInt_rounds (mode := mode) (neg := neg) (m := m) (e := e) hr
    refine ⟨_, hrounds, cast_code .., ?_⟩
    simp only [toInteger, flIf, ivFl, hexact]
    cases (roundInt mode neg r m e 0).2 <;> rfl

theorem convert_converts {src dst : Kind} {g : Bool} {x r : Nat} {o : Operand} {e : Fl} (mode : RMode) (hsrc : StandardKind src)
    (hdst : StandardKind dst) (hr : r < 65536) (h : ReadsKind src g x o e) :
    ∃ k, Converts dst mode r g o (convert src dst mode r g x).1 k ∧ (convert src dst mode r g x).2 = e ||| k := by
  obtain ⟨ho, hfl, hreach⟩ := sourceValue_reads hsrc h
  rw [convert_eq]
  cases dst with
  | fp f =>
    obtain ⟨hf, -⟩ := hdst
    exact ⟨_, ho ▸ result_gives f mode r hr g _ hreach hf.normal, hfl ▸ rfl⟩
  | int w sg => exact ⟨_, ho ▸ toInteger_converts w sg mode hr g (sourceValue src g x).1, hfl ▸ rfl⟩

theorem elem_zero (w x : Nat) : elem w x 0 = x % 2 ^ w := by rw [elem, Nat.mul_zero, pow_zero, Nat.div_one]

section
variable {s : State} {d a : Reg} {sp m : Bool}

/-- A word that rounds by FPCTL draws where FPCTL says SR. -/
theorem draws_rmode (s : State) (n : Nat) : (if s.me.rmode == .sr then n else 0) = if s.me.rmode = .sr then n else 0 :=
  if_congr beq_iff_eq rfl rfl

theorem fpElements_vcvt (src cf : BitVec 5) (hc : VClear s [a]) (hr : Ready (.vcvt d a src cf sp m) s) :
    let k := cvtKinds src.toNat cf.toNat m
    let w := max k.1.reg k.2.reg
    FpElements (.vcvt d a src cf sp m) s 4 (if s.me.rmode = .sr then cvtDraws src.toNat cf.toNat m else 0) d w fun q c fl =>
      let r := if w < 16 then random s s.me.rmode (q / 128) (q % 128) else random s s.me.rmode 0 q
      ∀ o e, ReadsKind k.1 s.me.graded (el w (s.me.v a).val q % 2 ^ k.1.reg) o e →
        ∃ h, Converts k.2 s.me.rmode r s.me.graded o c h ∧ fl = e ||| h := by
  intro k w
  obtain ⟨⟨hsrc, hsrcreg⟩, hdst, hdstreg⟩ := standardKind_cvtKinds src.toNat cf.toNat m
  have hword : vectorWord s (.vcvt d a src cf sp m) = some ⟨sp, 4, if s.me.rmode == .sr then cvtDraws src.toNat cf.toNat m else 0, d,
    s.ops2 a a, laneCvt s.me.venv src.toNat cf.toNat m (s.ops2 a a).src⟩ := rfl
  rw [draws_rmode] at hword
  refine fpElements_byElem hword hr (pois_ops2_self hc) (laneWidth_max hsrcreg hdstreg) fun q _ => ⟨?_, fun o e h => ?_⟩
  · exact (convert_lt ..).trans_le (Nat.pow_le_pow_right two_pos ((bits_le_reg _).trans (le_max_right ..)))
  · rw [elem_zero]
    refine convert_converts s.me.rmode hsrc hdst ?_ h
    split <;> exact random_lt ..

/-! ### Blocks read back (R174, R176) -/

/-- Mantissa `i` of block `k` of an image. -/
def mantissa (bn : Nat) (v : VWord) (k i : Nat) : Int := sgn bn (v.toNat / 2 ^ (bn * (24 * k + i)) % 2 ^ bn)

theorem imgBlock_eq (bn : Nat) (v : VWord) (k : Nat) :
    imgBlock bn v.toNat k = (el 8 v (248 + k), (List.range 24).map (mantissa bn v k)) := by
  refine Prod.ext rfl (List.map_congr_left fun i _ => ?_)
  have hplace : bn * (24 * k + i) = 24 * bn * k + bn * i := by ring
  rw [mantissa, elem, hplace, pow_add, Nat.div_div_eq_div_mul]

theorem getD_mantissas (bn : Nat) (v : VWord) (k : Nat) {i : Nat} (hi : i < 24) :
    ((List.range 24).map (mantissa bn v k)).getD i 0 = mantissa bn v k i := by
  simp [hi]

theorem natAbs_mantissa_lt {bn : Nat} (hbn : bn ≤ 8) (v : VWord) (k i : Nat) : (mantissa bn v k i).natAbs < 2 ^ 9 := by
  have hle : (mantissa bn v k i).natAbs ≤ 2 ^ bn := natAbs_sgn_le (Nat.mod_lt _ (by positivity))
  exact hle.trans_lt (Nat.pow_lt_pow_right one_lt_two (by omega))

/-- The format of the numbers that blocks are made of, and its width. -/
def numberFmt (m : Bool) : Fmt := if m then bf16 else fp32
def numberWidth (m : Bool) : Nat := if m then 16 else 32

theorem standard_numberFmt (m : Bool) : Standard (numberFmt m) := by
  cases m
  · exact standard_fp32
  · exact standard_bf16

theorem width_numberFmt (m : Bool) : (numberFmt m).width = numberWidth m := by cases m <;> rfl

theorem laneWidth_numberWidth (m : Bool) : LaneWidth (numberWidth m) := by cases m <;> exact .inl (by decide)

/-- One element of `vbdq`: none behind the blocks, a NaN under scale 255, else the mantissa under its scale, rounded once. -/
def unblocked (s : State) (bn : Nat) (m : Bool) (v : VWord) (q : Nat) : Nat × Fl :=
  let z := mantissa bn v (q / 24) (q % 24)
  if 24 * imgBlocks m ≤ q then (0, 0)
  else if el 8 v (248 + q / 24) = 255 then ((numberFmt m).nanCode, 0)
  else (numberFmt m).round s.me.rmode (random s s.me.rmode 0 q) s.me.graded (decide (z < 0)) z.natAbs
    ((el 8 v (248 + q / 24) : ℤ) - 127)

theorem laneBdq_eq (s : State) (bn : Nat) (m : Bool) (o : VOps) : ∃ deps : Nat → List Dep,
    laneBdq s.me.venv bn m o.src = byElem (numberWidth m) (unblocked s bn m o.a.val) deps := by
  refine ⟨_, congrArg (fun F => byElem _ F _) (funext fun q => ?_)⟩
  have hmod : q % 24 < 24 := Nat.mod_lt _ (by norm_num)
  have hblock : imgBlock bn o.src.a (q / 24) = _ := imgBlock_eq bn o.a.val (q / 24)
  simp only [hblock, getD_mantissas bn o.a.val (q / 24) hmod]
  rfl

section
variable {bn q : Nat} {v : VWord}

theorem unblocked_behind (hq : 24 * imgBlocks m ≤ q) : unblocked s bn m v q = (0, 0) := if_pos hq

theorem unblocked_nan (hq : q < 24 * imgBlocks m) (he : el 8 v (248 + q / 24) = 255) :
    unblocked s bn m v q = ((numberFmt m).nanCode, 0) :=
  (if_neg (not_le.mpr hq)).trans (if_pos he)

theorem unblocked_number (hq : q < 24 * imgBlocks m) (he : el 8 v (248 + q / 24) ≠ 255) : unblocked s bn m v q =
    (numberFmt m).result s.me.rmode (random s s.me.rmode 0 q) s.me.graded (.fin (decide (mantissa bn v (q / 24) (q % 24) < 0))
      (mantissa bn v (q / 24) (q % 24)).natAbs ((el 8 v (248 + q / 24) : ℤ) - 127)) :=
  (if_neg (not_le.mpr hq)).trans (if_neg he)

theorem unblocked_lt (s : State) (bn : Nat) (m : Bool) (v : VWord) (q : Nat) : (unblocked s bn m v q).1 < 2 ^ numberWidth m := by
  rw [← width_numberFmt]
  by_cases hq : 24 * imgBlocks m ≤ q
  · rw [unblocked_behind hq]
    positivity
  · by_cases he : el 8 v (248 + q / 24) = 255
    · rw [unblocked_nan (not_le.mp hq) he]
      exact nanCode_lt _
    · rw [unblocked_number (not_le.mp hq) he]
      exact result_lt ..

/-- The scaled mantissa is rounded once. -/
theorem unblocked_gives (hbn : bn ≤ 8) (hq : q < 24 * imgBlocks m) (he : el 8 v (248 + q / 24) ≠ 255) :
    Gives (numberFmt m) s.me.rmode (random s s.me.rmode 0 q) s.me.graded
      (.num (mantissa bn v (q / 24) (q % 24) * 2 ^ ((el 8 v (248 + q / 24) : ℤ) - 127)) (decide (mantissa bn v (q / 24) (q % 24) < 0)))
      (unblocked s bn m v q).1 (unblocked s bn m v q).2 := by
  have hreach : InReach (.fin (decide (mantissa bn v (q / 24) (q % 24) < 0)) (mantissa bn v (q / 24) (q % 24)).natAbs
      ((el 8 v (248 + q / 24) : ℤ) - 127)) := fun neg k e heq => by
    obtain ⟨-, rfl, -⟩ := FVal.fin.inj heq
    exact (natAbs_mantissa_lt hbn ..).trans (Nat.pow_lt_pow_right (by norm_num) (by norm_num))
  rw [unblocked_number hq he, ← operandOf_integer]
  exact result_gives _ _ _ (random_lt ..) _ _ hreach (standard_numberFmt m).normal

end

theorem fpElements_vbdq {fmt : BitVec 5} (hfmt : fmt.toNat ≤ 19) (hc : VClear s [a]) (hr : Ready (.vbdq d a fmt sp m) s) :
    FpElements (.vbdq d a fmt sp m) s 4 (if s.me.rmode = .sr then 1 else 0) d (numberWidth m) fun q c fl =>
      let e := el 8 (s.me.v a).val (248 + q / 24)
      let z := mantissa (fmt.toNat - 11) (s.me.v a).val (q / 24) (q % 24)
      (24 * imgBlocks m ≤ q → c = 0 ∧ fl = 0) ∧
      (q < 24 * imgBlocks m → (e = 255 → c = (numberFmt m).nanCode ∧ fl = 0) ∧
        (e ≠ 255 → Gives (numberFmt m) s.me.rmode (random s s.me.rmode 0 q) s.me.graded
          (.num (z * 2 ^ ((e : ℤ) - 127)) (decide (z < 0))) c fl)) := by
  obtain ⟨deps, hlanes⟩ := laneBdq_eq s (fmt.toNat - 11) m (s.ops2 a a)
  have hword : vectorWord s (.vbdq d a fmt sp m) = some ⟨sp, 4, if s.me.rmode == .sr then 1 else 0, d, s.ops2 a a,
    laneBdq s.me.venv (fmt.toNat - 11) m (s.ops2 a a).src⟩ := rfl
  rw [draws_rmode, hlanes] at hword
  refine fpElements_byElem hword hr (pois_ops2_self hc) (laneWidth_numberWidth m) fun q _ => ⟨unblocked_lt .., fun hq => ?_, fun hq =>
    ⟨fun he => ?_, fun he => unblocked_gives (by omega) hq he⟩⟩
  · exact Prod.ext_iff.mp (unblocked_behind hq)
  · exact Prod.ext_iff.mp (unblocked_nan hq he)

end

end Sys2Proof.Proofs
end

section
/-! PROOFS. Blocks: the images that registers hold, the block scale rule, and the words `vbq` and `vbscl` (R133, R174, R175, R177). -/

namespace Sys2Proof.Proofs

open Sys2Proof Sys2Proof.Machine Sys2Proof.Claims

/-! ### A register given as a whole (R174) -/

/-- Mantissas of `bn` bits. -/
def MantissaRange (bn : Nat) (y : Int) : Prop := -((2 ^ (bn - 1) : ℕ) : Int) ≤ y ∧ y < ((2 ^ (bn - 1) : ℕ) : Int)

theorem sgn_code {bn : Nat} {y : Int} (hbn : 1 ≤ bn) (hy : MantissaRange bn y) : sgn bn (code bn y) = y := by
  obtain ⟨hlow, hhigh⟩ := hy
  have hpow : 2 ^ bn = 2 * 2 ^ (bn - 1) := by rw [← pow_succ', Nat.sub_add_cancel hbn]
  have hcode : ((code bn y : ℕ) : Int) = y % ((2 ^ bn : ℕ) : Int) := by rw [cast_code]; push_cast; rfl
  rw [sgn]
  rw [hpow] at hcode ⊢
  generalize 2 ^ (bn - 1) = p at *
  generalize code bn y = c at *
  rcases lt_or_ge y 0 with h | h
  · rw [← Int.add_emod_right, Int.emod_eq_of_lt (by omega) (by omega)] at hcode
    split <;> omega
  · rw [Int.emod_eq_of_lt h (by omega)] at hcode
    split <;> omega

/-- A number in two parts, the upper one from bit `p`. -/
theorem two_parts {A B a p b : Nat} (hAa : A < 2 ^ a) (hap : a ≤ p) (hB : B < 2 ^ b) :
    (A + 2 ^ p * B) % 2 ^ p = A ∧ (A + 2 ^ p * B) / 2 ^ p = B ∧ A + 2 ^ p * B < 2 ^ (p + b) := by
  have hpos : 0 < 2 ^ p := by positivity
  have hA : A < 2 ^ p := hAa.trans_le (Nat.pow_le_pow_right two_pos hap)
  refine ⟨by rw [Nat.add_mul_mod_self_left, Nat.mod_eq_of_lt hA], ?_, ?_⟩
  · rw [Nat.add_mul_div_left _ _ hpos, Nat.div_eq_of_lt hA, Nat.zero_add]
  · rw [pow_add]
    nlinarith

theorem toNat_ofNat_of_lt {x n p : Nat} (h : x < 2 ^ p) (hp : p ≤ n) : (BitVec.ofNat n x).toNat = x := by
  rw [BitVec.toNat_ofNat, Nat.mod_eq_of_lt (h.trans_le (Nat.pow_le_pow_right two_pos hp))]

/-- A field that reaches up to bit `p + q`. -/
theorem field_to (x p q : Nat) : x / 2 ^ p % 2 ^ q = x % 2 ^ (p + q) / 2 ^ p := by
  rw [pow_add, Nat.mod_mul_right_div_self]

section
variable {w : Nat} {v : Nat} {fl : Fl} {deps : Nat → List Dep}

theorem wholeReg_value : (packLanes (wholeReg v fl deps)).1 = BitVec.ofNat 2048 v :=
  eq_of_lanes fun j hj => by
    rw [wholeReg, el_byElem (.inl (by decide)) (by omega), el_ofNat _ (by omega), Nat.mod_eq_of_lt (elem_lt ..)]

theorem wholeReg_flags : (packLanes (wholeReg v fl deps)).2.2 = fl := by
  rw [wholeReg, flags_byElem (.inl (by decide))]
  refine BitVec.eq_of_getLsbD_eq fun i _ => ?_
  rw [getLsbD_foldl_or, Bool.eq_iff_iff]
  simp only [Bool.or_eq_true, List.any_eq_true, List.mem_range]
  constructor
  · rintro (h | ⟨j, -, h⟩)
    · simp at h
    · split at h
      · exact h
      · simp at h
  · exact fun h => .inr ⟨0, by decide, h⟩

end

/-- Blocks given by their scales and mantissas. -/
def blockPairs (num : Nat) (e : Nat → Nat) (y : Nat → Nat → Int) : List (Nat × List Int) :=
  (List.range num).map fun k => (e k, (List.range 24).map (y k))

section
variable {bn num : Nat} {e : Nat → Nat} {y : Nat → Nat → Int}

theorem imgOf_blockPairs : imgOf bn (blockPairs num e y) =
    packW (24 * bn) ((List.range num).map fun k => packW bn ((List.range 24).map fun i => code bn (y k i))) +
      2 ^ 1984 * packW 8 ((List.range num).map e) := by
  simp only [imgOf, blockPairs, List.map_map, Function.comp_def]

/-- The image of blocks in a register holds them. -/
theorem image_imgOf (hbn : 1 ≤ bn) (hbn8 : bn ≤ 8) (hnum : num ≤ 4) (he : ∀ k < num, e k < 256)
    (hy : ∀ k < num, ∀ i < 24, MantissaRange bn (y k i)) : Image bn num (BitVec.ofNat 2048 (imgOf bn (blockPairs num e y))) e y := by
  rw [imgOf_blockPairs]
  generalize hA : packW (24 * bn) ((List.range num).map fun k => packW bn ((List.range 24).map fun i => code bn (y k i))) = A
  generalize hB : packW 8 ((List.range num).map e) = B
  have hbits : 24 * bn * num ≤ 768 := (Nat.mul_le_mul (Nat.mul_le_mul_left 24 hbn8) hnum)
  have hAlt : A < 2 ^ (24 * bn * num) := by
    rw [← hA]
    exact (packW_lt ..).trans_eq (by rw [List.length_map, List.length_range])
  have hBlt : B < 2 ^ (8 * num) := by
    rw [← hB]
    exact (packW_lt ..).trans_eq (by rw [List.length_map, List.length_range])
  obtain ⟨hlow, hhigh, hlt⟩ := two_parts (p := 1984) hAlt (by omega) hBlt
  generalize A + 2 ^ 1984 * B = x at hlow hhigh hlt
  have hx : (BitVec.ofNat 2048 x).toNat = x := toNat_ofNat_of_lt hlt (by omega)
  rw [Image, hx]
  refine ⟨fun g hg => ⟨?scale, fun i hi => ?mantissa⟩, ?middle, ?upper⟩
  case scale =>
    have hplace : 8 * (248 + g) = 1984 + 8 * g := by ring
    rw [el, hx, hplace, pow_add, ← Nat.div_div_eq_div_mul, hhigh, ← hB]
    have helem := elem_packW_range (w := 8) e hg
    rw [elem] at helem
    rw [helem]
    exact Nat.mod_eq_of_lt (he g hg)
  case mantissa =>
    have hfits : bn * (24 * g + i + 1) ≤ 1984 := (Nat.mul_le_mul hbn8 (show 24 * g + i + 1 ≤ 96 by omega)).trans (by norm_num)
    have hA' : elem bn x (24 * g + i) = elem bn A (24 * g + i) := by rw [← hlow, elem_mod_two_pow _ hfits]
    have hblock : elem (bn * 24) A g = packW bn ((List.range 24).map fun i => code bn (y g i)) := by
      rw [Nat.mul_comm bn, ← hA, elem_packW_range _ hg]
      exact Nat.mod_eq_of_lt ((packW_lt ..).trans_eq (by rw [List.length_map, List.length_range, Nat.mul_comm]))
    rw [elem] at hA'
    rw [hA', ← elem_elem A g hi, hblock, elem_packW_range _ hi, Nat.mod_eq_of_lt (code_lt ..), sgn_code hbn (hy g hg i hi)]
  case middle =>
    rw [field_to, Nat.add_sub_cancel' (by omega), hlow, Nat.div_eq_of_lt hAlt]
  case upper => exact Nat.div_eq_of_lt hlt

end

section
variable {s : State} {i : Instr} {d a b : Reg} {sp : Bool} {lat bn num : Nat} {e : Nat → Nat} {y : Nat → Nat → Int} {fl : Fl}
  {deps : Nat → List Dep}

/-- A word that makes an image of blocks writes it, with the flags it gives. -/
theorem sends_image (hword : vectorWord s i = plainDo sp lat d (s.ops2 a b) (wholeReg (imgOf bn (blockPairs num e y)) fl deps))
    (hr : Ready i s) (hc : VClear s [a, b]) (hbn : 1 ≤ bn) (hbn8 : bn ≤ 8) (hnum : num ≤ 4) (he : ∀ k < num, e k < 256)
    (hy : ∀ k < num, ∀ i < 24, MantissaRange bn (y k i)) : ∃ v : VWord, Sends i s lat (.vreg d v 0 fl) ∧ Image bn num v e y := by
  have hacts := acts_byElem hword hr (pois_ops2 hc)
  have hvalue : (packLanes (wholeReg (imgOf bn (blockPairs num e y)) fl deps)).1 = _ := wholeReg_value
  have hflags : (packLanes (wholeReg (imgOf bn (blockPairs num e y)) fl deps)).2.2 = _ := wholeReg_flags
  rw [← wholeReg, hvalue, hflags] at hacts
  exact ⟨_, hacts, image_imgOf hbn hbn8 hnum he hy⟩

end

/-! ### The shift of scales (R177) -/

/-- Block `k` of `vbscl` with a shift: its scale, its mantissas, its flags. -/
def shifted (bn : Nat) (v : VWord) (sh : Int) (k : Nat) : Nat × (Nat → Int) × Fl :=
  if el 8 v (248 + k) = 255 ∨ ∀ i < 24, mantissa bn v k i = 0 then (el 8 v (248 + k), mantissa bn v k, 0)
  else if 254 < (el 8 v (248 + k) : Int) + sh then (255, fun _ => 0, flOF)
  else if (el 8 v (248 + k) : Int) + sh < 0 then (0, fun _ => 0, flUF)
  else (((el 8 v (248 + k) : Int) + sh).toNat, mantissa bn v k, 0)

/-- The flags gathered from the blocks. -/
def blockFlags (num : Nat) (fl : Nat → Fl) : Fl := (List.range num).foldl (fun u k => u ||| fl k) 0

theorem blockFlags_bit (num : Nat) (fl : Nat → Fl) (i : Nat) : (blockFlags num fl).getLsbD i = true ↔ ∃ k < num, (fl k).getLsbD i = true := by
  rw [blockFlags, getLsbD_foldl_or]
  simp

/-- A register made of blocks, each with its flags. -/
theorem wholeReg_blockPairs {bn num : Nat} {F : Nat → Nat × List Int × Fl} {e : Nat → Nat} {y : Nat → Nat → Int} {fl : Nat → Fl}
    {deps : Nat → List Dep} (h : ∀ k, F k = (e k, (List.range 24).map (y k), fl k)) :
    wholeReg (imgOf bn (((upTo num).map F).map fun b => (b.1, b.2.1))) (((upTo num).map F).foldl (fun a b => a ||| b.2.2) 0) deps =
      wholeReg (imgOf bn (blockPairs num e y)) (blockFlags num fl) deps := by
  rw [funext h, List.map_map, List.foldl_map]
  rfl

theorem map_zeros : (List.range 24).map (fun _ : Nat => (0 : Int)) = List.replicate 24 0 := by simp

theorem laneBscl_eq (bn : Nat) (m : Bool) (o : VOps) : ∃ deps : Nat → List Dep,
    let r := shifted bn o.a.val (sgn 9 (elem 32 o.b.val.toNat 0 % 512))
    laneBscl bn m o.src = wholeReg (imgOf bn (blockPairs (imgBlocks m) (fun k => (r k).1) fun k => (r k).2.1))
      (blockFlags (imgBlocks m) fun k => (r k).2.2) deps := by
  refine ⟨_, wholeReg_blockPairs fun k => ?_⟩
  have himg : imgBlock bn o.src.a k = _ := imgBlock_eq bn o.a.val k
  have hall : ((List.range 24).map (mantissa bn o.a.val k)).all (fun m => m == 0) = true ↔ ∀ i < 24, mantissa bn o.a.val k i = 0 := by
    simp
  have hsh : elem 32 o.src.b 0 = elem 32 o.b.val.toNat 0 := rfl
  simp only [himg, hall, shifted, hsh]
  split_ifs <;> simp only [map_zeros]

theorem mantissaRange_zero (bn : Nat) : MantissaRange bn 0 :=
  ⟨by simp, by positivity⟩

theorem mantissaRange_mantissa {bn : Nat} (hbn : 1 ≤ bn) (v : VWord) (k i : Nat) : MantissaRange bn (mantissa bn v k i) := by
  have hpow : 2 ^ bn = 2 * 2 ^ (bn - 1) := by rw [← pow_succ', Nat.sub_add_cancel hbn]
  have hlt : v.toNat / 2 ^ (bn * (24 * k + i)) % 2 ^ bn < 2 ^ bn := Nat.mod_lt _ (by positivity)
  unfold MantissaRange mantissa sgn
  generalize v.toNat / 2 ^ (bn * (24 * k + i)) % 2 ^ bn = c at *
  rw [hpow] at *
  split <;> omega

section
variable {bn : Nat} {v : VWord} {sh : Int} {k : Nat}

/-- A block that a shift keeps. -/
def KeepsScale (bn : Nat) (v : VWord) (k : Nat) : Prop := el 8 v (248 + k) = 255 ∨ ∀ i < 24, mantissa bn v k i = 0

theorem shifted_kept (h : KeepsScale bn v k) : shifted bn v sh k = (el 8 v (248 + k), mantissa bn v k, 0) := if_pos h

theorem shifted_over (h : ¬ KeepsScale bn v k) (ht : 254 < (el 8 v (248 + k) : Int) + sh) : shifted bn v sh k = (255, fun _ => 0, flOF) :=
  (if_neg h).trans (if_pos ht)

theorem shifted_under (h : ¬ KeepsScale bn v k) (ht : (el 8 v (248 + k) : Int) + sh < 0) : shifted bn v sh k = (0, fun _ => 0, flUF) :=
  (if_neg h).trans ((if_neg (by omega)).trans (if_pos ht))

theorem shifted_within (h : ¬ KeepsScale bn v k) (hlow : 0 ≤ (el 8 v (248 + k) : Int) + sh) (hhigh : (el 8 v (248 + k) : Int) + sh ≤ 254) :
    shifted bn v sh k = (((el 8 v (248 + k) : Int) + sh).toNat, mantissa bn v k, 0) :=
  (if_neg h).trans ((if_neg (not_lt.mpr hhigh)).trans (if_neg (not_lt.mpr hlow)))

/-- Every block is kept, or its scale passes the range above or below, or stays in it. -/
theorem shifted_cases (bn : Nat) (v : VWord) (sh : Int) (k : Nat) : KeepsScale bn v k ∨ ¬ KeepsScale bn v k ∧
    (254 < (el 8 v (248 + k) : Int) + sh ∨ (el 8 v (248 + k) : Int) + sh < 0 ∨
      0 ≤ (el 8 v (248 + k) : Int) + sh ∧ (el 8 v (248 + k) : Int) + sh ≤ 254) := by
  by_cases h : KeepsScale bn v k
  · exact .inl h
  · exact .inr ⟨h, by omega⟩

theorem shifted_scale_lt : (shifted bn v sh k).1 < 256 := by
  have hlt : el 8 v (248 + k) < 256 := el_lt 8 v _
  obtain h | ⟨h, ht | ht | ⟨hlow, hhigh⟩⟩ := shifted_cases bn v sh k
  · rwa [shifted_kept h]
  · rw [shifted_over h ht]
    decide
  · rw [shifted_under h ht]
    decide
  · rw [shifted_within h hlow hhigh]
    dsimp only
    omega

theorem shifted_range (hbn : 1 ≤ bn) (i : Nat) : MantissaRange bn ((shifted bn v sh k).2.1 i) := by
  obtain h | ⟨h, ht | ht | ⟨hlow, hhigh⟩⟩ := shifted_cases bn v sh k
  · rw [shifted_kept h]
    exact mantissaRange_mantissa hbn v k i
  · rw [shifted_over h ht]
    exact mantissaRange_zero bn
  · rw [shifted_under h ht]
    exact mantissaRange_zero bn
  · rw [shifted_within h hlow hhigh]
    exact mantissaRange_mantissa hbn v k i

/-- OF is bit 2 of the flags, UF bit 3; no other is raised. -/
theorem shifted_flags : ((shifted bn v sh k).2.2.getLsbD 2 = true ↔ ¬ KeepsScale bn v k ∧ 254 < (el 8 v (248 + k) : Int) + sh) ∧
    ((shifted bn v sh k).2.2.getLsbD 3 = true ↔ ¬ KeepsScale bn v k ∧ (el 8 v (248 + k) : Int) + sh < 0) ∧
    ∀ i, (shifted bn v sh k).2.2.getLsbD i = true → (flOF ||| flUF).getLsbD i = true := by
  obtain h | ⟨h, ht | ht | ⟨hlow, hhigh⟩⟩ := shifted_cases bn v sh k
  · rw [shifted_kept h]
    exact ⟨iff_of_false (by simp) fun hk => hk.1 h, iff_of_false (by simp) fun hk => hk.1 h, fun i hi => by simp at hi⟩
  · rw [shifted_over h ht]
    exact ⟨iff_of_true (by decide) ⟨h, ht⟩, iff_of_false (by decide) fun hk => absurd hk.2 (by omega),
      fun i hi => by rw [BitVec.getLsbD_or, hi, Bool.true_or]⟩
  · rw [shifted_under h ht]
    exact ⟨iff_of_false (by decide) fun hk => absurd hk.2 (by omega), iff_of_true (by decide) ⟨h, ht⟩,
      fun i hi => by rw [BitVec.getLsbD_or, hi, Bool.or_true]⟩
  · rw [shifted_within h hlow hhigh]
    exact ⟨iff_of_false (by simp) fun hk => absurd hk.2 (by omega),
      iff_of_false (by simp) fun hk => absurd hk.2 (by omega), fun i hi => by simp at hi⟩

end

section
variable {s : State} {d a b : Reg} {sp m : Bool} {fmt : BitVec 5}

theorem imgBlocks_le (m : Bool) : imgBlocks m ≤ 4 := by cases m <;> decide

theorem vbscl_shifts (hlow : 13 ≤ fmt.toNat) (hhigh : fmt.toNat ≤ 19) (hc : VClear s [a, b]) (hr : Ready (.vbscl d a b fmt sp m) s) :
    let bn := fmt.toNat - 11
    let num := imgBlocks m
    let X := (s.me.v a).val
    let mant := mantissa bn X
    ∃ (v : VWord) (fl : Fl) (e : Nat → Nat) (y : Nat → Nat → Int),
      Sends (.vbscl d a b fmt sp m) s 4 (.vreg d v 0 fl) ∧ Image bn num v e y ∧
      let t := fun k => (el 8 X (248 + k) : Int) + sgn 9 (el 32 (s.me.v b).val 0 % 512)
      let kept := fun k => el 8 X (248 + k) = 255 ∨ ∀ i < 24, mant k i = 0
      (∀ k < num,
        (kept k → e k = el 8 X (248 + k) ∧ ∀ i < 24, y k i = mant k i) ∧
        (¬ kept k → 0 ≤ t k → t k ≤ 254 → (e k : Int) = t k ∧ ∀ i < 24, y k i = mant k i) ∧
        (¬ kept k → 254 < t k → e k = 255 ∧ ∀ i < 24, y k i = 0) ∧
        (¬ kept k → t k < 0 → e k = 0 ∧ ∀ i < 24, y k i = 0)) ∧
      (fl.getLsbD 2 = true ↔ ∃ k < num, ¬ kept k ∧ 254 < t k) ∧ (fl.getLsbD 3 = true ↔ ∃ k < num, ¬ kept k ∧ t k < 0) ∧
      fl &&& ~~~(flOF ||| flUF) = 0 := by
  intro bn num X mant
  obtain ⟨deps, hlanes⟩ := laneBscl_eq bn m (s.ops2 a b)
  have hword : vectorWord s (.vbscl d a b fmt sp m) = plainDo sp 4 d (s.ops2 a b) (laneBscl bn m (s.ops2 a b).src) := rfl
  rw [hlanes] at hword
  obtain ⟨v, hsends, himage⟩ := sends_image hword hr hc (by omega) (by omega) (imgBlocks_le m) (fun _ _ => shifted_scale_lt)
    fun _ _ i _ => shifted_range (by omega) i
  refine ⟨v, _, _, _, hsends, himage, fun k _ => ⟨fun h => ?_, fun h hlow hhigh => ?_, fun h ht => ?_, fun h ht => ?_⟩, ?_, ?_, ?_⟩
  · exact ⟨congrArg Prod.fst (shifted_kept h), fun i _ => congrFun (congrArg (·.2.1) (shifted_kept h)) i⟩
  · have hshift := shifted_within h hlow hhigh
    exact ⟨(congrArg (fun r => ((Prod.fst r : ℕ) : Int)) hshift).trans (Int.toNat_of_nonneg hlow),
      fun i _ => congrFun (congrArg (·.2.1) hshift) i⟩
  · exact ⟨congrArg Prod.fst (shifted_over h ht), fun i _ => congrFun (congrArg (·.2.1) (shifted_over h ht)) i⟩
  · exact ⟨congrArg Prod.fst (shifted_under h ht), fun i _ => congrFun (congrArg (·.2.1) (shifted_under h ht)) i⟩
  · rw [blockFlags_bit]
    exact exists_congr fun k => and_congr_right fun _ => shifted_flags.1
  · rw [blockFlags_bit]
    exact exists_congr fun k => and_congr_right fun _ => shifted_flags.2.1
  · refine (and_not_eq_zero_iff ..).mpr fun i hi => ?_
    obtain ⟨k, -, hk⟩ := (blockFlags_bit ..).mp hi
    exact shifted_flags.2.2 i hk

end

end Sys2Proof.Proofs
end

section
/-! PROOFS. The block scale rule and the word `vbq` (R133, R174, R175). -/

namespace Sys2Proof.Proofs

open Sys2Proof Sys2Proof.Machine Sys2Proof.Claims

/-! ### Values of codes -/

section
variable {f : Fmt} {x : Nat}

/-- A code that no format reserves has a finite value, the number it stands for. -/
theorem value_fin (hf : Standard f) (h : ¬ reservedCode f x) : ∃ neg m e, f.value x = .fin neg m e ∧ signedNum neg m e = numberOf f x ∧
    m < 2 ^ nbits m := by
  have hoperand := operandOf_value f x h
  cases hv : f.value x with
  | fin neg m e =>
    rw [hv] at hoperand
    obtain ⟨hnum, -⟩ := Operand.num.inj hoperand
    have hwithin : InUnits (-160) 321 (f.input true x).1 := inUnits_input hf true x
    rw [input_of_not_flushed f true x (.inl rfl), hv] at hwithin
    exact ⟨neg, m, e, rfl, hnum, lt_two_pow_size 14 m (hwithin.inReach (by decide) neg m e rfl)⟩
  | inf | nan =>
    rw [hv] at hoperand
    nomatch hoperand

theorem special_iff (hf : Standard f) : (f.value x).special = true ↔ reservedCode f x := by
  constructor
  · intro h
    by_contra hr
    obtain ⟨neg, m, e, hv, -⟩ := value_fin hf hr
    rw [hv] at h
    nomatch h
  · intro hr
    cases hv : f.value x with
    | fin neg m e => exact absurd hv (not_fin_of_reserved f x neg m e hr)
    | inf | nan => rfl

end

/-! ### The exponent of the largest magnitude -/

/-- A value's leading bit. -/
theorem signedNum_bounds {neg : Bool} {m : Nat} {e : ℤ} (hm : m ≠ 0) (hlt : m < 2 ^ nbits m) :
    (2 : ℚ) ^ (e + nbits m - 1) ≤ |signedNum neg m e| ∧ |signedNum neg m e| < 2 ^ (e + nbits m - 1 + 1) := by
  have hlow : (2 : ℚ) ^ nbits m ≤ 2 * m := by exact_mod_cast two_pow_size_le 14 m hm
  have hhigh : (m : ℚ) < 2 ^ nbits m := by exact_mod_cast hlt
  have hunit : (0 : ℚ) < 2 ^ e := by positivity
  have hsplit : (2 : ℚ) ^ (e + nbits m - 1 + 1) = 2 ^ nbits m * 2 ^ e := by
    rw [sub_add_cancel, zpow_add₀ two_ne_zero, zpow_natCast, mul_comm]
  have hhalf : (2 : ℚ) ^ (e + nbits m - 1) = 2 ^ nbits m * 2 ^ e / 2 := by
    rw [eq_div_iff two_ne_zero, ← hsplit, zpow_add_one₀ two_ne_zero]
  rw [abs_signedNum, hsplit, hhalf]
  exact ⟨by nlinarith, by gcongr⟩

/-- What a value adds to the search for the largest. -/
def topStep (acc : Option Int) (v : FVal) : Option Int :=
  match v with
  | .fin _ m e => if m = 0 then acc else
    let t : Int := e + nbits m - 1
    match acc with
    | none => some t
    | some u => some (max t u)
  | _ => acc

theorem topExp_concat (l : List FVal) (v : FVal) : topExp (l ++ [v]) = topStep (topExp l) v := List.foldl_concat ..

/-- What a search may end with: no number but 0, or the exponent of the leading bit of one, and none above it. -/
def IsTop (l : List FVal) : Option Int → Prop
  | none => ∀ neg m e, .fin neg m e ∈ l → m = 0
  | some t => (∃ neg m e, .fin neg m e ∈ l ∧ m ≠ 0 ∧ e + nbits m - 1 = t) ∧
    ∀ neg m e, .fin neg m e ∈ l → m ≠ 0 → e + nbits m - 1 ≤ t

/-- A value that is no number, or 0, leaves the search as it is. -/
theorem IsTop.skip {l : List FVal} {acc : Option Int} {v : FVal} (h : IsTop l acc) (hv : ∀ neg m e, v = .fin neg m e → m = 0) :
    IsTop (l ++ [v]) acc := by
  have hmem {neg m e} (hm : FVal.fin neg m e ∈ l ++ [v]) : FVal.fin neg m e ∈ l ∨ m = 0 :=
    (List.mem_append.mp hm).imp_right fun hlast => hv neg m e (List.mem_singleton.mp hlast).symm
  cases acc with
  | none => exact fun neg m e hm => (hmem hm).elim (h neg m e) id
  | some t =>
    obtain ⟨⟨neg, m, e, hm, htop⟩, hall⟩ := h
    exact ⟨⟨neg, m, e, List.mem_append_left _ hm, htop⟩, fun neg m e hm h0 => (hmem hm).elim (hall neg m e · h0) fun hz => absurd hz h0⟩

/-- A number that is not 0 counts by its leading bit. -/
theorem IsTop.number {l : List FVal} {acc : Option Int} {neg : Bool} {m : Nat} {e : Int} (h : IsTop l acc) (hm : m ≠ 0) :
    IsTop (l ++ [.fin neg m e]) (some (acc.elim (e + nbits m - 1) (max (e + nbits m - 1)))) := by
  have hlast : FVal.fin neg m e ∈ l ++ [.fin neg m e] := by simp
  have hmem {neg' m' e'} (hm : FVal.fin neg' m' e' ∈ l ++ [.fin neg m e]) : FVal.fin neg' m' e' ∈ l ∨ e' + nbits m' - 1 = e + nbits m - 1 :=
    (List.mem_append.mp hm).imp_right fun hlast => by
      obtain ⟨-, rfl, rfl⟩ := FVal.fin.inj (List.mem_singleton.mp hlast)
      rfl
  cases acc with
  | none =>
    exact ⟨⟨neg, m, e, hlast, hm, rfl⟩, fun _ _ _ hm h0 => (hmem hm).elim (fun hl => absurd (h _ _ _ hl) h0) le_of_eq⟩
  | some u =>
    obtain ⟨⟨neg', m', e', hm', h0', hu⟩, hall⟩ := h
    refine ⟨?_, fun _ _ _ hm h0 => (hmem hm).elim (fun hl => (hall _ _ _ hl h0).trans (le_max_right ..)) fun heq => heq.le.trans (le_max_left ..)⟩
    rw [Option.elim_some]
    rcases max_choice (e + nbits m - 1) u with hmax | hmax
    · exact ⟨neg, m, e, hlast, hm, hmax.symm⟩
    · exact ⟨neg', m', e', List.mem_append_left _ hm', h0', hu.trans hmax.symm⟩

theorem isTop_topExp (l : List FVal) : IsTop l (topExp l) := by
  induction l using List.reverseRecOn with
  | nil => exact fun _ _ _ h => nomatch h
  | append_singleton l v ih =>
    rw [topExp_concat]
    cases v with
    | inf | nan => exact ih.skip nofun
    | fin neg m e =>
      by_cases hm : m = 0
      · rw [topStep, if_pos hm]
        exact ih.skip fun _ _ _ heq => (FVal.fin.inj heq).2.1 ▸ hm
      · have hstep : topStep (topExp l) (.fin neg m e) =
            some ((topExp l).elim (e + nbits m - 1) (max (e + nbits m - 1))) := by
          rw [topStep, if_neg hm]
          cases topExp l <;> rfl
        rw [hstep]
        exact ih.number hm

/-! ### The block scale rule (R133) -/

/-- A value as a mantissa of `n` bits in units 2^t, and whether it is not exact. -/
def blockMantissa (n : Nat) (t : Int) (v : FVal) : Int × Bool :=
  match v with
  | .fin neg m g =>
    let k := roundInt .rne neg 0 m g t
    let x := signed neg k.1
    let y := max (-(2 ^ (n - 1) - 1)) (min (2 ^ (n - 1) - 1) x)
    (y, k.2 || decide (y ≠ x))
  | _ => (0, false)

theorem blockRule_eq (n : Nat) (vs : List FVal) : blockRule n vs =
    if vs.any FVal.special then (255, List.replicate 24 0, flIV)
    else match topExp vs with
      | none => (0, List.replicate 24 0, 0)
      | some t =>
        if t - (n - 2) + 127 < 0 then (0, List.replicate 24 0, flUF)
        else ((t - (n - 2) + 127).toNat,
          (vs.map (blockMantissa n (t - (n - 2)))).map Prod.fst ++ List.replicate (24 - (vs.map (blockMantissa n (t - (n - 2)))).length) 0,
          flIf ((vs.map (blockMantissa n (t - (n - 2)))).any Prod.snd) flNX) := rfl

theorem roundsInt_exact {m : RMode} {r : Nat} {z : ℚ} {y k : ℤ} (h : RoundsInt m r z y) (hz : z = k) : y = k := by
  obtain ⟨lo, hi, w, ⟨-, -, hlo, hhi, hbetween⟩, ⟨hpick, -⟩, hy⟩ := h
  have habs : |z| = (k.natAbs : ℚ) := by rw [hz, ← Int.cast_abs, Int.abs_eq_natAbs, Int.cast_natCast]
  obtain ⟨hlow, hhigh⟩ := hbetween |z| ⟨_, habs⟩
  have hlo' : lo = |z| := le_antisymm hlo (hlow le_rfl)
  have hhi' : hi = |z| := le_antisymm (hhigh le_rfl) hhi
  rw [hpick (hlo'.trans hhi'.symm), hlo'] at hy
  have hyz : (y : ℚ) = z := by
    rw [hy]
    split
    case isTrue hneg => rw [abs_of_neg hneg, neg_neg]
    case isFalse hneg => exact abs_of_nonneg (not_lt.mp hneg)
  exact_mod_cast hyz.trans hz

/-- A mantissa is its value rounded to the nearest and clamped; it is exact where the scaled value is that integer. -/
theorem blockMantissa_spec (n : Nat) (t : Int) (neg : Bool) (m : Nat) (g : Int) :
    let b := blockMantissa n t (.fin neg m g)
    let z := signedNum neg m g * 2 ^ (-t)
    (∃ y : ℤ, RoundsInt .rne 0 z y ∧ b.1 = max (-(2 ^ (n - 1) - 1)) (min (2 ^ (n - 1) - 1) y)) ∧ (b.2 = false ↔ (b.1 : ℚ) = z) := by
  intro b z
  have hz : z = signedNum neg m (g - t) := by
    simp only [z, signedNum, sub_eq_add_neg, zpow_add₀ (two_ne_zero (α := ℚ))]
    ring
  obtain ⟨hrounds, hexact⟩ := roundInt_rounds (mode := .rne) (r := 0) (neg := neg) (m := m) (e := g - t) (by norm_num)
  rw [← roundInt_shift, ← hz] at hrounds hexact
  refine ⟨⟨_, hrounds, rfl⟩, ?_⟩
  have hb : b.2 = ((roundInt .rne neg 0 m g t).2 || decide (b.1 ≠ signed neg (roundInt .rne neg 0 m g t).1)) := rfl
  rw [hb, Bool.or_eq_false_iff, decide_eq_false_iff_not, not_not, ← hexact]
  constructor
  · rintro ⟨hz, hbx⟩
    rw [hbx, hz]
  · intro hbz
    have hx := roundsInt_exact hrounds hbz.symm
    rw [hx]
    exact ⟨hbz, rfl⟩

theorem map_range_pad {n N : Nat} (h : N ≤ n) (g : Nat → Int) :
    (List.range N).map g ++ List.replicate (n - N) 0 = (List.range n).map fun i => if i < N then g i else 0 := by
  obtain ⟨k, rfl⟩ := Nat.exists_eq_add_of_le h
  rw [Nat.add_sub_cancel_left, List.range_add, List.map_append, List.map_map]
  congr 1
  · exact List.map_congr_left fun i hi => (if_pos (List.mem_range.mp hi)).symm
  · refine (List.eq_replicate_iff.mpr ⟨by simp, fun y hy => ?_⟩).symm
    obtain ⟨i, -, rfl⟩ := List.mem_map.mp hy
    exact if_neg (Nat.not_lt.mpr (Nat.le_add_right N i))

theorem mantissaRange_clamp (bn : Nat) (y : Int) :
    MantissaRange bn (max (-(2 ^ (bn - 1) - 1)) (min (2 ^ (bn - 1) - 1) y)) := by
  have hpos : (1 : Int) ≤ 2 ^ (bn - 1) := one_le_pow₀ (by norm_num)
  unfold MantissaRange
  push_cast
  omega

section
variable {bn N : Nat} {f : Fmt} {x : Nat → Nat}

/-- Values of the codes of a block. -/
def blockValues (f : Fmt) (N : Nat) (x : Nat → Nat) : List FVal := (List.range N).map fun i => f.value (x i)

theorem special_blockValues (hf : Standard f) : (blockValues f N x).any FVal.special = true ↔ ∃ i < N, reservedCode f (x i) := by
  simp only [blockValues, List.any_map, List.any_eq_true, List.mem_range, Function.comp_apply, special_iff hf]

/-- What the rule makes of a block: scale, mantissas, flags, and that an image can hold them. -/
structure RuleMakes (bn : Nat) (f : Fmt) (N : Nat) (x : Nat → Nat) (e : Nat) (y : Nat → Int) (fl : Fl) : Prop where
  rule : blockRule bn (blockValues f N x) = (e, (List.range 24).map y, fl)
  block : BlockOf bn f N x e y fl
  scale : e < 256
  range : ∀ i < 24, MantissaRange bn (y i)

theorem ruleMakes_special (hf : Standard f) (h : ∃ i < N, reservedCode f (x i)) : RuleMakes bn f N x 255 (fun _ => 0) flIV where
  rule := by rw [blockRule_eq, if_pos ((special_blockValues hf).mpr h), map_zeros]
  block := ⟨fun _ => ⟨rfl, fun _ _ => rfl, rfl⟩, fun hnone => by
    obtain ⟨i, hi, hr⟩ := h
    exact absurd hr (hnone i hi)⟩
  scale := by decide
  range _ _ := mantissaRange_zero bn

theorem mem_blockValues {v : FVal} : v ∈ blockValues f N x ↔ ∃ i < N, f.value (x i) = v := by
  simp [blockValues]

theorem ruleMakes_zeros (hf : Standard f) (hnone : ∀ i < N, ¬ reservedCode f (x i)) (h : topExp (blockValues f N x) = none) :
    RuleMakes bn f N x 0 (fun _ => 0) 0 where
  rule := by
    rw [blockRule_eq, if_neg (mt (special_blockValues hf).mp (by simpa using hnone)), h, map_zeros]
  block := by
    have htop := isTop_topExp (blockValues f N x)
    rw [h] at htop
    have hzero (i : Nat) (hi : i < N) : numberOf f (x i) = 0 := by
      obtain ⟨neg, m, e, hv, hnumber, -⟩ := value_fin hf (hnone i hi)
      rw [← hnumber, signedNum_eq_zero]
      exact htop neg m e (mem_blockValues.mpr ⟨i, hi, hv⟩)
    refine ⟨fun ⟨i, hi, hr⟩ => absurd hr (hnone i hi), fun _ => ⟨fun _ => ⟨⟨rfl, fun _ _ => rfl⟩, rfl⟩, fun ⟨i, hi, hne⟩ => ?_⟩⟩
    exact absurd (hzero i hi) hne
  scale := by decide
  range _ _ := mantissaRange_zero bn

/-- The leading bit of the largest number of a block. -/
theorem top_bounds (hf : Standard f) (hnone : ∀ i < N, ¬ reservedCode f (x i)) {t : Int} (h : topExp (blockValues f N x) = some t) :
    (∃ i < N, (2 : ℚ) ^ t ≤ |numberOf f (x i)|) ∧ ∀ i < N, |numberOf f (x i)| < 2 ^ (t + 1) := by
  have htop := isTop_topExp (blockValues f N x)
  rw [h] at htop
  obtain ⟨⟨neg, m, e, hmem, hm, ht⟩, hall⟩ := htop
  constructor
  · obtain ⟨i, hi, hv⟩ := mem_blockValues.mp hmem
    obtain ⟨neg', m', e', hv', hnumber, hlt⟩ := value_fin hf (hnone i hi)
    obtain ⟨rfl, rfl, rfl⟩ := FVal.fin.inj (hv.symm.trans hv')
    exact ⟨i, hi, by rw [← ht, ← hnumber]; exact (signedNum_bounds hm hlt).1⟩
  · intro i hi
    obtain ⟨neg', m', e', hv, hnumber, hlt⟩ := value_fin hf (hnone i hi)
    rw [← hnumber]
    by_cases hm' : m' = 0
    · rw [(signedNum_eq_zero ..).mpr hm', abs_zero]
      positivity
    · have hle := hall neg' m' e' (mem_blockValues.mpr ⟨i, hi, hv⟩) hm'
      exact (signedNum_bounds hm' hlt).2.trans_le (zpow_le_zpow_right₀ (by norm_num) (by omega))

/-- The same from the exponent of the scale, as R133 counts it. -/
theorem scale_bounds (hf : Standard f) (hnone : ∀ i < N, ¬ reservedCode f (x i)) {t : Int} (h : topExp (blockValues f N x) = some t)
    (bn : Nat) : (∃ i < N, numberOf f (x i) ≠ 0) ∧ (∃ i < N, (2 : ℚ) ^ (t - (bn - 2) + bn - 2) ≤ |numberOf f (x i)|) ∧
    ∀ i < N, |numberOf f (x i)| < (2 : ℚ) ^ (t - (bn - 2) + bn - 1) := by
  obtain ⟨⟨i, hi, hlow⟩, hhigh⟩ := top_bounds hf hnone h
  have hlead : t - (bn - 2) + bn - 2 = t := by ring
  have hnext : t - (bn - 2) + bn - 1 = t + 1 := by ring
  rw [hlead, hnext]
  exact ⟨⟨i, hi, abs_pos.mp ((by positivity : (0 : ℚ) < 2 ^ t).trans_le hlow)⟩, ⟨i, hi, hlow⟩, hhigh⟩

/-- A block whose scale would lie below its range. -/
theorem ruleMakes_under (hf : Standard f) (hnone : ∀ i < N, ¬ reservedCode f (x i)) {t : Int}
    (h : topExp (blockValues f N x) = some t) (ht : t - (bn - 2) + 127 < 0) : RuleMakes bn f N x 0 (fun _ => 0) flUF where
  rule := by
    rw [blockRule_eq, if_neg (mt (special_blockValues hf).mp (by simpa using hnone)), h]
    dsimp only
    rw [if_pos ht, map_zeros]
  block := by
    obtain ⟨⟨i, hi, hne⟩, hlow, hhigh⟩ := scale_bounds hf hnone h bn
    refine ⟨fun ⟨i, hi, hr⟩ => absurd hr (hnone i hi), fun _ => ⟨fun hzero => absurd (hzero i hi) hne, fun _ => ⟨t - (bn - 2), hlow, hhigh,
      fun _ => ⟨⟨rfl, fun _ _ => rfl⟩, rfl⟩, fun hge => absurd ht (not_lt.mpr hge)⟩⟩⟩
  scale := by decide
  range _ _ := mantissaRange_zero bn

/-- The mantissas of a block with a scale. -/
def blockMantissas (bn : Nat) (f : Fmt) (N : Nat) (x : Nat → Nat) (t : Int) (i : Nat) : Int :=
  if i < N then (blockMantissa bn t (f.value (x i))).1 else 0

/-- Whether a mantissa of a block is not exact. -/
def blockInexact (bn : Nat) (f : Fmt) (N : Nat) (x : Nat → Nat) (t : Int) : Bool :=
  (List.range N).any fun i => (blockMantissa bn t (f.value (x i))).2

/-- A block with its scale in range: its mantissas are rounded to the nearest and clamped, with NX where one is not exact. -/
theorem ruleMakes_scaled (hf : Standard f) (hbn : 2 ≤ bn) (hN : N ≤ 24) (hmax : ∀ x, ¬ reservedCode f x → |numberOf f x| < 2 ^ (128 : ℤ))
    (hnone : ∀ i < N, ¬ reservedCode f (x i)) {t : Int} (h : topExp (blockValues f N x) = some t) (ht : ¬ t - (bn - 2) + 127 < 0) :
    RuleMakes bn f N x (t - (bn - 2) + 127).toNat (blockMantissas bn f N x (t - (bn - 2)))
      (flIf (blockInexact bn f N x (t - (bn - 2))) flNX) where
  rule := by
    rw [blockRule_eq, if_neg (mt (special_blockValues hf).mp (by simpa using hnone)), h]
    dsimp only
    rw [if_neg ht]
    simp only [blockValues, List.map_map, List.length_map, List.length_range, map_range_pad hN, List.any_map]
    rfl
  block := by
    obtain ⟨⟨i, hi, hne⟩, hlow, hhigh⟩ := scale_bounds hf hnone h bn
    have hmantissa (i : Nat) (hi : i < N) : (∃ y : ℤ, RoundsInt .rne 0 (numberOf f (x i) * 2 ^ (-(t - (bn - 2)))) y ∧
        blockMantissas bn f N x (t - (bn - 2)) i = max (-(2 ^ (bn - 1) - 1)) (min (2 ^ (bn - 1) - 1) y)) ∧
        ((blockMantissa bn (t - (bn - 2)) (f.value (x i))).2 = false ↔
          (blockMantissas bn f N x (t - (bn - 2)) i : ℚ) = numberOf f (x i) * 2 ^ (-(t - (bn - 2)))) := by
      obtain ⟨neg, m, e, hv, hnumber, -⟩ := value_fin hf (hnone i hi)
      rw [blockMantissas, if_pos hi, hv, ← hnumber]
      exact blockMantissa_spec ..
    refine ⟨fun ⟨i, hi, hr⟩ => absurd hr (hnone i hi), fun _ => ⟨fun hzero => absurd (hzero i hi) hne, fun _ => ⟨t - (bn - 2), hlow, hhigh,
      fun hunder => absurd hunder ht, fun hge => ⟨Int.toNat_of_nonneg hge, fun i _ hi => if_neg (not_lt.mpr hi),
        fun i hi => (hmantissa i hi).1, fun hexact => ?_, fun ⟨i, hi, hinexact⟩ => ?_⟩⟩⟩⟩
    · have hany : blockInexact bn f N x (t - (bn - 2)) = false := List.any_eq_false.mpr fun i hi => by
        have hi := List.mem_range.mp hi
        rw [(hmantissa i hi).2.mpr (hexact i hi)]
        decide
      rw [hany]
      rfl
    · have hany : blockInexact bn f N x (t - (bn - 2)) = true :=
        List.any_eq_true.mpr ⟨i, List.mem_range.mpr hi, Bool.not_eq_false _ ▸ mt (hmantissa i hi).2.mp hinexact⟩
      rw [hany]
      rfl
  scale := by
    obtain ⟨⟨i, hi, hlow⟩, -⟩ := top_bounds hf hnone h
    have hlt : t < 128 := (zpow_lt_zpow_iff_right₀ (by norm_num : (1 : ℚ) < 2)).mp (hlow.trans_lt (hmax (x i) (hnone i hi)))
    omega
  range i _ := by
    rw [blockMantissas]
    split
    · cases f.value (x i) with
      | fin neg m g => exact mantissaRange_clamp ..
      | inf | nan => exact mantissaRange_zero bn
    · exact mantissaRange_zero bn

theorem exists_ruleMakes (hf : Standard f) (hbn : 2 ≤ bn) (hN : N ≤ 24)
    (hmax : ∀ x, ¬ reservedCode f x → |numberOf f x| < 2 ^ (128 : ℤ)) (x : Nat → Nat) : ∃ e y fl, RuleMakes bn f N x e y fl := by
  by_cases hspecial : ∃ i < N, reservedCode f (x i)
  · exact ⟨_, _, _, ruleMakes_special hf hspecial⟩
  · have hnone (i : Nat) (hi : i < N) (hr : reservedCode f (x i)) : False := hspecial ⟨i, hi, hr⟩
    cases htop : topExp (blockValues f N x) with
    | none => exact ⟨_, _, _, ruleMakes_zeros hf hnone htop⟩
    | some t =>
      by_cases ht : t - (bn - 2) + 127 < 0
      · exact ⟨_, _, _, ruleMakes_under hf hnone htop ht⟩
      · exact ⟨_, _, _, ruleMakes_scaled hf hbn hN hmax hnone htop ht⟩

end

/-! ### Blocks made of numbers (R175) -/

theorem magnitude_infCode {f : Fmt} (hew : f.ew ≠ 0) : magnitude f f.infCode = 2 ^ (((2 ^ f.ew - 1 : ℕ) : ℤ) - f.bias) := by
  have hne : 2 ^ f.ew - 1 ≠ 0 := Nat.sub_ne_zero_of_lt (Nat.one_lt_two_pow hew)
  have hparts := magnitude_of_parts f (2 ^ f.ew - 1) 0 (by positivity)
  rw [if_neg hne, Nat.add_zero] at hparts
  rw [Fmt.infCode, hparts, Nat.cast_zero, add_zero, ← zpow_natCast, ← zpow_add₀ two_ne_zero]
  congr 1
  unfold unitExp
  ring

theorem numberFmt_lt (m : Bool) (x : Nat) (h : ¬ reservedCode (numberFmt m) x) : |numberOf (numberFmt m) x| < 2 ^ (128 : ℤ) := by
  have hmax : magnitude (numberFmt m) (numberFmt m).infCode = 2 ^ (128 : ℤ) := by
    rw [magnitude_infCode (standard_numberFmt m).exponents]
    cases m <;> rfl
  have hsp : (numberFmt m).sp = .ieee := by cases m <;> rfl
  exact hmax ▸ abs_numberOf_lt hsp h

/-- The flags of the blocks are those of the rule, block by block; an empty block is one of zeros. -/
theorem laneBq_eq (bn : Nat) (m : Bool) (o : VOps) {e : Nat → Nat} {y : Nat → Nat → Int} {fl : Nat → Fl}
    (h : ∀ k, blockRule bn (blockValues (numberFmt m) (min 24 (min (el 8 o.b.val 0) (24 * imgBlocks m) - 24 * k))
      fun i => el (numberWidth m) o.a.val (24 * k + i)) = (e k, (List.range 24).map (y k), fl k)) : ∃ deps : Nat → List Dep,
    laneBq bn m o.src = wholeReg (imgOf bn (blockPairs (imgBlocks m) e y)) (blockFlags (imgBlocks m) fl) deps := by
  refine ⟨_, wholeReg_blockPairs fun k => ?_⟩
  rw [← h k]
  by_cases hempty : (blockValues (numberFmt m) (min 24 (min (el 8 o.b.val 0) (24 * imgBlocks m) - 24 * k))
      fun i => el (numberWidth m) o.a.val (24 * k + i)).isEmpty = true
  · rw [List.isEmpty_iff.mp hempty]
    exact if_pos hempty
  · exact if_neg hempty

theorem vbq_blocks {s : State} {d a b : Reg} {fmt : BitVec 5} {sp m : Bool} (hlow : 13 ≤ fmt.toNat) (hhigh : fmt.toNat ≤ 19)
    (hc : VClear s [a, b]) (hr : Ready (.vbq d a b fmt sp m) s) : ∃ (v : VWord) (e : Nat → Nat) (y : Nat → Nat → Int) (fl : Nat → Fl),
      Sends (.vbq d a b fmt sp m) s 6 (.vreg d v 0 ((List.range (imgBlocks m)).foldl (fun u k => u ||| fl k) 0)) ∧
      Image (fmt.toNat - 11) (imgBlocks m) v e y ∧
      ∀ k < imgBlocks m, BlockOf (fmt.toNat - 11) (numberFmt m) (min 24 (min (el 8 (s.me.v b).val 0) (24 * imgBlocks m) - 24 * k))
        (fun i => el (numberWidth m) (s.me.v a).val (24 * k + i)) (e k) (y k) (fl k) := by
  have hmakes (k : Nat) := exists_ruleMakes (standard_numberFmt m) (by omega : 2 ≤ fmt.toNat - 11)
    (min_le_left 24 (min (el 8 (s.me.v b).val 0) (24 * imgBlocks m) - 24 * k)) (numberFmt_lt m)
    (fun i => el (numberWidth m) (s.me.v a).val (24 * k + i))
  choose e y fl h using hmakes
  obtain ⟨deps, hlanes⟩ := laneBq_eq (fmt.toNat - 11) m (s.ops2 a b) fun k => (h k).rule
  have hword : vectorWord s (.vbq d a b fmt sp m) = plainDo sp 6 d (s.ops2 a b) (laneBq (fmt.toNat - 11) m (s.ops2 a b).src) := rfl
  rw [hlanes] at hword
  obtain ⟨v, hsends, himage⟩ := sends_image hword hr hc (by omega) (by omega) (imgBlocks_le m) (fun k _ => (h k).scale)
    fun k _ => (h k).range
  exact ⟨v, e, y, fl, hsends, himage, fun k _ => (h k).block⟩

end Sys2Proof.Proofs
end

section
/-! PROOFS. Approximations of reals by a count and a sticky bit: comparisons with the grid of a format, and the neighbours that the
rounding of the count finds (R139, R140, R142, R162). -/

namespace Sys2Proof.Proofs

open Sys2Proof Sys2Proof.Machine Sys2Proof.Claims

/-! ### Brackets on the grid of a format -/

section
variable {f : Fmt} {P : ℚ → Prop} {a lo hi : ℚ}

theorem brackets_unique {lo' hi' : ℚ} (h : Brackets P a lo hi) (h' : Brackets P a lo' hi') : lo = lo' ∧ hi = hi' := by
  obtain ⟨hlo, hhi, hle, hge, hnext⟩ := h
  obtain ⟨hlo', hhi', hle', hge', hnext'⟩ := h'
  exact ⟨le_antisymm ((hnext' lo hlo).1 hle) ((hnext lo' hlo').1 hle'), le_antisymm ((hnext hi' hhi').2 hge') ((hnext' hi hhi).2 hge)⟩

theorem brackets_eq_iff {w : ℚ} (h : Brackets P a lo hi) (hw : w = lo ∨ w = hi) : w = a ↔ lo = hi := by
  obtain ⟨hlo, hhi, hle, hge, hnext⟩ := h
  refine ⟨fun hwa => ?_, fun heq => ?_⟩
  · have hPa : P a := hwa ▸ hw.elim (· ▸ hlo) (· ▸ hhi)
    exact le_antisymm (hle.trans hge) (((hnext a hPa).2 le_rfl).trans ((hnext a hPa).1 le_rfl))
  · have hwlo : w = lo := hw.elim id (·.trans heq.symm)
    exact hwlo.trans (le_antisymm hle (heq ▸ hge))

theorem picks_or {m : RMode} {r : Nat} {neg : Bool} {w : ℚ} (h : Picks m r neg a lo hi w) : w = lo ∨ w = hi := by
  obtain ⟨heq, hne⟩ := h
  by_cases hlh : lo = hi
  · exact .inl (heq hlh)
  · by_cases hup : raises m r neg a lo hi
    · exact .inr ((hne hlh).1 hup)
    · exact .inl ((hne hlh).2 hup)

theorem onGrid_magnitude (f : Fmt) (c : Nat) : OnGrid f (magnitude f c) := by
  have hr : c % 2 ^ f.mw < 2 ^ f.mw := Nat.mod_lt _ (by positivity)
  have hpow : 2 ^ (f.mw + 1) = 2 * 2 ^ f.mw := pow_succ' ..
  rw [magnitude]
  generalize c / 2 ^ f.mw = d, c % 2 ^ f.mw = r at hr ⊢
  split
  case isTrue => exact ⟨_, unitExp f, by omega, le_rfl, rfl⟩
  case isFalse => exact ⟨2 ^ f.mw + r, (d : ℤ) - f.bias - f.mw, by omega, by omega, by push_cast; rfl⟩

/-- Numbers of whole units, with one bit more than the grid of a format has: its neighbours and the points half way between them. -/
def Finer (f : Fmt) (y : ℚ) : Prop := ∃ (k : ℕ) (p : ℤ), k ≤ 2 ^ (f.mw + 2) ∧ y = k * 2 ^ p

theorem Finer.nonneg {y : ℚ} (h : Finer f y) : 0 ≤ y := by
  obtain ⟨k, p, -, rfl⟩ := h
  positivity

theorem finer_of_onGrid {y : ℚ} (h : OnGrid f y) : Finer f y := by
  obtain ⟨k, p, hk, -, rfl⟩ := h
  exact ⟨k, p, hk.trans (Nat.pow_le_pow_right (by norm_num) (by omega)), rfl⟩

theorem finer_two_pow (f : Fmt) (p : ℤ) : Finer f (2 ^ p) := ⟨1, p, Nat.one_le_two_pow, by simp⟩

theorem finer_below (f : Fmt) : Finer f (below f) :=
  ⟨_, _, (Nat.sub_le ..).trans (Nat.pow_le_pow_right (by norm_num) (by omega)), below_eq f⟩

theorem finer_middle {m : Nat} {e : ℤ} (h0 : m ≠ 0) (hm : m < 2 ^ 2 ^ 14) (h : Brackets (OnGrid f) (m * 2 ^ e) lo hi) :
    Finer f ((lo + hi) / 2) := by
  obtain ⟨l, u, R⟩ := exists_rounded .rne 0 (by norm_num) false m e (roundExp f m e)
  have hlt := lt_two_pow_roundExp f m e hm
  obtain ⟨rfl, rfl⟩ := brackets_unique h (R.brackets (le_max_right ..) hlt (roundExp_eq_or_le f m e h0))
  have hu : u ≤ 2 ^ (f.mw + 1) := R.high_le _ (by exact_mod_cast hlt.le)
  have hpow : 2 ^ (f.mw + 2) = 2 * 2 ^ (f.mw + 1) := pow_succ' ..
  refine ⟨l + u, roundExp f m e - 1, by have := R.low_le_high; omega, ?_⟩
  rw [zpow_sub_one₀ two_ne_zero]
  push_cast
  ring

end

/-! ### A real in a cell -/

/-- The magnitude that the model rounds in place of a real in a cell: the middle of the cell, or its exact lower end. -/
def middle (x : Near) : ℚ := x.mant * 2 ^ (x.e - 1)

theorem middle_eq (x : Near) : middle x = (x.q + if x.st then 1 / 2 else 0) * 2 ^ x.e := by
  rw [middle, Near.mant, zpow_sub_one₀ two_ne_zero]
  split <;> push_cast <;> ring

/-- A real, given by the numbers below it and those above it, is where a cell says. -/
structure RealCell (x : Near) (Below Above : ℚ → Prop) : Prop where
  exact : x.st = false → ∀ y : ℚ, 0 ≤ y → (Below y ↔ y < x.q * 2 ^ x.e) ∧ (Above y ↔ x.q * 2 ^ x.e < y)
  low : x.st = true → ∀ y : ℚ, 0 ≤ y → y ≤ x.q * 2 ^ x.e → Below y ∧ ¬ Above y
  high : x.st = true → ∀ y : ℚ, 0 ≤ y → (x.q + 1 : ℕ) * 2 ^ x.e ≤ y → Above y ∧ ¬ Below y

/-- A magnitude compares with the finer grid as a real does. -/
def Agrees (f : Fmt) (a : ℚ) (Below Above : ℚ → Prop) : Prop := ∀ y, Finer f y → (Below y ↔ y < a) ∧ (Above y ↔ a < y)

/-- A cell with more bits than the finer grid has none of its points inside. -/
theorem Finer.outside {f : Fmt} {x : Near} {y : ℚ} (hq : 2 ^ (f.mw + 2) ≤ x.q) (h : Finer f y) :
    y ≤ x.q * 2 ^ x.e ∨ (x.q + 1 : ℕ) * 2 ^ x.e ≤ y := by
  obtain ⟨k, p, hk, rfl⟩ := h
  by_cases hp : x.e ≤ p
  · obtain ⟨d, rfl⟩ : ∃ d : ℕ, p = x.e + d := ⟨(p - x.e).toNat, by omega⟩
    have hy : (k : ℚ) * 2 ^ (x.e + d) = (k * 2 ^ d : ℕ) * 2 ^ x.e := by
      rw [zpow_add₀ two_ne_zero, zpow_natCast]; push_cast; ring
    rw [hy]
    rcases Nat.lt_or_ge x.q (k * 2 ^ d) with h | h
    · exact .inr (by gcongr; exact h)
    · exact .inl (by gcongr)
  · refine .inl ?_
    have hkq : (k : ℚ) ≤ x.q := by exact_mod_cast hk.trans hq
    gcongr
    · norm_num
    · omega

theorem RealCell.agrees {f : Fmt} {x : Near} {Below Above : ℚ → Prop} (h : RealCell x Below Above) (hq : 2 ^ (f.mw + 2) ≤ x.q) :
    Agrees f (middle x) Below Above := fun y hy => by
  have hu : (0 : ℚ) < 2 ^ x.e := by positivity
  cases hst : x.st with
  | false =>
    have hmid : middle x = x.q * 2 ^ x.e := by rw [middle_eq, hst]; simp
    rw [hmid]
    exact h.exact hst y hy.nonneg
  | true =>
    have hlow : (x.q : ℚ) * 2 ^ x.e < middle x := by rw [middle_eq, hst, if_pos rfl]; nlinarith
    have hhigh : middle x < (x.q + 1 : ℕ) * 2 ^ x.e := by rw [middle_eq, hst, if_pos rfl]; push_cast; nlinarith
    rcases hy.outside hq with hle | hge
    · obtain ⟨hbelow, habove⟩ := h.low hst y hy.nonneg hle
      exact ⟨iff_of_true hbelow (hle.trans_lt hlow), iff_of_false habove (hle.trans hlow.le).not_gt⟩
    · obtain ⟨habove, hbelow⟩ := h.high hst y hy.nonneg hge
      exact ⟨iff_of_false hbelow (hhigh.le.trans hge).not_gt, iff_of_true habove (hhigh.trans_le hge)⟩

theorem Agrees.le_iff {f : Fmt} {a b y : ℚ} (h : Agrees f a (· < b) (b < ·)) (hy : Finer f y) :
    (y ≤ b ↔ y ≤ a) ∧ (b ≤ y ↔ a ≤ y) := by
  obtain ⟨hbelow, habove⟩ := h y hy
  exact ⟨by simpa using not_congr habove, by simpa using not_congr hbelow⟩

theorem brackets_of_agrees {f : Fmt} {a b lo hi : ℚ} (h : Agrees f a (· < b) (b < ·)) (hbr : Brackets (OnGrid f) a lo hi) :
    Brackets (OnGrid f) b lo hi := by
  obtain ⟨hlo, hhi, hle, hge, hnext⟩ := hbr
  refine ⟨hlo, hhi, (h.le_iff (finer_of_onGrid hlo)).1.mpr hle, (h.le_iff (finer_of_onGrid hhi)).2.mpr hge, fun y hy => ?_⟩
  rw [(h.le_iff (finer_of_onGrid hy)).1, (h.le_iff (finer_of_onGrid hy)).2]
  exact hnext y hy

/-! ### Rounding a real by its cell -/

/-- Numbers that the finer grid does not tell apart round alike to nearest. -/
theorem Rounds.of_agrees {f : Fmt} {g : Bool} {z : ℚ} {m : Nat} {e : ℤ} {c : Nat} {fl : Fl} (h0 : m ≠ 0) (hm : m < 2 ^ 2 ^ 14)
    (hab : Agrees f (m * 2 ^ e) (· < |z|) (|z| < ·))
    (h : Rounds f .rne 0 g ((if decide (z < 0) then -1 else 1) * (m * 2 ^ e)) c fl) : Rounds f .rne 0 g z c fl := by
  have hpos : (0 : ℚ) < m * 2 ^ e := mul_pos (by exact_mod_cast Nat.pos_of_ne_zero h0) (by positivity)
  have hneg : decide ((if decide (z < 0) then -1 else 1) * ((m : ℚ) * 2 ^ e) < 0) = decide (z < 0) := by
    by_cases hz : z < 0
    · simpa [hz] using hpos
    · simpa [hz] using hpos.le
  have habs : |(if decide (z < 0) then -1 else 1) * ((m : ℚ) * 2 ^ e)| = m * 2 ^ e := by
    rw [abs_mul, abs_of_pos hpos]; split <;> simp
  have hleast : Finer f (least f) := finer_two_pow ..
  rw [Rounds, hneg, habs] at h
  obtain ⟨hflush, hround⟩ := h
  refine ⟨fun hg hb => hflush hg ((hab.le_iff (finer_below f)).2.mp hb), fun hg => ?_⟩
  obtain ⟨lo, hi, w, hbr, hpick, hover, hfit⟩ := hround (hg.imp_right (hab.le_iff hleast).1.mp)
  have hw : OnGrid f w := (picks_or hpick).elim (· ▸ hbr.1) (· ▸ hbr.2.1)
  have hwa : w = |z| ↔ w = m * 2 ^ e := by
    rw [le_antisymm_iff, le_antisymm_iff, (hab.le_iff (finer_of_onGrid hw)).1, (hab.le_iff (finer_of_onGrid hw)).2]
  have hmid := hab _ (finer_middle h0 hm hbr)
  have hraise : raises .rne 0 (decide (z < 0)) |z| lo hi ↔ raises .rne 0 (decide (z < 0)) (m * 2 ^ e) lo hi := by
    have hlt (b : ℚ) : lo + hi < 2 * b ↔ (lo + hi) / 2 < b := by rw [div_lt_iff₀ two_pos, mul_comm]
    have heq (b : ℚ) : 2 * b = lo + hi ↔ ¬ (lo + hi) / 2 < b ∧ ¬ b < (lo + hi) / 2 := by
      rw [not_lt, not_lt, ← le_antisymm_iff, eq_div_iff two_ne_zero, mul_comm]
    simp only [raises, hlt, heq, hmid]
  refine ⟨lo, hi, w, brackets_of_agrees hab hbr, ⟨hpick.1, fun hne => ?_⟩, hover, fun hle => ?_⟩
  · rw [hraise]
    exact hpick.2 hne
  · simp only [hwa, (hab.le_iff hleast).1, (hab.le_iff (finer_below f)).2]
    exact hfit hle

end Sys2Proof.Proofs
end

section
/-! PROOFS. The results of approximations: codes that fit, exact results, the neighbours in f32, overflow (R140, R162). -/

namespace Sys2Proof.Proofs

open Sys2Proof Sys2Proof.Machine Sys2Proof.Claims

/-! ### Rounding within the normal range -/

section
variable {f : Fmt} {m : Nat} {e : ℤ} {lo hi : ℚ}

/-- The code that rounding makes of a magnitude between the smallest and the largest normal number. -/
theorem round_within {r : Nat} (hr : r < 65536) (mode : RMode) (g neg : Bool) (h0 : m ≠ 0) (hm : m < 2 ^ 2 ^ 14)
    (hleast : least f ≤ m * 2 ^ e) (hmax : m * 2 ^ e ≤ magnitude f f.maxCode) : ∃ lo hi c, Brackets (OnGrid f) (m * 2 ^ e) lo hi ∧
      Picks mode r neg (m * 2 ^ e) lo hi (magnitude f c) ∧ c ≤ f.maxCode ∧
      f.round mode r g neg m e = (f.zero neg + c, if lo = hi then 0 else flNX) := by
  obtain ⟨l, h, R⟩ := exists_rounded mode r hr neg m e (roundExp f m e)
  have hbr : Brackets (OnGrid f) (m * 2 ^ e) (l * 2 ^ roundExp f m e) (h * 2 ^ roundExp f m e) :=
    R.brackets (le_max_right ..) (lt_two_pow_roundExp f m e hm) (roundExp_eq_or_le f m e h0)
  have hmag : magnitude f (roundCode f mode r neg m e) = _ := magnitude_roundCode f mode r hr neg m e h0 hm
  have hor := picks_or R.picks
  have hfit : roundCode f mode r neg m e ≤ f.maxCode := by
    rw [← (magnitude_strictMono f).le_iff_le, hmag]
    obtain ⟨-, -, hle, hge, hnext⟩ := hbr
    exact (hor.elim (·.le.trans (hle.trans hge)) le_of_eq).trans ((hnext _ (onGrid_magnitude ..)).2 hmax)
  have hexact := R.eq_iff.symm.trans (brackets_eq_iff hbr hor)
  refine ⟨_, _, roundCode f mode r neg m e, hbr, hmag ▸ R.picks, hfit, ?_⟩
  rw [round_eq f mode r g neg m e h0, if_neg hfit.not_gt, isTiny_of_least_le f mode r neg m e hm hleast, Bool.false_and,
    if_neg Bool.false_ne_true, flags_of_not_tiny]
  cases hx : (roundInt mode neg r m e (roundExp f m e)).2 with
  | false => rw [if_pos (hexact.mp hx), if_neg Bool.false_ne_true]
  | true => rw [if_neg (mt hexact.mpr (hx ▸ Bool.true_eq_false_eq_False)), if_pos rfl]

/-- A representable magnitude is its own rounding. -/
theorem round_exact {c : Nat} (mode : RMode) (g neg : Bool) (h0 : m ≠ 0) (hm : m < 2 ^ 2 ^ 14) (hleast : least f ≤ m * 2 ^ e)
    (hc : c ≤ f.maxCode) (hmag : magnitude f c = m * 2 ^ e) : f.round mode 0 g neg m e = (f.zero neg + c, 0) := by
  obtain ⟨lo, hi, c', ⟨-, -, hle, hge, hnext⟩, ⟨heq, -⟩, -, hround⟩ := round_within (r := 0) (by norm_num) mode g neg h0 hm hleast
    (hmag ▸ (magnitude_strictMono f).monotone hc)
  obtain ⟨hlow, hhigh⟩ := hnext _ (hmag ▸ onGrid_magnitude f c)
  have hlo := le_antisymm hle (hlow le_rfl)
  have hhi := le_antisymm (hhigh le_rfl) hge
  have hcode : c' = c := (magnitude_strictMono f).injective ((heq (hlo.trans hhi.symm)).trans (hlo.trans hmag.symm))
  rw [hround, hcode, if_pos (hlo.trans hhi.symm)]

/-- The code after that of the lower neighbour is the upper neighbour's. -/
theorem succ_code_of_brackets {a : ℚ} {c c' : Nat} (h : Brackets (OnGrid f) a (magnitude f c) (magnitude f c'))
    (hne : magnitude f c ≠ magnitude f c') : c' = c + 1 := by
  obtain ⟨-, -, hle, hge, hnext⟩ := h
  have hmono := magnitude_strictMono f
  have hlt : c < c' := hmono.lt_iff_lt.mp (lt_of_le_of_ne (hle.trans hge) hne)
  have habove : ¬ magnitude f (c + 1) ≤ a := fun h =>
    (hmono (Nat.lt_succ_self c)).not_ge ((hnext _ (onGrid_magnitude ..)).1 h)
  have hnear : c' ≤ c + 1 := hmono.le_iff_le.mp ((hnext _ (onGrid_magnitude ..)).2 (not_le.mp habove).le)
  omega

end

/-! ### The result of an approximation (R162) -/

section
variable {f : Fmt} {op ulps bits : Nat} {g neg : Bool} {x : Near}

/-- An approximation in f32 with a unit of 1 is one of the neighbours. -/
theorem approx32_neighbour (h0 : x.mant ≠ 0) (hm : x.mant < 2 ^ 2 ^ 14) (hleast : least fp32 ≤ middle x)
    (hmax : middle x ≤ magnitude fp32 fp32.maxCode) (hbr : Brackets (OnGrid fp32) (middle x) lo hi) :
    approx32 op 1 g bits x ≤ fp32.maxCode ∧
      (magnitude fp32 (approx32 op 1 g bits x) = lo ∨ magnitude fp32 (approx32 op 1 g bits x) = hi) := by
  have hwithin (mode : RMode) : ∃ c, Picks mode 0 false (middle x) lo hi (magnitude fp32 c) ∧ c ≤ fp32.maxCode ∧
      fp32.round mode 0 true false x.mant (x.e - 1) = (c, if lo = hi then 0 else flNX) := by
    obtain ⟨lo', hi', c, hbr', hpick, hc, hround⟩ := round_within (r := 0) (by norm_num) mode true false h0 hm hleast hmax
    obtain ⟨rfl, rfl⟩ := brackets_unique hbr hbr'
    exact ⟨c, hpick, hc, by rw [hround, Fmt.zero, if_neg Bool.false_ne_true, Nat.zero_add]⟩
  obtain ⟨near, hnear, hnearc, hrne⟩ := hwithin .rne
  obtain ⟨down, ⟨-, hdown⟩, hdownc, hrz⟩ := hwithin .rz
  obtain ⟨up, ⟨-, hup⟩, hupc, -⟩ := hwithin .ru
  by_cases heq : lo = hi
  · have hcode : approx32 op 1 g bits x = near := by
      rw [approx32, hrne, if_pos heq]
      exact if_pos (BitVec.zero_and)
    rw [hcode]
    exact ⟨hnearc, picks_or hnear⟩
  · have hlow : magnitude fp32 down = lo := (hdown heq).2 id
    have hhigh : magnitude fp32 up = hi := (hup heq).1 rfl
    have hsucc : up = down + 1 := succ_code_of_brackets (by rwa [hlow, hhigh]) (by rwa [hlow, hhigh])
    have hcode : approx32 op 1 g bits x = if Config.approx op (BitVec.ofNat 32 bits) g % 2 = 0 then down else up := by
      have hinexact : ¬ flNX &&& flNX = 0 := by decide
      rw [approx32, hrne, hrz, if_neg heq]
      dsimp only
      rw [if_neg hinexact, if_pos rfl, hsucc, Nat.min_eq_left (hsucc ▸ hupc)]
    rw [hcode]
    split
    · exact ⟨hdownc, .inl hlow⟩
    · exact ⟨hupc, .inr hhigh⟩

/-- A result in f32 between the smallest and the largest normal number. -/
theorem approxResult_neighbour (h0 : x.mant ≠ 0) (hm : x.mant < 2 ^ 2 ^ 14) (hleast : least fp32 ≤ middle x)
    (hmax : middle x ≤ magnitude fp32 fp32.maxCode) : ∃ lo hi c, Brackets (OnGrid fp32) (middle x) lo hi ∧
      (magnitude fp32 c = lo ∨ magnitude fp32 c = hi) ∧ c ≤ fp32.maxCode ∧
      fp32.approxResult op 1 g neg bits x = (fp32.zero neg + c, if lo = hi then 0 else flNX) := by
  obtain ⟨lo, hi, c, hbr, -, -, hround⟩ := round_within (r := 0) (by norm_num) .rne g neg h0 hm hleast hmax
  obtain ⟨hcode, hmag⟩ := approx32_neighbour (op := op) (g := g) (bits := bits) h0 hm hleast hmax hbr
  refine ⟨lo, hi, _, hbr, hmag, hcode, ?_⟩
  rw [Fmt.approxResult, hround]
  exact if_pos ⟨rfl, by dsimp only; split <;> rfl, by dsimp only; split <;> rfl⟩

theorem approxResult_16 (hf : f ≠ fp32) : f.approxResult op ulps g neg bits x = f.round .rne 0 g neg x.mant (x.e - 1) :=
  if_neg fun h => hf h.1

/-- A representable result is exact in every format. -/
theorem approxResult_exact {c : Nat} (h0 : x.mant ≠ 0) (hm : x.mant < 2 ^ 2 ^ 14) (hleast : least f ≤ middle x)
    (hc : c ≤ f.maxCode) (hmag : magnitude f c = middle x) : f.approxResult op ulps g neg bits x = (f.zero neg + c, 0) := by
  have hround (graded neg : Bool) : f.round .rne 0 graded neg x.mant (x.e - 1) = (f.zero neg + c, 0) :=
    round_exact .rne graded neg h0 hm hleast hc hmag
  by_cases hf : f = fp32
  · subst hf
    have hcode : approx32 op ulps g bits x = c := by
      rw [approx32, hround, Fmt.zero, if_neg Bool.false_ne_true, Nat.zero_add]
      exact if_pos BitVec.zero_and
    rw [Fmt.approxResult, hround, hcode]
    exact ite_self _
  · rw [approxResult_16 hf, hround]

/-- A result beyond the largest number is an overflow in every format. -/
theorem approxResult_overflow (hf : Standard f) (hsp : f.sp = .ieee) (h0 : x.mant ≠ 0) (hm : x.mant < 2 ^ 2 ^ 14)
    (h : magnitude f f.infCode ≤ middle x) :
    f.approxResult op ulps g neg bits x = (f.zero neg + f.infCode, flOF ||| flNX) := by
  have hinf : magnitude f f.maxCode < magnitude f f.infCode := by
    refine magnitude_strictMono f ?_
    have hnormal := hf.normal
    have hmax : f.maxCode = f.infCode - 1 := by rw [Fmt.maxCode, hsp]; rfl
    have hpos : 0 < 2 ^ f.mw := by positivity
    omega
  have hcode : f.maxCode < roundCode f .rne 0 neg x.mant (x.e - 1) := by
    rw [← (magnitude_strictMono f).lt_iff_lt, magnitude_roundCode f .rne 0 (by norm_num) neg _ _ h0 hm]
    obtain ⟨l, u, R⟩ := exists_rounded .rne 0 (by norm_num) neg x.mant (x.e - 1) (roundExp f x.mant (x.e - 1))
    obtain ⟨-, -, -, -, hnext⟩ := R.brackets (le_max_right ..) (lt_two_pow_roundExp f _ _ hm) (roundExp_eq_or_le f _ _ h0)
    have hlow := hinf.trans_le ((hnext _ (onGrid_magnitude ..)).1 h)
    exact hlow.trans_le ((picks_or R.picks).elim (·.ge) fun h => (R.low.trans R.high).trans_eq h.symm)
  have hround : f.round .rne 0 g neg x.mant (x.e - 1) = (f.zero neg + f.infCode, flOF ||| flNX) := by
    rw [round_eq f .rne 0 g neg _ _ h0, if_pos hcode, overflow_eq, if_pos ⟨hsp, rfl⟩]
  rw [Fmt.approxResult, hround]
  exact if_neg fun h => absurd (h.2.1 : (flOF ||| flNX) &&& flOF = 0) (by decide)

theorem round_positive_lt (f : Fmt) (mode : RMode) (r : Nat) (g : Bool) (m : Nat) (e : ℤ) :
    (f.round mode r g false m e).1 < 2 ^ (f.ew + f.mw) := by
  have hzero : f.zero false = 0 := rfl
  have hpos : 0 < 2 ^ (f.ew + f.mw) := by positivity
  by_cases h0 : m = 0
  · rw [Fmt.round, if_pos h0]
    exact hpos
  · rw [round_eq f mode r g false m e h0, overflow_eq, hzero, Nat.zero_add, Nat.zero_add]
    split
    · dsimp only
      split
      · exact infCode_lt f
      · exact maxCode_lt f
    case isFalse hc =>
      split
      · exact hpos
      · exact (not_lt.mp hc).trans_lt (maxCode_lt f)

theorem approx32_lt : approx32 op ulps g bits x < 2 ^ (fp32.ew + fp32.mw) := by
  rw [approx32]
  split
  · exact round_positive_lt ..
  · split
    · split
      · exact round_positive_lt ..
      · exact (min_le_right ..).trans_lt (maxCode_lt fp32)
    · split
      case isTrue h => exact h.1
      case isFalse => exact round_positive_lt ..

theorem approxResult_lt : (f.approxResult op ulps g neg bits x).1 < 2 ^ f.width := by
  rw [Fmt.approxResult]
  split
  case isTrue h =>
    rw [h.1]
    exact zero_add_lt fp32 neg _ approx32_lt
  case isFalse => exact round_lt ..

end

end Sys2Proof.Proofs
end

section
/-! PROOFS. Reciprocals and reciprocal square roots: their cells, and what `vrcp` and `vrsq` write (R162, R163). -/

namespace Sys2Proof.Proofs

open Sys2Proof Sys2Proof.Machine Sys2Proof.Claims

/-! ### The formats of the approximations -/

/-- What the approximations need of a format: infinities; reciprocal roots, and logarithms, that are normal numbers. -/
structure Approximable (f : Fmt) : Prop extends Standard f where
  ieee : f.sp = .ieee
  fine : f.mw ≤ 23
  symmetric : 2 ^ f.ew = 2 * f.bias + 2
  rootLow : f.mw + 1 + (unitExp f + 2 ^ f.ew) + 2 * (1 - (f.bias : ℤ)) ≤ 0
  rootHigh : 0 ≤ unitExp f + 2 * f.bias
  logLow : -unitExp f ≤ 2 ^ (f.mw + 1)
  logHigh : f.mw + 1 + (unitExp f + 2 ^ f.ew) ≤ 2 ^ (f.mw + 1)
  whole : f.mw + 1 ≤ f.bias

theorem approximable_fp32 : Approximable fp32 :=
  ⟨standard_fp32, rfl, by decide, by decide, by decide, by decide, by decide, by decide, by decide⟩

theorem approximable_fmt {ty : VTy} (h : ty.isFp = true) : Approximable (VTy.fmt ty) := by
  cases ty with
  | f32 => exact approximable_fp32
  | bf16x2 => exact ⟨standard_bf16, rfl, by decide, by decide, by decide, by decide, by decide, by decide, by decide⟩
  | f16x2 => exact ⟨standard_fp16, rfl, by decide, by decide, by decide, by decide, by decide, by decide, by decide⟩
  | _ => nomatch h

theorem six_le_bias {f : Fmt} (hf : Approximable f) : 6 ≤ f.bias := by
  have hsymmetric : (2 : ℤ) ^ f.ew = 2 * f.bias + 2 := by exact_mod_cast hf.symmetric
  have hlow := hf.rootLow
  unfold unitExp at hlow
  omega

section
variable {f : Fmt} {g neg : Bool} {x m : Nat} {e : ℤ}

theorem magnitude_infCode_eq (hf : Approximable f) : magnitude f f.infCode = 2 ^ ((f.bias : ℤ) + 1) := by
  rw [magnitude_infCode hf.exponents, hf.symmetric]
  congr 1
  omega

/-- The code of a power of two in the normal range. -/
theorem magnitude_two_pow (hf : Approximable f) {k : ℤ} (hlow : 1 - (f.bias : ℤ) ≤ k) (hhigh : k ≤ f.bias) :
    magnitude f ((k + f.bias).toNat * 2 ^ f.mw) = 2 ^ k ∧ (k + f.bias).toNat * 2 ^ f.mw ≤ f.maxCode := by
  obtain ⟨d, hd⟩ : ∃ d : ℕ, k + f.bias = d + 1 := ⟨(k + f.bias - 1).toNat, by omega⟩
  have hexp : ((d + 1 : ℕ) : ℤ) - 1 + unitExp f + f.mw = k := by unfold unitExp; push_cast; omega
  have hparts := magnitude_of_parts f (d + 1) 0 (by positivity)
  rw [if_neg (Nat.succ_ne_zero d), Nat.add_zero, Nat.cast_zero, add_zero, ← zpow_natCast, ← zpow_add₀ two_ne_zero,
    add_comm (f.mw : ℤ), hexp] at hparts
  have htoNat : (k + f.bias).toNat = d + 1 := by omega
  refine ⟨htoNat ▸ hparts, ?_⟩
  have hpos : 0 < 2 ^ f.mw := by positivity
  have hbelow : (d + 1) * 2 ^ f.mw + 2 ^ f.mw ≤ (2 ^ f.ew - 1) * 2 ^ f.mw := by
    rw [← Nat.succ_mul]
    exact Nat.mul_le_mul_right _ (by rw [hf.symmetric]; omega)
  rw [Fmt.maxCode, hf.ieee, htoNat]
  dsimp only
  omega

/-- Bounds of a number that is read and is not 0. -/
theorem input_bounds (h : (f.input g x).1 = .fin neg m e) (h0 : m ≠ 0) :
    m < 2 ^ (f.mw + 1) ∧ unitExp f ≤ e ∧ e ≤ unitExp f + (2 ^ f.ew : ℕ) := by
  rw [Fmt.input] at h
  split at h
  · exact absurd (FVal.fin.inj h).2.1.symm h0
  · exact value_bounds f x neg m e h

/-- Only a number is flushed. -/
theorem flushFl_of_special (h : ∀ neg m e, (f.input g x).1 ≠ .fin neg m e) : flushFl f g x = 0 := by
  rw [← input_flags]
  rw [Fmt.input] at h ⊢
  split
  case isTrue hs =>
    rw [if_pos hs] at h
    exact absurd rfl (h _ _ _)
  case isFalse => rfl

end

/-! ### The sizes of counts -/

theorem mant_ne_zero {x : Near} (h : x.q ≠ 0) : x.mant ≠ 0 := by
  rw [Near.mant]
  omega

theorem mant_lt {x : Near} {k : ℕ} (h : x.q ≤ 2 ^ k) (hk : k + 2 ≤ 2 ^ 14) : x.mant < 2 ^ 2 ^ 14 :=
  calc x.mant ≤ 2 * 2 ^ k + 1 := by rw [Near.mant]; split <;> omega
    _ < 2 ^ (k + 2) := by rw [pow_add]; have : 0 < 2 ^ k := by positivity
                          omega
    _ ≤ 2 ^ 2 ^ 14 := Nat.pow_le_pow_right (by norm_num) hk

/-! ### Reciprocals -/

section
variable {m : Nat} {e : ℤ}

theorem cell_recip (h0 : m ≠ 0) : RealCell (recip m e) (· < 1 / ((m : ℚ) * 2 ^ e)) (1 / ((m : ℚ) * 2 ^ e) < ·) := by
  have hpos : 0 < m := Nat.pos_of_ne_zero h0
  have hv : 1 / ((m : ℚ) * 2 ^ e) = (2 ^ 256 : ℕ) / m * 2 ^ (-e - 256) := by
    rw [zpow_sub₀ two_ne_zero, zpow_neg, Nat.cast_pow, Nat.cast_ofNat]
    have hm : (m : ℚ) ≠ 0 := by exact_mod_cast h0
    have he : (2 : ℚ) ^ e ≠ 0 := by positivity
    have hbig : (2 : ℚ) ^ 256 ≠ 0 := by positivity
    have hnat : (2 : ℚ) ^ (256 : ℤ) = 2 ^ 256 := zpow_natCast 2 256
    rw [hnat]
    field_simp
  have hm : (0 : ℚ) < m := by exact_mod_cast hpos
  have hst : (recip m e).st = true ↔ 2 ^ 256 % m ≠ 0 := decide_eq_true_iff
  have hq : (recip m e).q = 2 ^ 256 / m := rfl
  have he : (recip m e).e = -e - 256 := rfl
  rw [hv]
  generalize 2 ^ 256 = N at *
  constructor
  case exact =>
    intro h y _
    have hdvd : m ∣ N := Nat.dvd_of_mod_eq_zero (not_not.mp (mt hst.mpr (by rw [h]; decide)))
    rw [hq, he, Nat.cast_div hdvd hm.ne']
    exact ⟨Iff.rfl, Iff.rfl⟩
  case low =>
    intro h y _ hy
    have hlt : ((recip m e).q : ℚ) < N / m := by
      rw [hq, lt_div_iff₀ hm]
      have hrest := hst.mp h
      have hdiv := Nat.div_add_mod' N m
      exact_mod_cast (by omega : N / m * m < N)
    have hy' : y < N / m * 2 ^ (-e - 256) := hy.trans_lt (by rw [he]; gcongr)
    exact ⟨hy', hy'.le.not_gt⟩
  case high =>
    intro _ y _ hy
    have hlt : (N : ℚ) / m < ((recip m e).q + 1 : ℕ) := by
      rw [hq, div_lt_iff₀ hm]
      exact_mod_cast (Nat.lt_mul_of_div_lt (Nat.lt_succ_self (N / m)) hpos).trans_eq rfl
    have hy' : (N : ℚ) / m * 2 ^ (-e - 256) < y := lt_of_lt_of_le (by rw [he]; gcongr) hy
    exact ⟨hy', hy'.le.not_gt⟩

theorem recip_q (h0 : m ≠ 0) (hm : m < 2 ^ 24) : 2 ^ 25 ≤ (recip m e).q ∧ (recip m e).q ≤ 2 ^ 256 := by
  have hpos : 0 < m := Nat.pos_of_ne_zero h0
  constructor
  · refine (Nat.le_div_iff_mul_le hpos).mpr ?_
    calc 2 ^ 25 * m ≤ 2 ^ 25 * 2 ^ 24 := Nat.mul_le_mul_left _ hm.le
      _ = 2 ^ (25 + 24) := (pow_add ..).symm
      _ ≤ 2 ^ 256 := Nat.pow_le_pow_right (by norm_num) (by norm_num)
  · exact Nat.div_le_self ..

end

section
variable {f : Fmt} {g : Bool} {x : Nat} {o : Operand}

theorem two_pow_fine (hf : Approximable f) : 2 ^ (f.mw + 1) ≤ 2 ^ 24 ∧ 2 ^ (f.mw + 2) ≤ 2 ^ 25 := by
  have hfine := hf.fine
  exact ⟨Nat.pow_le_pow_right (by norm_num) (by omega), Nat.pow_le_pow_right (by norm_num) (by omega)⟩

theorem approximates_nan (op : Nat) (s : Bool) : Approximates op f g (.nan s) f.nanCode (flIf s flIV) := by
  unfold Approximates
  split
  case h_1 heq => exact Operand.nan.inj heq ▸ ⟨rfl, rfl⟩
  all_goals trivial

/-- `vrcp` of a number that is not 0. -/
theorem recip_approximates (hf : Approximable f) {neg : Bool} {m : Nat} {e : ℤ} (bits : Nat) (h0 : m ≠ 0) (hm : m < 2 ^ 24) :
    Approximates 0 f g (.num (signedNum neg m e) neg) (f.approxResult 0 1 g neg bits (recip m e)).1
      (f.approxResult 0 1 g neg bits (recip m e)).2 := by
  obtain ⟨hlow, hhigh⟩ := recip_q (e := e) h0 hm
  have hmant0 : (recip m e).mant ≠ 0 := mant_ne_zero (by omega)
  have hmant : (recip m e).mant < 2 ^ 2 ^ 14 := mant_lt hhigh (by norm_num)
  have habs : |1 / signedNum neg m e| = 1 / (m * 2 ^ e) := by rw [abs_div, abs_one, abs_signedNum]
  have hneg : decide (1 / signedNum neg m e < 0) = neg := by
    rw [Bool.eq_iff_iff, decide_eq_true_iff, one_div, inv_lt_zero]
    exact signedNum_neg_iff h0
  have hab : Agrees f (middle (recip m e)) (· < |1 / signedNum neg m e|) (|1 / signedNum neg m e| < ·) :=
    habs ▸ (cell_recip h0).agrees ((two_pow_fine hf).2.trans hlow)
  refine ⟨fun h => absurd ((signedNum_eq_zero ..).mp h) h0, fun _ h16 => ?_, fun h32 hbig => ?_, fun _ h32 hleast hmax => ?_⟩
  · rw [approxResult_16 h16]
    refine Rounds.of_agrees hmant0 hmant hab ?_
    rw [hneg]
    exact round_rounds f .rne 0 (by norm_num) g neg _ _ hmant0 hmant hf.normal
  · have hover : magnitude f f.infCode ≤ middle (recip m e) := by
      have h128 : ((f.bias : ℤ) + 1) = 128 := by rw [h32]; rfl
      rw [magnitude_infCode_eq hf, h128]
      exact (hab.le_iff (finer_two_pow f 128)).1.mp hbig
    rw [approxResult_overflow hf.toStandard hf.ieee hmant0 hmant hover]
    exact ⟨rfl, rfl⟩
  · have hleast := (hab.le_iff (finer_two_pow f _)).1.mp hleast
    have hmax := (hab.le_iff (finer_of_onGrid (onGrid_magnitude f f.maxCode))).2.mp (numberOf_maxCode f ▸ hmax)
    subst h32
    obtain ⟨lo, hi, c, hbr, hor, hc, hres⟩ := approxResult_neighbour (op := 0) (g := g) (neg := neg) (bits := bits) hmant0 hmant hleast hmax
    have hlt := hc.trans_lt (maxCode_lt fp32)
    rw [hres]
    refine ⟨lo, hi, brackets_of_agrees hab hbr, not_reservedCode fp32 neg c hf.normal hc, minus_zero_add fp32 neg c hlt, ?_, rfl⟩
    rw [abs_numberOf, zero_add_mod fp32 neg c hlt]
    exact hor

/-- An approximation by what its input is: a NaN, an infinity, or a number, whose FLUSH is raised as well. -/
theorem approximates_of_input {op : Nat} {r : Nat × Fl} (hf : Approximable f) (hx : Reads f g x o)
    (hnan : ∀ s, (f.input g x).1 = .nan s → r = (f.nanCode, flIf s flIV))
    (hinf : ∀ n, (f.input g x).1 = .inf n → Approximates op f g (.inf n) r.1 r.2)
    (hfin : ∀ n m e, (f.input g x).1 = .fin n m e →
      ∃ k, r.2 = (f.input g x).2 ||| k ∧ Approximates op f g (.num (signedNum n m e) n) r.1 k) :
    ∃ k, r.2 = flushFl f g x ||| k ∧ Approximates op f g o r.1 k := by
  obtain rfl := operandOf_input f g x o hf.exponents hx
  cases hin : (f.input g x).1 with
  | nan s =>
    have hflush : flushFl f g x = 0 := flushFl_of_special fun _ _ _ h => by simp [hin] at h
    rw [hnan s hin, hflush]
    exact ⟨_, BitVec.zero_or.symm, approximates_nan op s⟩
  | inf n =>
    have hflush : flushFl f g x = 0 := flushFl_of_special fun _ _ _ h => by simp [hin] at h
    exact ⟨_, hflush ▸ BitVec.zero_or.symm, hinf n hin⟩
  | fin n m e =>
    rw [← input_flags]
    exact hfin n m e hin

theorem rcpOp_approximates (hf : Approximable f) (hx : Reads f g x o) :
    ∃ k, (f.rcpOp g x).2 = flushFl f g x ||| k ∧ Approximates 0 f g o (f.rcpOp g x).1 k := by
  refine approximates_of_input hf hx (fun s h => ?_) (fun n h => ?_) fun n m e h => ?_
  · rw [Fmt.rcpOp, h]
  · rw [Fmt.rcpOp, h]
    exact ⟨rfl, rfl⟩
  · rw [Fmt.rcpOp, h]
    by_cases h0 : m = 0
    · have hz : signedNum n m e = 0 := (signedNum_eq_zero ..).mpr h0
      dsimp only
      rw [if_pos h0, hz]
      refine ⟨_, rfl, fun _ => ⟨rfl, rfl⟩, fun h => absurd rfl h, fun _ h => ?_, fun h => absurd rfl h⟩
      rw [div_zero, abs_zero] at h
      exact absurd h (not_le.mpr (by positivity))
    · obtain ⟨hm, -⟩ := input_bounds h h0
      dsimp only
      rw [if_neg h0]
      exact ⟨_, rfl, recip_approximates hf x h0 (hm.trans_le (two_pow_fine hf).1)⟩

theorem rcpOp_lt (f : Fmt) (g : Bool) (x : Nat) : (f.rcpOp g x).1 < 2 ^ f.width := by
  rw [Fmt.rcpOp]
  dsimp only
  split
  · exact nanCode_lt f
  · exact zero_add_lt f _ 0 (by positivity)
  · split
    · exact zero_add_lt f _ _ (infCode_lt f)
    · exact approxResult_lt

end

end Sys2Proof.Proofs
end

section
/-! PROOFS. Reciprocal square roots: their cells, and what `vrsq` writes (R162, R163). -/

namespace Sys2Proof.Proofs

open Sys2Proof Sys2Proof.Machine Sys2Proof.Claims

/-! ### The integer square root -/

theorem isqrt_spec (k : Nat) {n acc : Nat} (hlow : acc * acc ≤ n) (hhigh : n < (acc + 2 ^ k) * (acc + 2 ^ k)) :
    isqrt k n acc * isqrt k n acc ≤ n ∧ n < (isqrt k n acc + 1) * (isqrt k n acc + 1) := by
  induction k generalizing acc with
  | zero => exact ⟨hlow, hhigh⟩
  | succ k ih =>
    rw [isqrt]
    split
    case isTrue h =>
      refine ih h ?_
      rwa [Nat.add_assoc, ← Nat.two_mul, ← pow_succ']
    case isFalse h => exact ih hlow (not_le.mp h)

theorem isqrt_zero_spec {k n w : Nat} (h : n ≤ 2 ^ w) (hw : w < k + k) :
    isqrt k n 0 * isqrt k n 0 ≤ n ∧ n < (isqrt k n 0 + 1) * (isqrt k n 0 + 1) :=
  isqrt_spec k (Nat.zero_le n) (by
    rw [Nat.zero_add, ← pow_add]
    exact h.trans_lt (Nat.pow_lt_pow_right one_lt_two hw))

/-! ### The cell of a reciprocal square root -/

/-- A number is below, or above, 1/√z. -/
def BelowRoot (z y : ℚ) : Prop := y * y * z < 1
def AboveRoot (z y : ℚ) : Prop := 1 < y * y * z

/-- A count whose square brackets 2^(2w)/m is a cell for 1/√(m · 2^(2h)). -/
theorem cell_root {q m w W : Nat} {h : ℤ} {st : Bool} (hm : m ≠ 0) (hW : W = 2 * w) (hle : q * q * m ≤ 2 ^ W)
    (hlt : 2 ^ W < (q + 1) * (q + 1) * m) (hst : st = true ↔ q * q * m ≠ 2 ^ W) :
    RealCell ⟨q, -h - w, st⟩ (BelowRoot (m * 2 ^ (2 * h))) (AboveRoot (m * 2 ^ (2 * h))) := by
  have hz : (0 : ℚ) < m * 2 ^ (2 * h) := mul_pos (by exact_mod_cast Nat.pos_of_ne_zero hm) (by positivity)
  have hunit : (2 : ℚ) ^ (-h - w) * 2 ^ (-h - w) * 2 ^ (2 * h) * 2 ^ W = 1 := by
    rw [← zpow_natCast, ← zpow_add₀ two_ne_zero, ← zpow_add₀ two_ne_zero, ← zpow_add₀ two_ne_zero, hW]
    convert zpow_zero (2 : ℚ) using 2
    push_cast
    ring
  have hN : (0 : ℚ) < 2 ^ W := by positivity
  have hsquare (t : ℕ) : (t * 2 ^ (-h - w) : ℚ) * (t * 2 ^ (-h - w)) * (m * 2 ^ (2 * h)) = (t * t * m : ℕ) / (2 ^ W : ℕ) := by
    rw [eq_div_iff (by exact_mod_cast hN.ne')]
    push_cast
    calc (t * 2 ^ (-h - w) : ℚ) * (t * 2 ^ (-h - w)) * (m * 2 ^ (2 * h)) * 2 ^ W
        = t * t * m * (2 ^ (-h - w) * 2 ^ (-h - w) * 2 ^ (2 * h) * 2 ^ W) := by ring
      _ = t * t * m := by rw [hunit, mul_one]
  have hN' : (0 : ℚ) < (2 ^ W : ℕ) := by exact_mod_cast hN
  have hlow : (q * 2 ^ (-h - w) : ℚ) * (q * 2 ^ (-h - w)) * (m * 2 ^ (2 * h)) ≤ 1 := by
    rw [hsquare, div_le_one hN']
    exact_mod_cast hle
  have hhigh : 1 < ((q + 1 : ℕ) * 2 ^ (-h - w) : ℚ) * ((q + 1 : ℕ) * 2 ^ (-h - w)) * (m * 2 ^ (2 * h)) := by
    rw [hsquare, one_lt_div hN']
    exact_mod_cast hlt
  have hexact : (q * 2 ^ (-h - w) : ℚ) * (q * 2 ^ (-h - w)) * (m * 2 ^ (2 * h)) = 1 ↔ q * q * m = 2 ^ W := by
    rw [hsquare, div_eq_one_iff_eq hN'.ne']
    exact_mod_cast Iff.rfl
  generalize (m * 2 ^ (2 * h) : ℚ) = z at *
  have hu : (0 : ℚ) ≤ 2 ^ (-h - w) := by positivity
  have hmono {y y' : ℚ} (h0 : 0 ≤ y) (hle : y ≤ y') : y * y * z ≤ y' * y' * z :=
    mul_le_mul_of_nonneg_right (mul_self_le_mul_self h0 hle) hz.le
  constructor
  case exact =>
    intro hfalse y hy
    have hone := hexact.mpr (not_not.mp (mt hst.mpr (Bool.eq_false_iff.mp hfalse)))
    have hq : (0 : ℚ) ≤ q * 2 ^ (-h - w) := by positivity
    simp only [BelowRoot, AboveRoot]
    constructor
    · rw [← hone, mul_lt_mul_iff_left₀ hz, ← mul_self_lt_mul_self_iff hy hq]
    · nth_rw 1 [← hone]
      rw [mul_lt_mul_iff_left₀ hz, ← mul_self_lt_mul_self_iff hq hy]
  case low =>
    intro htrue y hy hyq
    have hlt : y * y * z < 1 := (hmono hy hyq).trans_lt (lt_of_le_of_ne hlow (mt hexact.mp (hst.mp htrue)))
    exact ⟨hlt, hlt.le.not_gt⟩
  case high =>
    intro _ y _ hyq
    have hgt : 1 < y * y * z := hhigh.trans_le (hmono (by positivity) hyq)
    exact ⟨hgt, hgt.le.not_gt⟩

section
variable {m : Nat} {e : ℤ}

/-- The count of `rsqrt` from a count of even exponent. -/
theorem rsqrt_even {h : ℤ} (h0 : m ≠ 0) (hm : m < 2 ^ 25) :
    let q := isqrt 260 (2 ^ 512 / m) 0
    2 ^ 25 ≤ q ∧ q ≤ 2 ^ 512 ∧
      RealCell ⟨q, -h - 256, decide (q * q * m ≠ 2 ^ 512)⟩ (BelowRoot (m * 2 ^ (2 * h))) (AboveRoot (m * 2 ^ (2 * h))) := by
  intro q
  have hpos : 0 < m := Nat.pos_of_ne_zero h0
  obtain ⟨hlow, hhigh⟩ := isqrt_zero_spec (k := 260) (w := 512) (Nat.div_le_self (2 ^ 512) m) (by norm_num)
  change q * q ≤ _ at hlow
  change _ < (q + 1) * (q + 1) at hhigh
  clear_value q
  have hle : q * q * m ≤ 2 ^ 512 := (Nat.mul_le_mul_right m hlow).trans (Nat.div_mul_le_self ..)
  have hlt : 2 ^ 512 < (q + 1) * (q + 1) * m := (Nat.lt_mul_of_div_lt hhigh hpos).trans_eq rfl
  refine ⟨?_, ?_, cell_root (W := 512) (w := 256) h0 rfl hle hlt decide_eq_true_iff⟩
  · by_contra hq
    have hq : q + 1 ≤ 2 ^ 25 := not_le.mp hq
    have hsmall {w : ℕ} (hw : 25 + 25 + 25 ≤ w) : (q + 1) * (q + 1) * m ≤ 2 ^ w :=
      calc (q + 1) * (q + 1) * m ≤ 2 ^ 25 * 2 ^ 25 * 2 ^ 25 := Nat.mul_le_mul (Nat.mul_le_mul hq hq) hm.le
        _ = 2 ^ (25 + 25 + 25) := by rw [pow_add, pow_add]
        _ ≤ 2 ^ w := Nat.pow_le_pow_right (by norm_num) hw
    exact hlt.not_ge (hsmall (by norm_num))
  · calc q ≤ q * q := Nat.le_mul_self q
      _ ≤ q * q * m := Nat.le_mul_of_pos_right _ hpos
      _ ≤ 2 ^ 512 := hle

theorem rsqrt_cell (h0 : m ≠ 0) (hm : m < 2 ^ 24) : 2 ^ 25 ≤ (rsqrt m e).q ∧ (rsqrt m e).q ≤ 2 ^ 512 ∧
    RealCell (rsqrt m e) (BelowRoot (m * 2 ^ e)) (AboveRoot (m * 2 ^ e)) := by
  rcases Int.emod_two_eq_zero_or_one e with he | he
  · obtain ⟨h, rfl⟩ : ∃ h, e = 2 * h := ⟨e / 2, by omega⟩
    have hhalf : 2 * h / 2 = h := by omega
    have heven := rsqrt_even (h := h) h0 (hm.trans_le (Nat.pow_le_pow_right (by norm_num) (by norm_num)))
    simpa only [rsqrt, he, ↓reduceIte, hhalf] using heven
  · obtain ⟨h, rfl⟩ : ∃ h, e = 2 * h + 1 := ⟨e / 2, by omega⟩
    have hhalf : (2 * h + 1 - 1) / 2 = h := by omega
    have hz : (m : ℚ) * 2 ^ (2 * h + 1) = (2 * m : ℕ) * 2 ^ (2 * h) := by
      rw [zpow_add_one₀ two_ne_zero]
      push_cast
      ring
    have hodd := rsqrt_even (m := 2 * m) (h := h) (by omega) (by omega)
    rw [hz]
    simpa only [rsqrt, he, one_ne_zero, ↓reduceIte, hhalf] using hodd

end

/-! ### `vrsq` (R162, R163) -/

section
variable {f : Fmt} {g : Bool} {x : Nat} {o : Operand}

/-- The reciprocal root of a number of a format is a normal number of the format. -/
theorem root_normal (hf : Approximable f) {m : Nat} {e : ℤ} {a : ℚ} (h0 : m ≠ 0) (hm : m < 2 ^ (f.mw + 1)) (hlow : unitExp f ≤ e)
    (hhigh : e ≤ unitExp f + (2 ^ f.ew : ℕ)) (hab : Agrees f a (BelowRoot (m * 2 ^ e)) (AboveRoot (m * 2 ^ e))) :
    least f ≤ a ∧ a ≤ magnitude f f.maxCode := by
  have hone : (1 : ℚ) ≤ m := by exact_mod_cast Nat.pos_of_ne_zero h0
  have hmq : (m : ℚ) ≤ 2 ^ (f.mw + 1) := by exact_mod_cast hm.le
  obtain ⟨hbias, hcode⟩ := magnitude_two_pow hf (k := f.bias) (by have := six_le_bias hf; omega) le_rfl
  have hmax := hab _ (finer_of_onGrid (onGrid_magnitude f ((f.bias + f.bias : ℤ).toNat * 2 ^ f.mw)))
  have hleast := hab _ (finer_two_pow f (1 - (f.bias : ℤ)))
  constructor
  · refine not_lt.mp (mt hleast.2.mpr (not_lt.mpr ?_))
    calc (2 : ℚ) ^ (1 - (f.bias : ℤ)) * 2 ^ (1 - (f.bias : ℤ)) * (m * 2 ^ e)
        ≤ 2 ^ (1 - (f.bias : ℤ)) * 2 ^ (1 - (f.bias : ℤ)) * (2 ^ (f.mw + 1) * 2 ^ e) := by gcongr
      _ = 2 ^ (f.mw + 1 + e + 2 * (1 - (f.bias : ℤ))) := by
        rw [← zpow_natCast, ← zpow_add₀ two_ne_zero, ← zpow_add₀ two_ne_zero, ← zpow_add₀ two_ne_zero]
        congr 1
        push_cast
        ring
      _ ≤ 1 := zpow_le_one_of_nonpos₀ (by norm_num) (by have := hf.rootLow; push_cast at hhigh; omega)
  · refine (not_lt.mp (mt hmax.1.mpr (not_lt.mpr ?_))).trans ((magnitude_strictMono f).monotone hcode)
    rw [hbias]
    calc (1 : ℚ) ≤ 2 ^ (e + 2 * (f.bias : ℤ)) := one_le_zpow₀ (by norm_num) (by have := hf.rootHigh; omega)
      _ = 2 ^ (f.bias : ℤ) * 2 ^ (f.bias : ℤ) * (1 * 2 ^ e) := by
        rw [one_mul, ← zpow_add₀ two_ne_zero, ← zpow_add₀ two_ne_zero]
        congr 1
        ring
      _ ≤ 2 ^ (f.bias : ℤ) * 2 ^ (f.bias : ℤ) * (m * 2 ^ e) := by gcongr

theorem bracketsRoot_of_agrees {a z lo hi : ℚ} (hab : Agrees f a (BelowRoot z) (AboveRoot z)) (h : Brackets (OnGrid f) a lo hi) :
    BracketsRoot (OnGrid f) z lo hi := by
  have hle {y : ℚ} (hy : OnGrid f y) : (y * y * z ≤ 1 ↔ y ≤ a) ∧ (1 ≤ y * y * z ↔ a ≤ y) := by
    obtain ⟨hbelow, habove⟩ := hab y (finer_of_onGrid hy)
    exact ⟨by simpa [AboveRoot] using not_congr habove, by simpa [BelowRoot] using not_congr hbelow⟩
  obtain ⟨hlo, hhi, hlow, hhigh, hnext⟩ := h
  refine ⟨hlo, hhi, (hle hlo).1.mpr hlow, (hle hhi).2.mpr hhigh, fun y hy => ?_⟩
  rw [(hle hy).1, (hle hy).2]
  exact hnext y hy

/-- To nearest goes to the neighbour on a magnitude's own side of the middle. -/
theorem nearest_high {r : Nat} {neg : Bool} {a lo hi w : ℚ} (h : Picks .rne r neg a lo hi w) (ha : (lo + hi) / 2 < a) : w = hi := by
  by_cases heq : lo = hi
  · exact (h.1 heq).trans heq
  · exact (h.2 heq).1 (.inl ((div_lt_iff₀' two_pos).mp ha))

theorem nearest_low {r : Nat} {neg : Bool} {a lo hi w : ℚ} (h : Picks .rne r neg a lo hi w) (ha : a < (lo + hi) / 2) : w = lo := by
  have hlt := (lt_div_iff₀' two_pos).mp ha
  by_cases heq : lo = hi
  · exact h.1 heq
  · exact (h.2 heq).2 fun hup => hup.elim hlt.le.not_gt fun htie => hlt.ne htie.1

/-- `vrsq` of a number above 0. -/
theorem rsqrt_approximates (hf : Approximable f) {m : Nat} {e : ℤ} (bits : Nat) (h0 : m ≠ 0) (hm : m < 2 ^ (f.mw + 1))
    (hlow : unitExp f ≤ e) (hhigh : e ≤ unitExp f + (2 ^ f.ew : ℕ)) :
    let r := f.approxResult 1 1 g false bits (rsqrt m e)
    ∃ lo hi, BracketsRoot (OnGrid f) (m * 2 ^ e) lo hi ∧ ¬ reservedCode f r.1 ∧ (numberOf f r.1 = lo ∨ numberOf f r.1 = hi) ∧
      (f ≠ fp32 → ((lo + hi) / 2) ^ 2 * (m * 2 ^ e) < 1 → numberOf f r.1 = hi) ∧
      (f ≠ fp32 → 1 < ((lo + hi) / 2) ^ 2 * (m * 2 ^ e) → numberOf f r.1 = lo) ∧ r.2 = if lo = hi then 0 else flNX := by
  intro r
  obtain ⟨hq, hq', hcell⟩ := rsqrt_cell (e := e) h0 (hm.trans_le (two_pow_fine hf).1)
  have hmant0 : (rsqrt m e).mant ≠ 0 := mant_ne_zero (by omega)
  have hmant : (rsqrt m e).mant < 2 ^ 2 ^ 14 := mant_lt hq' (by norm_num)
  have hab := hcell.agrees ((two_pow_fine hf).2.trans hq)
  obtain ⟨hleast, hmax⟩ := root_normal hf h0 hm hlow hhigh hab
  have hnumber {c : Nat} (hc : c ≤ f.maxCode) : ¬ reservedCode f (f.zero false + c) ∧ numberOf f (f.zero false + c) = magnitude f c := by
    have hlt := hc.trans_lt (maxCode_lt f)
    refine ⟨not_reservedCode f false c hf.normal hc, ?_⟩
    rw [numberOf_eq, minus_zero_add f false c hlt, zero_add_mod f false c hlt, if_neg Bool.false_ne_true, one_mul]
  by_cases h32 : f = fp32
  · subst h32
    obtain ⟨lo, hi, c, hbr, hor, hc, hres⟩ := approxResult_neighbour (op := 1) (g := g) (neg := false) (bits := bits) hmant0 hmant hleast hmax
    obtain ⟨hreserved, hvalue⟩ := hnumber hc
    simp only [r, hres, hvalue]
    exact ⟨lo, hi, bracketsRoot_of_agrees hab hbr, hreserved, hor, fun h => absurd rfl h, fun h => absurd rfl h, rfl⟩
  · obtain ⟨lo, hi, c, hbr, hpick, hc, hres⟩ := round_within (r := 0) (by norm_num) .rne g false hmant0 hmant hleast hmax
    obtain ⟨hreserved, hvalue⟩ := hnumber hc
    obtain ⟨hbelow, habove⟩ := hab _ (finer_middle hmant0 hmant hbr)
    simp only [r, approxResult_16 h32, hres, hvalue, sq]
    refine ⟨lo, hi, bracketsRoot_of_agrees hab hbr, hreserved, picks_or hpick, fun _ h => ?_, fun _ h => ?_, rfl⟩
    · exact nearest_high hpick (hbelow.mp h)
    · exact nearest_low hpick (habove.mp h)

theorem rsqOp_approximates (hf : Approximable f) (hx : Reads f g x o) :
    ∃ k, (f.rsqOp g x).2 = flushFl f g x ||| k ∧ Approximates 1 f g o (f.rsqOp g x).1 k := by
  refine approximates_of_input hf hx (fun s h => ?_) (fun n h => ?_) fun n m e h => ?_
  · rw [Fmt.rsqOp, h]
  · rw [Fmt.rsqOp, h]
    cases n <;> exact ⟨rfl, rfl⟩
  · rw [Fmt.rsqOp, h]
    dsimp only
    by_cases h0 : m = 0
    · have hz : signedNum n m e = 0 := (signedNum_eq_zero ..).mpr h0
      rw [if_pos h0, hz]
      exact ⟨_, rfl, fun _ => ⟨rfl, rfl⟩, fun h => absurd h (lt_irrefl _), fun h => absurd h (lt_irrefl _)⟩
    · have hne : signedNum n m e ≠ 0 := mt (signedNum_eq_zero ..).mp h0
      have hsign := signedNum_neg_iff (neg := n) (e := e) h0
      cases n with
      | true =>
        rw [if_neg h0, if_pos rfl]
        exact ⟨_, rfl, fun h => absurd h hne, fun _ => ⟨rfl, rfl⟩, fun h => absurd (hsign.mpr rfl) h.le.not_gt⟩
      | false =>
        obtain ⟨hm, hlow, hhigh⟩ := input_bounds h h0
        have hz : signedNum false m e = m * 2 ^ e := by simp [signedNum]
        rw [if_neg h0, if_neg Bool.false_ne_true]
        dsimp only
        refine ⟨_, rfl, fun h => absurd h hne, fun h => absurd (hsign.mp h) Bool.false_ne_true, fun _ => ?_⟩
        rw [hz]
        exact rsqrt_approximates hf x h0 hm hlow hhigh

theorem rsqOp_lt (f : Fmt) (g : Bool) (x : Nat) : (f.rsqOp g x).1 < 2 ^ f.width := by
  rw [Fmt.rsqOp]
  dsimp only
  split
  · exact nanCode_lt f
  · split
    · exact nanCode_lt f
    · exact Nat.two_pow_pos _
  · split
    · exact zero_add_lt f _ _ (infCode_lt f)
    · split
      · exact nanCode_lt f
      · exact approxResult_lt

end

end Sys2Proof.Proofs
end

section
/-! PROOFS. Powers of two: the exact ones, the overflow, and what `vex2` writes (R162, R163). -/

namespace Sys2Proof.Proofs

open Sys2Proof Sys2Proof.Machine Sys2Proof.Claims

/-! ### The product of roots -/

theorem root_between {D root : Nat} (hD : D ≤ 2 ^ 128) (hlow : D ≤ root) (hhigh : root ≤ 2 * D) :
    D ≤ isqrt 260 (root * D) 0 ∧ isqrt 260 (root * D) 0 ≤ 2 * D := by
  have hn : root * D ≤ 2 ^ (1 + 128 + 128) := by
    rw [pow_add, pow_add]
    exact Nat.mul_le_mul (hhigh.trans (Nat.mul_le_mul_left 2 hD)) hD
  obtain ⟨hle, hlt⟩ := isqrt_zero_spec (k := 260) hn (by norm_num)
  generalize isqrt 260 (root * D) 0 = r at hle hlt ⊢
  constructor
  · have hsquare : D * D < (r + 1) * (r + 1) := (Nat.mul_le_mul_right D hlow).trans_lt hlt
    exact Nat.lt_succ_iff.mp (Nat.mul_self_lt_mul_self_iff.mp hsquare)
  · have hsquare : r * r ≤ 2 * D * (2 * D) := hle.trans (Nat.mul_le_mul hhigh (Nat.le_mul_of_pos_left D two_pos))
    exact Nat.mul_self_le_mul_self_iff.mp hsquare

theorem exp2Loop_between (k f : Nat) {root acc : Nat} (hlow : 2 ^ 128 ≤ root) (hhigh : root ≤ 2 * 2 ^ 128) :
    acc ≤ exp2Loop k f root acc ∧ exp2Loop k f root acc ≤ acc * 2 ^ k := by
  induction k generalizing root acc with
  | zero => exact ⟨le_rfl, (Nat.mul_one acc).ge⟩
  | succ k ih =>
    obtain ⟨hlow', hhigh'⟩ := root_between le_rfl hlow hhigh
    rw [exp2Loop]
    obtain ⟨hge, hle⟩ := ih (acc := if f / 2 ^ k % 2 = 1 then acc * isqrt 260 (root * 2 ^ 128) 0 / 2 ^ 128 else acc) hlow' hhigh'
    have hD : 0 < 2 ^ 128 := by positivity
    generalize isqrt 260 (root * 2 ^ 128) 0 = r at *
    generalize 2 ^ 128 = D at *
    have hstep : acc ≤ acc * r / D ∧ acc * r / D ≤ acc * 2 := by
      constructor
      · exact (Nat.le_div_iff_mul_le hD).mpr (Nat.mul_le_mul_left acc hlow')
      · refine Nat.div_le_of_le_mul ?_
        calc acc * r ≤ acc * (2 * D) := Nat.mul_le_mul_left acc hhigh'
          _ = D * (acc * 2) := by ring
    have hacc : acc ≤ (if f / 2 ^ k % 2 = 1 then acc * r / D else acc) ∧ (if f / 2 ^ k % 2 = 1 then acc * r / D else acc) ≤ acc * 2 := by
      split
      · exact hstep
      · exact ⟨le_rfl, by omega⟩
    refine ⟨hacc.1.trans hge, hle.trans ?_⟩
    rw [pow_succ', ← Nat.mul_assoc]
    exact Nat.mul_le_mul_right _ hacc.2

/-! ### The cells of powers of two -/

/-- A number in units of 2^-96, rounded down. -/
def fixed (neg : Bool) (m : Nat) (e : ℤ) : ℤ :=
  if 0 ≤ e + 96 then signed neg (m * 2 ^ (e + 96).toNat) else signed neg m / ((2 ^ (-(e + 96)).toNat : ℕ) : ℤ)

/-- Whether it is a whole number of these units. -/
def isFixed (m : Nat) (e : ℤ) : Bool := decide (0 ≤ e + 96) || decide (m % 2 ^ (-(e + 96)).toNat = 0)

section
variable {neg : Bool} {m : Nat} {e : ℤ}

theorem exp2_big (h : 20 ≤ e + nbits m) : exp2 neg m e = ⟨1, if neg then -1048576 else 1048576, true⟩ := by
  rw [exp2]
  exact if_pos (decide_eq_true h)

theorem exp2_small (h : ¬ 20 ≤ e + nbits m) : exp2 neg m e =
    if (fixed neg m e % ((2 ^ 96 : ℕ) : ℤ)).toNat = 0 ∧ isFixed m e then ⟨1, fixed neg m e / ((2 ^ 96 : ℕ) : ℤ), false⟩
    else ⟨exp2Loop 96 (fixed neg m e % ((2 ^ 96 : ℕ) : ℤ)).toNat (2 ^ 129) (2 ^ 128),
      fixed neg m e / ((2 ^ 96 : ℕ) : ℤ) - 128, true⟩ := by
  rw [exp2]
  exact if_neg (by simpa using h)

/-- The power of a whole number is exact. -/
theorem exp2_integer {k : ℤ} (h0 : m ≠ 0) (hm : m < 2 ^ 24) (hz : signedNum neg m e = k) (hk : |k| < 2 ^ 18) :
    exp2 neg m e = ⟨1, k, false⟩ := by
  have habs : (m : ℚ) * 2 ^ e = (|k| : ℤ) := by rw [← abs_signedNum neg, hz]; push_cast; rfl
  have hk0 : 1 ≤ |k| := Int.one_le_abs fun h => h0 ((signedNum_eq_zero neg m e).mp (by rw [hz, h]; rfl))
  have hsmall : ¬ 20 ≤ e + nbits m := fun h => by
    have hsize : (2 : ℚ) ^ nbits m ≤ 2 * m := by exact_mod_cast two_pow_size_le 14 m h0
    have hlow : (2 : ℚ) ^ (20 : ℤ) ≤ 2 * (|k| : ℤ) :=
      calc (2 : ℚ) ^ (20 : ℤ) ≤ 2 ^ (e + nbits m) := by gcongr; norm_num
        _ = 2 ^ nbits m * 2 ^ e := by rw [zpow_add₀ two_ne_zero, zpow_natCast, mul_comm]
        _ ≤ 2 * m * 2 ^ e := by gcongr
        _ = 2 * (|k| : ℤ) := by rw [mul_assoc, habs]
    have hlow' : (2 : ℤ) ^ 20 ≤ 2 * |k| := by exact_mod_cast hlow
    omega
  have hexp : 0 ≤ e + 96 := by
    by_contra hneg
    have hlt : (m : ℚ) * 2 ^ e < 1 :=
      calc (m : ℚ) * 2 ^ e ≤ 2 ^ (24 : ℤ) * 2 ^ e := by gcongr; exact_mod_cast hm.le
        _ = 2 ^ (24 + e) := (zpow_add₀ two_ne_zero ..).symm
        _ < 1 := zpow_lt_one_of_neg₀ (by norm_num) (by omega)
    rw [habs] at hlt
    have hlt' : |k| < 1 := by exact_mod_cast hlt
    omega
  have hfixed : fixed neg m e = k * ((2 ^ 96 : ℕ) : ℤ) := by
    have hunits := signedNum_of_le neg m e (-96) (by omega)
    rw [hz, zpow_neg, ← div_eq_mul_inv, eq_div_iff (by positivity)] at hunits
    rw [fixed, if_pos hexp]
    exact_mod_cast hunits.symm
  have hpos : ((2 ^ 96 : ℕ) : ℤ) ≠ 0 := by positivity
  rw [exp2_small hsmall, hfixed, Int.mul_emod_left, Int.mul_ediv_cancel _ hpos]
  exact if_pos ⟨rfl, by rw [isFixed, decide_eq_true hexp, Bool.true_or]⟩

/-- The power of a large number is large. -/
theorem exp2_large {b : ℕ} (hb : b ≤ 1048576) (h : (b : ℚ) ≤ m * 2 ^ e) :
    (exp2 false m e).q ≠ 0 ∧ (exp2 false m e).q ≤ 2 ^ (128 + 96) ∧ 2 ^ (b : ℤ) ≤ middle (exp2 false m e) := by
  have hone {n : ℤ} {st : Bool} (hn : (b : ℤ) ≤ n) : (2 : ℚ) ^ (b : ℤ) ≤ middle ⟨1, n, st⟩ := by
    rw [middle_eq]
    calc (2 : ℚ) ^ (b : ℤ) ≤ 1 * 2 ^ n := by rw [one_mul]; gcongr; norm_num
      _ ≤ _ := by gcongr; split <;> norm_num
  by_cases hbig : 20 ≤ e + nbits m
  · rw [exp2_big hbig]
    exact ⟨one_ne_zero, Nat.one_le_two_pow, hone (by rw [if_neg Bool.false_ne_true]; exact_mod_cast hb)⟩
  · have hfixed : (b : ℤ) * ((2 ^ 96 : ℕ) : ℤ) ≤ fixed false m e := by
      rw [fixed]
      split
      case isTrue he =>
        obtain ⟨d, hd⟩ : ∃ d : ℕ, e = d - 96 := ⟨(e + 96).toNat, by omega⟩
        have hd' : (e + 96).toNat = d := by omega
        rw [hd, zpow_sub₀ two_ne_zero, zpow_natCast, ← mul_div_assoc, le_div_iff₀ (by positivity)] at h
        rw [hd', signed, if_neg Bool.false_ne_true]
        exact_mod_cast h
      case isFalse he =>
        obtain ⟨d, hd⟩ : ∃ d : ℕ, e = -d - 96 := ⟨(-(e + 96)).toNat, by omega⟩
        have hd' : (-(e + 96)).toNat = d := by omega
        rw [hd, zpow_sub₀ two_ne_zero, zpow_neg, zpow_natCast, ← mul_div_assoc, le_div_iff₀ (by positivity), ← div_eq_mul_inv,
          le_div_iff₀ (by positivity)] at h
        rw [hd', signed, if_neg Bool.false_ne_true]
        exact (Int.le_ediv_iff_mul_le (by positivity)).mpr (by exact_mod_cast h)
    have hn : (b : ℤ) ≤ fixed false m e / ((2 ^ 96 : ℕ) : ℤ) := (Int.le_ediv_iff_mul_le (by positivity)).mpr hfixed
    rw [exp2_small hbig]
    split
    · exact ⟨one_ne_zero, Nat.one_le_two_pow, hone hn⟩
    · obtain ⟨hlow, hhigh⟩ := exp2Loop_between 96 (fixed false m e % ((2 ^ 96 : ℕ) : ℤ)).toNat (root := 2 ^ 129) (acc := 2 ^ 128)
        (Nat.pow_le_pow_right two_pos (by norm_num)) (pow_succ' 2 128).le
      have hpos : 0 < 2 ^ 128 := by positivity
      generalize exp2Loop 96 (fixed false m e % ((2 ^ 96 : ℕ) : ℤ)).toNat (2 ^ 129) (2 ^ 128) = L at hlow hhigh ⊢
      refine ⟨(hpos.trans_le hlow).ne', hhigh.trans_eq (pow_add ..).symm, ?_⟩
      rw [middle_eq]
      have hL : (2 : ℚ) ^ (128 : ℤ) ≤ L + if true = true then 1 / 2 else 0 := by
        have : (2 : ℚ) ^ 128 ≤ L := by exact_mod_cast hlow
        have hnat : (2 : ℚ) ^ (128 : ℤ) = 2 ^ 128 := zpow_natCast 2 128
        rw [hnat, if_pos rfl]
        linarith
      calc (2 : ℚ) ^ (b : ℤ) ≤ 2 ^ (128 + (fixed false m e / ((2 ^ 96 : ℕ) : ℤ) - 128)) := by gcongr; norm_num; omega
        _ = 2 ^ (128 : ℤ) * 2 ^ (fixed false m e / ((2 ^ 96 : ℕ) : ℤ) - 128) := zpow_add₀ two_ne_zero ..
        _ ≤ _ := by gcongr

end

/-! ### `vex2` (R162, R163) -/

section
variable {f : Fmt} {g : Bool} {x : Nat} {o : Operand}

/-- `vex2` of a number that is not 0. -/
theorem exp2_approximates (hf : Approximable f) {neg : Bool} {m : Nat} {e : ℤ} (bits : Nat) (h0 : m ≠ 0) (hm : m < 2 ^ 24) :
    Approximates 2 f g (.num (signedNum neg m e) neg) (f.approxResult 2 2 g false bits (exp2 neg m e)).1
      (f.approxResult 2 2 g false bits (exp2 neg m e)).2 := by
  have hbias : f.bias ≤ 161 := by have := hf.low; unfold unitExp at this; omega
  have hzero : f.zero false = 0 := rfl
  refine ⟨fun h => absurd ((signedNum_eq_zero ..).mp h) h0, fun k hz hlow hhigh => ?_, fun hover => ?_⟩
  · have hmid : middle ⟨1, k, false⟩ = 2 ^ k := by rw [middle_eq]; simp
    obtain ⟨hmag, hcode⟩ := magnitude_two_pow hf hlow hhigh
    have hleast : least f ≤ middle ⟨1, k, false⟩ := by
      rw [hmid, least]
      gcongr
      norm_num
    have hk : |k| < 2 ^ 18 := abs_lt.mpr ⟨by omega, by omega⟩
    rw [exp2_integer h0 hm hz hk, approxResult_exact (mant_ne_zero one_ne_zero)
      (mant_lt (k := 0) le_rfl (by norm_num)) hleast hcode (hmag.trans hmid.symm), hzero, Nat.zero_add]
    exact ⟨rfl, rfl⟩
  · have hpos : 0 < signedNum neg m e := lt_of_lt_of_le (by positivity) hover
    cases neg with
    | true => exact absurd ((signedNum_neg_iff h0).mpr rfl) hpos.le.not_gt
    | false =>
      have hz : signedNum false m e = m * 2 ^ e := by simp [signedNum]
      obtain ⟨hq, hq', hbig⟩ := exp2_large (b := f.bias + 1) (by omega) (by rw [← hz]; exact_mod_cast hover)
      rw [approxResult_overflow hf.toStandard hf.ieee (mant_ne_zero hq) (mant_lt hq' (by norm_num))
        (by rw [magnitude_infCode_eq hf]; exact_mod_cast hbig)]
      exact ⟨rfl, rfl⟩

theorem ex2Op_approximates (hf : Approximable f) (hx : Reads f g x o) :
    ∃ k, (f.ex2Op g x).2 = flushFl f g x ||| k ∧ Approximates 2 f g o (f.ex2Op g x).1 k := by
  refine approximates_of_input hf hx (fun s h => ?_) (fun n h => ?_) fun n m e h => ?_
  · rw [Fmt.ex2Op, h]
  · rw [Fmt.ex2Op, h]
    cases n
    · exact ⟨(Nat.zero_add _).symm, rfl⟩
    · exact ⟨rfl, rfl⟩
  · rw [Fmt.ex2Op, h]
    dsimp only
    by_cases h0 : m = 0
    · have hz : signedNum n m e = 0 := (signedNum_eq_zero ..).mpr h0
      rw [if_pos h0, hz]
      refine ⟨0, BitVec.or_zero.symm, fun _ => ⟨rfl, rfl⟩, fun k hk _ _ => ?_, fun h => ?_⟩
      · have hk0 : k = 0 := by exact_mod_cast hk.symm
        rw [hk0, zero_add, Int.toNat_natCast]
        exact ⟨rfl, rfl⟩
      · exact absurd h (not_le.mpr (by positivity))
    · obtain ⟨hm, -⟩ := input_bounds h h0
      rw [if_neg h0]
      exact ⟨_, rfl, exp2_approximates hf x h0 (hm.trans_le (two_pow_fine hf).1)⟩

theorem ex2Op_lt (f : Fmt) (g : Bool) (x : Nat) (hf : Approximable f) : (f.ex2Op g x).1 < 2 ^ f.width := by
  have hzero (c : Nat) (hc : c < 2 ^ (f.ew + f.mw)) : c < 2 ^ f.width := (Nat.zero_add c).symm.trans_lt (zero_add_lt f false c hc)
  rw [Fmt.ex2Op]
  dsimp only
  split
  · exact nanCode_lt f
  · split
    · exact Nat.two_pow_pos _
    · exact hzero _ (infCode_lt f)
  · split
    · refine hzero _ ?_
      rw [pow_add]
      exact Nat.mul_lt_mul_of_pos_right (by rw [hf.symmetric]; omega) (by positivity)
    · exact approxResult_lt

end

end Sys2Proof.Proofs
end

section
/-! PROOFS. Logarithms of powers of two, and what `vlg2` writes; the words of the approximations (R162, R163). -/

namespace Sys2Proof.Proofs

open Sys2Proof Sys2Proof.Machine Sys2Proof.Claims

/-! ### The logarithm of a power of two -/

/-- A count that stands for a power of two is one. -/
theorem eq_two_pow {m : Nat} {e k : ℤ} (h0 : m ≠ 0) (h : (m : ℚ) * 2 ^ e = 2 ^ k) : ∃ j : ℕ, m = 2 ^ j ∧ k = e + j := by
  have hone : (1 : ℚ) ≤ m := by exact_mod_cast Nat.pos_of_ne_zero h0
  have hle : (2 : ℚ) ^ e ≤ 2 ^ k := by
    rw [← h]
    exact le_mul_of_one_le_left (by positivity) hone
  have hek : e ≤ k := (zpow_le_zpow_iff_right₀ (by norm_num)).mp hle
  obtain ⟨j, rfl⟩ : ∃ j : ℕ, k = e + j := ⟨(k - e).toNat, by omega⟩
  refine ⟨j, ?_, rfl⟩
  rw [zpow_add₀ two_ne_zero, mul_comm, mul_right_inj' (by positivity), zpow_natCast] at h
  exact_mod_cast h

theorem log2Loop_one (k : Nat) : log2Loop k (2 ^ 256) 0 = 0 := by
  have hsquare : 2 ^ 256 * 2 ^ 256 / 2 ^ 256 = 2 ^ 256 := Nat.mul_div_cancel _ (by positivity)
  have hlt {w : ℕ} : ¬ 2 ^ (w + 1) ≤ 2 ^ w := Nat.not_le.mpr (Nat.pow_lt_pow_succ one_lt_two)
  induction k with
  | zero => rfl
  | succ k ih =>
    rw [log2Loop, hsquare, if_neg (hlt (w := 256))]
    exact ih

theorem log2Fx_two_pow {j : ℕ} (hj : j < 2 ^ 14) (e : ℤ) : log2Fx (2 ^ j) e = ((e + j) * ((2 ^ 96 : ℕ) : ℤ), true) := by
  have hbits : nbits (2 ^ j) - 1 = j := by
    rw [nbits_eq_log (by positivity) (Nat.pow_lt_pow_succ one_lt_two) hj, Nat.log_pow one_lt_two, Nat.add_sub_cancel]
  have hy : 2 ^ j * 2 ^ 256 / 2 ^ j = 2 ^ 256 := Nat.mul_div_cancel_left _ (by positivity)
  rw [log2Fx, hbits, hy, log2Loop_one, Nat.cast_zero, add_zero, decide_eq_true rfl]

/-! ### The result of a logarithm -/

/-- What `vlg2` makes of a logarithm, given in units of 2^-96 with its exactness. -/
def logResult (f : Fmt) (g : Bool) (x : Nat) (l : ℤ × Bool) : Nat × Fl :=
  let s := decide (l.1 < 0)
  let mag := if s then (if l.2 then (-l.1).toNat else (-l.1 - 1).toNat) else l.1.toNat
  let c := Config.approx 3 (BitVec.ofNat 32 x) g
  if mag = 0 ∧ l.2 then (0, 0)
  else if f = fp32 ∧ (decide (-((2 ^ 96 : ℕ) : ℤ) ≤ l.1) && decide (l.1 < ((2 ^ 96 : ℕ) : ℤ))) = true ∧ l.2 = false then
    f.tiny g (if c < 2 ^ 32 ∧ withinAbs l.1 c then c else
      (f.round .rne 0 g s (Near.mant ⟨mag, -96, !l.2⟩) ((-96 : ℤ) - 1)).1)
  else f.approxResult 3 2 g s x ⟨mag, -96, !l.2⟩

section
variable {f : Fmt} {g : Bool} {x : Nat} {o : Operand}

theorem lg2Op_positive {m : Nat} {e : ℤ} (h : (f.input g x).1 = .fin false m e) (h0 : m ≠ 0) : f.lg2Op g x =
    ((logResult f g x (log2Fx m e)).1, (f.input g x).2 ||| (logResult f g x (log2Fx m e)).2) := by
  rw [Fmt.lg2Op, h]
  dsimp only
  rw [if_neg h0, if_neg Bool.false_ne_true]
  generalize log2Fx m e = l
  rw [logResult]
  generalize (if decide (l.1 < 0) then (if l.2 then (-l.1).toNat else (-l.1 - 1).toNat) else l.1.toNat) = mag
  split
  · exact Prod.ext rfl BitVec.or_zero.symm
  · split <;> rfl

/-- A magnitude of the grid in the normal range has a code. -/
theorem exists_code {m : Nat} {e : ℤ} (h0 : m ≠ 0) (hm : m < 2 ^ 2 ^ 14) (hleast : least f ≤ m * 2 ^ e)
    (hmax : m * 2 ^ e ≤ magnitude f f.maxCode) (hgrid : OnGrid f (m * 2 ^ e)) : ∃ c ≤ f.maxCode, magnitude f c = m * 2 ^ e := by
  obtain ⟨lo, hi, c, ⟨-, -, hle, hge, hnext⟩, hpick, hc, -⟩ := round_within (r := 0) (by norm_num) .rne true false h0 hm hleast hmax
  obtain ⟨hlow, hhigh⟩ := hnext _ hgrid
  exact ⟨c, hc, (picks_or hpick).elim (·.trans (le_antisymm hle (hlow le_rfl))) (·.trans (le_antisymm (hhigh le_rfl) hge))⟩

/-- The cell of a whole magnitude in units of 2^-96. -/
def wholeNear (n : Nat) : Near := ⟨n * 2 ^ 96, -96, false⟩

theorem middle_wholeNear (n : Nat) : middle (wholeNear n) = n := by
  have hcancel : (2 : ℚ) ^ 96 * 2 ^ (-96 : ℤ) = 1 := by
    rw [zpow_neg, ← zpow_natCast]
    exact mul_inv_cancel₀ (by positivity)
  rw [middle_eq, wholeNear, if_neg Bool.false_ne_true, add_zero, Nat.cast_mul, Nat.cast_pow, Nat.cast_ofNat, mul_assoc, hcancel, mul_one]

/-- A small whole magnitude is exact in every format. -/
theorem approxResult_whole (hf : Approximable f) {op ulps bits n : Nat} (neg : Bool) (h0 : n ≠ 0) (hn : n ≤ 2 ^ (f.mw + 1)) :
    ∃ c ≤ f.maxCode, magnitude f c = n ∧ f.approxResult op ulps g neg bits (wholeNear n) = (f.zero neg + c, 0) := by
  have hbias := six_le_bias hf
  have hfine := hf.fine
  have hpow : 0 < 2 ^ 96 := by positivity
  have hmant0 : (wholeNear n).mant ≠ 0 := mant_ne_zero (Nat.mul_ne_zero h0 hpow.ne')
  have hmant : (wholeNear n).mant < 2 ^ 2 ^ 14 := by
    refine mant_lt (k := f.mw + 1 + 96) ?_ (by norm_num; omega)
    rw [pow_add]
    exact Nat.mul_le_mul_right _ hn
  have hleast : least f ≤ middle (wholeNear n) := by
    rw [middle_wholeNear]
    calc least f ≤ 1 := zpow_le_one_of_nonpos₀ (by norm_num) (by omega)
      _ ≤ n := by exact_mod_cast Nat.pos_of_ne_zero h0
  have hmax : middle (wholeNear n) ≤ magnitude f f.maxCode := by
    obtain ⟨htop, hcode⟩ := magnitude_two_pow hf (k := f.bias) (by omega) le_rfl
    rw [middle_wholeNear]
    calc (n : ℚ) ≤ 2 ^ (f.mw + 1) := by exact_mod_cast hn
      _ ≤ 2 ^ f.bias := pow_le_pow_right₀ (by norm_num) hf.whole
      _ = magnitude f ((f.bias + f.bias : ℤ).toNat * 2 ^ f.mw) := by rw [htop, zpow_natCast]
      _ ≤ magnitude f f.maxCode := (magnitude_strictMono f).monotone hcode
  have hgrid : OnGrid f (middle (wholeNear n)) := ⟨n, 0, hn, by omega, by rw [middle_wholeNear, zpow_zero, mul_one]⟩
  obtain ⟨c, hc, hcode⟩ := exists_code hmant0 hmant hleast hmax hgrid
  exact ⟨c, hc, Eq.trans hcode (middle_wholeNear n), approxResult_exact hmant0 hmant hleast hc hcode⟩

theorem logResult_eq (f : Fmt) (g : Bool) (x : Nat) (k : ℤ) : logResult f g x (k * ((2 ^ 96 : ℕ) : ℤ), true) =
    if k.natAbs * 2 ^ 96 = 0 then (0, 0) else f.approxResult 3 2 g (decide (k < 0)) x (wholeNear k.natAbs) := by
  have hunit : 0 < ((2 ^ 96 : ℕ) : ℤ) := by positivity
  have hsign : decide (k * ((2 ^ 96 : ℕ) : ℤ) < 0) = decide (k < 0) := by
    rw [Bool.eq_iff_iff, decide_eq_true_iff, decide_eq_true_iff, ← not_le, ← not_le, mul_nonneg_iff_of_pos_right hunit]
  have hmag : (if decide (k < 0) then (-(k * ((2 ^ 96 : ℕ) : ℤ))).toNat else (k * ((2 ^ 96 : ℕ) : ℤ)).toNat) = k.natAbs * 2 ^ 96 := by
    rw [← hsign, ← Int.natAbs_natCast (2 ^ 96), ← Int.natAbs_mul, Int.natAbs_natCast]
    generalize k * ((2 ^ 96 : ℕ) : ℤ) = i
    by_cases h : i < 0
    · rw [decide_eq_true h, if_pos rfl]
      omega
    · rw [decide_eq_false h, if_neg Bool.false_ne_true]
      omega
  simp only [logResult, ↓reduceIte, hsign, hmag, and_true, Bool.true_eq_false, and_false, Bool.not_true]
  rfl

/-- A number of a sign and a whole magnitude. -/
theorem signed_natAbs_cast (k : ℤ) : (if decide (k < 0) then -1 else 1) * (k.natAbs : ℚ) = k := by
  have h := signed_natAbs k 0
  rwa [signedNum, zpow_zero, mul_one, mul_one] at h

/-- A whole logarithm is exact. -/
theorem logResult_whole (hf : Approximable f) {k : ℤ} (hk : k.natAbs ≤ 2 ^ (f.mw + 1)) :
    let r := logResult f g x (k * ((2 ^ 96 : ℕ) : ℤ), true)
    ¬ reservedCode f r.1 ∧ numberOf f r.1 = k ∧ r.2 = 0 ∧ (k = 0 → r.1 = 0) := by
  intro r
  have hr : r = _ := logResult_eq f g x k
  have hpow : 0 < 2 ^ 96 := by positivity
  by_cases hk0 : k = 0
  · rw [hr, hk0, Int.natAbs_zero, Nat.zero_mul, if_pos rfl]
    have hzero := not_reservedCode f false 0 hf.normal (Nat.zero_le _)
    have hnumber : numberOf f 0 = 0 := by
      change numberOf f (f.zero false + 0) = 0
      rw [numberOf_eq, zero_add_mod f false 0 (by positivity), magnitude, if_pos (Nat.zero_div _)]
      simp
    exact ⟨hzero, hnumber.trans Int.cast_zero.symm, rfl, fun _ => rfl⟩
  · have habs : k.natAbs ≠ 0 := Int.natAbs_ne_zero.mpr hk0
    obtain ⟨c, hc, hcode, hres⟩ := approxResult_whole (g := g) (op := 3) (ulps := 2) (bits := x) hf (decide (k < 0)) habs hk
    have hlt := hc.trans_lt (maxCode_lt f)
    rw [hr, if_neg (Nat.mul_ne_zero habs hpow.ne'), hres]
    refine ⟨not_reservedCode f _ c hf.normal hc, ?_, rfl, fun h => absurd h hk0⟩
    rw [numberOf_eq, minus_zero_add f _ c hlt, zero_add_mod f _ c hlt, hcode]
    exact signed_natAbs_cast k

/-- The logarithm of a power of two that is a number of a format. -/
theorem log2Fx_whole (hf : Approximable f) {m : Nat} {e k : ℤ} (h0 : m ≠ 0) (hm : m < 2 ^ (f.mw + 1)) (hlow : unitExp f ≤ e)
    (hhigh : e ≤ unitExp f + (2 ^ f.ew : ℕ)) (h : (m : ℚ) * 2 ^ e = 2 ^ k) :
    log2Fx m e = (k * ((2 ^ 96 : ℕ) : ℤ), true) ∧ k.natAbs ≤ 2 ^ (f.mw + 1) := by
  obtain ⟨j, rfl, rfl⟩ := eq_two_pow h0 h
  have hfine := hf.fine
  have hj : j < f.mw + 1 := (Nat.pow_lt_pow_iff_right one_lt_two).mp hm
  have hloglow := hf.logLow
  have hloghigh := hf.logHigh
  refine ⟨log2Fx_two_pow (by norm_num; omega) e, ?_⟩
  zify
  rw [abs_le]
  push_cast at hhigh
  exact ⟨by omega, by omega⟩

theorem lg2Op_approximates (hf : Approximable f) (hx : Reads f g x o) :
    ∃ k, (f.lg2Op g x).2 = flushFl f g x ||| k ∧ Approximates 3 f g o (f.lg2Op g x).1 k := by
  refine approximates_of_input hf hx (fun s h => ?_) (fun n h => ?_) fun n m e h => ?_
  · rw [Fmt.lg2Op, h]
  · rw [Fmt.lg2Op, h]
    cases n
    · exact ⟨(Nat.zero_add _).symm, rfl⟩
    · exact ⟨rfl, rfl⟩
  · by_cases h0 : m = 0
    · have hz : signedNum n m e = 0 := (signedNum_eq_zero ..).mpr h0
      rw [Fmt.lg2Op, h, hz]
      dsimp only
      rw [if_pos h0]
      exact ⟨_, rfl, fun _ => ⟨rfl, rfl⟩, fun h => absurd h (lt_irrefl _), fun h => absurd h zero_ne_one,
        fun k h => absurd h (zpow_pos two_pos k).ne⟩
    · have hne : signedNum n m e ≠ 0 := mt (signedNum_eq_zero ..).mp h0
      have hsign := signedNum_neg_iff (neg := n) (e := e) h0
      cases n with
      | true =>
        have hneg := hsign.mpr rfl
        rw [Fmt.lg2Op, h]
        dsimp only
        rw [if_neg h0, if_pos rfl]
        exact ⟨_, rfl, fun h => absurd h hne, fun _ => ⟨rfl, rfl⟩, fun h => absurd (h ▸ hneg) (by norm_num),
          fun k h => absurd (h ▸ hneg) (zpow_pos two_pos k).le.not_gt⟩
      | false =>
        obtain ⟨hm, hlow, hhigh⟩ := input_bounds h h0
        have hz : signedNum false m e = m * 2 ^ e := by simp [signedNum]
        have hwhole (k : ℤ) (hk : signedNum false m e = 2 ^ k) := log2Fx_whole hf h0 hm hlow hhigh (hz ▸ hk)
        rw [lg2Op_positive h h0]
        refine ⟨_, rfl, fun h => absurd h hne, fun h => absurd (hsign.mp h) Bool.false_ne_true, fun hone => ?_, fun k hk => ?_⟩
        · obtain ⟨hlog, -⟩ := hwhole 0 (hone.trans (zpow_zero 2).symm)
          obtain ⟨-, -, hflags, hcode⟩ := logResult_whole (g := g) (x := x) hf (k := 0) (Nat.zero_le _)
          rw [hlog]
          exact ⟨hcode rfl, hflags⟩
        · obtain ⟨hlog, hbound⟩ := hwhole k hk
          obtain ⟨hreserved, hnumber, hflags, -⟩ := logResult_whole (g := g) (x := x) hf hbound
          rw [hlog]
          exact ⟨hreserved, hnumber, hflags⟩

theorem tiny_lt {c : Nat} (hc : c < 2 ^ f.width) : (f.tiny g c).1 < 2 ^ f.width := by
  rw [Fmt.tiny]
  split
  · exact hc
  · split
    · exact hc
    · exact zero_add_lt f _ 0 (by positivity)

theorem logResult_lt (l : ℤ × Bool) : (logResult f g x l).1 < 2 ^ f.width := by
  rw [logResult]
  generalize (if decide (l.1 < 0) then (if l.2 then (-l.1).toNat else (-l.1 - 1).toNat) else l.1.toNat) = mag
  split
  · exact Nat.two_pow_pos _
  · split
    case isTrue h =>
      rw [h.1]
      refine tiny_lt ?_
      split
      case isTrue hc => exact hc.1
      case isFalse => exact round_lt ..
    case isFalse => exact approxResult_lt

theorem lg2Op_lt (f : Fmt) (g : Bool) (x : Nat) : (f.lg2Op g x).1 < 2 ^ f.width := by
  cases hin : (f.input g x).1 with
  | nan s =>
    rw [Fmt.lg2Op, hin]
    exact nanCode_lt f
  | inf n =>
    rw [Fmt.lg2Op, hin]
    cases n
    · exact (Nat.zero_add _).symm.trans_lt (zero_add_lt f false _ (infCode_lt f))
    · exact nanCode_lt f
  | fin n m e =>
    by_cases h0 : m = 0
    · rw [Fmt.lg2Op, hin]
      dsimp only
      rw [if_pos h0]
      exact zero_add_lt f _ _ (infCode_lt f)
    · cases n with
      | true =>
        rw [Fmt.lg2Op, hin]
        dsimp only
        rw [if_neg h0, if_pos rfl]
        exact nanCode_lt f
      | false =>
        rw [lg2Op_positive hin h0]
        exact logResult_lt _

end

/-! ### The words -/

/-- The four operations as R162 numbers them in the statement, and their words. -/
def approxOp (f : Fmt) (g : Bool) (x op : Nat) : Nat × Fl :=
  match op with
  | 0 => f.rcpOp g x
  | 1 => f.rsqOp g x
  | 2 => f.ex2Op g x
  | _ => f.lg2Op g x

def approxWord (d a : Reg) (ty : VTy) (sp : Bool) (op : Nat) : Instr :=
  match op with
  | 0 => .vrcp d a ty sp
  | 1 => .vrsq d a ty sp
  | 2 => .vex2 d a ty sp
  | _ => .vlg2 d a ty sp

section
variable {f : Fmt} {g : Bool} {x : Nat} {o : Operand} {s : State} {d a : Reg} {ty : VTy} {sp : Bool} {op : Nat}

theorem approxOp_lt (hf : Approximable f) (op : Nat) : (approxOp f g x op).1 < 2 ^ f.width := by
  match op with
  | 0 => exact rcpOp_lt f g x
  | 1 => exact rsqOp_lt f g x
  | 2 => exact ex2Op_lt f g x hf
  | k + 3 => exact lg2Op_lt f g x

theorem approxOp_approximates (hf : Approximable f) (hop : op < 4) (hx : Reads f g x o) :
    ∃ k, (approxOp f g x op).2 = flushFl f g x ||| k ∧ Approximates op f g o (approxOp f g x op).1 k := by
  match op with
  | 0 => exact rcpOp_approximates hf hx
  | 1 => exact rsqOp_approximates hf hx
  | 2 => exact ex2Op_approximates hf hx
  | 3 => exact lg2Op_approximates hf hx

theorem fpElements_approx (hop : op < 4) (h : ty.isFp = true) (hc : VClear s [a]) (hr : Ready (approxWord d a ty sp op) s) :
    FpElements (approxWord d a ty sp op) s 10 0 d (VTy.ew ty) fun q c fl =>
      let x := el (VTy.ew ty) (s.me.v a).val q
      ∀ o, Reads (VTy.fmt ty) s.me.graded x o →
        ∃ k, fl = flushFl (VTy.fmt ty) s.me.graded x ||| k ∧ Approximates op (VTy.fmt ty) s.me.graded o c k := by
  have hf := approximable_fmt h
  have hword : vectorWord s (approxWord d a ty sp op) = some ⟨sp, 10, 0, d, s.ops2 a a,
      byElem (VTy.ew ty) (fun q => approxOp (VTy.fmt ty) s.me.graded (elem (VTy.ew ty) (s.ops2 a a).src.a q) op)
        (depsOf (VTy.ew ty) [0])⟩ := by
    match op with
    | 0 | 1 | 2 | k + 3 => rfl
  exact fpElements_byElem hword hr (pois_ops2_self hc) (laneWidth_ew ty) fun q _ =>
    ⟨lt_element_of_lt_width h (approxOp_lt hf op), fun o ho => approxOp_approximates hf hop ho⟩

end

end Sys2Proof.Proofs
end

section
/-! PROOFS. What a vector word without poisoned sources writes (R122, R123, R148 to R179). -/

namespace Sys2Proof.Proofs

open Sys2Proof Sys2Proof.Machine Sys2Proof.Claims

/-- Settles O15, clause by clause: one rounding of the exact result and its neighbours on the grid (`round_rounds`), the order of
the codes, induction up the trees of the reductions, cells of reals that no point of the grid falls into for the approximations, and
the block scale rule. -/
theorem vectorWordsWriteTheirLanes : Obligations.VectorWordsWriteTheirLanes := by
  unfold Obligations.VectorWordsWriteTheirLanes
  refine ⟨fun s i r hword hr h => acts_vectorWord hword hr h, by decide, ?_⟩
  intro s d a b ty sp md hfp A AB ABD n f g rd
  refine ⟨fpTwo_vadd hfp, fpTwo_vsub hfp, fpTwo_vmul hfp, fpThree_vfma hfp, fpThree_vfms hfp, fpThree_vfnma hfp,
    fun mx => fpElements_minmax mx hfp, fun ng => fpElements_sign ng hfp, fun cond => fpElements_vcmp cond hfp, vrsum_adds hfp,
    fun mx => reduction_extreme mx hfp, fpElements_vdot4 hfp, fun op hop => ?approximations, fun src cf m => fpElements_vcvt src cf,
    fun fmt m hlow hhigh => ?blocks⟩
  case approximations =>
    match op, hop with
    | 0, hop | 1, hop | 2, hop | 3, hop => exact fpElements_approx hop hfp
  case blocks =>
    intro bn num h w X mant
    exact ⟨fpElements_vbdq hhigh, vbscl_shifts hlow hhigh, vbq_blocks hlow hhigh⟩

end Sys2Proof.Proofs
end

section
/-! PROOFS. Vector words on integers: exact results wrapped or clamped, and what a word that computes element by element on an integer
type writes (R151, R155, R157, R159, R160, R166). -/

namespace Sys2Proof.Proofs

open Sys2Proof Sys2Proof.Machine Sys2Proof.Claims

/-! ### Codes of integers (R148, R151) -/

section
variable {t : VTy}

theorem code_modEq (w : Nat) (x : Int) : (code w x : Int) ≡ x [ZMOD 2 ^ w] := by
  rw [cast_code]
  exact Int.mod_modEq ..

/-- The number an element stands for is the element modulo its width. -/
theorem int_modEq (t : VTy) (x : Nat) : VTy.int t x ≡ x [ZMOD 2 ^ VTy.ew t] := by
  unfold VTy.int sgn
  split
  · rfl
  split
  · rfl
  · push_cast
    exact Int.sub_modulus_modEq_iff.mpr rfl

/-- An element is the code of the number it stands for. -/
theorem code_int {x : Nat} (h : x < 2 ^ VTy.ew t) : code (VTy.ew t) (VTy.int t x) = x := by
  have hmod : (code (VTy.ew t) (VTy.int t x) : Int) % 2 ^ VTy.ew t = x % 2 ^ VTy.ew t := (code_modEq ..).trans (int_modEq t x)
  have hcast : code (VTy.ew t) (VTy.int t x) % 2 ^ VTy.ew t = x % 2 ^ VTy.ew t := by exact_mod_cast hmod
  rwa [Nat.mod_eq_of_lt (code_lt ..), Nat.mod_eq_of_lt h] at hcast

theorem lo_le_hi (t : VTy) : VTy.lo t ≤ VTy.hi t := by cases t <;> norm_num [VTy.lo, VTy.hi, VTy.unsigned, VTy.ew]

/-- A result is wrapped or clamped, with AOF where a clamped accumulator element lay outside its range. -/
theorem intResult_eq (t : VTy) (sat : Bool) (x : Int) : intResult t sat x =
    (code (VTy.ew t) (if sat then clampTo t x else x), flIf (sat && t == .ax && clampTo t x != x) flAOF) := by
  have hrange := lo_le_hi t
  cases sat with
  | false => rfl
  | true =>
    simp only [intResult, clampTo, ↓reduceIte, Bool.true_and]
    split
    case isTrue hlow =>
      rw [max_eq_left (by omega), bne_iff_ne.mpr (by omega), Bool.and_true]
    case isFalse hlow =>
      split
      case isTrue hhigh =>
        rw [min_eq_left (by omega), max_eq_right hrange, bne_iff_ne.mpr (by omega), Bool.and_true]
      case isFalse hhigh =>
        rw [min_eq_right (by omega), max_eq_right (by omega), bne_self_eq_false, Bool.and_false]
        rfl

theorem foldl_flIf {α : Type} (l : List α) (b : α → Bool) (F : Fl) : l.foldl (fun a q => a ||| flIf (b q) F) 0 = flIf (l.any b) F := by
  refine BitVec.eq_of_getLsbD_eq fun k _ => ?_
  have hbit (c : Bool) : (flIf c F).getLsbD k = (c && F.getLsbD k) := by cases c <;> simp [flIf]
  simp only [getLsbD_foldl_or, hbit]
  cases F.getLsbD k <;> simp

end

/-! ### Words on an integer type (R150, R151) -/

section
variable {s : State} {i : Instr} {sp k : Bool} {lat : Nat} {d : Reg} {o : VOps} {w : Nat} {deps : Nat → List Dep} {ty : VTy}
  {md : BitVec 2} {l : List LaneOut}

/-- A word that writes the codes of integers, without flags. -/
theorem elements_code {e : Nat → Int} (hexec : exec i s = issue i s (s.vector lat sp k o d l))
    (hl : l = byElem w (fun q => (code w (e q), 0)) deps) (hw : LaneWidth w) (hr : Ready i s)
    (hclear : ∀ q, ∀ p ∈ deps q, o.pois p = false) : Elements i s lat d w 0 e :=
  elements_byElem hexec hl hw hr hclear fun q => code_modEq w (e q)

/-- The flags of a word with MOD are those of its elements. -/
theorem foldl_intResult (ty : VTy) (md : BitVec 2) (e : Nat → Int) :
    (List.range (2048 / VTy.ew ty)).foldl (fun a q => a ||| (intResult ty (md == 1) (e q)).2) 0 = overflow ty md e := by
  simp only [intResult_eq, overflow]
  by_cases hsat : ty = .ax ∧ md = 1
  · obtain ⟨rfl, rfl⟩ := hsat
    rw [foldl_flIf]
    simp [flIf, VTy.ew]
  · have hnone : (md == 1 && ty == .ax) = false := by
      rw [Bool.and_eq_false_iff, beq_eq_false_iff_ne, beq_eq_false_iff_ne]
      tauto
    rw [if_neg fun ⟨hty, hmd, _⟩ => hsat ⟨hty, hmd⟩]
    simp only [hnone, Bool.false_and]
    exact List.foldl_fixed' (fun _ => BitVec.or_zero) _

/-- A word with MOD writes its exact results wrapped or clamped, with the flags of its elements. -/
theorem elements_intResult {e : Nat → Int} (hword : vectorWord s i = some ⟨sp, lat, 0, d, o, l⟩)
    (hl : l = byElem (VTy.ew ty) (fun q => intResult ty (md == 1) (e q)) deps) (hr : Ready i s) (hclear : ∀ p, o.pois p = false) :
    Elements i s lat d (VTy.ew ty) (overflow ty md e) fun q => modded ty md (e q) := by
  subst hl
  have hacts := acts_byElem hword hr hclear
  rw [flags_byElem (laneWidth_ew ty), foldl_intResult] at hacts
  refine ⟨_, hacts, fun q hq => ?_⟩
  rw [el_byElem (laneWidth_ew ty) hq, intResult_eq, Nat.mod_eq_of_lt (code_lt ..), cast_code]
  simp only [modded, beq_iff_eq]

/-- A word with two sources computes integers on an integer type. -/
theorem lanes2_int (hty : ty.isFp = false) (x y : Reg) (int : Int → Int → Nat × Fl) (fp : Nat → Nat → Nat → Nat × Fl) :
    lanes2 ty (s.ops2 x y).src int fp =
      byElem (VTy.ew ty) (fun q => int (ival s ty x q) (ival s ty y q)) (depsOf (VTy.ew ty) [0, 1]) := by
  simp only [lanes2, hty]
  rfl

theorem arithDo_int (hty : ty.isFp = false) (o : VOps) (l : List LaneOut) : arithDo s ty sp md d o l = some ⟨sp, 2, 0, d, o, l⟩ := by
  simp only [arithDo, hty]
  rfl

end

/-! ### Element-wise words (R155, R157, R159, R160, R166) -/

section
variable {s : State} {d a b : Reg} {ty : VTy} {sp : Bool} {md : BitVec 2}

/-- A word with two sources and MOD does what its operation does to every two integers. -/
theorem elements_arith {i : Instr} (op : Int → Int → Int) {fp : Nat → Nat → Nat → Nat × Fl}
    (hword : vectorWord s i =
      arithDo s ty sp md d (s.ops2 a b) (lanes2 ty (s.ops2 a b).src (fun x y => intResult ty (md == 1) (op x y)) fp))
    (hty : ty.isFp = false) (hc : VClear s [a, b]) (hr : Ready i s) :
    let e := fun q => op (ival s ty a q) (ival s ty b q)
    Elements i s 2 d (VTy.ew ty) (overflow ty md e) fun q => modded ty md (e q) :=
  elements_intResult (hword.trans (arithDo_int hty ..)) (lanes2_int hty ..) hr (pois_ops2 hc)

theorem elements_vmulh (hty : ty.isFp = false) (hc : VClear s [a, b]) (hr : Ready (.vmulh d a b ty sp) s) :
    Elements (.vmulh d a b ty sp) s 2 d (VTy.ew ty) 0 fun q => ival s ty a q * ival s ty b q / 2 ^ VTy.ew ty :=
  elements_code (exec_vmulh ..) ((lanes2_int hty ..).trans (by push_cast; rfl)) (laneWidth_ew ty) hr fun _ p _ => pois_ops2 hc p

theorem elements_vmin (hty : ty.isFp = false) (hc : VClear s [a, b]) (hr : Ready (.vmin d a b ty sp) s) :
    Elements (.vmin d a b ty sp) s 2 d (VTy.ew ty) 0 fun q => min (ival s ty a q) (ival s ty b q) :=
  elements_code (exec_vmin ..) (lanes2_int hty ..) (laneWidth_ew ty) hr fun _ p _ => pois_ops2 hc p

theorem elements_vmax (hty : ty.isFp = false) (hc : VClear s [a, b]) (hr : Ready (.vmax d a b ty sp) s) :
    Elements (.vmax d a b ty sp) s 2 d (VTy.ew ty) 0 fun q => max (ival s ty a q) (ival s ty b q) :=
  elements_code (exec_vmax ..) (lanes2_int hty ..) (laneWidth_ew ty) hr fun _ p _ => pois_ops2 hc p

/-- The lanes of a sign word on an integer type. -/
theorem laneSign_int (hty : ty.isFp = false) (neg : Bool) : laneSign s.me.venv ty neg md (s.ops2 a a).src =
    byElem (VTy.ew ty) (fun q => intResult ty (md == 1) (if neg then -ival s ty a q else ((ival s ty a q).natAbs : Int)))
      (depsOf (VTy.ew ty) [0]) := by
  simp only [laneSign, lanes1, hty]
  rfl

theorem elements_vabs (hty : ty.isFp = false) (hc : VClear s [a]) (hr : Ready (.vabs d a ty sp md) s) :
    let e := fun q => ((ival s ty a q).natAbs : Int)
    Elements (.vabs d a ty sp md) s 2 d (VTy.ew ty) (overflow ty md e) fun q => modded ty md (e q) :=
  elements_intResult rfl (laneSign_int hty false) hr (pois_ops2_self hc)

theorem elements_vneg (hty : ty.isFp = false) (hc : VClear s [a]) (hr : Ready (.vneg d a ty sp md) s) :
    let e := fun q => -ival s ty a q
    Elements (.vneg d a ty sp md) s 2 d (VTy.ew ty) (overflow ty md e) fun q => modded ty md (e q) :=
  elements_intResult rfl (laneSign_int hty true) hr (pois_ops2_self hc)

theorem elements_vcmp (cond : VCond) (hty : ty.isFp = false) (hc : VClear s [a, b]) (hr : Ready (.vcmp d a b ty sp cond) s) :
    Elements (.vcmp d a b ty sp cond) s 2 d (VTy.ew ty) 0 fun q =>
      if intCmp cond (ival s ty a q) (ival s ty b q) then -1 else 0 := by
  refine elements_byElem (exec_vcmp ..) (lanes2_int hty _ _ (fun x y => (if intCmp cond x y then 2 ^ VTy.ew ty - 1 else 0, 0))
    fun _ x y => let r := (VTy.fmt ty).cmpOp s.me.venv.r.graded cond x y; (if r.1 then 2 ^ VTy.ew ty - 1 else 0, r.2))
    (laneWidth_ew ty) hr (fun _ p _ => pois_ops2 hc p) fun q => ?_
  split
  · have hones : ((2 ^ VTy.ew ty - 1 : Nat) : Int) = -1 + 2 ^ VTy.ew ty := by
      push_cast [Nat.one_le_two_pow]
      ring
    rw [hones, Int.add_emod_right]
  · rfl

theorem elements_vlid (hr : Ready (.vlid d ty sp) s) : Elements (.vlid d ty sp) s 2 d (VTy.ew ty) 0 fun q => q :=
  elements_byElem (exec_vlid ..) rfl (laneWidth_ew ty) hr nofun fun q => by
    push_cast
    exact Int.mod_modEq ..

theorem elements_vpopc (hc : VClear s [a]) (hr : Ready (.vpopc d a ty sp) s) : Elements (.vpopc d a ty sp) s 2 d (VTy.ew ty) 0 fun q =>
    ((List.range (VTy.ew ty)).countP (el (VTy.ew ty) (s.me.v a).val q).testBit : Nat) :=
  elements_byElem (exec_vpopc ..) rfl (laneWidth_ew ty) hr (fun _ p _ => pois_ops2_self hc p) fun q => by
    rw [ones_eq_countP]
    rfl

theorem size_zero (k : Nat) : size k 0 = 0 := by
  induction k with
  | zero => rfl
  | succ k ih => simp [size, ih]

theorem nbits_eq_size {n k : Nat} (h : n < 2 ^ k) (hk : k ≤ 2 ^ 14) : nbits n = Nat.size n := by
  have hlt : n < 2 ^ nbits n := lt_two_pow_size 14 n (h.trans_le (Nat.pow_le_pow_right (by norm_num) hk))
  refine le_antisymm ?_ (Nat.size_le.mpr hlt)
  rcases eq_or_ne n 0 with rfl | hn
  · exact (size_zero 14).trans_le (Nat.zero_le _)
  · have hdouble : 2 ^ nbits n ≤ 2 * n := two_pow_size_le 14 n hn
    have hsize : 2 * n < 2 ^ (Nat.size n + 1) := by
      rw [pow_succ']
      exact Nat.mul_lt_mul_of_pos_left (Nat.lt_size_self n) two_pos
    exact Nat.lt_succ_iff.mp ((Nat.pow_lt_pow_iff_right one_lt_two).mp (hdouble.trans_lt hsize))

theorem elements_vclz (hc : VClear s [a]) (hr : Ready (.vclz d a ty sp) s) : Elements (.vclz d a ty sp) s 2 d (VTy.ew ty) 0 fun q =>
    (VTy.ew ty : Int) - Nat.size (el (VTy.ew ty) (s.me.v a).val q) :=
  elements_byElem (exec_vclz ..) rfl (laneWidth_ew ty) hr (fun _ p _ => pois_ops2_self hc p) fun q => by
    have hlt := el_lt (VTy.ew ty) (s.me.v a).val q
    have hsize := nbits_eq_size hlt (by cases ty <;> decide)
    have hle : Nat.size (el (VTy.ew ty) (s.me.v a).val q) ≤ VTy.ew ty := Nat.size_le.mpr hlt
    change ((VTy.ew ty - nbits (el (VTy.ew ty) (s.me.v a).val q) : Nat) : Int) % _ = _
    rw [hsize]
    push_cast [hle]
    rfl

end

end Sys2Proof.Proofs
end

section
/-! PROOFS. Reductions of integers up their tree, and the integer dot products and ternary accumulations lane by lane (R161, R164,
R165). -/

namespace Sys2Proof.Proofs

open Sys2Proof Sys2Proof.Machine Sys2Proof.Claims

/-! ### Trees of steps without flags (R161) -/

section
variable {f : Nat → Nat → Nat → Nat → Nat × Fl}

theorem treeLevel_noFlags {g : Nat → Nat → Nat → Nat × Fl} (h : ∀ i x y, (g i x y).2 = 0) :
    ∀ (i : Nat) (xs : List Nat), (treeLevel g i xs).2 = 0
  | _, [] | _, [_] => rfl
  | i, x :: y :: xs => by
    rw [treeLevel, h, treeLevel_noFlags h (i + 1) xs]
    rfl

theorem tree_noFlags (h : ∀ l i x y, (f l i x y).2 = 0) (k l : Nat) (xs : List Nat) : (tree f k l xs).2 = 0 := by
  induction k generalizing l xs with
  | zero => rfl
  | succ k ih =>
    have hlevel : (treeLevel (f l) 0 xs).2 ||| (tree f k (l + 1) (treeLevel (f l) 0 xs).1).2 = 0 := by
      rw [treeLevel_noFlags (h l), ih]
      rfl
    match xs with
    | [_] => rfl
    | [] | _ :: _ :: _ => exact hlevel

/-- A reduction by such steps writes the one result of its tree in every place. -/
theorem laneReduce_noFlags (t : VTy) (h : ∀ l i x y, (f l i x y).2 = 0) (o : VSrc) : laneReduce t f o =
    byElem (VTy.ew t) (fun _ => (treeAt f (elem (VTy.ew t) o.a) (Nat.log 2 (2048 / VTy.ew t)) 0, 0))
      fun _ => (List.range 64).map fun j => (0, j) := by
  obtain ⟨hcount, hdepth⟩ := count_eq t
  have htree := tree_range f (elem (VTy.ew t) o.a) hdepth 0
  rw [← hcount, Nat.zero_add] at htree
  rw [← htree]
  simp only [laneReduce, tree_noFlags h, ite_self]
  rfl

end

/-! ### Steps on integers -/

/-- The step of a reduction on an integer type. -/
def intStep (t : VTy) (op : Int → Int → Int) (_ _ x y : Nat) : Nat × Fl := (code (VTy.ew t) (op (VTy.int t x) (VTy.int t y)), 0)

section
variable {t : VTy} {xs : Nat → Nat} {mx : Bool}

/-- The tree of sums adds the elements under each step, modulo their width. -/
theorem treeAt_add_modEq (l i : Nat) : (treeAt (intStep t (· + ·)) xs l i : Int) ≡
    ∑ q ∈ Finset.Ico (2 ^ l * i) (2 ^ l * (i + 1)), VTy.int t (xs q) [ZMOD 2 ^ VTy.ew t] := by
  induction l generalizing i with
  | zero =>
    rw [pow_zero, one_mul, one_mul, Nat.Ico_succ_singleton, Finset.sum_singleton]
    exact (int_modEq ..).symm
  | succ l ih =>
    have hlo : 2 ^ (l + 1) * i = 2 ^ l * (2 * i) := by ring
    have hhi : 2 ^ (l + 1) * (i + 1) = 2 ^ l * (2 * i + 1 + 1) := by ring
    rw [hlo, hhi, ← Finset.sum_Ico_consecutive _ (Nat.mul_le_mul_left _ (2 * i).le_succ) (Nat.mul_le_mul_left _ (2 * i + 1).le_succ)]
    exact (code_modEq ..).trans (((int_modEq ..).trans (ih _)).add ((int_modEq ..).trans (ih _)))

/-- One number comes before another in the order of the minimum or maximum. -/
def Beats (mx : Bool) (x y : Int) : Prop := if mx then y ≤ x else x ≤ y

theorem Beats.trans {x y z : Int} (h : Beats mx x y) (h' : Beats mx y z) : Beats mx x z := by
  cases mx
  · exact le_trans (α := Int) h h'
  · exact le_trans (α := Int) h' h

/-- The smaller or larger of two numbers. -/
def extremeOf (mx : Bool) (x y : Int) : Int := if mx then max x y else min x y

theorem extremeOf_spec (mx : Bool) (x y : Int) :
    (extremeOf mx x y = x ∧ Beats mx x y) ∨ (extremeOf mx x y = y ∧ Beats mx y x) := by
  rcases le_total x y with h | h <;> cases mx
  · exact .inl ⟨min_eq_left h, h⟩
  · exact .inr ⟨max_eq_right h, h⟩
  · exact .inr ⟨min_eq_right h, h⟩
  · exact .inl ⟨max_eq_left h, h⟩

/-- Each step of the tree of extrema has the element under it that comes before all others there. -/
theorem treeAt_extremeOf (hxs : ∀ q, xs q < 2 ^ VTy.ew t) (l i : Nat) :
    ∃ k, 2 ^ l * i ≤ k ∧ k < 2 ^ l * (i + 1) ∧ treeAt (intStep t (extremeOf mx)) xs l i = xs k ∧
      ∀ q, 2 ^ l * i ≤ q → q < 2 ^ l * (i + 1) → Beats mx (VTy.int t (xs k)) (VTy.int t (xs q)) := by
  induction l generalizing i with
  | zero =>
    rw [pow_zero, one_mul, one_mul]
    refine ⟨i, le_rfl, i.lt_succ_self, rfl, fun q hlo hhi => ?_⟩
    obtain rfl : q = i := by omega
    cases mx <;> exact le_refl (VTy.int t (xs q))
  | succ l ih =>
    have hlo : 2 ^ (l + 1) * i = 2 ^ l * (2 * i) := by ring
    have hhi : 2 ^ (l + 1) * (i + 1) = 2 ^ l * (2 * i + 1 + 1) := by ring
    have hleft : 2 ^ l * (2 * i) ≤ 2 ^ l * (2 * i + 1) := Nat.mul_le_mul_left _ (2 * i).le_succ
    have hright : 2 ^ l * (2 * i + 1) ≤ 2 ^ l * (2 * i + 1 + 1) := Nat.mul_le_mul_left _ (2 * i + 1).le_succ
    obtain ⟨j, hj, hj', hjx, hjall⟩ := ih (2 * i)
    obtain ⟨k, hk, hk', hkx, hkall⟩ := ih (2 * i + 1)
    have hstep : treeAt (intStep t (extremeOf mx)) xs (l + 1) i =
        code (VTy.ew t) (extremeOf mx (VTy.int t (xs j)) (VTy.int t (xs k))) := by rw [← hjx, ← hkx]; rfl
    rw [hlo, hhi, hstep]
    obtain ⟨hpick, hbeats⟩ | ⟨hpick, hbeats⟩ := extremeOf_spec mx (VTy.int t (xs j)) (VTy.int t (xs k))
    · refine ⟨j, hj, hj'.trans_le hright, by rw [hpick, code_int (hxs j)], fun q hq hq' => ?_⟩
      rcases lt_or_ge q (2 ^ l * (2 * i + 1)) with h | h
      · exact hjall q hq h
      · exact hbeats.trans (hkall q h hq')
    · refine ⟨k, hleft.trans hk, hk', by rw [hpick, code_int (hxs k)], fun q hq hq' => ?_⟩
      rcases lt_or_ge q (2 ^ l * (2 * i + 1)) with h | h
      · exact hbeats.trans (hjall q hq h)
      · exact hkall q h hq'

end

/-! ### The reductions (R161) -/

section
variable {s : State} {d a : Reg} {ty : VTy} {sp : Bool} {md : BitVec 2}

theorem laneRsum_int (hty : ty.isFp = false) (o : VSrc) : laneRsum s.me.venv ty md o = laneReduce ty (intStep ty (· + ·)) o := by
  simp only [laneRsum, hty]
  rfl

theorem laneRmm_int (mx : Bool) (hty : ty.isFp = false) (o : VSrc) :
    laneRmm s.me.venv ty mx o = laneReduce ty (intStep ty (extremeOf mx)) o := by
  simp only [laneRmm, hty]
  rfl

theorem elements_vrsum (hty : ty.isFp = false) (hc : VClear s [a]) (hr : Ready (.vrsum d a ty sp md) s) :
    Elements (.vrsum d a ty sp md) s 6 d (VTy.ew ty) 0 fun _ => ∑ q ∈ Finset.range (VTy.count ty), ival s ty a q := by
  have hexec : exec (.vrsum d a ty sp md) s = issue (.vrsum d a ty sp md) s
      (s.vector 6 sp false (s.ops2 a a) d (laneRsum s.me.venv ty md (s.ops2 a a).src)) := by
    rw [exec_vrsum, execVrsum, hty]
    rfl
  obtain ⟨hcount, -⟩ := count_eq ty
  have hsum := treeAt_add_modEq (t := ty) (xs := el (VTy.ew ty) (s.me.v a).val) (Nat.log 2 (2048 / VTy.ew ty)) 0
  rw [mul_zero, Nat.zero_add, mul_one, ← hcount, ← Finset.range_eq_Ico] at hsum
  exact elements_byElem hexec ((laneRsum_int hty _).trans (laneReduce_noFlags ty (fun _ _ _ _ => rfl) _)) (laneWidth_ew ty) hr
    (fun _ p _ => pois_ops2_self hc p) fun _ => hsum

/-- The word of one of the extrema. -/
def extremeWord (d a : Reg) (ty : VTy) (sp mx : Bool) : Instr := if mx then .vrmax d a ty sp else .vrmin d a ty sp

theorem exec_extremeWord (mx : Bool) : exec (extremeWord d a ty sp mx) s = issue (extremeWord d a ty sp mx) s
    (s.vector 6 sp false (s.ops2 a a) d (laneRmm s.me.venv ty mx (s.ops2 a a).src)) := by cases mx <;> rfl

theorem elements_extremeWord (mx : Bool) (hty : ty.isFp = false) (hc : VClear s [a]) (hr : Ready (extremeWord d a ty sp mx) s) :
    ∃ k < VTy.count ty, (∀ q < VTy.count ty, Beats mx (ival s ty a k) (ival s ty a q)) ∧
      Elements (extremeWord d a ty sp mx) s 6 d (VTy.ew ty) 0 fun _ => ival s ty a k := by
  obtain ⟨hcount, -⟩ := count_eq ty
  obtain ⟨k, -, hk, hkx, hall⟩ :=
    treeAt_extremeOf (t := ty) (mx := mx) (el_lt (VTy.ew ty) (s.me.v a).val) (Nat.log 2 (2048 / VTy.ew ty)) 0
  rw [Nat.zero_add, mul_one, ← hcount] at hk hall
  refine ⟨k, hk, fun q hq => hall q (Nat.zero_le _) hq, elements_byElem (exec_extremeWord mx)
    ((laneRmm_int mx hty _).trans (laneReduce_noFlags ty (fun _ _ _ _ => rfl) _)) (laneWidth_ew ty) hr (fun _ p _ => pois_ops2_self hc p)
    fun _ => ?_⟩
  exact (congrArg (fun x : Nat => (x : Int) % _) hkx).trans (int_modEq ..).symm

end

/-! ### Dot products and ternary accumulations (R164, R165) -/

/-- A sum added up term by term. -/
theorem foldl_add_eq_sum (n : Nat) (a : Int) (g : Nat → Int) :
    (List.range n).foldl (fun acc k => acc + g k) a = a + ∑ k ∈ Finset.range n, g k := by
  induction n with
  | zero => simp
  | succ n ih => rw [List.range_succ, List.foldl_concat, ih, Finset.sum_range_succ, add_assoc]

section
variable {s : State} {d a b : Reg} {ty : VTy} {sp : Bool} {md : BitVec 2}

/-- A word that issues is well formed (R38). -/
theorem wf_of_ready {i : Instr} (h : Ready i s) : i.wf = true := by
  obtain ⟨hlegal, -⟩ := h
  exact wf_of_legal hlegal

/-- The types of the integer `vdot4` and of `vtacc`: signed elements of a byte or a half of a lane (R154). -/
structure DotType (ty : VTy) : Prop where
  signed : VTy.unsigned ty = false
  fills : VTy.ew ty * (32 / VTy.ew ty) = 32

theorem dotType_of_dotOk (hty : ty.isFp = false) (h : dotOk ty md = true) : DotType ty := by
  cases ty with
  | i8x4 | i16x2 => exact ⟨rfl, by decide⟩
  | bf16x2 | f32 | f16x2 => nomatch hty
  | i32 | n32 | ax => nomatch h

theorem dotType_of_vtacc (h : (ty == .i8x4 || ty == .i16x2) = true) : DotType ty := by
  rw [Bool.or_eq_true, beq_iff_eq, beq_iff_eq] at h
  obtain rfl | rfl := h <;> exact ⟨rfl, by decide⟩

/-- The elements of a lane are signed numbers of the register. -/
theorem sgn_elem_lane (h : DotType ty) (r : Reg) (j : Nat) {k : Nat} (hk : k < 32 / VTy.ew ty) :
    sgn (VTy.ew ty) (elem (VTy.ew ty) (elem 32 (s.me.v r).val.toNat j) k) = ival s ty r (j * (32 / VTy.ew ty) + k) := by
  have hplace := elem_elem (w := VTy.ew ty) (s.me.v r).val.toNat j hk
  rw [h.fills, Nat.mul_comm] at hplace
  rw [hplace, ival, VTy.int, h.signed]
  rfl

/-- The sum of the terms that the elements of two lanes make. -/
def laneTerms (s : State) (ty : VTy) (a b : Reg) (g : Int → Int → Int) (j : Nat) : Int :=
  ∑ k ∈ Finset.range (32 / VTy.ew ty), g (ival s ty a (j * (32 / VTy.ew ty) + k)) (ival s ty b (j * (32 / VTy.ew ty) + k))

theorem foldl_terms (h : DotType ty) (g : Int → Int → Int) (z : Int) (j : Nat) :
    (List.range (32 / VTy.ew ty)).foldl (fun acc k => acc +
      g (sgn (VTy.ew ty) (elem (VTy.ew ty) (elem 32 (s.me.v a).val.toNat j) k))
        (sgn (VTy.ew ty) (elem (VTy.ew ty) (elem 32 (s.me.v b).val.toNat j) k))) z = z + laneTerms s ty a b g j := by
  rw [foldl_add_eq_sum, laneTerms]
  congr 1
  refine Finset.sum_congr rfl fun k hk => ?_
  have hk := Finset.mem_range.mp hk
  rw [sgn_elem_lane h a j hk, sgn_elem_lane h b j hk]

theorem elements_vdot4 (hty : ty.isFp = false) (hc : VClear s [a, b, d]) (hr : Ready (.vdot4 d a b ty sp md) s) :
    Elements (.vdot4 d a b ty sp md) s 3 d 32 0 fun j =>
      modded .i32 md (sgn 32 (el 32 (s.me.v d).val j) + laneTerms s ty a b (· * ·) j) := by
  have hdot := dotType_of_dotOk hty (wf_of_ready hr)
  have hword : vectorWord s (.vdot4 d a b ty sp md) = some ⟨sp, 3, 0, d, s.ops3 a b d, laneDot s.me.venv ty md (s.ops3 a b d).src⟩ := by
    simp only [vectorWord, hty, Bool.false_and]
    rfl
  have hlanes : laneDot s.me.venv ty md (s.ops3 a b d).src = byElem 32 (fun j => intResult .i32 (md == 1)
      (sgn 32 (el 32 (s.me.v d).val j) + laneTerms s ty a b (· * ·) j)) (depsOf 32 [0, 1, 3]) := by
    simp only [laneDot, hty, ← foldl_terms hdot]
    rfl
  exact elements_intResult (ty := .i32) hword hlanes hr (pois_ops3 hc)

theorem elements_vtacc (hc : VClear s [a, b, d]) (hr : Ready (.vtacc d a b ty sp) s) :
    Elements (.vtacc d a b ty sp) s 2 d 32 0 fun j =>
      el 32 (s.me.v d).val j + laneTerms s ty a b (fun x y => x.sign * y) j := by
  have hdot := dotType_of_vtacc (wf_of_ready hr)
  have hlanes : laneTacc ty (s.ops3 a b d).src = byElem 32 (fun j =>
      (code 32 (el 32 (s.me.v d).val j + laneTerms s ty a b (fun x y => x.sign * y) j), 0)) (depsOf 32 [0, 1, 3]) := by
    simp only [laneTacc, ← foldl_terms hdot]
    rfl
  exact elements_code (exec_vtacc ..) hlanes (.inl (by decide)) hr fun _ p _ => pois_ops3 hc p

end

end Sys2Proof.Proofs
end

section
/-! PROOFS. The vector words on integers (R151, R155 to R166). -/

namespace Sys2Proof.Proofs

open Sys2Proof Sys2Proof.Machine Sys2Proof.Claims

/-- Settles O17: the element-wise words by their exact results, the reductions by induction up their tree, the dot products and
accumulations by the sum of a lane. -/
theorem vectorIntegerElements : Obligations.VectorIntegerElements := by
  unfold Obligations.VectorIntegerElements
  intro s d a b ty sp md hty A AB n x y Two One
  exact ⟨elements_arith (· + ·) rfl hty, elements_arith (· - ·) rfl hty, elements_arith (· * ·) rfl hty, elements_vmulh hty,
    elements_vmin hty, elements_vmax hty, elements_vabs hty, elements_vneg hty, fun cond => elements_vcmp cond hty, elements_vlid,
    elements_vpopc, elements_vclz, elements_vrsum hty, fun mx => elements_extremeWord mx hty,
    fun hc => ⟨elements_vdot4 hty hc, elements_vtacc hc⟩⟩

end Sys2Proof.Proofs
end

section
/-! PROOFS. The selects and `vptst` (R122, R168). -/

namespace Sys2Proof.Proofs

open Sys2Proof Sys2Proof.Machine Sys2Proof.Claims

/-! ### What a select reads of a lane -/

/-- The sources of a select. -/
def selOps (s : State) (a b c : Reg) : VOps := { s.ops2 a b with c := s.me.v c }

/-- Where a lane of the condition has a select read the lane of B: where it is zero, or bit by bit where it is not all ones. -/
def ReadsB (bitwise : Bool) (z : BitVec 32) : Prop := if bitwise then z ≠ BitVec.allOnes 32 else z = 0

/-- None of the lanes that a select reads at place `j` is poisoned. -/
def SelectsClear (bitwise : Bool) (s : State) (a b c : Reg) (j : Nat) : Prop :=
  (s.me.v c).poison.getLsbD j = false ∧ (ReadsB bitwise (lane (s.me.v c).val j) → (s.me.v b).poison.getLsbD j = false) ∧
    (lane (s.me.v c).val j ≠ 0 → (s.me.v a).poison.getLsbD j = false)

section
variable {s : State} {a b c d : Reg} {bitwise : Bool} {j : Nat} {pois : Dep → Bool} {l : List Dep}

theorem firstDep_eq_none : firstDep pois l = none ↔ ∀ q ∈ l, pois q = false := by
  refine ⟨fun hnone => ?_, firstDep_none⟩
  obtain ⟨-, hclear⟩ | ⟨p, hp, -⟩ := firstDep_spec pois l
  · exact hclear
  · simp [hnone] at hp

/-- The lanes of A and B that a select reads, by the lane of its condition. -/
def selReads (bitwise : Bool) (z j : Nat) : List Dep :=
  if bitwise then (if z = 2 ^ 32 - 1 then [(0, j)] else if z = 0 then [(1, j)] else [(0, j), (1, j)])
  else (if z = 0 then [(1, j)] else [(0, j)])

theorem selLane_snd (o : VOps) : (selLane bitwise o j).2 =
    if o.pois (2, j) then some (2, j) else firstDep o.pois (selReads bitwise (o.lane (2, j)) j) := rfl

theorem forall_mem_selReads (z : BitVec 32) : (∀ q ∈ selReads bitwise z.toNat j, pois q = false) ↔
    (ReadsB bitwise z → pois (1, j) = false) ∧ (z ≠ 0 → pois (0, j) = false) := by
  have hzero : z.toNat = 0 ↔ z = 0 := BitVec.toNat_inj (y := 0)
  have hones : z.toNat = 2 ^ 32 - 1 ↔ z = BitVec.allOnes 32 := BitVec.toNat_inj (y := BitVec.allOnes 32)
  cases bitwise with
  | false =>
    simp only [selReads, ReadsB, hzero, Bool.false_eq_true, ↓reduceIte]
    split <;> simp only [List.forall_mem_singleton] <;> tauto
  | true =>
    have hdistinct : (0 : BitVec 32) ≠ BitVec.allOnes 32 := by decide
    simp only [selReads, ReadsB, hzero, hones, ↓reduceIte]
    split
    case isTrue hz =>
      have hz' : z ≠ 0 := hz ▸ hdistinct.symm
      rw [List.forall_mem_singleton]
      tauto
    case isFalse hz =>
      split <;> simp only [List.forall_mem_cons] <;> tauto

/-- No lane fires where those that are read are clear, and one does elsewhere. -/
theorem selLane_fires_none : (selLane bitwise (selOps s a b c) j).2 = none ↔ SelectsClear bitwise s a b c j := by
  have hlane : (selOps s a b c).lane (2, j) = (lane (s.me.v c).val j).toNat := (lane_toNat ..).symm
  rw [selLane_snd, hlane, SelectsClear]
  cases hp : (selOps s a b c).pois (2, j) with
  | true => exact iff_of_false nofun fun ⟨hclear, _⟩ => Bool.false_ne_true (hclear.symm.trans hp)
  | false =>
    rw [if_neg Bool.false_ne_true, firstDep_eq_none, forall_mem_selReads]
    exact (and_iff_right hp).symm

/-! ### The register that a select writes -/

/-- The value that a select keeps in a lane. -/
def selVal (bitwise : Bool) (x y z : Nat) : Nat :=
  if bitwise then (x &&& z) ||| (y &&& (z ^^^ (2 ^ 32 - 1))) else if z = 0 then y else x

/-- The register of the kept lanes. -/
def selReg (bitwise : Bool) (x y z : VWord) : VWord :=
  ofLanes ((List.range 64).map fun j => selVal bitwise (elem 32 x.toNat j) (elem 32 y.toNat j) (elem 32 z.toNat j))

theorem lane_selReg {x y z : VWord} (hj : j < 64) : lane (selReg bitwise x y z) j =
    BitVec.ofNat 32 (selVal bitwise (elem 32 x.toNat j) (elem 32 y.toNat j) (elem 32 z.toNat j)) := by
  rw [selReg, lane_ofLanes (by simp)]
  simp [hj]

theorem el_selReg {x y z : VWord} (hj : j < 64) : el 32 (selReg bitwise x y z) j =
    selVal bitwise (el 32 x j) (el 32 y j) (el 32 z j) % 2 ^ 32 := by
  rw [el_eq_elem, ← lane_toNat, lane_selReg hj, BitVec.toNat_ofNat]
  rfl

theorem lane_selReg_whole {x y z : VWord} (hj : j < 64) :
    lane (selReg false x y z) j = if lane z j = 0 then lane y j else lane x j := by
  have hzero : elem 32 z.toNat j = 0 ↔ lane z j = 0 := by
    rw [← lane_toNat]
    exact BitVec.toNat_inj (y := 0)
  rw [lane_selReg hj, selVal, if_neg Bool.false_ne_true, apply_ite (BitVec.ofNat 32), ← lane_eq_ofNat_elem, ← lane_eq_ofNat_elem]
  exact if_congr hzero rfl rfl

theorem selReg_bitwise (x y z : VWord) : selReg true x y z = (x &&& z) ||| (y &&& ~~~z) := by
  refine BitVec.eq_of_getLsbD_eq fun k hk => ?_
  have hlow : k % 32 < 32 := Nat.mod_lt _ (by decide)
  rw [getLsbD_eq_testBit_el, el_selReg (by omega), selVal, if_pos rfl, Nat.testBit_mod_two_pow, decide_eq_true hlow, Bool.true_and,
    Nat.testBit_or, Nat.testBit_and, Nat.testBit_and, Nat.testBit_xor, Nat.testBit_two_pow_sub_one, decide_eq_true hlow, Bool.xor_true,
    ← getLsbD_eq_testBit_el, ← getLsbD_eq_testBit_el, ← getLsbD_eq_testBit_el, BitVec.getLsbD_or, BitVec.getLsbD_and,
    BitVec.getLsbD_and, BitVec.getLsbD_not, decide_eq_true hk, Bool.true_and]

/-! ### Selects that write and selects that fire -/

/-- The lanes of a select that fire. -/
def selFired (s : State) (bitwise : Bool) (a b c : Reg) : List Dep :=
  ((List.range 64).map (selLane bitwise (selOps s a b c))).filterMap Prod.snd

theorem firstDep_selFired_eq_none :
    firstDep (fun _ => true) (selFired s bitwise a b c) = none ↔ ∀ j < 64, SelectsClear bitwise s a b c j := by
  have hnil : firstDep (fun _ => true) (selFired s bitwise a b c) = none ↔ selFired s bitwise a b c = [] := by
    rw [firstDep_eq_none, List.eq_nil_iff_forall_not_mem]
    exact forall₂_congr fun _ _ => iff_of_false nofun nofun
  rw [hnil, selFired, List.filterMap_eq_nil_iff, List.forall_mem_map]
  simp only [List.mem_range, selLane_fires_none]

/-- Where every lane that is read is clear, a select writes the kept lanes. -/
theorem select_of_clear (h : ∀ j < 64, SelectsClear bitwise s a b c j) : s.select bitwise d a b c =
    s.done fun k => k.push 2 (.vreg d (selReg bitwise (s.me.v a).val (s.me.v b).val (s.me.v c).val) 0 0) := by
  have hnone := firstDep_selFired_eq_none.mpr h
  unfold selFired selOps at hnone
  simp only [State.select, upTo, hnone, selReg, ofLanes, List.map_map]
  rfl

/-- Else one of the lanes that are read fires. -/
theorem select_of_poisoned (h : ¬ ∀ j < 64, SelectsClear bitwise s a b c j) :
    ∃ p, s.select bitwise d a b c = s.poison (BitVec.ofNat 64 ((selOps s a b c).lane p)) := by
  obtain ⟨p, hp⟩ := Option.ne_none_iff_exists'.mp (mt firstDep_selFired_eq_none.mp h)
  unfold selFired selOps at hp
  refine ⟨p, ?_⟩
  simp only [State.select, upTo, hp, selOps]

theorem sends_select {i : Instr} (hexec : exec i s = issue i s (s.select bitwise d a b c)) (hr : Ready i s)
    (h : ∀ j < 64, SelectsClear bitwise s a b c j) :
    Sends i s 2 (.vreg d (selReg bitwise (s.me.v a).val (s.me.v b).val (s.me.v c).val) 0 0) :=
  (exec_of_ready hexec hr).trans (congrArg _ (select_of_clear h))

theorem fires_select {i : Instr} (hexec : exec i s = issue i s (s.select bitwise d a b c)) (hr : Ready i s)
    (h : ¬ ∀ j < 64, SelectsClear bitwise s a b c j) : ∃ k, Fires i s k := by
  obtain ⟨p, hp⟩ := select_of_poisoned (d := d) h
  exact ⟨_, (exec_of_ready hexec hr).trans (congrArg _ hp)⟩

/-! ### The test of poison -/

theorem vptst_shows_poison (hr : Ready (.vptst d a) s) : ∃ v, Sends (.vptst d a) s 2 (.vreg d v 0 0) ∧
    ∀ j < 64, lane v j = if (s.me.v a).poison.getLsbD j then 1 else 0 := by
  refine ⟨ofLanes ((List.range 64).map fun j => ((s.me.v a).poison.getLsbD j).toNat), exec_of_ready (exec_vptst ..) hr, fun j hj => ?_⟩
  rw [lane_ofLanes (by simp), List.getD_eq_getElem?_getD, List.getElem?_map, List.getElem?_range hj, Option.map_some, Option.getD_some]
  cases (s.me.v a).poison.getLsbD j <;> rfl

end

/-- Settles O19: a select by the lanes it reads and those it keeps, `vptst` by the poison of its source. -/
theorem selectsAndPoisonTest : Obligations.SelectsAndPoisonTest := by
  unfold Obligations.SelectsAndPoisonTest
  intro s d a b c X Y C lanesOk bitsOk
  refine ⟨fun hr => ⟨fun hok => ?vsel, fires_select (bitwise := false) (exec_vsel ..) hr⟩,
    fun hr => ⟨fun hok => ?vselB, fires_select (bitwise := true) (exec_vselB ..) hr⟩, vptst_shows_poison⟩
  case vsel => exact ⟨_, sends_select (bitwise := false) (exec_vsel ..) hr hok, fun j => lane_selReg_whole⟩
  case vselB => exact selReg_bitwise X.val Y.val C.val ▸ sends_select (bitwise := true) (exec_vselB ..) hr hok

end Sys2Proof.Proofs
end

section
/-! PROOFS. Array commands, which begin under power leave (R182 to R188, R192 to R194, R198, R215, R235). -/

namespace Sys2Proof.Proofs

open Sys2Proof Sys2Proof.Machine Sys2Proof.Claims

/-! ### Power leave (R198, R354) -/

section
variable {s k : State} {id : Nat} {size : BitVec 32} {f : Core → Core}

/-- A state that holds a leave from now on. -/
def holding (k : State) (id : Nat) (size : BitVec 32) : State :=
  k.onMe fun c => { c with leave := .none, grants := c.grants ++ [(id, size)] }

theorem holding_done : holding (s.done f) id size = withGrant s id size f := rfl

/-- The governor gives a leave of this size in the cycle in which it is asked (R354). -/
def LeaveNow (s : State) (size : BitVec 32) : Prop :=
  (s.die s.me.die).leaves = [] ∧ (s.die s.me.die).pwruse.toNat + size.toNat ≤ (s.die s.me.die).pwrbud.toNat

theorem withLeave_granted (h : s.me.leave = .granted) : s.withLeave id size k = holding k id size := by
  simp only [State.withLeave, h]
  rfl

theorem withLeave_now (h : s.me.leave = .none) (hnow : LeaveNow s size) : s.withLeave id size k =
    (holding k id size).onDie s.me.die fun d => { d with pwruse := d.pwruse + size } := by
  have hcond : (s.die s.me.die).leaves.isEmpty ∧
      (s.die s.me.die).pwruse.toNat + size.toNat ≤ (s.die s.me.die).pwrbud.toNat := by
    rwa [List.isEmpty_iff]
  simp only [State.withLeave, h, if_pos hcond]
  rfl

theorem withLeave_asks (h : s.me.leave = .none) (hnow : ¬ LeaveNow s size) : s.withLeave id size k =
    ((s.onMe fun c => { c with leave := .asked }).onDie s.me.die fun d =>
      { d with leaves := d.leaves ++ [(s.me.num, size)] }).stall .leave := by
  have hcond : ¬ ((s.die s.me.die).leaves.isEmpty ∧
      (s.die s.me.die).pwruse.toNat + size.toNat ≤ (s.die s.me.die).pwrbud.toNat) := by
    rwa [List.isEmpty_iff]
  simp only [State.withLeave, h, if_neg hcond]
  rfl

theorem withLeave_asked (h : s.me.leave = .asked) : s.withLeave id size k = s.stall .leave := by
  simp only [State.withLeave, h]

/-- A word whose own effect is `f` under power leave, in the four cases of its leave. -/
theorem actsWithLeave_of_exec {i : Instr} (h : exec i s = .next (s.withLeave id size (s.done f))) :
    ActsWithLeave i s id size f := by
  refine ⟨fun hl => ?granted, fun hl hnow => ?now, fun hl hnow => ?asks, fun hl => ?asked⟩
  case granted => rw [h, withLeave_granted hl, holding_done]
  case now => rw [h, withLeave_now hl hnow, holding_done]
  case asks => rw [h, withLeave_asks hl hnow]
  case asked => exact h.trans (congrArg _ (withLeave_asked hl))

end

/-! ### Array commands with clear sources -/

section
variable {s : State} {a b c : Reg} {cbf : Bool} {n : BitVec 4}

theorem mlds_begins (hr : Ready (.mlds a b c) s) (hc : Clear s [a, b, c]) (hok : wOk (val s c) = true)
    (hfits : wFits (val s c) (val s a).toNat (val s b).toNat = true) (hroom : s.me.arrayRoom 0 = true) :
    ActsWithLeave (.mlds a b c) s s.me.eng.nextId
      (Config.leave 0x05 (fdWidth (wFd (val s c))) (if fdWidth (wFd (val s c)) = 16 then 1 else 0) 0)
      fun k => k.startLoad (val s c) (val s a) (val s b) := by
  refine actsWithLeave_of_exec ((exec_of_ready (exec_mlds a b c s) hr).trans (congrArg _ ((unpoisoned_of_clear hc).trans ?_)))
  unfold val at hok hfits ⊢
  simp only [hok, hfits, hroom, Bool.not_true, Bool.false_eq_true, if_false]

theorem mmul_begins (hr : Ready (.mmul a b c cbf n) s) (hc : Clear s [a, b, c])
    (hmay : StreamMayIssue s true (val s a) (val s b) (val s c) (cbArg cbf n)) :
    ActsWithLeave (.mmul a b c cbf n) s s.me.eng.nextId (leaveOf 0x07 s (val s a) 0)
      fun k => k.startStream (val s a) (val s b) (val s c) (cbArg cbf n) none none := by
  refine actsWithLeave_of_exec ((exec_of_ready (exec_mmul a b c cbf n s) hr).trans (congrArg _ ((unpoisoned_of_clear hc).trans ?_)))
  unfold StreamMayIssue val at hmay
  simp only [hmay]
  rfl

theorem mmulc_begins (hr : Ready (.mmulc a b c cbf n) s) (hc : Clear s [a, b, c])
    (hmay : StreamMayIssue s (s.me.num % 4 == 0) (val s a) (val s b) (val s c) (cbArg cbf n)) :
    ActsWithLeave (.mmulc a b c cbf n) s s.me.eng.nextId (leaveOf 0x08 s (val s a) 0) fun k =>
      if s.me.num % 4 = 0 then k.startStream (val s a) (val s b) (val s c) (cbArg cbf n) none (some k.eng.arr.nchain)
      else k.startChained (val s a) (val s b) := by
  have hread : Clear s (if s.me.num % 4 == 0 then [a, b, c] else [a, b]) := by
    intro r hmem
    refine hc r ?_
    split at hmem
    · exact hmem
    · exact List.mem_of_mem_dropLast (l := [a, b, c]) hmem
  have hsources : (if s.me.num % 4 == 0 then [s.me.s a, s.me.s b, s.me.s c] else [s.me.s a, s.me.s b]) =
      (if s.me.num % 4 == 0 then [a, b, c] else [a, b]).map s.me.s := by
    split <;> rfl
  refine actsWithLeave_of_exec ((exec_of_ready (exec_mmulc a b c cbf n s) hr).trans
    (congrArg _ ((congrArg (s.unpoisoned · _) hsources).trans ((unpoisoned_of_clear hread).trans ?_))))
  unfold StreamMayIssue val at hmay
  simp only [hmay, beq_iff_eq]
  rfl

theorem mclr_clears (hr : Ready (.mclr a b) s) (hc : Clear s [a, b])
    (hfits : axBase (val s a) + 8 * (val s b).toNat + ((val s b).toNat + 3) / 4 ≤ BSpace.c.size)
    (hroom : s.me.arrayRoom 0 = true) :
    Acts (.mclr a b) s fun k =>
      (k.push (2 + ((val s b).toNat + 127) / 128) (.mclr k.eng.nextId (val s a).toNat (val s b).toNat)).fresh := by
  refine (exec_of_ready (exec_mclr a b s) hr).trans (congrArg _ ((unpoisoned_of_clear hc).trans ?_))
  unfold val at hfits ⊢
  simp only [if_neg (Nat.not_lt.mpr hfits), hroom, Bool.not_true, Bool.false_eq_true, if_false]

end

/-- Settles O26: each array command with what it requires, by what it begins under its leave. -/
theorem arrayCommandsBegin : Obligations.ArrayCommandsBegin := by
  unfold Obligations.ArrayCommandsBegin
  intro s a b c cbf n hc
  have hab : Clear s [a, b] := fun r hmem => hc r (List.mem_of_mem_dropLast (l := [a, b, c]) hmem)
  exact ⟨fun hr => mlds_begins hr hc, fun hr => mmul_begins hr hc, fun hr => mmulc_begins hr hc,
    fun hr => exec_of_ready (exec_mswap s) hr, fun hr => mclr_clears hr hab⟩

end Sys2Proof.Proofs
end

section
/-! PROOFS. Copies: their places and their length, and the queue they join (R197, R198, R200, R201, R212, R213). -/

namespace Sys2Proof.Proofs

open Sys2Proof Sys2Proof.Machine Sys2Proof.Claims

/-! ### Places (R212) -/

section
variable {s : State} {dst : Bool} {p : Place} {n : Nat} {k : Cause}

/-- What is wrong with a place is what the model finds. -/
theorem placeFault_of_bad (h : PlaceBad s dst p n k) : placeFault s.me dst p n = some k := by
  cases k with
  | perm =>
    obtain ⟨sp, o, rfl, hend | rfl⟩ | ⟨m, b, rfl, hb, rfl, hinC⟩ := h
    · simp [placeFault, hend]
    · cases dst <;> rfl
    · simp [placeFault, hb, hinC]
  | cberr =>
    obtain ⟨m, rfl, hb | ⟨b, hb, hside, hlen⟩⟩ := h
    · simp only [placeFault, hb]
    · simp only [placeFault, hb, hside, if_pos hlen]
      rfl
  | _ => exact h.elim

theorem placeFault_pastEnd {sp : Space} {o : Nat} (hat : p = .at sp o) (hend : spaceSize sp < o + n) :
    placeFault s.me dst p n = some .perm :=
  placeFault_of_bad (.inl ⟨sp, o, hat, .inl hend⟩)

end

/-! ### The queue (R213) -/

section
variable {s k : State}

theorem queueCopy_full (h : 16 ≤ s.me.eng.copies.length) : s.queueCopy k = s.stall .engine := if_pos h

theorem queueCopy_room (h : s.me.eng.copies.length < 16) : s.queueCopy k = k := if_neg (Nat.not_le.mpr h)

/-- A copy that is queued, or waits while the queue is full. -/
theorem queued_or_waits {i : Instr} {f : Core → Core} (h : exec i s = .next (s.queueCopy (s.done f))) :
    if 16 ≤ s.me.eng.copies.length then Waits i s .engine else Acts i s f := by
  split_ifs with hfull
  · exact h.trans (congrArg _ (queueCopy_full hfull))
  · exact h.trans (congrArg _ (queueCopy_room (Nat.not_le.mp hfull)))

end

/-! ### What R212 checks of a copy -/

/-- A copy of `n` bytes that does `k` where R212 admits its length and `fault`, what is wrong with its places, is nothing. -/
def admitted (s : State) (n : Nat) (fault : Option Cause) (k : State) : State :=
  if 2 ^ 24 ≤ n then s.raise .perm else fault.elim k s.raise

/-- What is wrong with the places of a copy between buffers, the destination first. -/
def placesFault (s : State) (p q : Place) (n : Nat) : Option Cause := (placeFault s.me true p n).or (placeFault s.me false q n)

section
variable {s k : State} {n : Nat} {p q : Place} {fault : Option Cause} {x : Cause}

theorem admitted_long (h : 2 ^ 24 ≤ n) : admitted s n fault k = s.raise .perm := if_pos h

theorem admitted_fault (h : n < 2 ^ 24) : admitted s n (some x) k = s.raise x := if_neg (Nat.not_le.mpr h)

theorem admitted_ok (h : n < 2 ^ 24) : admitted s n none k = k := if_neg (Nat.not_le.mpr h)

/-- A place whose fault is PERM raises PERM, whatever the length. -/
theorem admitted_perm : admitted s n (some .perm) k = s.raise .perm := ite_self _

theorem placesFault_dst (h : placeFault s.me true p n = some x) : placesFault s p q n = some x := by
  rw [placesFault, h, Option.some_or]

theorem placesFault_src (hdst : placeFault s.me true p n = none) : placesFault s p q n = placeFault s.me false q n := by
  rw [placesFault, hdst, Option.none_or]

end

/-! ### `cp` (R212) -/

section
variable {s : State} {a b c : Reg} {t : BitVec 6} {p q : Place}

theorem cp_noPlace (hr : Ready (.cp a b c t) s) (hc : Clear s [a, b, c])
    (h : bufPlace (val s a) = none ∨ bufPlace (val s b) = none) : Stops (.cp a b c t) s .illop := by
  refine (exec_of_ready (exec_cp a b c t s) hr).trans (congrArg _ ((unpoisoned_of_clear hc).trans ?_))
  unfold val at h
  split
  next hp hq => simp [hp, hq] at h
  next => rfl

/-- `cp` between two places joins the queue where R212 admits it. -/
theorem exec_cp_places (hr : Ready (.cp a b c t) s) (hc : Clear s [a, b, c]) (hp : bufPlace (val s a) = some p)
    (hq : bufPlace (val s b) = some q) : exec (.cp a b c t) s = .next (
      admitted s (val s c).toNat (placesFault s p q (val s c).toNat)
        (s.queueCopy (s.done fun k => k.addCopy 0x02 (.buf p) (.buf q) (val s c).toNat t []))) := by
  refine (exec_of_ready (exec_cp a b c t s) hr).trans (congrArg _ ((unpoisoned_of_clear hc).trans ?_))
  unfold val at hp hq ⊢
  simp only [hp, hq]
  refine if_congr Iff.rfl rfl ?_
  split
  next hdst => rw [placesFault_dst hdst, Option.elim_some]
  next hdst hsrc => rw [placesFault_src hdst, hsrc, Option.elim_some]
  next hdst hsrc => rw [placesFault_src hdst, hsrc, Option.elim_none]

/-! ### `cpg` (R201, R212) -/

theorem cpg_noPlace (hr : Ready (.cpg a b c t) s) (hc : Clear s [a, b, c])
    (h : bufPlace (val s a) = none ∨ globPlace (val s b) = none) : Stops (.cpg a b c t) s .illop := by
  refine (exec_of_ready (exec_cpg a b c t s) hr).trans (congrArg _ ((unpoisoned_of_clear hc).trans ?_))
  unfold val at h
  split
  next hp hq => simp [hp, hq] at h
  next => rfl

/-- `cpg` between a buffer and a global place joins the queue where R212 admits it. -/
theorem exec_cpg_places {out : Bool} {w : BitVec 3} {off : Nat} (hr : Ready (.cpg a b c t) s) (hc : Clear s [a, b, c])
    (hp : bufPlace (val s a) = some p) (hq : globPlace (val s b) = some (out, w, off)) : exec (.cpg a b c t) s = .next (
      admitted s (val s c).toNat (placeFault s.me (!out) p (val s c).toNat)
        (s.queueCopy (s.done fun k => k.addCopy 0x03 (if out then .glob w off else .buf p)
          (if out then .buf p else .glob w off) (val s c).toNat t []))) := by
  refine (exec_of_ready (exec_cpg a b c t s) hr).trans (congrArg _ ((unpoisoned_of_clear hc).trans ?_))
  unfold val at hp hq ⊢
  simp only [hp, hq]
  refine if_congr Iff.rfl rfl ?_
  cases placeFault s.me (!out) p (s.me.s c).val.toNat with
  | some x => rfl
  | none => cases out <;> rfl

/-! ### `cpm` (R197, R198) -/

theorem cpm_noPlace (hr : Ready (.cpm a b c t) s) (hc : Clear s [a, b, c])
    (h : bufPlace (val s a) = none ∨ bufPlace (val s b) = none) : Stops (.cpm a b c t) s .illop := by
  refine (exec_of_ready (exec_cpm a b c t s) hr).trans (congrArg _ ((unpoisoned_of_clear hc).trans ?_))
  unfold val at h
  split
  next hp hq => simp [hp, hq] at h
  next => rfl

/-- What a `cpm` does on its core: its copy is queued, and the stream `st` of its record `r` begins, gated by the copy (R197). -/
def copyWithStream (p q : Place) (t : BitVec 6) (r : List Byte) (st : W64 × W64 × W64 × Option (BitVec 4)) (k : Core) : Core :=
  (k.addCopy 0x04 (.buf p) (.buf q) (field r 0 8) t r).startStream st.1 st.2.1 st.2.2.1 st.2.2.2 (some k.eng.nextId) none

/-- A `cpm` whose copy R212 admits: the cause that stops its stream, or both queued under leave (R198). -/
def cpmBegins (s : State) (p q : Place) (t : BitVec 6) (r : List Byte) (st : W64 × W64 × W64 × Option (BitVec 4)) : State :=
  (streamFault s.me true st.1 st.2.1 st.2.2.1 st.2.2.2).elim
    (s.queueCopy (s.withLeave (s.me.eng.nextId + 1) (leaveOf 0x04 s st.1 (field r 0 8)) (s.done (copyWithStream p q t r st))))
    s.raiseArray

theorem cpmBegins_may {r : List Byte} {st : W64 × W64 × W64 × Option (BitVec 4)}
    (h : StreamMayIssue s true st.1 st.2.1 st.2.2.1 st.2.2.2) : cpmBegins s p q t r st =
      s.queueCopy (s.withLeave (s.me.eng.nextId + 1) (leaveOf 0x04 s st.1 (field r 0 8)) (s.done (copyWithStream p q t r st))) := by
  rw [cpmBegins, h, Option.elim_none]

theorem cpm_outside (hr : Ready (.cpm a b c t) s) (hc : Clear s [a, b, c]) (hp : bufPlace (val s a) = some p)
    (hq : bufPlace (val s b) = some q) (h : 4194304 < (val s c).toNat + 32) : Stops (.cpm a b c t) s .perm := by
  refine (exec_of_ready (exec_cpm a b c t s) hr).trans (congrArg _ ((unpoisoned_of_clear hc).trans ?_))
  unfold val at hp hq h
  simp only [hp, hq]
  exact if_pos h

/-- `cpm` with its record in A begins its stream where R212 admits its copy. -/
theorem exec_cpm_places {r : List Byte} (hr : Ready (.cpm a b c t) s) (hc : Clear s [a, b, c])
    (hp : bufPlace (val s a) = some p) (hq : bufPlace (val s b) = some q) (hin : (val s c).toNat + 32 ≤ 4194304)
    (hrecord : s.me.bytes .a (val s c).toNat 32 = r) : exec (.cpm a b c t) s = .next (
      admitted s (field r 0 8) (placesFault s p q (field r 0 8))
        ((cpmStream r).elim (s.raise .illop) (cpmBegins s p q t r))) := by
  refine (exec_of_ready (exec_cpm a b c t s) hr).trans (congrArg _ ((unpoisoned_of_clear hc).trans ?_))
  unfold val at hp hq hin hrecord
  simp only [hp, hq, hrecord]
  refine (if_neg (Nat.not_lt.mpr hin)).trans (if_congr Iff.rfl rfl ?_)
  split
  next hdst => rw [placesFault_dst hdst, Option.elim_some]
  next hdst hsrc => rw [placesFault_src hdst, hsrc, Option.elim_some]
  next hdst hsrc hstream => rw [placesFault_src hdst, hsrc, Option.elim_none, hstream, Option.elim_none]
  next st hdst hsrc hstream =>
    rw [placesFault_src hdst, hsrc, Option.elim_none, hstream, Option.elim_some, cpmBegins]
    cases streamFault s.me true st.1 st.2.1 st.2.2.1 st.2.2.2 <;> rfl

end

/-- Settles O25: each copy by its places, its length and the room of the queue. -/
theorem copiesAreQueued : Obligations.CopiesAreQueued := by
  unfold Obligations.CopiesAreQueued
  intro s a b c t hc
  dsimp only
  refine ⟨fun h => ⟨fun hr => cp_noPlace hr hc h, fun hr => cpm_noPlace hr hc h⟩, fun h hr => cpg_noPlace hr hc h,
    fun p q hp => ⟨fun hr hq => ?cp, fun out w off hr hq => ?cpg,
      fun hr hq => ⟨cpm_outside hr hc hp hq, fun hin => ?cpmStops⟩,
      fun st hr hq hin hm hdst hsrc hstream hmay => ?cpmBegins⟩⟩
  case cp =>
    have hexec := exec_cp_places hr hc hp hq
    refine ⟨fun hn hdst hsrc => queued_or_waits ?queued, fun hn => ?long, fun sp o hat hend => ?dstEnd,
      fun sp o hat hend hdst => ?srcEnd, fun hn k hbad => ?dst, fun hn k hdst hbad => ?src⟩
    case queued => rwa [placesFault_src hdst, hsrc, admitted_ok hn] at hexec
    case long => rwa [admitted_long hn] at hexec
    case dstEnd => rwa [placesFault_dst (placeFault_pastEnd hat hend), admitted_perm] at hexec
    case srcEnd => rwa [placesFault_src hdst, placeFault_pastEnd hat hend, admitted_perm] at hexec
    case dst => rwa [placesFault_dst (placeFault_of_bad hbad), admitted_fault hn] at hexec
    case src => rwa [placesFault_src hdst, placeFault_of_bad hbad, admitted_fault hn] at hexec
  case cpg =>
    have hexec := exec_cpg_places hr hc hp hq
    refine ⟨fun hn => ?long, fun hn k hbad => ?bad, fun hn hplace => queued_or_waits ?queued⟩
    case long => rwa [admitted_long hn] at hexec
    case bad => rwa [placeFault_of_bad hbad, admitted_fault hn] at hexec
    case queued => rwa [hplace, admitted_ok hn] at hexec
  case cpmStops =>
    have hexec := exec_cpm_places hr hc hp hq hin rfl
    refine ⟨fun hm => ?long, fun hm k hbad => ?dst, fun hm hdst => ⟨fun k hbad => ?src, fun hsrc hstream => ?record⟩⟩
    case long => rwa [admitted_long hm] at hexec
    case dst => rwa [placesFault_dst (placeFault_of_bad hbad), admitted_fault hm] at hexec
    case src => rwa [placesFault_src hdst, placeFault_of_bad hbad, admitted_fault hm] at hexec
    case record => rwa [placesFault_src hdst, hsrc, admitted_ok hm, hstream] at hexec
  case cpmBegins =>
    have hexec := exec_cpm_places hr hc hp hq hin rfl
    rw [placesFault_src hdst, hsrc, admitted_ok hm, hstream, Option.elim_some, cpmBegins_may hmay] at hexec
    exact ⟨fun hfull => hexec.trans (congrArg _ (queueCopy_full hfull)),
      fun hroom => actsWithLeave_of_exec (hexec.trans (congrArg _ (queueCopy_room hroom)))⟩

end Sys2Proof.Proofs
end

section
/-! PROOFS. Accesses past the end of their space (R205). -/

namespace Sys2Proof.Proofs

open Sys2Proof Sys2Proof.Machine Sys2Proof.Claims

section
variable {s : State} {sp : Space} {r b : Reg} {z : Size} {off : BitVec 10} {a l : Nat} {vec : Bool} {bs : List Byte}

theorem load_pastEnd (h : spaceSize sp < a + formBytes vec z) : s.load sp vec z r a l = s.raise .perm := if_pos h

theorem storeAt_pastEnd (h : spaceSize sp < a + bs.length) : s.storeAt sp a bs = s.raise .perm := if_pos h

/-- `vldb` reads a buffer of the tile: K is not well formed for it (R41). -/
theorem bufOf_of_vldb (hr : Ready (.vldb sp r b z off) s) : ∃ u, bufOf sp = some u := by
  have hwf := wf_of_ready hr
  cases sp with
  | k => cases hwf
  | a | w | c => exact ⟨_, rfl⟩

theorem vldb_pastEnd (hr : Ready (.vldb sp r b z off) s) (hc : Clear s [b])
    (h : spaceSize sp < bufAddr s b off (64 * sizeBytes z) (elemBytes z) + sizeBytes z) :
    Stops (.vldb sp r b z off) s .perm := by
  obtain ⟨u, hu⟩ := bufOf_of_vldb hr
  rw [spaceSize_of_bufOf hu] at h
  refine (exec_of_ready (exec_vldb ..) hr).trans (congrArg _ ((unpoisoned_of_clear hc).trans ?_))
  simp only [hu, mbAddr_eq, if_pos h]

end

/-- Settles O22: each access with clear sources, whose bytes reach past the end. -/
theorem accessesPastTheEndAreStopped : Obligations.AccessesPastTheEndAreStopped := by
  unfold Obligations.AccessesPastTheEndAreStopped
  intro s sp r b z off hc
  refine ⟨fun hr h => ?ld, fun hcr hr h => ?st, fun hr h => ?vld, fun hv hr h => ?vst, fun hr h => vldb_pastEnd hr hc h⟩
  case ld => exact (exec_ld_clear hr hc).trans (congrArg _ (load_pastEnd h))
  case st =>
    have hclear : Clear s [r, b] := List.forall_mem_cons.mpr ⟨hcr r (List.mem_singleton_self r), hc⟩
    exact (exec_st_clear hr hclear).trans (congrArg _ (storeAt_pastEnd (by rwa [length_leBytes])))
  case vld => exact (exec_vld_clear hr hc).trans (congrArg _ (load_pastEnd h))
  case vst => exact (exec_vst_clear hr hc hv).trans (congrArg _ (storeAt_pastEnd (by rwa [length_storeData])))

end Sys2Proof.Proofs
end

section
/-! PROOFS. Gathers and scatters by their lanes (R208). -/

namespace Sys2Proof.Proofs

open Sys2Proof Sys2Proof.Machine Sys2Proof.Claims

/-! ### Lanes (R208) -/

/-- The address of a lane is its base plus its index in elements, rounded down. -/
theorem laneAddr_eq (s : State) (b vi : Reg) (n j : Nat) :
    laneAddr (s.me.s b).val (s.me.v vi).val n j = idxAddr s b vi n j := by
  rw [laneAddr, idxAddr, BitVec.toNat_add, BitVec.toNat_ofNat, Nat.add_mod_mod, lane_toNat]
  rfl

section
variable {sp : BSpace} {base : W64} {idx : VReg} {data : Option VReg} {n j : Nat}

/-- A lane with a poisoned index is in error with the index's value. -/
theorem laneErr_poisoned (h : idx.poison.getLsbD j = true) :
    laneErr sp base idx data n j = some (.poison (BitVec.ofNat 64 (elem 32 idx.val.toNat j))) := if_pos h

/-- A lane whose index and data are clear is in error where its element passes the end of the buffer. -/
theorem laneErr_clear (hidx : idx.poison.getLsbD j = false) (hdata : ∀ v ∈ data, v.poison.getLsbD j = false) :
    laneErr sp base idx data n j = if sp.size < laneAddr base idx.val n j + n then some .perm else none := by
  cases data with
  | none => simp [laneErr, hidx]
  | some v => simp [laneErr, hidx, hdata v rfl]

end

section
variable {s : State} {u : BSpace} {b vi : Reg} {data : Option VReg} {n : Nat}
variable (hidx : (s.me.v vi).poison = 0) (hdata : ∀ v ∈ data, v.poison = 0)
include hidx hdata

/-- Registers without a poisoned lane: only addresses out of range are errors. -/
theorem laneErr_unpoisoned (j : Nat) : laneErr u (s.me.s b).val (s.me.v vi) data n j =
    if u.size < idxAddr s b vi n j + n then some .perm else none := by
  rw [laneErr_clear (by simp [hidx]) fun v hv => by simp [hdata v hv], laneAddr_eq]

theorem firstLaneErr_none (h : ∀ j < 64, idxAddr s b vi n j + n ≤ u.size) :
    firstLaneErr u (s.me.s b).val (s.me.v vi) data n = none := by
  refine List.findSome?_eq_none_iff.mpr fun j hj => ?_
  rw [laneErr_unpoisoned hidx hdata, if_neg (Nat.not_lt.mpr (h j (List.mem_range.mp hj)))]

theorem firstLaneErr_perm (h : ∃ j < 64, u.size < idxAddr s b vi n j + n) :
    firstLaneErr u (s.me.s b).val (s.me.v vi) data n = some .perm := by
  obtain ⟨j, hj, hout⟩ := h
  have hlane : laneErr u (s.me.s b).val (s.me.v vi) data n j = some .perm := by
    rw [laneErr_unpoisoned hidx hdata, if_pos hout]
  have hsome : (firstLaneErr u (s.me.s b).val (s.me.v vi) data n).isSome :=
    List.findSome?_isSome_iff.mpr ⟨j, List.mem_range.mpr hj, by rw [hlane]; rfl⟩
  obtain ⟨e, he⟩ := Option.isSome_iff_exists.mp hsome
  obtain ⟨k, -, hk⟩ := List.exists_of_findSome?_eq_some he
  rw [laneErr_unpoisoned hidx hdata] at hk
  split at hk <;> cases hk
  exact he

end

/-! ### The register that a gather writes (R208) -/

/-- The value and the poison of lane `j` of a gather on the executing core. -/
def gathered (s : State) (u : BSpace) (b vi : Reg) (n j : Nat) : Nat × Bool :=
  gatherLane s.me u (s.me.s b).val (s.me.v vi) n j

/-- The lanes of a gather as one register. -/
def gatherVal (s : State) (u : BSpace) (b vi : Reg) (n : Nat) : VWord :=
  ofLanes ((List.range 64).map fun j => (gathered s u b vi n j).1)

/-- The poisoned lanes of a gather. -/
def gatherMask (s : State) (u : BSpace) (b vi : Reg) (n : Nat) : BitVec 64 :=
  BitVec.ofNat 64 (bitsNat ((List.range 64).map fun j => (gathered s u b vi n j).2))

section
variable {s : State} {u : BSpace} {b vi : Reg} {n j : Nat}

theorem lane_gatherVal (hj : j < 64) : lane (gatherVal s u b vi n) j = BitVec.ofNat 32 (gathered s u b vi n j).1 :=
  lane_ofLanes_range _ hj

theorem getLsbD_gatherMask (hj : j < 64) : (gatherMask s u b vi n).getLsbD j = (gathered s u b vi n j).2 := by
  rw [gatherMask, BitVec.getLsbD_ofNat, getLsbD_bitsNat]
  simp [hj]

/-- A lane with a poisoned index passes the index's value on. -/
theorem gathered_poisoned (h : (s.me.v vi).poison.getLsbD j = true) :
    gathered s u b vi n j = ((lane (s.me.v vi).val j).toNat, true) := by
  have hfit : elem 32 (s.me.v vi).val.toNat j < 2 ^ 64 := by
    rw [← lane_toNat]
    exact (BitVec.isLt _).trans (by decide)
  simp only [gathered, gatherLane, laneErr_poisoned h, BitVec.toNat_ofNat, Nat.mod_eq_of_lt hfit, lane_toNat]

section
variable (h : (s.me.v vi).poison.getLsbD j = false)
include h

/-- A lane in range holds the element at its address. -/
theorem gathered_inside (hin : idxAddr s b vi n j + n ≤ u.size) :
    gathered s u b vi n j = (leNat (s.me.bytes u (idxAddr s b vi n j) n), false) := by
  rw [gathered, gatherLane, laneErr_clear h (by simp), laneAddr_eq, if_neg (Nat.not_lt.mpr hin)]

/-- A lane out of range passes the code of PERM on. -/
theorem gathered_outside (hout : u.size < idxAddr s b vi n j + n) : gathered s u b vi n j = (0x16, true) := by
  rw [gathered, gatherLane, laneErr_clear h (by simp), laneAddr_eq, if_pos hout]
  rfl

end

/-- Without poison and with every lane in range no lane of the result is poisoned. -/
theorem gatherMask_eq_zero (h : (s.me.v vi).poison = 0) (hin : ∀ j < 64, idxAddr s b vi n j + n ≤ u.size) :
    gatherMask s u b vi n = 0 := by
  refine BitVec.eq_of_getLsbD_eq fun j hj => ?_
  rw [getLsbD_gatherMask hj, gathered_inside (by simp [h]) (hin j hj)]
  simp

end

/-! ### The words -/

section
variable {s : State} {sp : Space} {u : BSpace} {r b vi : Reg} {z : Size} {g : Bool}

/-- `vgat` that no lane stops writes its lanes. -/
theorem vgat_acts (hu : bufOf sp = some u) (hc : Clear s [b]) (hr : Ready (.vgat sp r b z vi g) s)
    (h : (if g then none else firstLaneErr u (s.me.s b).val (s.me.v vi) none (sizeBytes z)) = none) :
    Acts (.vgat sp r b z vi g) s fun c =>
      (c.push 12 (.vreg r (gatherVal s u b vi (sizeBytes z)) (gatherMask s u b vi (sizeBytes z)) 0)).gather 4
        (leBytes 8 (val s b).toNat ++ leBytes 256 (s.me.v vi).val.toNat) := by
  refine (exec_of_ready (exec_vgat ..) hr).trans (congrArg _ ((unpoisoned_of_clear hc).trans ?_))
  simp only [hu, h]
  refine done_congr ?_
  simp only [gatherVal, gatherMask, gathered, bitsNat, List.map_map, Function.comp_def]
  rfl

/-- `vgat` stops on its first lane in error. -/
theorem vgat_stops (hu : bufOf sp = some u) (hc : Clear s [b]) (hr : Ready (.vgat sp r b z vi false) s)
    (h : firstLaneErr u (s.me.s b).val (s.me.v vi) none (sizeBytes z) = some .perm) :
    Stops (.vgat sp r b z vi false) s .perm := by
  refine (exec_of_ready (exec_vgat ..) hr).trans (congrArg _ ((unpoisoned_of_clear hc).trans ?_))
  simp [hu, h, State.laneStop]

/-- The bytes of a group of a scatter are those of its lanes. -/
theorem scatterGroup_eq (s : State) (b vi r : Reg) (n g : Nat) :
    scatterGroup (s.me.s b).val (s.me.v vi).val (s.me.v r).val n g = (List.range 16).flatMap fun k =>
      place (idxAddr s b vi n (16 * g + k)) (leBytes n (lane (s.me.v r).val (16 * g + k)).toNat) := by
  simp only [scatterGroup, laneAddr_eq, lane_toNat]

/-- `vsct` that no lane stops stores its four groups. -/
theorem vsct_acts (hu : bufOf sp = some u) (hc : Clear s [b]) (hr : Ready (.vsct sp r b z vi) s)
    (h : firstLaneErr u (s.me.s b).val (s.me.v vi) (some (s.me.v r)) (sizeBytes z) = none) :
    let w := scatterGroup (s.me.s b).val (s.me.v vi).val (s.me.v r).val (sizeBytes z)
    Acts (.vsct sp r b z vi) s fun c =>
      ((((c.push 3 (.bstore u (w 0) true)).push 6 (.bstore u (w 1) true)).push 9 (.bstore u (w 2) true)).push 12
        (.bstore u (w 3) true)).gather 5
          (leBytes 8 (val s b).toNat ++ leBytes 256 (s.me.v vi).val.toNat ++ leBytes 256 (s.me.v r).val.toNat) := by
  refine (exec_of_ready (exec_vsct ..) hr).trans (congrArg _ ((unpoisoned_of_clear hc).trans ?_))
  simp only [hu, h]
  rfl

/-- `vsct` stops on its first lane in error. -/
theorem vsct_stops (hu : bufOf sp = some u) (hc : Clear s [b]) (hr : Ready (.vsct sp r b z vi) s)
    (h : firstLaneErr u (s.me.s b).val (s.me.v vi) (some (s.me.v r)) (sizeBytes z) = some .perm) :
    Stops (.vsct sp r b z vi) s .perm := by
  refine (exec_of_ready (exec_vsct ..) hr).trans (congrArg _ ((unpoisoned_of_clear hc).trans ?_))
  simp only [hu, h, State.laneStop]

end

/-- Settles O23: the gather and the scatter by the errors of their lanes. -/
theorem gatherAndScatterByLanes : Obligations.GatherAndScatterByLanes := by
  unfold Obligations.GatherAndScatterByLanes
  intro s sp u r b vi z hu hc
  have hscatter (hv : VClear s [vi, r]) : (s.me.v vi).poison = 0 ∧ ∀ v ∈ some (s.me.v r), v.poison = 0 :=
    ⟨hv vi (by simp), fun v hmem => Option.mem_some.mp hmem ▸ hv r (by simp)⟩
  refine ⟨fun hv g hr hin => ?gather, fun hv hr hin => ?scatter, fun hv hr hout => ?gatherPerm, fun hv hr hout => ?scatterPerm,
    fun hr => ⟨_, _, vgat_acts hu hc hr rfl, fun j hj => ?passes⟩⟩
  case gather =>
    have hidx : (s.me.v vi).poison = 0 := hv vi (List.mem_singleton_self vi)
    have hacts := vgat_acts (g := g) hu hc hr (by rw [firstLaneErr_none hidx (by simp) hin, ite_self])
    rw [gatherMask_eq_zero hidx hin] at hacts
    refine ⟨_, hacts, fun j hj => ?_⟩
    rw [lane_gatherVal hj, gathered_inside (by simp [hidx]) (hin j hj)]
  case scatter =>
    obtain ⟨hidx, hdata⟩ := hscatter hv
    simpa only [scatterGroup_eq] using vsct_acts hu hc hr (firstLaneErr_none hidx hdata hin)
  case gatherPerm =>
    have hidx : (s.me.v vi).poison = 0 := hv vi (List.mem_singleton_self vi)
    exact vgat_stops hu hc hr (firstLaneErr_perm hidx (by simp) hout)
  case scatterPerm =>
    obtain ⟨hidx, hdata⟩ := hscatter hv
    exact vsct_stops hu hc hr (firstLaneErr_perm hidx hdata hout)
  case passes =>
    rw [getLsbD_gatherMask hj, lane_gatherVal hj]
    dsimp only
    split_ifs with hpoison hin
    · rw [gathered_poisoned hpoison]
      exact ⟨rfl, BitVec.ofNat_toNat _ _⟩
    · rw [gathered_inside (by simpa using hpoison) hin]
      exact ⟨rfl, rfl⟩
    · rw [gathered_outside (by simpa using hpoison) (Nat.not_le.mp hin)]
      exact ⟨rfl, rfl⟩

end Sys2Proof.Proofs
end

section
/-! PROOFS. Circular buffers: their definition and their pointers (R210, R211). -/

namespace Sys2Proof.Proofs

open Sys2Proof Sys2Proof.Machine Sys2Proof.Claims

/-! ### The definition (R210) -/

/-- What R210 admits as base, size and element size of circular buffer `n`, which nothing uses. -/
def CbAdmitted (c : Core) (inC : Bool) (n : BitVec 4) (base size elem : Nat) : Prop :=
  base % 128 = 0 ∧ 0 < size ∧ 0 < elem ∧ elem ≤ 65536 ∧ elem ∣ size ∧
    base + size ≤ (if inC then 1048576 else 4194304) ∧ c.cbBusy n = false

theorem not_cbAdmitted_iff {c : Core} {inC : Bool} {n : BitVec 4} {base size elem : Nat} :
    ¬ CbAdmitted c inC n base size elem ↔ base % 128 ≠ 0 ∨ size = 0 ∨ elem = 0 ∨ 65536 < elem ∨ size % elem ≠ 0 ∨
      (if inC then BSpace.c else BSpace.a).size < base + size ∨ c.cbBusy n = true := by
  have hspace : (if inC then BSpace.c else BSpace.a).size = if inC then 1048576 else 4194304 := by cases inC <;> rfl
  simp only [CbAdmitted, hspace, not_and_or, Nat.not_lt, Nat.not_le, Nat.le_zero, Nat.dvd_iff_mod_eq_zero,
    Bool.not_eq_false, ne_eq]

section
variable {s : State} {a b c : Reg} {n : BitVec 4} {inC : Bool} (hc : Clear s [a, b, c]) (hr : Ready (.cbdef a b c inC n) s)
include hc hr

/-- `cbdef` sets what R210 admits, empty. -/
theorem cbdef_defines (h : CbAdmitted s.me inC n (val s a).toNat (val s b).toNat (val s c).toNat) :
    Acts (.cbdef a b c inC n) s fun k =>
      ((k.setCb n (some { inC := inC, base := (val s a).toNat, size := (val s b).toNat, elem := (val s c).toNat
                          prod := 0, cons := 0 })).push 1 (.cbptr n false 0)).push 1 (.cbptr n true 0) :=
  (exec_of_ready (exec_cbdef ..) hr).trans (congrArg _ ((unpoisoned_of_clear hc).trans
    (if_neg (mt not_cbAdmitted_iff.mpr (not_not.mpr h)))))

theorem cbdef_stops (h : ¬ CbAdmitted s.me inC n (val s a).toNat (val s b).toNat (val s c).toNat) :
    Stops (.cbdef a b c inC n) s .cberr :=
  (exec_of_ready (exec_cbdef ..) hr).trans (congrArg _ ((unpoisoned_of_clear hc).trans (if_pos (not_cbAdmitted_iff.mp h))))

end

/-! ### The pointers (R211) -/

section
variable {s : State} {i : Instr} {a : Reg} {n : BitVec 4} {d : Cb} {k : Cb → Nat → State} (hc : Clear s [a])
include hc

/-- A count of elements up to the size moves a pointer by as many bytes. -/
theorem cbadv_within (hd : s.me.cb n = some d) (hm : (val s a).toNat ≤ d.size / d.elem) :
    s.cbadv a n k = k d ((val s a).toNat * d.elem) := by
  refine (unpoisoned_of_clear hc).trans ?_
  unfold val at hm ⊢
  simp only [hd, if_neg (Nat.not_lt.mpr hm)]

/-- An undefined circular buffer, or a count above its size, is CBERR. -/
theorem cbadv_cberr (h : s.me.cb n = none ∨ ∃ d : Cb, s.me.cb n = some d ∧ d.size / d.elem < (val s a).toNat) :
    s.cbadv a n k = s.raise .cberr := by
  refine (unpoisoned_of_clear hc).trans ?_
  obtain hnone | ⟨d, hd, hm⟩ := h
  · simp only [hnone]
  · unfold val at hm
    simp only [hd, if_pos hm]

theorem cbadv_stops (h : s.me.cb n = none ∨ ∃ d : Cb, s.me.cb n = some d ∧ d.size / d.elem < (val s a).toNat)
    (hi : exec i s = issue i s (s.cbadv a n k)) (hr : Ready i s) : Stops i s .cberr :=
  (exec_of_ready hi hr).trans (congrArg _ (cbadv_cberr hc h))

/-- A count of elements up to the size: the word does `g` where the bytes `y` it needs are within the `x` there are, else `f`. -/
theorem cbadv_moves {f g : Cb → Nat → State} {x y : Cb → Nat → Nat} (hd : s.me.cb n = some d)
    (hm : (val s a).toNat ≤ d.size / d.elem)
    (hi : exec i s = issue i s (s.cbadv a n fun b m => if x b m < y b m then f b m else g b m)) (hr : Ready i s) :
    let m := (val s a).toNat * d.elem
    if y d m ≤ x d m then exec i s = .next (g d m) else exec i s = .next (f d m) := by
  have hexec := (exec_of_ready hi hr).trans (congrArg _ (cbadv_within hc hd hm))
  dsimp only
  split_ifs with h
  · exact hexec.trans (congrArg _ (if_neg (Nat.not_lt.mpr h)))
  · exact hexec.trans (congrArg _ (if_pos (Nat.not_le.mp h)))

end

/-- Settles O24: `cbdef` by the conditions of R210, each form of `cbadv` by the bytes or the room it needs. -/
theorem circularBuffersDefineAndAdvance : Obligations.CircularBuffersDefineAndAdvance := by
  unfold Obligations.CircularBuffersDefineAndAdvance
  intro s a b c n habc
  have hc : Clear s [a] := fun r hmem => habc r (by simp at hmem ⊢; exact .inl hmem)
  refine ⟨fun inC hr => ⟨cbdef_defines habc hr, cbdef_stops habc hr⟩, fun d hd hm => ⟨?_, ?_, ?_, ?_⟩,
    fun h => ⟨?_, ?_, ?_, ?_⟩⟩
  · exact cbadv_moves hc hd hm (exec_cbadvP a n s)
  · exact cbadv_moves hc hd hm (exec_cbadvC a n s)
  · exact cbadv_moves hc hd hm (exec_cbadvPW a n s)
  · exact cbadv_moves hc hd hm (exec_cbadvCW a n s)
  · exact cbadv_stops hc h (exec_cbadvP a n s)
  · exact cbadv_stops hc h (exec_cbadvC a n s)
  · exact cbadv_stops hc h (exec_cbadvPW a n s)
  · exact cbadv_stops hc h (exec_cbadvCW a n s)

end Sys2Proof.Proofs
end

section
/-! PROOFS. Fences, drains and triggers (R227, R229 to R231, R267, R277). -/

namespace Sys2Proof.Proofs

open Sys2Proof Sys2Proof.Machine Sys2Proof.Claims

/-- A word that does `f` once a condition holds, and waits with cause SYNC before. -/
theorem acts_or_waits {i : Instr} {s : State} {f : Core → Core} {b : Bool} {p : Prop}
    (hi : exec i s = issue i s (if b then s.done f else s.stall .sync)) (hb : b = true ↔ p) (hr : Ready i s) :
    (p → Acts i s f) ∧ (¬ p → Waits i s .sync) := by
  have hexec := exec_of_ready hi hr
  exact ⟨fun hp => hexec.trans (congrArg _ (if_pos (hb.mpr hp))), fun hp => hexec.trans (congrArg _ (if_neg (mt hb.mp hp)))⟩

/-- Settles O33: the fences and the drain by what they cover, the trigger by what it does. -/
theorem fencesDrainsAndTriggers : Obligations.FencesDrainsAndTriggers := by
  unfold Obligations.FencesDrainsAndTriggers
  intro s sc
  exact ⟨acts_or_waits (exec_drain sc s) (drained_iff s s.me), acts_or_waits (exec_fenceAcq sc s) (loadsHere_iff s.me),
    acts_or_waits (exec_fenceRel sc s) (ordered_iff s s.me), acts_or_waits (exec_fenceSc sc s) (ordered_iff s s.me),
    exec_of_ready (exec_trig s)⟩

end Sys2Proof.Proofs
end

section
/-! PROOFS. Collectives: their record, their group and its carriers (R232, R325). -/

namespace Sys2Proof.Proofs

open Sys2Proof Sys2Proof.Machine Sys2Proof.Claims

/-! ### The group of a record (R325) -/

section
variable {s : State} {x : Nat}

/-- The group's number stands at +4 of the record. -/
theorem groupNumber_eq (s : State) (x : Nat) : field (s.me.bytes .a x 64) 4 4 = num s .a (x + 4) 4 :=
  congrArg leNat (bytes_part _ _ (by decide))

theorem collGroup_none (h : ∀ g ∈ s.cgroups, g.num.toNat ≠ num s .a (x + 4) 4) :
    s.collGroup (s.me.bytes .a x 64) = none := by
  refine List.find?_eq_none.mpr fun g hg => ?_
  rw [groupNumber_eq, beq_iff_eq]
  exact h g hg

/-- A rank is carried in this module, or by its port group in the personality that reaches it. -/
theorem carrierOk_iff (s : State) (w : W64) (need : BitVec 2) : s.carrierOk w need = true ↔
    w.toNat / 2 ^ 30 % 1024 = Config.accel.toNat ∨ (let x := s.group (w.toNat / 2 ^ 43 % 32)
      x.carries = true ∧ (x.pers = 2 ∨ x.pers = 3) ∧ (need = 2 ∨ need = 3 → x.pers = need)) := by
  unfold State.carrierOk
  dsimp only
  rw [Bool.or_eq_true, beq_iff_eq, Bool.and_eq_true]
  refine or_congr Iff.rfl (and_congr Iff.rfl ?_)
  split_ifs with h
  · rw [beq_iff_eq]
    exact ⟨fun hp => ⟨hp ▸ h, fun _ => hp⟩, fun hp => hp.2 h⟩
  · rw [Bool.or_eq_true, beq_iff_eq, beq_iff_eq]
    exact ⟨fun hp => ⟨hp, fun hn => absurd hn h⟩, And.left⟩

theorem carried_iff (s : State) (g : CGroup) : s.carried g = true ↔
    ∀ (k : Nat) (w : W64), g.entries[k]? = some w → s.carrierOk w (g.need.getD k 0) = true := by
  simp only [State.carried, List.all_eq_true, Prod.forall, List.mem_zipIdx_iff_getElem?]
  exact forall_comm

end

/-! ### The word -/

/-- What `coll` does once its record is legal: the group that its record names decides. -/
def collBegins (s : State) (r : List Byte) : State :=
  match s.collGroup r with
  | none => s.raise .perm
  | some g =>
    if !(g.entries.any fun w => isSelf s.me w) then s.raise .perm
    else if 16 ≤ s.me.eng.colls.length ∨ !s.carried g then s.stall .engine
    else s.done fun c => c.onEng fun e => { e with
      nextId := e.nextId + 1
      colls := e.colls ++ [{ id := e.nextId, record := r, steps := 0, fl := 0, gone := false, told := false }] }

section
variable {s : State} {a : Reg} {r : List Byte} {g : CGroup}

/-- `coll` with a clear source. -/
theorem exec_coll_clear (hr : Ready (.coll a) s) (hc : Clear s [a]) : exec (.coll a) s = .next (
    let x := (val s a).toNat / 64 * 64
    if 4194304 < x + 64 then s.raise .perm
    else if !collOk (s.me.bytes .a x 64) then s.raise .illop else collBegins s (s.me.bytes .a x 64)) :=
  (exec_of_ready (exec_coll a s) hr).trans (congrArg _ (unpoisoned_of_clear hc))

theorem collBegins_noGroup (h : s.collGroup r = none) : collBegins s r = s.raise .perm := by
  rw [collBegins, h]

theorem collBegins_foreign (h : s.collGroup r = some g) (hself : ∀ w ∈ g.entries, isSelf s.me w = false) :
    collBegins s r = s.raise .perm := by
  have hany : (g.entries.any fun w => isSelf s.me w) = false := by simpa using hself
  simp [collBegins, h, hany]

theorem collBegins_member (h : s.collGroup r = some g) (hself : ∃ w ∈ g.entries, isSelf s.me w = true) :
    collBegins s r = if s.me.eng.colls.length < 16 ∧ s.carried g = true then
      s.done fun c => c.onEng fun e => { e with
        nextId := e.nextId + 1
        colls := e.colls ++ [{ id := e.nextId, record := r, steps := 0, fl := 0, gone := false, told := false }] }
      else s.stall .engine := by
  have hany : (g.entries.any fun w => isSelf s.me w) = true := by simpa using hself
  have hwaits : (16 ≤ s.me.eng.colls.length ∨ (!s.carried g) = true) ↔
      ¬ (s.me.eng.colls.length < 16 ∧ s.carried g = true) := by
    rw [not_and_or, Nat.not_lt, Bool.not_eq_true, Bool.not_eq_true']
  simp only [collBegins, h, hany, Bool.not_true, Bool.false_eq_true, if_false, if_congr hwaits rfl rfl, ite_not]

end

/-- Settles O34: the record by its place and its fields, the group by its number, its members and its carriers. -/
theorem collectivesBegin : Obligations.CollectivesBegin := by
  unfold Obligations.CollectivesBegin
  intro s a hr hc
  have hexec := exec_coll_clear hr hc
  have hlegal (hx : (val s a).toNat / 64 * 64 + 64 ≤ 4194304)
      (hok : collOk (s.me.bytes .a ((val s a).toNat / 64 * 64) 64) = true) :
      exec (.coll a) s = .next (collBegins s (s.me.bytes .a ((val s a).toNat / 64 * 64) 64)) := by
    rw [hexec]
    simp only [if_neg (Nat.not_lt.mpr hx), hok, Bool.not_true, Bool.false_eq_true, if_false]
  refine ⟨fun hx => ?pastEnd, fun hx hok => ?illegal, fun hx hok hnone => ?noGroup, fun g hx hok hg hself => ?foreign,
    fun g hx hok hg hself => ?member, fun g => ?carried⟩
  case pastEnd => exact hexec.trans (congrArg _ (if_pos hx))
  case illegal =>
    refine hexec.trans (congrArg _ ?_)
    simp only [if_neg (Nat.not_lt.mpr hx), hok, Bool.not_false, if_true]
  case noGroup => exact (hlegal hx hok).trans (congrArg _ (collBegins_noGroup (collGroup_none hnone)))
  case foreign => exact (hlegal hx hok).trans (congrArg _ (collBegins_foreign hg hself))
  case member =>
    have hmember := (hlegal hx hok).trans (congrArg _ (collBegins_member hg hself))
    split_ifs with hroom
    · exact hmember.trans (congrArg _ (if_pos hroom))
    · exact hmember.trans (congrArg _ (if_neg hroom))
  case carried => simp only [carried_iff, carrierOk_iff]

end Sys2Proof.Proofs
end

section
/-! PROOFS. `xrd` and `xwr`: their shape, their room, their window, and the transfer they begin (R220, R251 to R253). -/

namespace Sys2Proof.Proofs

open Sys2Proof Sys2Proof.Machine Sys2Proof.Claims

/-! ### Tiles, windows, offsets (R202, R219, R220) -/

section
variable {s : State}

theorem seqPeer_isNone_iff {t : Nat} : (s.seqPeer t).isNone = true ↔ ¬ ∃ k, Mine s t k := by
  simp only [Option.isNone_iff_eq_none, Option.eq_none_iff_forall_ne_some, ne_eq, seqPeer_eq_some_iff, not_exists]

/-- A window admits the bursts of a transfer where they have a virtual address. -/
theorem seqWindow_iff (w : Window) (off n : Nat) : seqWindow w off n = true ↔ ∃ va, Within w off (128 * n) va := by
  unfold seqWindow windowVa
  split_ifs with h
  · obtain ⟨hlimit, hin, hspace⟩ := h
    exact iff_of_true rfl ⟨_, hlimit, hin, hspace, rfl⟩
  · exact iff_of_false Bool.false_ne_true fun ⟨_, hlimit, hin, hspace, _⟩ => h ⟨hlimit, hin, hspace⟩

theorem maOff_eq (m : BitVec 54) : maOff m = m.toNat % 2 ^ 51 / 128 * 128 := by
  rw [maOff, BitVec.extractLsb'_toNat, Nat.shiftRight_zero]

/-! ### The order of causes (R220; DEDUCED log 17) -/

/-- The transfer `x` begins, where its window admits it. -/
def windowed (s : State) (x : Xfer) : State :=
  if !seqWindow (s.seqTile.win x.win) x.off x.len then s.seqFault .window else s.seqBegin x

theorem windowed_begins {x : Xfer} (h : ∃ va, Within ((s.core s.slotNow.tile).win x.win) x.off (128 * x.len) va) :
    windowed s x = begins s x := by
  have hwin : seqWindow (s.seqTile.win x.win) x.off x.len = true := (seqWindow_iff ..).mpr h
  rw [windowed, hwin]
  rfl

theorem windowed_stops {x : Xfer} (h : ¬ ∃ va, Within ((s.core s.slotNow.tile).win x.win) x.off (128 * x.len) va) :
    windowed s x = s.seqFault .window := by
  have hwin : seqWindow (s.seqTile.win x.win) x.off x.len = false :=
    Bool.eq_false_iff.mpr (mt (seqWindow_iff ..).mp h)
  rw [windowed, hwin]
  rfl

end

/-! ### Shape and room (R219, R220, R252, R253) -/

/-- Lengths and descriptors that the layouts of `xrd` allow (R252, R253). -/
def Shaped (layout : BitVec 2) (v : BitVec 54) (n : Nat) : Prop :=
  (layout = 1 → n % 32 = 0) ∧ (layout = 3 → n % 64 = 0) ∧ (layout = 2 → rbOk v n = true)

/-- An `xrd` has its bytes in a buffer that it may write, and its tiles in the program's partition (R219, R220). -/
def ReadRoom (s : State) (space : BitVec 2) (tiles : List Nat) (boff span : Nat) : Prop :=
  space ≠ 2 ∧ 128 * boff + span ≤ (codeSpace space).size ∧ ∀ t ∈ tiles, ∃ k, Mine s t k

/-- An `xwr` has its bytes in a buffer that it may read (R220). -/
def WriteRoom (space : BitVec 2) (boff span : Nat) : Prop := space ≠ 1 ∧ 128 * boff + span ≤ (codeSpace space).size

section
variable {s : State} {space layout : BitVec 2} {v : BitVec 54} {n boff span : Nat} {tiles : List Nat}

theorem not_shaped_iff : ¬ Shaped layout v n ↔
    layout = 1 ∧ n % 32 ≠ 0 ∨ layout = 3 ∧ n % 64 ≠ 0 ∨ layout = 2 ∧ (!rbOk v n) = true := by
  simp only [Shaped, not_and_or, Classical.not_imp, ne_eq, Bool.not_eq_true', Bool.not_eq_true]

theorem not_readRoom_iff : ¬ ReadRoom s space tiles boff span ↔
    space = 2 ∨ tiles.any (fun t => (s.seqPeer t).isNone) = true ∨ (seqSpace space).size < 128 * boff + span := by
  have htiles : tiles.any (fun t => (s.seqPeer t).isNone) = true ↔ ¬ ∀ t ∈ tiles, ∃ k, Mine s t k := by
    simp only [List.any_eq_true, seqPeer_isNone_iff, not_forall, exists_prop]
  rw [htiles, ReadRoom, not_and_or, not_and_or, not_not, Nat.not_le, or_comm (a := _ < _)]
  rfl

theorem not_writeRoom_iff : ¬ WriteRoom space boff span ↔ space = 1 ∨ (seqSpace space).size < 128 * boff + span := by
  rw [WriteRoom, not_and_or, not_not, Nat.not_le]
  rfl

end

/-! ### The words -/

section
variable (s : State) (r : BitVec 4) (space layout : BitVec 2) (tag : BitVec 6) (len : BitVec 16) (boff : BitVec 15)

/-- A transfer of the slot's word between `cores` and the place that its address register names. -/
def slotXfer (out : Bool) (cores : List Nat) (desc : BitVec 54) : Xfer :=
  let p := s.slotNow
  let m := p.ma[r.toNat]
  { id := 0, prog := p.num, slot := s.turnAt.2, write := out, tag := tag, cores := cores, space := space, boff := boff.toNat
    len := len.toNat, layout := layout, desc := desc, win := m.extractLsb' 51 3, off := m.toNat % 2 ^ 51 / 128 * 128
    owner := p.tile, key := p.key, first := p.first, word := p.pc, done := 0, stale := false, way := .home, got := []
    out := none, fl := 0 }

/-- The descriptor register of a re-block (R253). -/
def rbReg : BitVec 54 := s.slotNow.ms[15]

/-- The tiles that an `xrd` selects. -/
def selected (sel : BitVec 3) : List Nat := maskTiles (s.slotNow.mm[sel.toNat])

section
variable (sel : BitVec 3)

/-- `xrd` by its shape, its room and its window, in this order. -/
theorem exec_xrd_windowed : exec (.xrd r space layout tag len boff sel) s = .next (
    if layout = 1 ∧ len.toNat % 32 ≠ 0 ∨ layout = 3 ∧ len.toNat % 64 ≠ 0 ∨ layout = 2 ∧ !rbOk (rbReg s) len.toNat then
      s.seqFault .illop
    else if space = 2 ∨ (selected s sel).any (fun t => (s.seqPeer t).isNone) ∨
        (seqSpace space).size < 128 * boff.toNat + seqSpan layout (rbReg s) len.toNat then s.seqFault .perm
    else windowed s (slotXfer s r space layout tag len boff false ((selected s sel).map fun t => 32 * s.turnAt.1 + t)
      (rbReg s))) := by
  rw [exec_xrd, execXrd, maOff_eq]
  rfl

theorem xrd_misshapen (h : ¬ Shaped layout (rbReg s) len.toNat) : SeqStops (.xrd r space layout tag len boff sel) s .illop :=
  seqStops_of_exec ((exec_xrd_windowed ..).trans (congrArg _ (if_pos (not_shaped_iff.mp h))))

section
variable (hshape : Shaped layout (rbReg s) len.toNat)
include hshape

theorem xrd_noRoom (h : ¬ ReadRoom s space (selected s sel) boff.toNat (seqSpan layout (rbReg s) len.toNat)) :
    SeqStops (.xrd r space layout tag len boff sel) s .perm := by
  refine seqStops_of_exec ((exec_xrd_windowed ..).trans (congrArg _ ?_))
  rw [if_neg (mt not_shaped_iff.mpr (not_not.mpr hshape)), if_pos (not_readRoom_iff.mp h)]

/-- `xrd` of a legal shape with room: its window decides. -/
theorem exec_xrd_room (h : ReadRoom s space (selected s sel) boff.toNat (seqSpan layout (rbReg s) len.toNat)) :
    exec (.xrd r space layout tag len boff sel) s = .next (windowed s (slotXfer s r space layout tag len boff false
      ((selected s sel).map fun t => 32 * s.turnAt.1 + t) (rbReg s))) := by
  refine (exec_xrd_windowed ..).trans (congrArg _ ?_)
  rw [if_neg (mt not_shaped_iff.mpr (not_not.mpr hshape)), if_neg (mt not_readRoom_iff.mpr (not_not.mpr h))]

end

end

section
variable (sel : BitVec 5)

theorem xwr_foreign (h : ¬ ∃ k, Mine s sel.toNat k) : SeqStops (.xwr r space tag len boff sel) s .perm :=
  seqStops_of_exec (by rw [exec_xwr, execXwr, seqPeer_eq_none h])

variable {k : Nat} (hk : Mine s sel.toNat k)
include hk

/-- `xwr` on a tile of the program's partition, by its room and its window. -/
theorem exec_xwr_windowed : exec (.xwr r space tag len boff sel) s = .next (
    if space = 1 ∨ (seqSpace space).size < 128 * boff.toNat + 128 * len.toNat then s.seqFault .perm
    else windowed s (slotXfer s r space 0 tag len boff true [k] 0)) := by
  rw [exec_xwr, execXwr, seqPeer_eq_some_iff.mpr hk, maOff_eq]
  rfl

theorem xwr_noRoom (h : ¬ WriteRoom space boff.toNat (128 * len.toNat)) : SeqStops (.xwr r space tag len boff sel) s .perm :=
  seqStops_of_exec ((exec_xwr_windowed s r space tag len boff sel hk).trans (congrArg _ (if_pos (not_writeRoom_iff.mp h))))

/-- `xwr` with room: its window decides. -/
theorem exec_xwr_room (h : WriteRoom space boff.toNat (128 * len.toNat)) : exec (.xwr r space tag len boff sel) s = .next (
    windowed s (slotXfer s r space 0 tag len boff true [k] 0)) :=
  (exec_xwr_windowed s r space tag len boff sel hk).trans
    (congrArg _ (if_neg (mt not_writeRoom_iff.mpr (not_not.mpr h))))

end

end

/-- Settles O43: both words by the first cause that holds, or the transfer that begins. -/
theorem sequencerTransfersBegin : Obligations.SequencerTransfersBegin := by
  unfold Obligations.SequencerTransfersBegin
  intro s r space layout tag len boff
  refine ⟨fun sel => ⟨xrd_misshapen s r space layout tag len boff sel, xrd_noRoom s r space layout tag len boff sel,
      fun hshape hroom hwin => ?window, fun hshape hroom hwin => ?begins⟩,
    fun sel => ⟨xwr_foreign s r space tag len boff sel, fun k hk => ⟨xwr_noRoom s r space tag len boff sel hk,
      fun hroom hwin => ?windowWrite, fun hroom hwin => ?beginsWrite⟩⟩⟩
  case window =>
    have hexec := exec_xrd_room s r space layout tag len boff sel hshape hroom
    exact seqStops_of_exec (hexec.trans (congrArg _ (windowed_stops hwin)))
  case begins =>
    have hexec := exec_xrd_room s r space layout tag len boff sel hshape hroom
    exact hexec.trans (congrArg _ (windowed_begins hwin))
  case windowWrite =>
    have hexec := exec_xwr_room s r space tag len boff sel hk hroom
    exact seqStops_of_exec (hexec.trans (congrArg _ (windowed_stops hwin)))
  case beginsWrite =>
    have hexec := exec_xwr_room s r space tag len boff sel hk hroom
    exact hexec.trans (congrArg _ (windowed_begins hwin))

end Sys2Proof.Proofs
end
